-- ==== Sys2Proof/Word.lean ====
section
/-! DEFINITION. The words of the OZM-6440: bytes, granules of a link frame, and the sparse memories that hold what
differs from a memory's content after reset. -/

namespace Sys2Proof

/-- A byte of a PDU or of a memory. -/
abbrev Byte := BitVec 8

/-- A granule: 16 bytes of a link frame, byte 0 in bits 127:120 (R13, R263). -/
abbrev Granule := BitVec 128

/-- An edition number; editions compare inside a window (R64). -/
abbrev Edition := BitVec 16

/-- A sparse memory or register file: (address, value) pairs. What an unlisted address reads as is given where it
is read (`Machine/Store.lean` holds the operations and the canonical form). -/
abbrev Store (α : Type) := List (Nat × α)

end Sys2Proof
end

