-- ==== Sys2Proof/Syntax.lean ====
section
/-! DEFINITION. The commands of the block: one constructor of `Instr` per row of spec/opcode_table.json, and the types
of their operands (log 6 says which operands the model gives the rows). -/

namespace Sys2Proof

/-- A link frame: its first granule and the granules after it (R263, R264). -/
structure Frame where
  hdr : Granule
  body : List Granule
  deriving DecidableEq, Repr

/-- Whoever issues a catalogue access (R321): a dictionary-bus node or the port its CAT frames arrive on. -/
inductive Master where
  | bus (node : BitVec 8)
  | port (p : Fin 32)
  deriving DecidableEq, Repr

/-- A Plovier PDU as it reaches the device: the master that sent it, the fields of its identifier (R332, R340) and
its bytes, TAG included and padding left out (R333). -/
structure Pdu where
  master : Master
  prio : BitVec 3
  service : BitVec 5
  src : BitVec 8
  dst : BitVec 8
  seq : BitVec 5
  bytes : List Byte
  deriving DecidableEq, Repr

/-- The memories of UNCORR_FOUND (R494), 0x01 to 0x0F. -/
inductive MemKind where
  | side | shadow | trieNode | trieAnswer | pfxRecord | hashCell | emSlot | stamp | ads | count | carrel | secure
  | daybook | mgmt | hub
  deriving DecidableEq, Repr

/-- A memory word: the memory, its table or die number where it has one, and the word's index. -/
structure MemWord where
  kind : MemKind
  unit : Nat
  index : Nat
  deriving DecidableEq, Repr

/-- A symbol of a codeword in error: its logical lane and its place among the 68 symbols on that lane (R257). -/
structure SymbolError where
  lane : Fin 8
  place : Fin 68
  deriving DecidableEq, Repr

/-- A received link block (R263, R266): the symbols found in error in each codeword that carries a part of it or of its
trailer, its 80 slots after decoding, and its trailer. -/
structure LinkBlock where
  codewords : List (List SymbolError)
  slots : List Granule
  trailer : BitVec 40
  deriving DecidableEq, Repr

/-- Where a received frame lies (R263, R267): the slot of its header in its first link block, and the blocks in which it
has a granule. Blocks that are not given are good, and mark its header. -/
structure Arrival where
  slot : Fin 80
  blocks : List LinkBlock
  deriving DecidableEq, Repr

/-- What a port's training has found (R258 to R260): the step it has come to, 5 once all of step 4 is done; the logical lane
that each physical RX lane carries, the lanes with precoding and with inverted polarity, and the skew in picoseconds. -/
structure Alignment where
  reached : Fin 6
  laneOf : List (Fin 8)
  precoding : BitVec 8
  inverted : BitVec 8
  skew : Nat
  deriving DecidableEq, Repr

/-- An image of a prefix table: its hash image, or its trie image (R135). -/
structure PfxImage where
  table : Fin 256
  hash : Bool
  deriving DecidableEq, Repr

/-- What a maintenance access finds in the row it reads (R443, R446): bits of the atom that have flipped, an uncorrectable
shadow word, an uncorrectable side word, or on the units above the bays an uncorrectable record or slot, and whether a
rewrite of the atom fails to take. -/
structure RowFinding where
  flip : BitVec 160
  shadowBad : Bool
  sideBad : Bool
  stuck : Bool
  deriving DecidableEq, Repr

/-- What the accesses to a die before its release find (R456): bits of atoms that have flipped, by the key of their row, the rows
in which a rewrite of the atom fails to take, and the uncorrectable words. -/
structure DieFinding where
  flips : List (Nat × BitVec 160)
  stuck : List Nat
  uncorr : List MemWord
  deriving DecidableEq, Repr

/-- The outcome of a shelf-reading test of a region (R441, R442): it passes, passes after rows were replaced, or is
beyond repair after the redundant rows named were tried. -/
inductive SrOutcome where
  | pass
  | repaired (rows : List Nat)
  | beyond (rows : List Nat)
  deriving DecidableEq, Repr

/-- Readings of the region monitors (R453): core rails in mV and junction temperatures in m°C of regions 0-4, the
drift of each crossing FIFO in 1/256 SCLK cycle with its two regions. -/
structure RegionReading where
  rails : List Int
  tj : List Int
  drift : List (Nat × Nat × Int)
  deriving DecidableEq, Repr

/-- One configuration write that the firmware applies in step 7 of a start (R397): index, sub-index and value. -/
structure CfgWrite where
  index : BitVec 16
  sub : BitVec 8
  value : Nat
  deriving DecidableEq, Repr

/-- The flash that an attempt meets (R402): what its SFDP gives, its density in Mbit, the quad reads, erases and 4-byte-address
instructions it offers, the dummy cycles of its read, whether a read of it fails, and the DETAIL that tells what is wrong. -/
structure FlashPart where
  sfdp : Bool
  mbit : Nat
  read144 : Bool
  read114 : Bool
  erase4k : Bool
  erase64k : Bool
  fourByte : Bool
  dummies : Nat
  readFails : Bool
  detail : BitVec 16
  deriving DecidableEq, Repr

/-- What an attempt meets outside the device: the flash (R402), whether mirror writes fail (R413), the bays BIST finds beyond
repair (R447), the configuration the firmware applies in step 7 (R397), and the vault words that hold an uncorrectable error
at the vault check and after it (R425, R428). -/
structure BootInput where
  flash : FlashPart
  mirrorFail : Bool
  failedBays : List (Fin 68)
  config : List CfgWrite
  vaultUncorr : List (Fin 512)
  vaultLater : List (Fin 512)
  deriving DecidableEq, Repr

/-- The strap inputs NODE_ID[7:0] and CLUSTER_POS[3:0] (R479). -/
structure Straps where
  nodeId : BitVec 8
  clusterPos : BitVec 4
  deriving DecidableEq, Repr

/-- The supplies (R464). -/
inductive Supply where
  | vin | vio
  deriving DecidableEq, Repr

/-- The wake causes of the management core (R27). -/
inductive WakeCause where
  | firmwareObject | pdu | daybookRecord | timer
  deriving DecidableEq, Repr

/-- The boundary-test instructions that take the balls from the core (R488). -/
inductive BoundaryTest where
  | extest | clamp | highz | extestPulse | extestTrain
  deriving DecidableEq, Repr

/-- A TCK cycle of the test port: the levels of TMS and TDI (R486). -/
structure TapClock where
  tms : Bool
  tdi : Bool
  deriving DecidableEq, Repr

/-- TCK cycles of the test port, and what an attempt that they begin meets (R486, R488). -/
structure TapRun where
  clocks : List TapClock
  boot : BootInput
  deriving DecidableEq, Repr

/-- Why a CAN frame is discarded (R327, R333). -/
inductive CanDiscard where
  | classical | remote | baseId | deviceService
  deriving DecidableEq, Repr

/-- The commands, one per row of spec/opcode_table.json, in the table's order. -/
inductive Instr where
  | search (port : Fin 32) (frame : Frame)
  | programStage (port : Fin 32) (tag : BitVec 8) (uncorr : List MemWord) (stray : List (Fin 68))
  | result (port : Fin 32)
  | tableFrame (port : Fin 32) (frame : Frame)
  | tblCmd (m : Master) (room : Fin 16) (value : BitVec 32)
  | insert
  | write
  | read
  | delete
  | move
  | scan
  | alloc
  | free
  | advance
  | edAdvance (m : Master) (room : Fin 16) (expect : BitVec 16)
  | editionFloor (room : Fin 16)
  | maintSlot (unit : Fin 76) (found : RowFinding)
  | clampPassEnd
  | pfxSettle (table : Fin 256)
  | buildTrie (m : Master) (table : Fin 256)
  | buildHash (m : Master) (table : Fin 256)
  | trie (m : Master) (table : Fin 256)
  | hash (m : Master) (table : Fin 256)
  | pfxBuildDone (image : PfxImage)
  | pfxBuildFail (image : PfxImage) (bank : Bool) (slice : Fin 4)
  | bankTestRequest (slice : Fin 4) (level : Fin 12)
  | bankTest (slice : Fin 4) (level : Fin 12) (result : Fin 3)
  | copyFillDone (table : Fin 256)
  | learn (port : Fin 32) (frame : Frame)
  | learnApply (slice : Fin 4)
  | emNowTick
  | emTick (m : Master) (value : BitVec 16)
  | emLfsrSeed (m : Master) (value : BitVec 32)
  | stampSweep (slot : BitVec 23) (uncorr : Bool)
  | releaseWaitEnd (block : BitVec 22)
  | poolProbeSel (m : Master) (pool : Fin 64) (block : BitVec 32)
  | mem (port : Fin 32) (frame : Frame) (uncorr : List MemWord)
  | carData (m : Master) (room : Fin 16) (value : BitVec 64)
  | carClear (m : Master) (room : Fin 16) (value : BitVec 32)
  | carClearDone (room : Fin 16)
  | accession (m : Master) (value : BitVec 32)
  | accessionSwitch
  | accDiscard (m : Master) (value : BitVec 16)
  | registerWrite (m : Master) (index : BitVec 16) (sub : BitVec 8) (value : List Byte)
  | reductionSwitch
  | reductionSecondSwitch
  | linkBringUp (port : Fin 32)
  | linkFail (port : Fin 32)
  | linkRestart (port : Fin 32)
  | hello (port : Fin 32) (frame : Frame)
  | idle (port : Fin 32) (frame : Frame)
  | linkDown (port : Fin 32) (lane : Fin 8)
  | uncorrWindow (port : Fin 32) (codewords : List (List SymbolError))
  | retrain (m : Master) (port : Fin 32) (value : BitVec 32)
  | frameReceive (port : Fin 32) (frame : Frame) (place : Arrival)
  | linkDrop (port : Fin 32)
  | slotFill (port : Fin 32)
  | candidate (port : Fin 32) (frame : Frame)
  | fence (port : Fin 32) (frame : Frame)
  | memberSend (port : Fin 32) (tag : BitVec 8)
  | collectorClose (port : Fin 32) (tag : BitVec 8)
  | mergedSend (port : Fin 32) (tag : BitVec 8)
  | ownerClose (port : Fin 32) (tag : BitVec 8)
  | casOrphan
  | readReq (pdu : Pdu)
  | writeReq (pdu : Pdu)
  | segInit (pdu : Pdu)
  | segData (pdu : Pdu)
  | segAck (pdu : Pdu)
  | timeout (m : Master)
  | mbxReq (pdu : Pdu)
  | abort (pdu : Pdu)
  | sleepReq (pdu : Pdu)
  | openSession (pdu : Pdu)
  | prove (pdu : Pdu)
  | close (pdu : Pdu)
  | sessionIdle (session : Fin 48)
  | dbusNodeClash
  | nodeClashClear
  | dbusBusoff
  | busoffRecovery
  | heartbeat
  | eventPdu
  | eventFrame (port : Fin 32)
  | dbusSleep
  | deviceWake
  | busWake
  | busActive
  | postedDone (index : BitVec 16)
  | mbxSel (m : Master) (value : BitVec 32)
  | mbxSnapshot (m : Master)
  | mbxContextRelease (ctx : Fin 16)
  | dbAck (m : Master) (ring : Fin 17) (value : BitVec 16)
  | dbCodeCfg (m : Master) (value : BitVec 8)
  | porn (lowNs : Nat)
  | pornRelease (straps : Straps) (boot : BootInput)
  | sysrstn (lowNs : Nat)
  | sysrstnRelease (boot : BootInput)
  | internalRestart (boot : BootInput)
  | startComplete
  | fwTimeout
  | provReq (m : Master) (value : BitVec 8)
  | provBuildDone
  | fwUpdTarget (m : Master) (value : BitVec 8)
  | fwEraseDone (ok : Bool)
  | fwUpdImage (m : Master) (last : List Byte) (flashOk : Bool) (mirrorFail : Bool)
  | fwPolicy (m : Master) (value : BitVec 8)
  | lcReq (m : Master) (value : BitVec 8)
  | lcFuseDone (blown : Bool)
  | keyLoad (m : Master) (value : List Byte)
  | vaultData (m : Master) (value : BitVec 32)
  | tamperCauseChange (source : Fin 5) (present : Bool)
  | tamperCfg (m : Master) (value : BitVec 16)
  | vaonRise
  | vaonLoss
  | aclkQualified
  | srRegionStart (outcome : SrOutcome) (uncorr : List MemWord)
  | bayRebuilt (spareFails : Bool)
  | bayFence
  | bayRetest (bay : Fin 68) (pass : Bool)
  | regionSample (r : RegionReading)
  | release (m : Master) (region : Fin 5) (value : BitVec 32)
  | regionRelease (die : Fin 4) (found : DieFinding)
  | wearSample (region : Fin 5) (shift : BitVec 16)
  | thermalSample (tj : List Int)
  | mgmtWait
  | mgmtWake (cause : WakeCause)
  | supplyLoss (supply : Supply)
  | extest (test : BoundaryTest)
  | tapExit (run : TapRun)
  | trstn (boot : BootInput)
  | linkAligned (port : Fin 32) (lanes : Alignment) (rxLat txLat : Fin 3)
  | supplyRise (supply : Supply) (straps : Straps) (boot : BootInput)
  | fwFault (cause : BitVec 16)
  | fwAbort (code : BitVec 16)
  | bistFail (die : Fin 5) (block : BitVec 12)
  | pllLockFail (region : Fin 5)
  | canFrameDiscard (kind : CanDiscard)
  | badPdu (pdu : Pdu)
  | protocolException
  | protocolExceptionEnd
  | canError (tec rec : BitVec 16)
  | dbusRateSwitch
  deriving DecidableEq, Repr

end Sys2Proof
end

