-- ==== Sys2Proof/Decode.lean ====
section
/-! DEFINITION. Words that spell a command: none, since no row of spec/opcode_table.json has bits. -/

namespace Sys2Proof

/-- The command that a word spells by the table's bits: none. -/
def decodeTableWord (_nbits _w : Nat) : Option Instr := none

end Sys2Proof
end

