-- ==== Sys2Proof/Config.lean ====
section
/-! DEFINITION. What an implementation fixes and the spec leaves open: free values without a body, and the constants
of the part that the spec states as figures. -/

namespace Sys2Proof.Config

/-- A number the spec bounds but does not fix; the argument is the free-value counter of the state (log 7). -/
opaque freeNat : Nat → Nat

/-- A choice the spec leaves to the device, such as a reset pulse between 1 µs and 3 µs (R478; log 16). -/
opaque freeBool : Nat → Bool

/-- The fresh 16-byte NONCE of a session (R324), by the free-value counter (log 7). -/
opaque nonce : Nat → List Byte

/-- The ECDSA signature of a provenance report (R408): its nonce is not stated, so its 96 bytes are free (log 7). -/
opaque reportSignature : Nat → List Byte → List Byte

/-- The DER bytes of the alias certificate for the alias key scalar (R407): layout not stated (log 7). -/
opaque aliasCert : Nat → List (List Byte) → List Byte

/-- The device-identity certificate issued at test (R407; log 7). -/
opaque deviceCert : List Byte

/-- The 48-byte unique device secret in OTP (R407; log 7). -/
opaque uds : List Byte

/-- The contents of the boot ROM, measured into PR0 (R405; log 7). -/
opaque bootRom : List Byte

/-- The firmware's estimate of remaining life in months (R457), from the wear shifts (log 7). -/
opaque wearLife : List Nat → Nat

/-- ID_STEPPING of the part (R382; log 7). -/
opaque stepping : BitVec 16

/-- The manufacturer identity of IDCODE, given in the BSDL file (R487; log 7). -/
opaque manufacturer : BitVec 11

/-- ID_SERIAL of the part (R382; log 7). -/
opaque serial : BitVec 128

/-- The bytes of a configuration write that the firmware measures into PR4 (R405): index, sub-index, value (log 7). -/
opaque configBytes : Nat → Nat → Nat → List Byte

/-- What the firmware extends PR5 to PR7 with (R405), by the measurement of its image, the register and the free-value counter
(log 7). -/
opaque firmwareMeasure : List Byte → Nat → Nat → List (List Byte)

/-- The instruction of the test port that the BSDL file gives a code: 0 IDCODE, 1 SAMPLE/PRELOAD, 2 to 6 the boundary tests, others
none (R486; log 7). -/
opaque tapInstr : BitVec 8 → Nat

/-- The length of the boundary register, given in the BSDL file (R486; log 7). -/
opaque boundaryCells : Nat

/-- SOURCE of a daybook record whose raising block the spec does not tell (R364), by its code (log 21). -/
opaque recordSource : Nat → BitVec 8

/-- SCLK cycles in a microsecond, a millisecond and a second at 2.5 GHz (R4, R11). -/
abbrev usec : Nat := 2500
abbrev msec : Nat := 2500000
abbrev sec : Nat := 2500000000

end Sys2Proof.Config
end

