-- ==== Sys2Proof/Machine/Bits.lean ====
section
/-! DEFINITION. Bit fields, packing and byte order (R12, R13, R227). -/

namespace Sys2Proof.Machine

/-- Bits `hi:lo` of a number (R12). -/
def bits (x hi lo : Nat) : Nat := x / 2 ^ lo % 2 ^ (hi + 1 - lo)

/-- Bits `hi:lo` of a word (R12). -/
def fld {n : Nat} (x : BitVec n) (hi lo : Nat) : Nat := bits x.toNat hi lo

/-- Bit `i` of a number. -/
def nbit (x i : Nat) : Bool := x / 2 ^ i % 2 == 1

/-- 1 for true. -/
def b2n (b : Bool) : Nat := if b then 1 else 0

/-- Packs (width, value) fields from the highest downward; each value is cut to its width. -/
def pack (fs : List (Nat × Nat)) : Nat := fs.foldl (fun acc f => acc * 2 ^ f.1 + f.2 % 2 ^ f.1) 0

/-- A granule from its fields, bit 127 first. -/
def granule (fs : List (Nat × Nat)) : Granule := BitVec.ofNat 128 (pack fs)

/-- The `n` bytes of a number, least significant first. -/
def bytesLE : Nat → Nat → List Byte
  | 0, _ => []
  | n + 1, x => BitVec.ofNat 8 x :: bytesLE n (x / 256)

/-- The number whose bytes, least significant first, are given. -/
def ofBytesLE : List Byte → Nat
  | [] => 0
  | b :: t => b.toNat + 256 * ofBytesLE t

/-- The `n` bytes of a number, most significant first (OCT images, R318; frames, R13). -/
def bytesBE (n x : Nat) : List Byte := (bytesLE n x).reverse

/-- The number whose bytes, most significant first, are given. -/
def ofBytesBE (l : List Byte) : Nat := ofBytesLE l.reverse

/-- The 16 bytes of a granule in transmission order (R13). -/
def granuleBytes (g : Granule) : List Byte := bytesBE 16 g.toNat

/-- A granule from up to 16 bytes in transmission order, the rest 0. -/
def granuleOf (l : List Byte) : Granule := BitVec.ofNat 128 (ofBytesBE ((l ++ List.replicate 16 0).take 16))

/-- Bytes cut into granules, the last one padded with 0. -/
def granulesOf : Nat → List Byte → List Granule
  | 0, _ => []
  | n + 1, l => granuleOf (l.take 16) :: granulesOf n (l.drop 16)

/-- ⌈a / b⌉. -/
def cdiv (a b : Nat) : Nat := (a + b - 1) / b

/-- Adds to a counter of `w` bits that wraps. -/
def wrapAdd (w x n : Nat) : Nat := (x + n) % 2 ^ w

/-- The members of a bit set below `n`, ascending. -/
def setBits (n x : Nat) : List Nat := (List.range n).filter fun i => nbit x i

/-- The bit set of a list of members. -/
def maskOf (l : List Nat) : Nat := l.foldl (fun a i => a ||| 2 ^ i) 0

/-- Number of set bits below `n`. -/
def popcount (n x : Nat) : Nat := (setBits n x).length

/-- `a` at or before `b` in the 16,384-edition window (R64). -/
def edLe (a b : Edition) : Bool := decide ((b - a).toNat < 16384)

/-- The CRC-32 of R266 over bytes. -/
def crcStep (c : Nat) : Nat → Nat
  | 0 => c
  | n + 1 => crcStep (if c % 2 = 1 then (c / 2) ^^^ 0xEDB88320 else c / 2) n

def frameCrc (l : List Byte) : Nat :=
  (l.foldl (fun c b => crcStep (c ^^^ b.toNat) 8) 0xFFFFFFFF) ^^^ 0xFFFFFFFF

/-- Replaces the elements of a list that satisfy `p`. -/
def lset {α : Type} (p : α → Bool) (f : α → α) (l : List α) : List α := l.map fun x => if p x then f x else x

/-- Removes the first element that satisfies `p`. -/
def eraseFirst {α : Type} (p : α → Bool) : List α → List α
  | [] => []
  | x :: t => if p x then t else x :: eraseFirst p t

/-- Adds a member to a list without repeats. -/
def insertNew {α : Type} [DecidableEq α] (x : α) (l : List α) : List α := if x ∈ l then l else l ++ [x]

end Sys2Proof.Machine
end

