-- ==== Sys2Proof/Machine/State.lean ====
section
/-! DEFINITION. The state of the OZM-6440 as plain data: every register, queue, memory, mode and pin that the spec gives
the block, the queue of waiting commands, and the state right after reset. INVENTORY.md lists each piece with its rule. -/

namespace Sys2Proof.Machine

/-- Reasons for a stop of the machine. No rule of the spec stops it, so there is no constructor: every command ends in a
next state (safe: nothing is ever excused by a stop). -/
inductive Fault where
  deriving DecidableEq, Repr

/-- Reasons for a command without a meaning. -/
inductive Refusal where
  /-- The command of this mnemonic has no meaning in the model yet; raised by its arm of `exec` alone (safe: the
  model claims nothing about it). -/
  | notModelled (mnemonic : String)
  deriving DecidableEq, Repr

/-! ### Daybook (R363 to R374) -/

/-- A daybook record without its SEQ, which is its place in the ring (R364). -/
structure Rec where
  time : BitVec 64
  code : BitVec 16
  source : BitVec 8
  room : BitVec 4
  roomv : Bool
  cls : BitVec 2
  dir : BitVec 2
  detail : BitVec 143
  deriving DecidableEq, Repr

/-- A ring: the unacknowledged records from RSEQ on, the number dropped since the last DB_OVERFLOW with the TIME of
the first and the last, and the cycle in which the newest record leaves the merge queue (R365 to R367; log 20). `late` holds
the records that no slot waits for, each with the cycle in which it is dropped unless an acknowledgement comes first (R376). -/
structure Ring where
  rseq : BitVec 16
  recs : List Rec
  dropped : Nat
  firstDrop : Nat
  lastDrop : Nat
  placed : Nat
  late : List (Nat × Rec)
  deriving DecidableEq, Repr

/-- A record waiting to be pushed, with its ring and SEQ (R372, R373). -/
structure Push where
  ring : Nat
  seq : BitVec 16
  item : Rec
  deriving DecidableEq, Repr

/-! ### Catalogue (R317 to R362) -/

/-- The part of the state that a shadowed value takes effect through (R33): what an instruction keeps from its
acceptance. -/
structure View where
  force : Store Nat
  bayMap : Store Nat
  deriving DecidableEq, Repr

/-- A session (R324 to R326). `level` is 0 until PROVE succeeds; `askLevel` and `askRoom` are those of its OPEN. -/
structure Session where
  isOpen : Bool
  node : BitVec 8
  proved : Bool
  askLevel : Nat
  askRoom : Nat
  keyNo : Nat
  nonce : List Byte
  sk : List Byte
  cnt : BitVec 32
  lastUse : Nat
  macFails : Nat
  deriving DecidableEq, Repr

/-- A segmented transfer (R335): `since` the cycle of its last segment or ACK, `last` the segments since the last ACK (64
once the last segment of a firmware image has come), `req` the last PDU of its master in it. -/
structure Transfer where
  master : Master
  download : Bool
  index : Nat
  sub : Nat
  size : Nat
  next : Nat
  since : Nat
  data : List Byte
  last : Nat
  req : Pdu
  deriving DecidableEq, Repr

/-- The last request with a TAG that a master had accepted, with the response that was sent, if any (R326). -/
structure LastReq where
  master : Master
  ident : Nat
  body : List Byte
  tag : List Byte
  at_ : Nat
  rsp : List Pdu
  deriving DecidableEq, Repr

/-- A mailbox context (R360, R361). `holder` is the bus node of contexts 32 to 47. -/
structure Mailbox where
  holder : Nat
  lastUse : Nat
  busy : Bool
  sel : Nat
  valid : Bool
  code : Nat
  words : List (BitVec 32)
  deriving DecidableEq, Repr

/-- A provenance context (R381, R409); `since` is the cycle in which its build started. -/
structure Prov where
  busy : Bool
  code : Nat
  len : Nat
  report : List Byte
  nonce : List Byte
  since : Nat
  deriving DecidableEq, Repr

/-- A posted write in progress and the block state it reports through (R347, R348): 0 none, else the value waiting. -/
structure Block where
  busy : Bool
  code : Nat
  sub : Nat
  value : Nat
  addr : Nat
  deriving DecidableEq, Repr

/-- An accession between its checks and its switch cycle (R354): `staged` are the staged values it takes, and `cluster`
says that CLUSTER is among them (R307). -/
structure Accession where
  busy : Bool
  code : Nat
  groups : BitVec 16
  switchAt : Nat
  mid : Nat
  values : Store Nat
  staged : Store Nat
  cluster : Bool
  restore : List Nat
  rota : Bool
  lastSwitch : Nat
  deriving DecidableEq, Repr

/-- A write that the catalogue arbiter has decided (R320): the object, the master, the abort code, the value, the cycle, and
the value before it, none where nothing was staged (R345); `ran`: it was the one performed, whatever its own checks then said. -/
structure Access where
  key : Nat
  master : Master
  code : Nat
  value : List Byte
  cycle : Nat
  old : Option Nat
  ran : Bool
  deriving DecidableEq, Repr

/-- The catalogue's registers and contexts; `outstanding` holds a master's requests with the cycle in which the response
of each is queued (R334). -/
structure Cat where
  force : Store Nat
  staged : Store Nat
  regs : Store Nat
  ctx : Store Nat
  sessions : Store Session
  failedProve : List (Master × Nat)
  lastReqs : List LastReq
  transfers : List Transfer
  outstanding : List (Master × Nat)
  mailboxes : Store Mailbox
  provs : Store Prov
  provQueue : List Nat
  blocks : Store Block
  acc : Accession
  last : Option Access
  writes : List Access
  deriving DecidableEq, Repr

/-! ### Device, start-up and vault (R397 to R438, R464 to R488) -/

/-- DEV_STATE (R383). -/
inductive Phase where
  | starting | running | minimal
  deriving DecidableEq, Repr

/-- States of the TAP controller (R486: IEEE 1149.1). -/
inductive TapState where
  | reset | idle | selectDr | captureDr | shiftDr | exit1Dr | pauseDr | exit2Dr | updateDr
  | selectIr | captureIr | shiftIr | exit1Ir | pauseIr | exit2Ir | updateIr
  deriving DecidableEq, Repr

/-- Instructions of the test port (R486). -/
inductive TapInstr where
  | bypass | idcode | sample
  | test (t : BoundaryTest)
  deriving DecidableEq, Repr

/-- The test port (R486): the controller's state, the instruction in force, the shift register of the scan under way, the bit that
leaves first at its head, and the update stage of the boundary register. -/
structure Tap where
  st : TapState
  instr : TapInstr
  sr : List Bool
  cells : List Bool
  deriving DecidableEq, Repr

/-- Pins, supplies and resets; `boundary`: a boundary-test instruction holds the device in reset (R488). -/
structure Dev where
  porn : Bool
  sysrstn : Bool
  boundary : Bool
  tap : Tap
  vin : Bool
  vio : Bool
  vaon : Bool
  phase : Phase
  started : Bool
  straps : Straps
  sampled : Bool
  mclk : Bool
  lastWake : Option Nat
  causes : BitVec 32
  diesUp : Bool
  deriving DecidableEq, Repr

/-- The start attempt in progress or last made (R397 to R412). `waiting`: it stands at step 2 until ACLK runs in its band (R476);
`readyAt` is the cycle in which step 6 ended, or the attempt before that (R409); `slots` are the two slots taken from the mirror,
which stand for those of a vault without supply (R413). -/
structure Attempt where
  active : Bool
  begun : Nat
  cause : Nat
  image : Bool
  preferred : Bool
  fails : Nat
  policy : Bool
  fromMirror : Bool
  prevReason : Nat
  slot : Nat
  seq : BitVec 16
  step : Nat
  complete : Bool
  ended : Bool
  imageRun : Bool
  restartDue : Option Nat
  mirrorFail : Bool
  imgTag : List Byte
  waiting : Option BootInput
  readyAt : Nat
  slots : List (List Byte)
  deriving DecidableEq, Repr

/-- One-time programmable fields (R328, R329, R395, R402, R429, R475). -/
structure Otp where
  bootLimit : Nat
  wired : Bool
  nominal : Nat
  data : Nat
  spiDiv : Nat
  aclkInput : Bool
  fuses : BitVec 4
  config : List Byte
  deriving DecidableEq, Repr

/-- The firmware flash (R403, R413): two image regions as bytes and the mirror's entries, oldest first. -/
structure Flash where
  a : Store Byte
  b : Store Byte
  mirror : List (List Byte)
  deriving DecidableEq, Repr

/-- The firmware-update engine (R417). -/
structure FwUpd where
  busy : Bool
  erasing : Bool
  code : Nat
  ready : Bool
  target : Bool
  received : Nat
  deriving DecidableEq, Repr

/-- How the device reads the flash (R402): the divisor k of the SPI clock, 1-4-4 or else 1-1-4 reads, their dummy cycles, and the
addresses: of 3 bytes, of 4 through instructions of their own, or of 4 in 4-byte mode (0 to 2). -/
structure SpiMode where
  div : Nat
  quad144 : Bool
  dummies : Nat
  address : Nat
  deriving DecidableEq, Repr

/-- The last write of a start-record slot: the slot, the cycle, its bytes before, and whether a power loss may come before it
begins (R412, R420). -/
structure SlotWrite where
  slot : Nat
  cycle : Nat
  old : List Byte
  late : Bool
  deriving DecidableEq, Repr

/-- Start-up state as a whole. -/
structure Boot where
  attempt : Attempt
  otp : Otp
  flash : Flash
  upd : FwUpd
  prs : List (List Byte)
  aliasCert : List Byte
  version : List Byte
  active : Bool
  spi : Option SpiMode
  writing : Option SlotWrite
  deriving DecidableEq, Repr

/-- The vault domain (R421 to R438); `lastStep` is the step that an interrupted attempt had reached (R410; log 58). -/
structure Vault where
  words : Store Nat
  intact : Bool
  vclock : BitVec 48
  vclockAt : Nat
  tamperCnt : BitVec 32
  latchCount : Nat
  latchSource : Nat
  latchTime : BitVec 48
  cfg : BitVec 16
  cause : BitVec 5
  clockMasked : Bool
  uncorr : List Nat
  debug : Bool
  lcTarget : Option Nat
  lastStep : Nat
  deriving DecidableEq, Repr

/-! ### Ternary bays, prefix engine, exact-match engine -/

/-- One maintenance operation of a running ternary command on a row of a logical bay (R184): the atom and the side
word it writes, if any. -/
structure RowOp where
  lbay : Nat
  mat : Nat
  row : Nat
  atom : Option (BitVec 160)
  side : Option (BitVec 96)
  deriving DecidableEq, Repr

/-- A rebuild onto a spare (R448): steps 1 to 3 done when `ready`, switched at `switch`. -/
structure Rebuild where
  failed : Nat
  spare : Nat
  lbay : Nat
  detected : Nat
  switchAt : Nat
  switched : Bool
  fenceAfter : Bool
  cause : Nat
  deriving DecidableEq, Repr

/-- Bays and their repair state. `slotNo` numbers the maintenance slots of each unit of the rota (R198), and `slotAt` is the
cycle of its last one, plus 1 (R86, R102). -/
structure Bays where
  atoms : Store (BitVec 160)
  sides : Store (BitVec 96)
  shadow : Store (BitVec 160)
  bayMap : Store Nat
  spareUsed : List Nat
  fenced : List Nat
  retests : List (Nat × Nat)
  rebuilds : List Rebuild
  slotNo : Store Nat
  slotAt : Store Nat
  fencedHeld : Nat
  fencedFirst : Nat
  fencedLast : Nat
  deriving DecidableEq, Repr

/-- An answer word (R119). -/
structure AnsWord where
  swset : Bool
  sw : Edition
  ohit : Bool
  orec : Nat
  nhit : Bool
  nrec : Nat
  deriving DecidableEq, Repr

/-- A trie node (R118): its slice and level, the first key of its range as a 128-bit number, and the index of its first
slot word in the level's memory. -/
structure TrieNode where
  slice : Nat
  level : Nat
  lo : Nat
  index : Nat
  deriving DecidableEq, Repr

/-- Leaves of one node that stand side by side and carry one answer (R118, R119): their slice, the first key of their
range and the key past it, the number of leaves, the level-10 index of the first one's answer word, and what the answer
word of each holds. -/
structure Leaves where
  slice : Nat
  lo : Nat
  past : Nat
  count : Nat
  index : Nat
  answer : AnsWord
  deriving DecidableEq, Repr

/-- A prefix entry (R116). `record` tells it from the other entries of its table, and `recs` gives the index of its record in
level 11 of each slice that has one (R119). -/
structure PfxEntry where
  record : Nat
  recs : Store Nat
  prefix_ : BitVec 128
  len : Nat
  valid : Bool
  rset : Bool
  first : Edition
  retiring : Edition
  ptr : Nat
  plen : Nat
  deriving DecidableEq, Repr

/-- A used hash cell (R127). -/
structure Cell where
  group : Nat
  bucket : Nat
  slot : Nat
  key : BitVec 128
  answer : AnsWord
  deriving DecidableEq, Repr

/-- A mode switch of a prefix table (R136): requested, then unsettled with its edition E. -/
inductive PfxSwitch where
  | none
  | requested (toHash : Bool)
  | unsettled (toHash : Bool) (e : Edition)
  deriving DecidableEq, Repr

/-- A replica of a ternary entry in copy 0: its bucket or open set (NBKT + o), bay offset and row (R90, R175). -/
structure Replica where
  index : Nat
  bay : Nat
  row : Nat
  deriving DecidableEq, Repr

/-- A range of keys that a write changes on a slice, in a group of the hash image or in the trie image (R125): the keys of each
of its words, the number of words that the write reaches before them, and the cycle in which it begins on the slice. -/
structure LateRange where
  slice : Nat
  group : Option Nat
  lo : Nat
  past : Nat
  size : Nat
  first : Nat
  start : Nat
  deriving DecidableEq, Repr

/-- The images of a direct prefix table before a write, for the lookups up to the cycles in which the write reaches their words;
`last` is the cycle of its last update (R125). -/
structure LateImage where
  ranges : List LateRange
  last : Nat
  entries : List PfxEntry
  nodes : List TrieNode
  leaves : List Leaves
  cells : List Cell
  filter : Store Nat
  deriving DecidableEq, Repr

/-- Dynamic state of a table number, whatever its kind. `placed` lists the replicas of each entry of a ternary table in
copy 0, replica 0 first; `filling` are the appended copies that are not complete, and `fillPos` is the row up to which each
new bay has been filled (R82). A prefix table has its `entries`, the nodes and leaves of its trie image, the cells of its
hash image and the counts behind the bits of its length filter, by 16 × filter index + group (R118 to R130); `hashHeld`: the
hash image holds its units (R115); `late`: what its lookups still read of writes under way, the oldest first. -/
structure Table where
  placed : List (List Replica)
  filling : List Nat
  fillPos : Store Nat
  rebuildWait : Bool
  entries : List PfxEntry
  nodes : List TrieNode
  leaves : List Leaves
  cells : List Cell
  filter : Store Nat
  late : List LateImage
  hash : Bool
  trieReady : Bool
  hashReady : Bool
  hashHeld : Bool
  switch : PfxSwitch
  buildingTrie : Bool
  buildingHash : Bool
  trieFault : Bool
  deriving DecidableEq, Repr

/-- A queued learn (R156, R158). -/
structure Learn where
  room : Nat
  table : Nat
  data : Nat
  lctx : Nat
  key : List Granule
  port : Nat
  deriving DecidableEq, Repr

/-- A lookup's hit on an entry whose stamp is written in cycle `due` (R151). -/
structure StampHit where
  slot : Nat
  due : Nat
  deriving DecidableEq, Repr

/-- A slot that the update port writes in cycle `due`: lookups up to that cycle read what it held before, and whether that was
uncorrectable (R153, R154). -/
structure LateSlot where
  slot : Nat
  due : Nat
  was : BitVec 128
  bad : Bool
  deriving DecidableEq, Repr

/-- The exact-match engine; its notices wait in the class-3 queues of their ports (R160, R161). -/
structure Em where
  slots : Store (BitVec 128)
  stamps : Store (BitVec 33)
  hits : List StampHit
  late : List LateSlot
  queues : Store (List Learn)
  backlog : List Nat
  lfsr : Store (BitVec 32)
  nextTick : Nat
  deriving DecidableEq, Repr

/-- Trie banks (R139, R452): under test, beyond repair until the next start, and refused a test with the cycle of the
refusal. -/
structure PfxEngine where
  testing : List (Nat × Nat)
  dead : List (Nat × Nat)
  asked : List (Nat × Nat × Nat)
  deriving DecidableEq, Repr

/-! ### Associated data, pools and carrels -/

/-- An allocation record (R205). `frozen` is the mark of an uncorrectable record (R444). -/
structure Alloc where
  allocated : Bool
  hold : Bool
  cls : BitVec 2
  count : Nat
  owner : BitVec 16
  deriving DecidableEq, Repr

/-- A released allocation that waits for the instructions listed (R214). -/
structure Releasing where
  block : Nat
  size : Nat
  pool : Nat
  waits : List Nat
  deriving DecidableEq, Repr

/-- A carrel clear under way (R233): its room, the cycle it began in, the lines of each die done so far, and the dies
that were held while it ran. -/
structure Clear where
  room : Nat
  start : Nat
  lines : Nat
  held : List Nat
  deriving DecidableEq, Repr

/-- ADS, pools and carrels; `tallied` are the carrel words that tallies reached in cycle `talliedAt`, with what they held
before (R234). -/
structure Mem where
  ads : Store (BitVec 128)
  allocs : Store Alloc
  releasing : List Releasing
  poolStatus : Store Nat
  carrel : Store (BitVec 64)
  secure : Store (BitVec 64)
  clearing : List Clear
  talliedAt : Nat
  tallied : List (Nat × BitVec 64)
  deriving DecidableEq, Repr

/-! ### Maintenance queues and rooms -/

/-- Where a table command came from (R179, R181, R190). -/
inductive CmdSrc where
  | port (p : Nat)
  | reg
  | catalogue
  deriving DecidableEq, Repr

/-- A command in a maintenance queue (R181): its number, image, source and cycle of arrival, whether it has started, and for a
ternary command in progress the row operations left, the references to release after the last one, the entries it then
adds and removes and the reply it then gives (R183, R184, R216); for a READ or SCAN in progress the place at which it reads
next and the records it has, each with its cursor (R166, R178); `doneAt` is the cycle of the last update of a prefix or
exact-match command whose updates have been given their cycles (R125, R154). -/
structure MqCmd where
  id : Nat
  room : Nat
  frame : Frame
  src : CmdSrc
  came : Nat
  started : Bool
  cursor : Option Nat
  found : List (Nat × List Granule)
  ops : List RowOp
  drops : List Nat
  adds : List (List Replica)
  dels : List (List Replica)
  reply : List Frame
  doneAt : Option Nat
  deriving DecidableEq, Repr

/-- The maintenance arbiter (R242). `nextAt` is the cycle of the next start slot and `limits` the first cycle in which each
limit of R199 admits another operation (log 83); `prioWas` is the MQ_PRIO, plus 1, that each room written in cycle `prioAt`
had before (R243). -/
structure Arbiter where
  queues : Store (List MqCmd)
  nextId : Nat
  nextAt : Nat
  limits : Store Nat
  prioWas : Store Nat
  prioAt : Nat
  holder : Option Nat
  started : Nat
  burst : Nat
  lastHolder : Option Nat
  passed : Store Nat
  deriving DecidableEq, Repr

/-- Guarantee state, lost units and a reduction in progress (R244 to R253). -/
structure Guar where
  shed : List Nat
  reduced : List Nat
  degraded : List Nat
  lost : List Nat
  active : Bool
  detected : Nat
  cause : Nat
  ranks : List Nat
  first : Store Nat
  final : Store Nat
  toShed : List (Nat × Nat × Nat × Nat)
  toReduce : List Nat
  second : Option Nat
  deriving DecidableEq, Repr

/-- Notices of editions and the clamp pass (R192 to R194); `clampPos` is the place of the pass in each logical bay. -/
structure EdState where
  notified : Store (BitVec 16)
  lastFloor : Store Nat
  passFloors : Store (BitVec 16)
  clampPos : Store Nat
  deriving DecidableEq, Repr

/-! ### Instructions in flight -/

/-- The outcome of one lookup of a program (R60, R61, R68, R69). -/
structure LookupOut where
  performed : Bool
  hit : Bool
  tie : Bool
  incomplete : Bool
  error : Bool
  defaulted : Bool
  skipped : Bool
  supplied : Bool
  b0 : BitVec 128
  b1 : BitVec 128
  prio : Nat
  loc : Nat
  first : Nat
  ptr : Nat
  plen : Nat
  deriving DecidableEq, Repr

/-- What a lookup finds before its action: a winner, a winner with its data inline, a miss, or an error with its cause and the
unit targeted (R61, R149, R494). -/
inductive Found where
  | hit (o : LookupOut)
  | inline (o : LookupOut)
  | miss
  | bad (cause unit : Nat)
  deriving DecidableEq, Repr

/-- A candidate record (R292) without its LOOKUP. -/
structure CandRec where
  prio : Nat
  device : Nat
  loc : Nat
  edition : Edition
  ptr : Nat
  plen : Nat
  mgen : Nat
  hit : Bool
  tie : Bool
  incomplete : Bool
  error : Bool
  count : Nat
  deriving DecidableEq, Repr

/-- The part a device plays for an instruction of a shard set (R287). -/
inductive Part where
  | owner | collector | member | nobody
  deriving DecidableEq, Repr

/-- Cascade state of an instruction in flight (R287 to R301). -/
structure CasPart where
  set : Nat
  part : Part
  owner : Nat
  xid : Nat
  budget : Nat
  lookups : List Nat
  senders : List Nat
  recs : List (Nat × CandRec)
  closed : Bool
  sent : Bool
  status : Nat
  deriving DecidableEq, Repr

/-- An instruction accepted at intake, until its last result granule is sent (R23, R48); `pinned`: it carried its
edition (R63); `ahead`: stages that were run because another command came after them, before their own (log 84); `front`: what
the ternary and exact-match lookups of the next stage found, once that stage's compare cycle has come. -/
structure Inflight where
  id : Nat
  port : Nat
  room : Nat
  prog : Nat
  tag : Nat
  ctx : BitVec 32
  edition : Edition
  pinned : Bool
  pgen : Nat
  keyLen : Nat
  key : List Byte
  arrived : Nat
  accepted : Nat
  due : Nat
  view : View
  nextStage : Nat
  front : Option (List (Nat × Found))
  ahead : Nat
  ended : Bool
  status : Nat
  error : Bool
  outs : Store LookupOut
  cas : Option CasPart
  noResult : Bool
  deriving DecidableEq, Repr

/-- An error result that waits for its due cycle (R38). -/
structure ErrResult where
  port : Nat
  due : Nat
  hdr : Granule
  deriving DecidableEq, Repr

/-- An instruction whose result has begun to leave and whose last granule, in cycle `last`, has not (R48, R191, R214), with
its cascade part, which candidates still match (R305). -/
structure Tail where
  id : Nat
  port : Nat
  room : Nat
  prog : Nat
  tag : Nat
  edition : Edition
  cas : Option CasPart
  last : Nat
  deriving DecidableEq, Repr

/-- The search pipelines. `lastAt` is the cycle of the last granule of the last SEARCH frame of each port, plus 1
(R37); `cands` are the instructions whose candidate has begun to leave, with the cycle of its last granule (R214). -/
structure Search where
  flight : List Inflight
  errs : List ErrResult
  lastAt : Store Nat
  nextId : Nat
  tails : List Tail
  cands : List (Nat × Nat)
  deriving DecidableEq, Repr

/-! ### Ports -/

/-- PORT_STATE (R280). -/
inductive PortState where
  | off | training | aligning | hello | up | held | failed
  deriving DecidableEq, Repr

/-- What the sending of an outbound frame completes: nothing, the maintenance command numbered, or the part of the
instruction numbered whose candidate it is. -/
inductive TxDone where
  | none
  | cmd (room id : Nat)
  | cand (id : Nat)
  deriving DecidableEq, Repr

/-- An outbound frame with what its sending completes. -/
structure TxFrame where
  frame : Frame
  done : TxDone
  deriving DecidableEq, Repr

/-- A port (R254 to R280). `helloValid` and `helloSent`: a valid HELLO came since the exchange began, and a HELLO left
after it; `helloErr`: a failed HELLO is recorded; `old1` and `old3` count the frames at the front of the receive buffers
that came before the last exchange of HELLO; `txSlot` is the next slot of the transmitter and `lastIdle` the last slot
of an IDLE/CREDIT frame, counted from cycle 0, five to a cycle. `blkNo` numbers the link block being sent, `blk` holds its
slots so far and `blkFirst` the slot of its first header (R263, R266); `resync`: the receiver discards slots up to one that a
FIRST marks (R268). `inbound` holds the SEARCH and CANDIDATE frames on their
way to their consumers, with the cycle of their last granule (R41, R300), and `early` the CANDIDATE frames that a close took
in before their own command (log 84). -/
structure Port where
  st : PortState
  step : Nat
  begun : Nat
  failedAt : Nat
  everUp : Bool
  downAt : Nat
  helloValid : Bool
  helloSent : Bool
  helloErr : Bool
  txsent1 : BitVec 16
  txsent3 : BitVec 16
  rxcount1 : BitVec 16
  rxcount3 : BitVec 16
  rxfreed1 : BitVec 16
  rxfreed3 : BitVec 16
  peerFreed1 : BitVec 16
  peerFreed3 : BitVec 16
  rx1 : List Frame
  rx3 : List Frame
  tx1 : List TxFrame
  tx3 : List TxFrame
  txc : List TxFrame
  push : List Push
  lost : Store Nat
  drops : List Nat
  dropFirst : Nat
  dropLast : Nat
  old1 : Nat
  old3 : Nat
  txSlot : Nat
  lastIdle : Nat
  freedSent1 : BitVec 16
  freedSent3 : BitVec 16
  blkNo : Nat
  blk : List Granule
  blkFirst : Option Nat
  resync : Bool
  inbound : List (Nat × Frame)
  early : List Frame
  deriving DecidableEq, Repr

/-- What a port puts on its lanes: a frame, a slot of zeros of a held die (R279), `n` slots of filler that all carry `g`, `n`
whole blocks of filler with their trailer, or half a trailer in the sub-channel of a codeword (R263, R266). -/
inductive LaneItem where
  | frame (f : Frame)
  | zero
  | run (n : Nat) (g : Granule)
  | blocks (n : Nat) (g : Granule) (trailer : BitVec 40)
  | sub (half : BitVec 20)
  deriving DecidableEq, Repr

/-- An item put on a port's lanes, with its first slot, five slots to a cycle; the model's own output log, newest first. The
first UI of a slot is at the balls PORT_LAT 15:0 cycles later (R278). -/
structure Wire where
  slot : Nat
  port : Nat
  item : LaneItem
  deriving DecidableEq, Repr

/-! ### Cascade (R281 to R316) -/

/-- A pending candidate frame (R304). -/
structure PendCand where
  arrived : Nat
  port : Nat
  frame : Frame
  deriving DecidableEq, Repr

/-- A daybook record limited to one per microsecond (R305): frames since the last record, its first SENDER and
generation, and the cycle of the last record. -/
structure Limited where
  count : Nat
  sender : Nat
  gen : Nat
  last : Option Nat
  deriving DecidableEq, Repr

/-- Cascade state of the device. -/
structure Cas where
  quarantined : Bool
  clvalid : Bool
  pend : List PendCand
  fenceLast : Store Nat
  stale : Limited
  late : Limited
  quar : Limited
  deriving DecidableEq, Repr

/-! ### Dictionary bus (R327 to R346) -/

/-- Bus sleep (R342). -/
inductive Sleep where
  | awake
  | waiting (since : Nat)
  | asleep
  | waking
  deriving DecidableEq, Repr

/-- A CAN FD frame that the device sends: its PDU, BRS, and its bytes with their padding (R327, R333). -/
structure CanFrame where
  pdu : Pdu
  brs : Bool
  data : List Byte
  deriving DecidableEq, Repr

/-- The dictionary-bus controller. `out` is the model's log of the frames queued for sending, oldest first. -/
structure Bus where
  busOff : Bool
  passive : Bool
  exception : Bool
  tec : BitVec 16
  recv : BitVec 16
  rateForce : BitVec 32
  rateNext : Option (BitVec 32)
  clash : Bool
  clashAt : Nat
  clashRec : Option Nat
  sleep : Sleep
  sleepMid : Nat
  wakeOwn : Bool
  wakeBus : Bool
  wakeRec : Option (Nat × Nat)
  wakeDue : Bool
  out : List CanFrame
  push : List Push
  withheld : Nat
  nextBeat : Nat
  deriving DecidableEq, Repr

/-! ### Health (R439 to R463) -/

/-- Region state (R453 to R457); `badAt` is the last cycle in which a quantity of the region was outside the
Permitted column and `hotAt` the last in which its Tj was above 100 °C, each plus 1; `byHeat`: held for temperature (R481). -/
structure Region where
  alarm : Bool
  held : Bool
  inReset : Bool
  badAt : Nat
  hotAt : Nat
  hotOnce : Bool
  targetMv : Nat
  wearSteps : Nat
  releasing : Bool
  byHeat : Bool
  deriving DecidableEq, Repr

/-- A table entry that is removed because a side word of it is beyond correction (R444): the row operations left, its action's
pointer and its handle. -/
structure Removal where
  table : Nat
  handle : Nat
  ptr : Nat
  ops : List RowOp
  deriving DecidableEq, Repr

/-- Shelf-reading, collation and uncorrectable words. `srDie` and `srRegion` name the region next in order and `srAt` the
cycle in which the last one started, plus 1; `srSteps` are the steps of a region's test that wait for the slots of a unit,
and `srSave` those left when the save has ended (R198, R441); a region without a unit is under test up to cycle `srEnd` and saved
from `srSaved` on; `repairs` are the redundant rows in use, as die, region and row (R441); `removals` are the entries being
removed (R444); `sampledAt` is the cycle of the last sample of the regions, plus 1, and `exceeded` the cycle, plus 1, since which each
limit has been passed, by `limitKey` (R453); `colFix` holds what collation does in a bay's next slot: 2p + 1 rewrites row
p, 2p + 2 reads it again (R446); `sideBad` and `colBad` count by physical bay (R446, R447). -/
structure Health where
  regions : Store Region
  poison : List MemWord
  srDie : Nat
  srRegion : Nat
  srAt : Nat
  srHead : List (Nat × Nat)
  srSteps : Store Nat
  srSave : Nat
  srEnd : Nat
  srSaved : Nat
  repairs : List (Nat × Nat × Nat)
  removals : List Removal
  sampledAt : Nat
  exceeded : Store Nat
  pinned : List (Nat × Nat)
  sideBad : Store Nat
  colPos : Store Nat
  colBad : Store Nat
  colFix : Store Nat
  colDone : List Nat
  thermal : Bool
  deriving DecidableEq, Repr

/-! ### The machine -/

/-- The whole block. -/
structure State where
  now : Nat
  pending : List Instr
  free : Nat
  dev : Dev
  boot : Boot
  vault : Vault
  cat : Cat
  rings : Store Ring
  bus : Bus
  ports : Store Port
  wire : List Wire
  search : Search
  bays : Bays
  tables : Store Table
  pfx : PfxEngine
  em : Em
  mem : Mem
  arb : Arbiter
  guar : Guar
  ed : EdState
  cas : Cas
  health : Health
  deriving DecidableEq, Repr

/-! ### Reset (log 2 to log 5 say which values the model names) -/

def Ring.empty : Ring := ⟨0, [], 0, 0, 0, 0, []⟩

def Session.none : Session := ⟨false, 0, false, 0, 0, 0, [], [], 0, 0, 0⟩

def Mailbox.none : Mailbox := ⟨0, 0, false, 0, false, 0, []⟩

def Prov.none : Prov := ⟨false, 0, 0, [], [], 0⟩

def Block.none : Block := ⟨false, 0, 0, 0, 0⟩

def AnsWord.blank : AnsWord := ⟨false, 0, false, 0, false, 0⟩

def Table.none : Table :=
  { placed := [], filling := [], fillPos := [], rebuildWait := false, entries := [], nodes := [], leaves := [], cells := [],
    filter := [], late := [], hash := false, trieReady := false, hashReady := false, hashHeld := false, switch := .none,
    buildingTrie := false, buildingHash := false, trieFault := false }

def Alloc.none : Alloc := ⟨false, false, 0, 0, 0⟩

def LookupOut.none : LookupOut :=
  ⟨false, false, false, false, false, false, false, false, 0, 0, 0, 0, 0, 0, 0⟩

def CandRec.miss : CandRec := ⟨0, 0, 0, 0, 0, 0, 0, false, false, false, false, 0⟩

/-- A port right after reset: OFF, every count at 0 (R271, R280). -/
def Port.reset : Port :=
  { st := .off, step := 0, begun := 0, failedAt := 0, everUp := false, downAt := 0, helloValid := false,
    helloSent := false, helloErr := false, txsent1 := 0, txsent3 := 0, rxcount1 := 0, rxcount3 := 0,
    rxfreed1 := 0, rxfreed3 := 0, peerFreed1 := 0, peerFreed3 := 0, rx1 := [], rx3 := [], tx1 := [], tx3 := [],
    txc := [], push := [], lost := [], drops := [0, 0, 0, 0, 0], dropFirst := 0, dropLast := 0, old1 := 0,
    old3 := 0, txSlot := 0, lastIdle := 0, freedSent1 := 0, freedSent3 := 0, blkNo := 0, blk := [],
    blkFirst := none, resync := false, inbound := [], early := [] }

/-- A region right after reset: RGN_STATE reads 0 (R392). -/
def Region.reset : Region := ⟨false, false, false, 0, 0, false, 0, 0, false, false⟩

/-- The catalogue right after reset: DBUS_CFG holds the rates of unprogrammed OTP (R329). -/
def Cat.reset : Cat :=
  { force := [(0x2100010000, 0x10)], staged := [], regs := [], ctx := [], sessions := [], failedProve := [], lastReqs := [],
    transfers := [], outstanding := [], mailboxes := [], provs := [], provQueue := [], blocks := [],
    acc := ⟨false, 0, 0, 0, 0, [], [], false, [], false, 0⟩, last := none, writes := [] }

/-- The attempt at whose beginning the machine stands right after reset (R397). -/
def Attempt.reset : Attempt :=
  { active := true, begun := 0, cause := 0, image := false, preferred := false, fails := 0, policy := false,
    fromMirror := false, prevReason := 0, slot := 0, seq := 0, step := 1, complete := false,
    ended := false, imageRun := false, restartDue := none, mirrorFail := false, imgTag := [],
    waiting := none, readyAt := 0, slots := [] }

def Boot.reset : Boot :=
  { attempt := Attempt.reset, otp := ⟨3, false, 0, 1, 6, false, 0, []⟩, flash := ⟨[], [], []⟩,
    upd := ⟨false, false, 0, false, false, 0⟩, prs := List.replicate 8 (List.replicate 48 0), aliasCert := [],
    version := [], active := false, spi := none, writing := none }

/-- The vault as VAON leaves it when it rises (R422). -/
def Vault.reset : Vault :=
  { words := [], intact := false, vclock := 0, vclockAt := 0, tamperCnt := 0, latchCount := 0, latchSource := 0, latchTime := 0,
    cfg := 0x001F, cause := 0, clockMasked := true, uncorr := [], debug := true, lcTarget := none,
    lastStep := 0 }

/-- The test port after a reset of the TAP (R486; log 96). -/
def Tap.reset : Tap := ⟨.reset, .idcode, [], []⟩

def Dev.reset : Dev :=
  { porn := false, sysrstn := false, boundary := false, tap := Tap.reset, vin := true, vio := true, vaon := true,
    phase := .starting, started := false, straps := ⟨0, 0⟩, sampled := true, mclk := true, lastWake := none,
    causes := 0, diesUp := true }

def Bays.reset : Bays := ⟨[], [], [], [], [], [], [], [], [], [], 0, 0, 0⟩

def Em.reset : Em := ⟨[], [], [], [], [], [], [], 2500000000⟩

def Mem.reset : Mem := ⟨[], [], [], [], [], [], [], 0, []⟩

def Arbiter.reset : Arbiter := ⟨[], 0, 0, [], [], 0, none, 0, 0, none, []⟩

def Guar.reset : Guar := ⟨[], [], [], [], false, 0, 0, [], [], [], [], [], none⟩

def EdState.reset : EdState := ⟨[], [], [], []⟩

def Search.reset : Search := ⟨[], [], [], 0, [], []⟩

def Cas.reset : Cas := ⟨false, false, [], [], ⟨0, 0, 0, none⟩, ⟨0, 0, 0, none⟩, ⟨0, 0, 0, none⟩⟩

def Bus.reset : Bus :=
  { busOff := false, passive := false, exception := false, tec := 0, recv := 0, rateForce := 0x10, rateNext := none,
    clash := false, clashAt := 0, clashRec := none, sleep := .awake, sleepMid := 0, wakeOwn := false,
    wakeBus := false, wakeRec := none, wakeDue := false, out := [], push := [], withheld := 0, nextBeat := 250000000 }

def Health.reset : Health :=
  { regions := [], poison := [], srDie := 4, srRegion := 0, srAt := 0, srHead := [], srSteps := [], srSave := 0, srEnd := 0, srSaved := 0,
    repairs := [], removals := [], sampledAt := 0, exceeded := [], pinned := [],
    sideBad := [], colPos := [], colBad := [], colFix := [], colDone := [], thermal := false }

/-- The machine right after reset: an attempt has begun, every register and memory at its reset value, nothing
waiting. -/
def State.reset : State :=
  { now := 0, pending := [], free := 0, dev := Dev.reset, boot := Boot.reset, vault := Vault.reset,
    cat := Cat.reset, rings := [], bus := Bus.reset, ports := [], wire := [], search := Search.reset,
    bays := Bays.reset, tables := [], pfx := ⟨[], [], []⟩, em := Em.reset, mem := Mem.reset, arb := Arbiter.reset,
    guar := Guar.reset, ed := EdState.reset, cas := Cas.reset, health := Health.reset }

end Sys2Proof.Machine
end

