-- ==== Sys2Proof/Machine/Store.lean ====
section
/-! DEFINITION. Sparse memories: reading and writing, and the canonical form (addresses strictly rising, no entry equal
to what an unlisted address reads as). `d` gives what an unlisted address reads as. -/

namespace Sys2Proof.Machine

/-- The value at address `k`. -/
def sget {α : Type} (d : Nat → α) : Store α → Nat → α
  | [], k => d k
  | (a, v) :: t, k => if a = k then v else sget d t k

/-- `m` with an entry added before the first entry of a higher address. -/
def sins {α : Type} : Store α → Nat → α → Store α
  | [], k, v => [(k, v)]
  | (a, w) :: t, k, v => if k < a then (k, v) :: (a, w) :: t else (a, w) :: sins t k v

/-- `m` with `v` at address `k`, in canonical form. -/
def sput {α : Type} [DecidableEq α] (d : Nat → α) (m : Store α) (k : Nat) (v : α) : Store α :=
  let t := m.filter fun e => decide (e.1 ≠ k)
  if v = d k then t else sins t k v

/-- Addresses strictly rise from above `lo`. -/
def srising {α : Type} : Nat → Store α → Bool
  | _, [] => true
  | lo, (a, _) :: t => decide (lo ≤ a) && srising (a + 1) t

/-- The canonical form of a sparse memory. -/
def swf {α : Type} [DecidableEq α] (d : Nat → α) (m : Store α) : Bool :=
  srising 0 m && m.all fun e => decide (e.2 ≠ d e.1)

/-- Writes a list of values at consecutive addresses. -/
def sputs {α : Type} [DecidableEq α] (d : Nat → α) (m : Store α) (k : Nat) : List α → Store α
  | [] => m
  | v :: t => sputs d (sput d m k v) (k + 1) t

/-- The values at `n` consecutive addresses. -/
def sgets {α : Type} (d : Nat → α) (m : Store α) (k n : Nat) : List α :=
  (List.range n).map fun i => sget d m (k + i)

/-- Removes every entry whose address satisfies `p`: those addresses read as unlisted again. -/
def sclear {α : Type} (p : Nat → Bool) (m : Store α) : Store α := m.filter fun e => !p e.1

end Sys2Proof.Machine
end

