-- ==== Sys2Proof/Machine/Catalogue.lean ====
section
/-! DEFINITION. The catalogue object map (R377 to R395): every object with its index, instances, type, levels and
attributes, and the keys under which the register files of `State` hold their values. -/

namespace Sys2Proof.Machine

/-- The objects of the catalogue, in the order of the chapters that define them. -/
inductive Obj where
  | tblCmd | tblStatus | tblStage | tblReply | edCurrent | edAdvance | edFloor | edDrain | edPinLag
  | edMark | edNotify | edAdvStatus | poolDesc | poolLevel | poolStatus | poolXingNotice | poolXingRestrain
  | poolXingStop | poolRefused | poolProbeSel | poolProbe | poolProbeOwner | roomQuota | roomLevel
  | tallyWrap | tallyHeld | carAddr | carData | carClear | carSuper | roomRank | roomBaysLo | roomBaysHi
  | roomShareBay | roomSharePfx | roomShareEm | roomCharge | mqPrio | mqBurst | mqDepth | mqFull | mqPassed
  | roomGstate | roomShedCnt | guarShed | guarLost | guarReductions | guarRestore | portRole | portCtrl
  | portState | portDefact | portLanes | portLat | portUncorrLimit | portPeer | portPeerLimit | portFecCorr
  | portFecUncorr | portFrameDrop | portLenErr | portCrcErr | portTypeErr | portCreditOvr | portCreditLost
  | portWinClash | portHeldDrop | portRetrain | portTxDiscard | casSet | casSetClSel | casSetCl | casSetN
  | casSelf | casAdopt | casState | casMemberSel | casMember | casLate | casOrphan | casPendFull | casDup
  | casAmbig | casStale | casEdMismatch | casPtrBad | casMisroute | casQuarDrop | casFenceTx | casFenceIgn
  | casNoOwner | casIncomplete | casRoute | casRouteFabric | portAuth | dbusCfg | dbusNode | dbusNodeEff
  | dbusHost | dbusHbMs | dbusEvPrio | dbusState | dbusErrcnt | dbusBusoffCnt | dbusNodeClash | catDrop
  | catDup | sesActive | sesFails | accession | accPending | accStatus | accDiscard | accSwitch | mbxSel
  | mbxValid | mbxData | dbWseq | dbRseq | dbAck | dbUnread | dbDropped | dbSel | dbRec | dbCfg
  | faultCause | faultMask | faultXing | idVendor | idPart | idMember | idStepping | idSerial | colophon
  | provReg | provNonce | provReq | provState | provReport | idCertDevice | idCertAlias | devState
  | devTime | devStraps | rotaPhases | rotaSel | rotaData | rotaLive | progHdr | progConst | progLkp
  | progSeg | progTally | tblHdr | trnSelword | trnCopyword | pfxStride | pfxGroup | pfxState | pfxModeReq
  | tblState | tblEntries | emLearnRej | emLearnRefused | emWeedCnt | pfxFree | emNow | emTick | emLfsrSeed
  | emSliceState | emLearnDrop | emBacklogXing | scarAddr | scarData | srPeriod | srState | srPos
  | srPasses | srFails | rgnVcore | rgnTj | rgnState | rgnXing | rgnCtrl | colPeriod | colMismatch
  | colPasses | bayMapSel | bayMap | spareUsed | bayFenced | fencedHits | wearShift | wearLife | pwrVin
  | pwrIin | pwrTotal | thermTjMax | thermLimit | lcState | lcReq | tamperCause | tamperCnt | tamperCfg
  | keyState | keyLoad | debugState | vaultBlk | vaultAddr | vaultData | bootFails | bootLimit | fwActive
  | fwVersion | fwPolicy | startRec | fwUpdTarget | fwUpdImage | fwUpdState | dbCodeSel | dbCodeCfg
  | roomBlk
  deriving DecidableEq, Repr

/-- Object types (R318). -/
inductive OType where
  | u8 | u16 | u32 | i32 | bits16 | bits32 | oct (n : Nat) | str (n : Nat) | mbx
  deriving DecidableEq, Repr

/-- Size of a type in bytes; an MBX object has no size of its own (R318). -/
def OType.size : OType → Nat
  | .u8 => 1 | .u16 => 2 | .u32 => 4 | .i32 => 4 | .bits16 => 2 | .bits32 => 4 | .oct n => n | .str n => n | .mbx => 0

/-- One line of the map: index of instance 0, step and number of instances, first sub-index and number of
sub-indices, type, read and write level (0 Public, 1 Room, 2 Steward, 3 Keeper, 4 none), attributes S, P, G, M. -/
structure Row where
  base : Nat
  step : Nat
  count : Nat
  sub : Nat
  subs : Nat
  ty : OType
  rd : Nat
  wr : Nat
  s : Bool
  p : Bool
  g : Bool
  m : Bool
  deriving DecidableEq, Repr

/-- The object map: each line is the row of the rule that its comment names. -/
def Obj.row : Obj → Row
  | .tblCmd => ⟨0x4F00, 0x1, 16, 0x01, 1, .u32, 1, 1, false, false, false, false⟩ -- TBL_CMD, R179
  | .tblStatus => ⟨0x4F00, 0x1, 16, 0x02, 1, .u32, 1, 4, false, false, false, false⟩ -- TBL_STATUS, R179
  | .tblStage => ⟨0x4F00, 0x1, 16, 0x10, 16, (.oct 16), 1, 1, false, false, false, false⟩ -- TBL_STAGE, R179
  | .tblReply => ⟨0x4F00, 0x1, 16, 0x20, 16, (.oct 16), 1, 4, false, false, false, false⟩ -- TBL_REPLY, R179
  | .edCurrent => ⟨0x3000, 0x100, 16, 0x10, 1, .u16, 1, 4, false, false, false, false⟩ -- ED_CURRENT, R191
  | .edAdvance => ⟨0x3000, 0x100, 16, 0x11, 1, .u16, 4, 1, false, false, false, false⟩ -- ED_ADVANCE, R191
  | .edFloor => ⟨0x3000, 0x100, 16, 0x12, 1, .u16, 1, 4, false, false, false, false⟩ -- ED_FLOOR, R191
  | .edDrain => ⟨0x3000, 0x100, 16, 0x13, 1, .u16, 1, 4, false, false, false, false⟩ -- ED_DRAIN, R191
  | .edPinLag => ⟨0x3000, 0x100, 16, 0x14, 1, .u8, 1, 2, false, false, false, false⟩ -- ED_PIN_LAG, R191
  | .edMark => ⟨0x3000, 0x100, 16, 0x15, 1, .u16, 1, 4, false, false, false, false⟩ -- ED_MARK, R191
  | .edNotify => ⟨0x3000, 0x100, 16, 0x16, 1, .bits32, 1, 2, false, false, false, false⟩ -- ED_NOTIFY, R191
  | .edAdvStatus => ⟨0x3000, 0x100, 16, 0x17, 1, .u32, 1, 4, false, false, false, false⟩ -- ED_ADV_STATUS, R191
  | .poolDesc => ⟨0x7100, 0x1, 64, 0x01, 1, (.oct 16), 1, 2, true, false, false, false⟩ -- POOL_DESC, R209
  | .poolLevel => ⟨0x7100, 0x1, 64, 0x02, 1, .u32, 1, 4, false, false, false, false⟩ -- POOL_LEVEL, R209
  | .poolStatus => ⟨0x7100, 0x1, 64, 0x03, 1, .bits16, 1, 4, false, false, false, false⟩ -- POOL_STATUS, R209
  | .poolXingNotice => ⟨0x7100, 0x1, 64, 0x04, 1, .u32, 1, 4, false, false, false, false⟩ -- POOL_XING_NOTICE, R209
  | .poolXingRestrain => ⟨0x7100, 0x1, 64, 0x05, 1, .u32, 1, 4, false, false, false, false⟩ -- POOL_XING_RESTRAIN, R209
  | .poolXingStop => ⟨0x7100, 0x1, 64, 0x06, 1, .u32, 1, 4, false, false, false, false⟩ -- POOL_XING_STOP, R209
  | .poolRefused => ⟨0x7100, 0x1, 64, 0x07, 1, .u32, 1, 4, false, false, false, false⟩ -- POOL_REFUSED, R209
  | .poolProbeSel => ⟨0x7100, 0x1, 64, 0x08, 1, .u32, 1, 1, false, false, false, false⟩ -- POOL_PROBE_SEL, R209
  | .poolProbe => ⟨0x7100, 0x1, 64, 0x09, 1, .u32, 1, 4, false, false, false, false⟩ -- POOL_PROBE, R209
  | .poolProbeOwner => ⟨0x7100, 0x1, 64, 0x0A, 1, .u16, 1, 4, false, false, false, false⟩ -- POOL_PROBE_OWNER, R209
  | .roomQuota => ⟨0x3000, 0x100, 16, 0x20, 1, .u32, 1, 2, false, false, false, false⟩ -- ROOM_QUOTA, R210
  | .roomLevel => ⟨0x3000, 0x100, 16, 0x21, 1, .u32, 1, 4, false, false, false, false⟩ -- ROOM_LEVEL, R210
  | .tallyWrap => ⟨0x3000, 0x100, 16, 0x22, 1, .u32, 1, 4, false, false, false, false⟩ -- TALLY_WRAP, R210
  | .tallyHeld => ⟨0x3000, 0x100, 16, 0x23, 1, .u32, 1, 4, false, false, false, false⟩ -- TALLY_HELD, R210
  | .carAddr => ⟨0x3000, 0x100, 16, 0x24, 1, .u32, 1, 1, false, false, false, false⟩ -- CAR_ADDR, R210
  | .carData => ⟨0x3000, 0x100, 16, 0x25, 1, (.oct 8), 1, 1, false, false, false, false⟩ -- CAR_DATA, R210
  | .carClear => ⟨0x3000, 0x100, 16, 0x26, 1, .u32, 1, 1, false, true, false, false⟩ -- CAR_CLEAR, R210
  | .carSuper => ⟨0x3000, 0x100, 16, 0x27, 1, .u32, 1, 4, false, false, false, false⟩ -- CAR_SUPER, R210
  | .roomRank => ⟨0x3000, 0x100, 16, 0x01, 1, .u8, 1, 3, false, false, false, false⟩ -- ROOM_RANK, R236
  | .roomBaysLo => ⟨0x3000, 0x100, 16, 0x02, 1, .bits32, 1, 2, true, false, false, false⟩ -- ROOM_BAYS_LO, R236
  | .roomBaysHi => ⟨0x3000, 0x100, 16, 0x03, 1, .bits32, 1, 2, true, false, false, false⟩ -- ROOM_BAYS_HI, R236
  | .roomShareBay => ⟨0x3000, 0x100, 16, 0x04, 1, .u16, 1, 2, true, false, false, false⟩ -- ROOM_SHARE_BAY, R236
  | .roomSharePfx => ⟨0x3000, 0x100, 16, 0x05, 1, .u16, 1, 2, true, false, false, false⟩ -- ROOM_SHARE_PFX, R236
  | .roomShareEm => ⟨0x3000, 0x100, 16, 0x06, 1, .u16, 1, 2, true, false, false, false⟩ -- ROOM_SHARE_EM, R236
  | .roomCharge => ⟨0x3000, 0x100, 16, 0x07, 1, .u32, 1, 4, false, false, false, false⟩ -- ROOM_CHARGE, R236
  | .mqPrio => ⟨0x3000, 0x100, 16, 0x08, 1, .u8, 1, 2, false, false, false, false⟩ -- MQ_PRIO, R236
  | .mqBurst => ⟨0x3000, 0x100, 16, 0x09, 1, .u8, 1, 2, false, false, false, false⟩ -- MQ_BURST, R236
  | .mqDepth => ⟨0x3000, 0x100, 16, 0x0A, 1, .u16, 1, 4, false, false, false, false⟩ -- MQ_DEPTH, R236
  | .mqFull => ⟨0x3000, 0x100, 16, 0x0B, 1, .u32, 1, 4, false, false, false, false⟩ -- MQ_FULL, R236
  | .mqPassed => ⟨0x3000, 0x100, 16, 0x0C, 1, .u32, 1, 4, false, false, false, false⟩ -- MQ_PASSED, R236
  | .roomGstate => ⟨0x3000, 0x100, 16, 0x0D, 1, .bits16, 1, 4, false, false, false, false⟩ -- ROOM_GSTATE, R236
  | .roomShedCnt => ⟨0x3000, 0x100, 16, 0x0E, 1, .u32, 1, 4, false, false, false, false⟩ -- ROOM_SHED_CNT, R236
  | .guarShed => ⟨0x8100, 0x1, 1, 0x01, 1, .bits16, 1, 4, false, false, false, false⟩ -- GUAR_SHED, R245
  | .guarLost => ⟨0x8100, 0x1, 1, 0x02, 1, .mbx, 1, 4, false, false, false, false⟩ -- GUAR_LOST, R245
  | .guarReductions => ⟨0x8100, 0x1, 1, 0x03, 1, .u32, 1, 4, false, false, false, false⟩ -- GUAR_REDUCTIONS, R245
  | .guarRestore => ⟨0x8100, 0x1, 1, 0x04, 1, .bits16, 4, 2, true, false, false, false⟩ -- GUAR_RESTORE, R245
  | .portRole => ⟨0x5100, 0x1, 32, 0x01, 1, .u8, 1, 2, true, false, false, false⟩ -- PORT_ROLE, R280
  | .portCtrl => ⟨0x5100, 0x1, 32, 0x02, 1, .u32, 1, 2, false, false, false, true⟩ -- PORT_CTRL, R280
  | .portState => ⟨0x5100, 0x1, 32, 0x03, 1, .u8, 1, 4, false, false, false, false⟩ -- PORT_STATE, R280
  | .portDefact => ⟨0x5100, 0x1, 32, 0x04, 1, (.oct 16), 1, 2, true, false, false, false⟩ -- PORT_DEFACT, R280
  | .portLanes => ⟨0x5100, 0x1, 32, 0x05, 1, .u32, 1, 4, false, false, false, false⟩ -- PORT_LANES, R280
  | .portLat => ⟨0x5100, 0x1, 32, 0x06, 1, .u32, 1, 4, false, false, false, false⟩ -- PORT_LAT, R280
  | .portUncorrLimit => ⟨0x5100, 0x1, 32, 0x07, 1, .u16, 1, 2, false, false, false, false⟩ -- PORT_UNCORR_LIMIT, R280
  | .portPeer => ⟨0x5100, 0x1, 32, 0x08, 1, .u32, 1, 4, false, false, false, false⟩ -- PORT_PEER, R280
  | .portPeerLimit => ⟨0x5100, 0x1, 32, 0x09, 1, .u16, 1, 4, false, false, false, false⟩ -- PORT_PEER_LIMIT, R280
  | .portFecCorr => ⟨0x5100, 0x1, 32, 0x10, 1, .u32, 1, 4, false, false, false, false⟩ -- PORT_FEC_CORR, R280
  | .portFecUncorr => ⟨0x5100, 0x1, 32, 0x11, 1, .u32, 1, 4, false, false, false, false⟩ -- PORT_FEC_UNCORR, R280
  | .portFrameDrop => ⟨0x5100, 0x1, 32, 0x12, 1, .u32, 1, 4, false, false, false, false⟩ -- PORT_FRAME_DROP, R280
  | .portLenErr => ⟨0x5100, 0x1, 32, 0x13, 1, .u32, 1, 4, false, false, false, false⟩ -- PORT_LEN_ERR, R280
  | .portCrcErr => ⟨0x5100, 0x1, 32, 0x14, 1, .u32, 1, 4, false, false, false, false⟩ -- PORT_CRC_ERR, R280
  | .portTypeErr => ⟨0x5100, 0x1, 32, 0x15, 1, .u32, 1, 4, false, false, false, false⟩ -- PORT_TYPE_ERR, R280
  | .portCreditOvr => ⟨0x5100, 0x1, 32, 0x16, 1, .u32, 1, 4, false, false, false, false⟩ -- PORT_CREDIT_OVR, R280
  | .portCreditLost => ⟨0x5100, 0x1, 32, 0x17, 1, .u32, 1, 4, false, false, false, false⟩ -- PORT_CREDIT_LOST, R280
  | .portWinClash => ⟨0x5100, 0x1, 32, 0x18, 1, .u32, 1, 4, false, false, false, false⟩ -- PORT_WIN_CLASH, R280
  | .portHeldDrop => ⟨0x5100, 0x1, 32, 0x19, 1, .u32, 1, 4, false, false, false, false⟩ -- PORT_HELD_DROP, R280
  | .portRetrain => ⟨0x5100, 0x1, 32, 0x1A, 1, .u32, 1, 4, false, false, false, false⟩ -- PORT_RETRAIN, R280
  | .portTxDiscard => ⟨0x5100, 0x1, 32, 0x1B, 1, .u32, 1, 4, false, false, false, false⟩ -- PORT_TX_DISCARD, R280
  | .casSet => ⟨0x6100, 0x1, 64, 0x01, 1, (.oct 16), 1, 2, true, false, false, false⟩ -- CAS_SET, R281
  | .casSetClSel => ⟨0x6100, 0x1, 64, 0x02, 1, .u8, 1, 2, false, false, false, false⟩ -- CAS_SET_CL_SEL, R281
  | .casSetCl => ⟨0x6100, 0x1, 64, 0x03, 1, .u32, 1, 2, true, false, false, false⟩ -- CAS_SET_CL, R281
  | .casSetN => ⟨0x6100, 0x1, 64, 0x04, 1, .u16, 1, 4, false, false, false, false⟩ -- CAS_SET_N, R281
  | .casSelf => ⟨0x6000, 0x1, 1, 0x01, 1, .u32, 1, 2, true, false, false, false⟩ -- CAS_SELF, R316
  | .casAdopt => ⟨0x6000, 0x1, 1, 0x02, 1, .u16, 1, 2, true, false, false, false⟩ -- CAS_ADOPT, R316
  | .casState => ⟨0x6000, 0x1, 1, 0x03, 1, .bits16, 1, 4, false, false, false, false⟩ -- CAS_STATE, R316
  | .casMemberSel => ⟨0x6000, 0x1, 1, 0x08, 1, .u16, 1, 2, false, false, false, false⟩ -- CAS_MEMBER_SEL, R316
  | .casMember => ⟨0x6000, 0x1, 1, 0x09, 1, .u16, 1, 2, true, false, false, false⟩ -- CAS_MEMBER, R316
  | .casLate => ⟨0x6000, 0x1, 1, 0x10, 1, .u32, 1, 4, false, false, false, false⟩ -- CAS_LATE, R316
  | .casOrphan => ⟨0x6000, 0x1, 1, 0x11, 1, .u32, 1, 4, false, false, false, false⟩ -- CAS_ORPHAN, R316
  | .casPendFull => ⟨0x6000, 0x1, 1, 0x12, 1, .u32, 1, 4, false, false, false, false⟩ -- CAS_PEND_FULL, R316
  | .casDup => ⟨0x6000, 0x1, 1, 0x13, 1, .u32, 1, 4, false, false, false, false⟩ -- CAS_DUP, R316
  | .casAmbig => ⟨0x6000, 0x1, 1, 0x14, 1, .u32, 1, 4, false, false, false, false⟩ -- CAS_AMBIG, R316
  | .casStale => ⟨0x6000, 0x1, 1, 0x15, 1, .u32, 1, 4, false, false, false, false⟩ -- CAS_STALE, R316
  | .casEdMismatch => ⟨0x6000, 0x1, 1, 0x16, 1, .u32, 1, 4, false, false, false, false⟩ -- CAS_ED_MISMATCH, R316
  | .casPtrBad => ⟨0x6000, 0x1, 1, 0x17, 1, .u32, 1, 4, false, false, false, false⟩ -- CAS_PTR_BAD, R316
  | .casMisroute => ⟨0x6000, 0x1, 1, 0x18, 1, .u32, 1, 4, false, false, false, false⟩ -- CAS_MISROUTE, R316
  | .casQuarDrop => ⟨0x6000, 0x1, 1, 0x19, 1, .u32, 1, 4, false, false, false, false⟩ -- CAS_QUAR_DROP, R316
  | .casFenceTx => ⟨0x6000, 0x1, 1, 0x1A, 1, .u32, 1, 4, false, false, false, false⟩ -- CAS_FENCE_TX, R316
  | .casFenceIgn => ⟨0x6000, 0x1, 1, 0x1B, 1, .u32, 1, 4, false, false, false, false⟩ -- CAS_FENCE_IGN, R316
  | .casNoOwner => ⟨0x6000, 0x1, 1, 0x1C, 1, .u32, 1, 4, false, false, false, false⟩ -- CAS_NO_OWNER, R316
  | .casIncomplete => ⟨0x6000, 0x1, 1, 0x1D, 1, .u32, 1, 4, false, false, false, false⟩ -- CAS_INCOMPLETE, R316
  | .casRoute => ⟨0x6010, 0x1, 1, 0x01, 16, .bits32, 1, 2, true, false, false, false⟩ -- CAS_ROUTE, R316
  | .casRouteFabric => ⟨0x6010, 0x1, 1, 0x11, 1, .bits32, 1, 2, true, false, false, false⟩ -- CAS_ROUTE_FABRIC, R316
  | .portAuth => ⟨0x5100, 0x1, 32, 0x20, 1, .u32, 1, 2, true, false, false, false⟩ -- PORT_AUTH, R322
  | .dbusCfg => ⟨0x2100, 0x1, 1, 0x01, 1, .u32, 0, 2, true, false, false, false⟩ -- DBUS_CFG, R346
  | .dbusNode => ⟨0x2100, 0x1, 1, 0x02, 1, .u8, 0, 2, true, false, false, false⟩ -- DBUS_NODE, R346
  | .dbusNodeEff => ⟨0x2100, 0x1, 1, 0x03, 1, .u8, 0, 4, false, false, false, false⟩ -- DBUS_NODE_EFF, R346
  | .dbusHost => ⟨0x2100, 0x1, 1, 0x04, 1, .u8, 0, 2, false, false, false, false⟩ -- DBUS_HOST, R346
  | .dbusHbMs => ⟨0x2100, 0x1, 1, 0x05, 1, .u16, 0, 2, false, false, false, false⟩ -- DBUS_HB_MS, R346
  | .dbusEvPrio => ⟨0x2100, 0x1, 1, 0x06, 1, .u8, 0, 2, false, false, false, false⟩ -- DBUS_EV_PRIO, R346
  | .dbusState => ⟨0x2100, 0x1, 1, 0x07, 1, .bits16, 0, 4, false, false, false, false⟩ -- DBUS_STATE, R346
  | .dbusErrcnt => ⟨0x2100, 0x1, 1, 0x08, 1, .u32, 0, 4, false, false, false, false⟩ -- DBUS_ERRCNT, R346
  | .dbusBusoffCnt => ⟨0x2100, 0x1, 1, 0x09, 1, .u32, 0, 4, false, false, false, false⟩ -- DBUS_BUSOFF_CNT, R346
  | .dbusNodeClash => ⟨0x2100, 0x1, 1, 0x0A, 1, .u32, 0, 4, false, false, false, false⟩ -- DBUS_NODE_CLASH, R346
  | .catDrop => ⟨0x2100, 0x1, 1, 0x0B, 1, .u32, 0, 4, false, false, false, false⟩ -- CAT_DROP, R346
  | .catDup => ⟨0x2100, 0x1, 1, 0x0C, 1, .u32, 0, 4, false, false, false, false⟩ -- CAT_DUP, R346
  | .sesActive => ⟨0x2100, 0x1, 1, 0x0D, 1, (.oct 8), 2, 4, false, false, true, false⟩ -- SES_ACTIVE, R346
  | .sesFails => ⟨0x2100, 0x1, 1, 0x0E, 1, .u32, 2, 4, false, false, false, false⟩ -- SES_FAILS, R346
  | .accession => ⟨0x2000, 0x1, 1, 0x01, 1, .u32, 4, 1, false, false, false, false⟩ -- ACCESSION, R352
  | .accPending => ⟨0x2000, 0x1, 1, 0x02, 1, .bits16, 1, 4, false, false, false, false⟩ -- ACC_PENDING, R352
  | .accStatus => ⟨0x2000, 0x1, 1, 0x03, 1, .u32, 1, 4, false, false, false, false⟩ -- ACC_STATUS, R352
  | .accDiscard => ⟨0x2000, 0x1, 1, 0x04, 1, .bits16, 4, 1, false, false, false, false⟩ -- ACC_DISCARD, R352
  | .accSwitch => ⟨0x2000, 0x1, 1, 0x05, 1, (.oct 8), 1, 4, false, false, false, false⟩ -- ACC_SWITCH, R352
  | .mbxSel => ⟨0x2000, 0x1, 1, 0x10, 1, .u32, 4, 0, false, false, false, false⟩ -- MBX_SEL, R360
  | .mbxValid => ⟨0x2000, 0x1, 1, 0x11, 1, .u32, 0, 4, false, false, false, false⟩ -- MBX_VALID, R360
  | .mbxData => ⟨0x2000, 0x1, 1, 0x20, 12, .u32, 0, 4, false, false, false, false⟩ -- MBX_DATA, R360
  | .dbWseq => ⟨0x9100, 0x1, 17, 0x01, 1, .u16, 1, 4, false, false, false, false⟩ -- DB_WSEQ, R368
  | .dbRseq => ⟨0x9100, 0x1, 17, 0x02, 1, .u16, 1, 4, false, false, false, false⟩ -- DB_RSEQ, R368
  | .dbAck => ⟨0x9100, 0x1, 17, 0x03, 1, .u16, 4, 1, false, false, false, false⟩ -- DB_ACK, R368
  | .dbUnread => ⟨0x9100, 0x1, 17, 0x04, 1, .u16, 1, 4, false, false, false, false⟩ -- DB_UNREAD, R368
  | .dbDropped => ⟨0x9100, 0x1, 17, 0x05, 1, .u32, 1, 4, false, false, false, false⟩ -- DB_DROPPED, R368
  | .dbSel => ⟨0x9100, 0x1, 17, 0x06, 1, .u16, 1, 1, false, false, false, false⟩ -- DB_SEL, R368
  | .dbRec => ⟨0x9100, 0x1, 17, 0x07, 1, .mbx, 1, 4, false, false, false, false⟩ -- DB_REC, R368
  | .dbCfg => ⟨0x9100, 0x1, 17, 0x08, 1, .u32, 1, 2, false, false, false, false⟩ -- DB_CFG, R368
  | .faultCause => ⟨0x8000, 0x1, 1, 0x01, 1, .bits32, 0, 4, false, false, false, false⟩ -- FAULT_CAUSE, R375
  | .faultMask => ⟨0x8000, 0x1, 1, 0x02, 1, .bits32, 0, 2, false, false, false, false⟩ -- FAULT_MASK, R375
  | .faultXing => ⟨0x8000, 0x1, 1, 0x03, 1, .u32, 0, 4, false, false, false, false⟩ -- FAULT_XING, R375
  | .idVendor => ⟨0x1000, 0x1, 1, 0x01, 1, (.str 16), 0, 4, false, false, false, false⟩ -- ID_VENDOR, R382
  | .idPart => ⟨0x1000, 0x1, 1, 0x02, 1, (.str 16), 0, 4, false, false, false, false⟩ -- ID_PART, R382
  | .idMember => ⟨0x1000, 0x1, 1, 0x03, 1, .u16, 0, 4, false, false, false, false⟩ -- ID_MEMBER, R382
  | .idStepping => ⟨0x1000, 0x1, 1, 0x04, 1, .u16, 0, 4, false, false, false, false⟩ -- ID_STEPPING, R382
  | .idSerial => ⟨0x1000, 0x1, 1, 0x05, 1, (.oct 16), 0, 4, false, false, false, false⟩ -- ID_SERIAL, R382
  | .colophon => ⟨0x1000, 0x1, 1, 0x06, 1, .mbx, 0, 4, false, false, false, false⟩ -- COLOPHON, R382
  | .provReg => ⟨0x1100, 0x1, 1, 0x01, 8, (.oct 48), 0, 4, false, false, false, false⟩ -- PROV_REG, R382
  | .provNonce => ⟨0x1100, 0x1, 1, 0x10, 1, (.oct 32), 0, 0, false, false, false, false⟩ -- PROV_NONCE, R382
  | .provReq => ⟨0x1100, 0x1, 1, 0x11, 1, .u8, 4, 0, false, false, false, false⟩ -- PROV_REQ, R382
  | .provState => ⟨0x1100, 0x1, 1, 0x12, 1, .u32, 0, 4, false, false, false, false⟩ -- PROV_STATE, R382
  | .provReport => ⟨0x1100, 0x1, 1, 0x13, 1, (.oct 1024), 0, 4, false, false, false, false⟩ -- PROV_REPORT, R382
  | .idCertDevice => ⟨0x1100, 0x1, 1, 0x20, 1, (.oct 1024), 0, 4, false, false, false, false⟩ -- ID_CERT_DEVICE, R382
  | .idCertAlias => ⟨0x1100, 0x1, 1, 0x21, 1, (.oct 1024), 0, 4, false, false, false, false⟩ -- ID_CERT_ALIAS, R382
  | .devState => ⟨0x2000, 0x1, 1, 0x06, 1, .u8, 0, 4, false, false, false, false⟩ -- DEV_STATE, R383
  | .devTime => ⟨0x2000, 0x1, 1, 0x07, 1, (.oct 8), 0, 4, false, false, false, false⟩ -- DEV_TIME, R383
  | .devStraps => ⟨0x2000, 0x1, 1, 0x08, 1, .u16, 0, 4, false, false, false, false⟩ -- DEV_STRAPS, R383
  | .rotaPhases => ⟨0x4000, 0x1, 1, 0x01, 1, .u8, 1, 2, true, false, false, false⟩ -- ROTA_PHASES, R385
  | .rotaSel => ⟨0x4000, 0x1, 1, 0x02, 1, .u16, 1, 2, false, false, false, false⟩ -- ROTA_SEL, R385
  | .rotaData => ⟨0x4000, 0x1, 1, 0x03, 1, .u16, 1, 2, true, false, false, false⟩ -- ROTA_DATA, R385
  | .rotaLive => ⟨0x4000, 0x1, 1, 0x04, 1, .u16, 1, 4, false, false, false, false⟩ -- ROTA_LIVE, R385
  | .progHdr => ⟨0x4100, 0x1, 256, 0x01, 1, (.oct 16), 1, 1, true, false, false, false⟩ -- PROG_HDR, R386
  | .progConst => ⟨0x4100, 0x1, 256, 0x02, 1, (.oct 16), 1, 1, true, false, false, false⟩ -- PROG_CONST, R386
  | .progLkp => ⟨0x4100, 0x1, 256, 0x10, 16, (.oct 8), 1, 1, true, false, false, false⟩ -- PROG_LKP, R386
  | .progSeg => ⟨0x4100, 0x1, 256, 0x20, 128, .u32, 1, 1, true, false, false, false⟩ -- PROG_SEG, R386
  | .progTally => ⟨0x4100, 0x1, 256, 0xA0, 4, (.oct 8), 1, 1, true, false, false, false⟩ -- PROG_TALLY, R386
  | .tblHdr => ⟨0x4200, 0x1, 256, 0x01, 1, (.oct 16), 1, 1, true, false, false, false⟩ -- TBL_HDR, R387
  | .trnSelword => ⟨0x4200, 0x1, 256, 0x02, 1, (.oct 16), 1, 1, true, false, false, false⟩ -- TRN_SELWORD, R387
  | .trnCopyword => ⟨0x4200, 0x1, 256, 0x03, 1, (.oct 16), 1, 2, true, false, false, false⟩ -- TRN_COPYWORD, R387
  | .pfxStride => ⟨0x4200, 0x1, 256, 0x04, 1, (.oct 8), 1, 1, true, false, false, false⟩ -- PFX_STRIDE, R387
  | .pfxGroup => ⟨0x4200, 0x1, 256, 0x10, 16, .u32, 1, 1, true, false, false, false⟩ -- PFX_GROUP, R387
  | .pfxState => ⟨0x4200, 0x1, 256, 0x20, 1, .u32, 1, 4, false, false, false, false⟩ -- PFX_STATE, R387
  | .pfxModeReq => ⟨0x4200, 0x1, 256, 0x21, 1, .u8, 4, 1, false, false, false, false⟩ -- PFX_MODE_REQ, R387
  | .tblState => ⟨0x4200, 0x1, 256, 0x22, 1, .bits16, 1, 4, false, false, false, false⟩ -- TBL_STATE, R387
  | .tblEntries => ⟨0x4200, 0x1, 256, 0x23, 1, .u32, 1, 4, false, false, false, false⟩ -- TBL_ENTRIES, R387
  | .emLearnRej => ⟨0x4200, 0x1, 256, 0x30, 1, .u32, 1, 4, false, false, false, false⟩ -- EM_LEARN_REJ, R387
  | .emLearnRefused => ⟨0x4200, 0x1, 256, 0x31, 1, .u32, 1, 4, false, false, false, false⟩ -- EM_LEARN_REFUSED, R387
  | .emWeedCnt => ⟨0x4200, 0x1, 256, 0x32, 1, .u32, 1, 4, false, false, false, false⟩ -- EM_WEED_CNT, R387
  | .pfxFree => ⟨0x4300, 0x1, 1, 0x01, 4, .u32, 1, 4, false, false, false, false⟩ -- PFX_FREE, R388
  | .emNow => ⟨0x4400, 0x1, 1, 0x01, 1, .u16, 1, 4, false, false, false, false⟩ -- EM_NOW, R388
  | .emTick => ⟨0x4400, 0x1, 1, 0x02, 1, .u16, 1, 2, false, false, false, false⟩ -- EM_TICK, R388
  | .emLfsrSeed => ⟨0x4400, 0x1, 1, 0x03, 1, .u32, 1, 2, false, false, false, false⟩ -- EM_LFSR_SEED, R388
  | .emSliceState => ⟨0x4400, 0x1, 1, 0x10, 4, .bits16, 1, 4, false, false, false, false⟩ -- EM_SLICE_STATE, R388
  | .emLearnDrop => ⟨0x4400, 0x1, 1, 0x14, 4, .u32, 1, 4, false, false, false, false⟩ -- EM_LEARN_DROP, R388
  | .emBacklogXing => ⟨0x4400, 0x1, 1, 0x18, 4, .u32, 1, 4, false, false, false, false⟩ -- EM_BACKLOG_XING, R388
  | .scarAddr => ⟨0x7200, 0x1, 1, 0x01, 1, .u32, 3, 3, false, false, true, false⟩ -- SCAR_ADDR, R391
  | .scarData => ⟨0x7200, 0x1, 1, 0x02, 1, (.oct 8), 3, 3, false, false, true, false⟩ -- SCAR_DATA, R391
  | .srPeriod => ⟨0x7300, 0x1, 1, 0x01, 1, .u16, 1, 2, false, false, false, false⟩ -- SR_PERIOD, R391
  | .srState => ⟨0x7300, 0x1, 1, 0x02, 1, .bits16, 1, 4, false, false, false, false⟩ -- SR_STATE, R391
  | .srPos => ⟨0x7300, 0x1, 1, 0x03, 1, .u32, 1, 4, false, false, false, false⟩ -- SR_POS, R391
  | .srPasses => ⟨0x7300, 0x1, 1, 0x04, 1, .u32, 1, 4, false, false, false, false⟩ -- SR_PASSES, R391
  | .srFails => ⟨0x7300, 0x1, 1, 0x05, 1, .u32, 1, 4, false, false, false, false⟩ -- SR_FAILS, R391
  | .rgnVcore => ⟨0x8200, 0x1, 5, 0x01, 1, .u16, 0, 4, false, false, false, false⟩ -- RGN_VCORE, R392
  | .rgnTj => ⟨0x8200, 0x1, 5, 0x02, 1, .i32, 0, 4, false, false, false, false⟩ -- RGN_TJ, R392
  | .rgnState => ⟨0x8200, 0x1, 5, 0x03, 1, .bits16, 0, 4, false, false, false, false⟩ -- RGN_STATE, R392
  | .rgnXing => ⟨0x8200, 0x1, 5, 0x04, 1, .u32, 0, 4, false, false, false, false⟩ -- RGN_XING, R392
  | .rgnCtrl => ⟨0x8200, 0x1, 5, 0x05, 1, .u32, 0, 2, false, false, false, true⟩ -- RGN_CTRL, R392
  | .colPeriod => ⟨0x8300, 0x1, 1, 0x01, 1, .u16, 1, 2, true, false, false, false⟩ -- COL_PERIOD, R392
  | .colMismatch => ⟨0x8300, 0x1, 1, 0x02, 1, .u32, 1, 4, false, false, false, false⟩ -- COL_MISMATCH, R392
  | .colPasses => ⟨0x8300, 0x1, 1, 0x03, 1, .u32, 1, 4, false, false, false, false⟩ -- COL_PASSES, R392
  | .bayMapSel => ⟨0x8400, 0x1, 1, 0x01, 1, .u8, 1, 1, false, false, false, false⟩ -- BAY_MAP_SEL, R392
  | .bayMap => ⟨0x8400, 0x1, 1, 0x02, 1, .u8, 1, 4, false, false, false, false⟩ -- BAY_MAP, R392
  | .spareUsed => ⟨0x8400, 0x1, 1, 0x03, 1, .bits16, 1, 4, false, false, false, false⟩ -- SPARE_USED, R392
  | .bayFenced => ⟨0x8400, 0x1, 1, 0x04, 1, .mbx, 1, 4, false, false, false, false⟩ -- BAY_FENCED, R392
  | .fencedHits => ⟨0x8400, 0x1, 1, 0x05, 1, .u32, 1, 4, false, false, false, false⟩ -- FENCED_HITS, R392
  | .wearShift => ⟨0x8500, 0x1, 1, 0x01, 5, .u16, 0, 4, false, false, false, false⟩ -- WEAR_SHIFT, R392
  | .wearLife => ⟨0x8500, 0x1, 1, 0x10, 1, .u16, 0, 4, false, false, false, false⟩ -- WEAR_LIFE, R392
  | .pwrVin => ⟨0x8600, 0x1, 1, 0x01, 1, .u16, 0, 4, false, false, false, false⟩ -- PWR_VIN, R392
  | .pwrIin => ⟨0x8600, 0x1, 1, 0x02, 1, .u32, 0, 4, false, false, false, false⟩ -- PWR_IIN, R392
  | .pwrTotal => ⟨0x8600, 0x1, 1, 0x03, 1, .u32, 0, 4, false, false, false, false⟩ -- PWR_TOTAL, R392
  | .thermTjMax => ⟨0x8600, 0x1, 1, 0x04, 1, .i32, 0, 4, false, false, false, false⟩ -- THERM_TJ_MAX, R392
  | .thermLimit => ⟨0x8600, 0x1, 1, 0x05, 1, .i32, 0, 2, true, false, false, false⟩ -- THERM_LIMIT, R392
  | .lcState => ⟨0xA000, 0x1, 1, 0x01, 1, .u8, 0, 4, false, false, false, false⟩ -- LC_STATE, R394
  | .lcReq => ⟨0xA000, 0x1, 1, 0x02, 1, .u8, 4, 3, false, false, false, false⟩ -- LC_REQ, R394
  | .tamperCause => ⟨0xA000, 0x1, 1, 0x03, 1, .bits16, 0, 4, false, false, false, false⟩ -- TAMPER_CAUSE, R394
  | .tamperCnt => ⟨0xA000, 0x1, 1, 0x04, 1, .u32, 0, 4, false, false, false, false⟩ -- TAMPER_CNT, R394
  | .tamperCfg => ⟨0xA000, 0x1, 1, 0x05, 1, .bits16, 3, 3, false, false, false, false⟩ -- TAMPER_CFG, R394
  | .keyState => ⟨0xA000, 0x1, 1, 0x06, 1, .bits32, 0, 4, false, false, false, false⟩ -- KEY_STATE, R394
  | .keyLoad => ⟨0xA000, 0x1, 1, 0x07, 1, (.oct 49), 4, 3, false, false, true, false⟩ -- KEY_LOAD, R394
  | .debugState => ⟨0xA000, 0x1, 1, 0x08, 1, .u8, 0, 4, false, false, false, false⟩ -- DEBUG_STATE, R394
  | .vaultBlk => ⟨0xA100, 0x1, 1, 0x00, 1, .u32, 3, 4, false, false, true, false⟩ -- BLK_STATE, R394
  | .vaultAddr => ⟨0xA100, 0x1, 1, 0x01, 1, .u16, 3, 3, false, false, true, false⟩ -- VAULT_ADDR, R394
  | .vaultData => ⟨0xA100, 0x1, 1, 0x02, 1, .u32, 3, 3, false, true, true, false⟩ -- VAULT_DATA, R394
  | .bootFails => ⟨0xF000, 0x1, 1, 0x01, 1, .u8, 0, 4, false, false, false, false⟩ -- BOOT_FAILS, R395
  | .bootLimit => ⟨0xF000, 0x1, 1, 0x02, 1, .u8, 0, 4, false, false, false, false⟩ -- BOOT_LIMIT, R395
  | .fwActive => ⟨0xF000, 0x1, 1, 0x03, 1, .u8, 0, 4, false, false, false, false⟩ -- FW_ACTIVE, R395
  | .fwVersion => ⟨0xF000, 0x1, 1, 0x04, 1, (.str 16), 0, 4, false, false, false, false⟩ -- FW_VERSION, R395
  | .fwPolicy => ⟨0xF000, 0x1, 1, 0x05, 1, .u8, 0, 3, false, false, false, false⟩ -- FW_POLICY, R395
  | .startRec => ⟨0xF000, 0x1, 1, 0x10, 2, (.oct 32), 0, 4, false, false, false, false⟩ -- START_REC, R395
  | .fwUpdTarget => ⟨0xF000, 0x1, 1, 0x20, 1, .u8, 2, 2, false, false, false, false⟩ -- FW_UPD_TARGET, R395
  | .fwUpdImage => ⟨0xF000, 0x1, 1, 0x21, 1, (.oct 4194304), 4, 2, false, false, false, false⟩ -- FW_UPD_IMAGE, R395
  | .fwUpdState => ⟨0xF000, 0x1, 1, 0x22, 1, .u32, 2, 4, false, false, false, false⟩ -- FW_UPD_STATE, R395
  | .dbCodeSel => ⟨0x9000, 0x1, 1, 0x01, 1, .u16, 1, 2, false, false, false, false⟩ -- DB_CODE_SEL, R370
  | .dbCodeCfg => ⟨0x9000, 0x1, 1, 0x02, 1, .u8, 1, 2, false, false, false, false⟩ -- DB_CODE_CFG, R370
  | .roomBlk => ⟨0x3000, 0x100, 16, 0x00, 1, .u32, 1, 4, false, false, false, false⟩ -- BLK_STATE, R347

/-- Objects of the map, part 0. -/
def objs0 : List Obj :=
  [.tblCmd, .tblStatus, .tblStage, .tblReply, .edCurrent, .edAdvance, .edFloor, .edDrain, .edPinLag,
   .edMark, .edNotify, .edAdvStatus, .poolDesc, .poolLevel, .poolStatus, .poolXingNotice,
   .poolXingRestrain, .poolXingStop, .poolRefused, .poolProbeSel, .poolProbe, .poolProbeOwner, .roomQuota,
   .roomLevel, .tallyWrap, .tallyHeld, .carAddr, .carData, .carClear, .carSuper, .roomRank, .roomBaysLo,
   .roomBaysHi, .roomShareBay, .roomSharePfx, .roomShareEm, .roomCharge, .mqPrio, .mqBurst, .mqDepth]

/-- Objects of the map, part 1. -/
def objs1 : List Obj :=
  [.mqFull, .mqPassed, .roomGstate, .roomShedCnt, .guarShed, .guarLost, .guarReductions, .guarRestore,
   .portRole, .portCtrl, .portState, .portDefact, .portLanes, .portLat, .portUncorrLimit, .portPeer,
   .portPeerLimit, .portFecCorr, .portFecUncorr, .portFrameDrop, .portLenErr, .portCrcErr, .portTypeErr,
   .portCreditOvr, .portCreditLost, .portWinClash, .portHeldDrop, .portRetrain, .portTxDiscard, .casSet,
   .casSetClSel, .casSetCl, .casSetN, .casSelf, .casAdopt, .casState, .casMemberSel, .casMember, .casLate,
   .casOrphan]

/-- Objects of the map, part 2. -/
def objs2 : List Obj :=
  [.casPendFull, .casDup, .casAmbig, .casStale, .casEdMismatch, .casPtrBad, .casMisroute, .casQuarDrop,
   .casFenceTx, .casFenceIgn, .casNoOwner, .casIncomplete, .casRoute, .casRouteFabric, .portAuth, .dbusCfg,
   .dbusNode, .dbusNodeEff, .dbusHost, .dbusHbMs, .dbusEvPrio, .dbusState, .dbusErrcnt, .dbusBusoffCnt,
   .dbusNodeClash, .catDrop, .catDup, .sesActive, .sesFails, .accession, .accPending, .accStatus,
   .accDiscard, .accSwitch, .mbxSel, .mbxValid, .mbxData, .dbWseq, .dbRseq, .dbAck]

/-- Objects of the map, part 3. -/
def objs3 : List Obj :=
  [.dbUnread, .dbDropped, .dbSel, .dbRec, .dbCfg, .faultCause, .faultMask, .faultXing, .idVendor, .idPart,
   .idMember, .idStepping, .idSerial, .colophon, .provReg, .provNonce, .provReq, .provState, .provReport,
   .idCertDevice, .idCertAlias, .devState, .devTime, .devStraps, .rotaPhases, .rotaSel, .rotaData,
   .rotaLive, .progHdr, .progConst, .progLkp, .progSeg, .progTally, .tblHdr, .trnSelword, .trnCopyword,
   .pfxStride, .pfxGroup, .pfxState, .pfxModeReq]

/-- Objects of the map, part 4. -/
def objs4 : List Obj :=
  [.tblState, .tblEntries, .emLearnRej, .emLearnRefused, .emWeedCnt, .pfxFree, .emNow, .emTick,
   .emLfsrSeed, .emSliceState, .emLearnDrop, .emBacklogXing, .scarAddr, .scarData, .srPeriod, .srState,
   .srPos, .srPasses, .srFails, .rgnVcore, .rgnTj, .rgnState, .rgnXing, .rgnCtrl, .colPeriod, .colMismatch,
   .colPasses, .bayMapSel, .bayMap, .spareUsed, .bayFenced, .fencedHits, .wearShift, .wearLife, .pwrVin,
   .pwrIin, .pwrTotal, .thermTjMax, .thermLimit, .lcState]

/-- Objects of the map, part 5. -/
def objs5 : List Obj :=
  [.lcReq, .tamperCause, .tamperCnt, .tamperCfg, .keyState, .keyLoad, .debugState, .vaultBlk, .vaultAddr,
   .vaultData, .bootFails, .bootLimit, .fwActive, .fwVersion, .fwPolicy, .startRec, .fwUpdTarget,
   .fwUpdImage, .fwUpdState, .dbCodeSel, .dbCodeCfg, .roomBlk]

/-- Every object of the map. -/
def allObjs : List Obj := objs0 ++ objs1 ++ objs2 ++ objs3 ++ objs4 ++ objs5

/-- An object instance: the object, its instance number and the offset of its sub-index. -/
structure Place where
  obj : Obj
  inst : Nat
  off : Nat
  deriving DecidableEq, Repr

/-- The instance that an index names among an object's instances. -/
def Row.inst (r : Row) (index : Nat) : Option Nat :=
  if r.base ≤ index ∧ (index - r.base) % r.step = 0 ∧ (index - r.base) / r.step < r.count then
    some ((index - r.base) / r.step) else none

/-- An index is implemented when some object lies at it (R377). -/
def indexKnown (index : Nat) : Bool := allObjs.any fun o => (o.row.inst index).isSome

/-- The object at an index and sub-index (R377). -/
def findObj (index sub : Nat) : Option Place :=
  allObjs.findSome? fun o =>
    match o.row.inst index with
    | some i => if o.row.sub ≤ sub ∧ sub < o.row.sub + o.row.subs then some ⟨o, i, sub - o.row.sub⟩ else none
    | none => none

/-- Key of a register: index, sub-index and, for the objects that a selector spreads out, the selected entry. -/
def regKey (index sub ext : Nat) : Nat := (index * 256 + sub) * 65536 + ext

/-- Index of instance `i` of an object. -/
def Obj.index (o : Obj) (i : Nat) : Nat := o.row.base + i * o.row.step

/-- Key of instance `i`, offset `off` and entry `ext` of an object. -/
def Obj.key (o : Obj) (i : Nat := 0) (off : Nat := 0) (ext : Nat := 0) : Nat :=
  regKey (o.index i) (o.row.sub + off) ext

end Sys2Proof.Machine
end

