-- ==== Sys2Proof/Machine/Codes.lean ====
section
/-! DEFINITION. The record codes of the daybook with their default classes and rings (R370 and the code tables of
chapters 14, 15 and 16), and the abort codes of R339. -/

namespace Sys2Proof.Machine

/-- The ring a code goes to (R370). -/
inductive RingSel where
  | room | device | both | own
  deriving DecidableEq, Repr

/-- The record codes. -/
inductive Code where
  | srchReject | windowClash | progReject | lookupError | tallyHeld | tableReject | placeFail | rotaApplied
  | rotaReject | pfxSettled | pfxBuildDone | pfxBuildFail | pfxMode | pfxUncorr | bankRefused | learnReject
  | emWeed | emBacklog | emStampFix | tcmdReject | edAdvanced | edWindow | poolReject | allocRefused
  | poolXing | memReject | memUncorr | guarLoss | guarShed | guarReduced | guarDegraded | guarRestored
  | linkFail | linkDown | linkUp | linkReset | linkDiscard | linkDrop | linkRole | linkLimit | linkVersion
  | portAuthReject | casReject | casQuarantine | casStale | casLate | sesFail | sesEnd | dbusBusoff
  | dbusNodeClash | dbusSleep | dbusSleepCancel | accApplied | dbOverflow | faultRaise | faultClear
  | startBegin | startDone | startFail | minimalEnter | fwUpdateDone | fwUpdateFail | mirrorUsed
  | mirrorFail | tamper | tamperSeen | vaultLost | lcChanged | lcFail | keyLoaded | srRepair | srFail
  | srPinned | uncorrFound | uncorrRepaired | colFix | colShadow | bayFail | bayRebuilt | entryLost
  | fencedHit | bayReturned | bankTest | bankReturned | regionAlarm | regionHold | regionRelease | wear
  | mgmtRestart
  deriving DecidableEq, Repr

/-- Number, default class (0 INFO, 1 NOTICE, 2 ALARM, 3 FAULT) and ring of a code (R370). -/
def Code.info : Code → Nat × Nat × RingSel
  | .srchReject => (0x0101, 1, .room)
  | .windowClash => (0x0102, 2, .room)
  | .progReject => (0x0103, 1, .room)
  | .lookupError => (0x0104, 2, .room)
  | .tallyHeld => (0x0105, 2, .room)
  | .tableReject => (0x0201, 1, .room)
  | .placeFail => (0x0202, 1, .room)
  | .rotaApplied => (0x0203, 0, .device)
  | .rotaReject => (0x0204, 1, .device)
  | .pfxSettled => (0x0301, 0, .room)
  | .pfxBuildDone => (0x0302, 0, .room)
  | .pfxBuildFail => (0x0303, 2, .room)
  | .pfxMode => (0x0304, 0, .room)
  | .pfxUncorr => (0x0305, 3, .both)
  | .bankRefused => (0x0306, 1, .device)
  | .learnReject => (0x0401, 1, .room)
  | .emWeed => (0x0402, 0, .room)
  | .emBacklog => (0x0403, 2, .device)
  | .emStampFix => (0x0404, 1, .room)
  | .tcmdReject => (0x0501, 1, .room)
  | .edAdvanced => (0x0502, 0, .room)
  | .edWindow => (0x0503, 2, .room)
  | .poolReject => (0x0601, 1, .room)
  | .allocRefused => (0x0602, 1, .room)
  | .poolXing => (0x0603, 1, .room)
  | .memReject => (0x0604, 1, .room)
  | .memUncorr => (0x0605, 2, .room)
  | .guarLoss => (0x0701, 3, .device)
  | .guarShed => (0x0702, 3, .both)
  | .guarReduced => (0x0703, 2, .room)
  | .guarDegraded => (0x0704, 2, .room)
  | .guarRestored => (0x0705, 1, .room)
  | .linkFail => (0x0801, 2, .device)
  | .linkDown => (0x0802, 2, .device)
  | .linkUp => (0x0803, 0, .device)
  | .linkReset => (0x0804, 1, .device)
  | .linkDiscard => (0x0805, 1, .device)
  | .linkDrop => (0x0806, 1, .device)
  | .linkRole => (0x0807, 2, .device)
  | .linkLimit => (0x0808, 2, .device)
  | .linkVersion => (0x0809, 2, .device)
  | .portAuthReject => (0x080A, 1, .room)
  | .casReject => (0x0901, 1, .device)
  | .casQuarantine => (0x0902, 3, .device)
  | .casStale => (0x0903, 2, .device)
  | .casLate => (0x0904, 1, .device)
  | .sesFail => (0x0A01, 2, .device)
  | .sesEnd => (0x0A02, 0, .device)
  | .dbusBusoff => (0x0A03, 2, .device)
  | .dbusNodeClash => (0x0A04, 2, .device)
  | .dbusSleep => (0x0A05, 0, .device)
  | .dbusSleepCancel => (0x0A06, 0, .device)
  | .accApplied => (0x0A10, 0, .device)
  | .dbOverflow => (0x0A11, 1, .own)
  | .faultRaise => (0x0A12, 3, .device)
  | .faultClear => (0x0A13, 1, .device)
  | .startBegin => (0x0B01, 0, .device)
  | .startDone => (0x0B02, 0, .device)
  | .startFail => (0x0B03, 3, .device)
  | .minimalEnter => (0x0B04, 3, .device)
  | .fwUpdateDone => (0x0B05, 1, .device)
  | .fwUpdateFail => (0x0B06, 2, .device)
  | .mirrorUsed => (0x0B07, 2, .device)
  | .mirrorFail => (0x0B08, 2, .device)
  | .tamper => (0x0C01, 3, .device)
  | .tamperSeen => (0x0C02, 3, .device)
  | .vaultLost => (0x0C03, 2, .device)
  | .lcChanged => (0x0C04, 1, .device)
  | .lcFail => (0x0C05, 2, .device)
  | .keyLoaded => (0x0C06, 0, .device)
  | .srRepair => (0x0D01, 1, .device)
  | .srFail => (0x0D02, 2, .device)
  | .srPinned => (0x0D03, 2, .device)
  | .uncorrFound => (0x0D04, 2, .device)
  | .uncorrRepaired => (0x0D05, 1, .device)
  | .colFix => (0x0D06, 1, .device)
  | .colShadow => (0x0D07, 1, .device)
  | .bayFail => (0x0D08, 3, .device)
  | .bayRebuilt => (0x0D09, 1, .device)
  | .entryLost => (0x0D0A, 2, .room)
  | .fencedHit => (0x0D0B, 2, .device)
  | .bayReturned => (0x0D0C, 1, .device)
  | .bankTest => (0x0D0D, 0, .device)
  | .bankReturned => (0x0D0E, 0, .device)
  | .regionAlarm => (0x0D0F, 2, .device)
  | .regionHold => (0x0D10, 3, .device)
  | .regionRelease => (0x0D11, 1, .device)
  | .wear => (0x0D12, 1, .device)
  | .mgmtRestart => (0x0D13, 2, .device)

/-- The number of a code. -/
def Code.num (c : Code) : Nat := c.info.1

/-- Every code. -/
def allCodes : List Code :=
  [.srchReject, .windowClash, .progReject, .lookupError, .tallyHeld, .tableReject, .placeFail,
   .rotaApplied, .rotaReject, .pfxSettled, .pfxBuildDone, .pfxBuildFail, .pfxMode, .pfxUncorr,
   .bankRefused, .learnReject, .emWeed, .emBacklog, .emStampFix, .tcmdReject, .edAdvanced, .edWindow,
   .poolReject, .allocRefused, .poolXing, .memReject, .memUncorr, .guarLoss, .guarShed, .guarReduced,
   .guarDegraded, .guarRestored, .linkFail, .linkDown, .linkUp, .linkReset, .linkDiscard, .linkDrop,
   .linkRole, .linkLimit, .linkVersion, .portAuthReject, .casReject, .casQuarantine, .casStale, .casLate,
   .sesFail, .sesEnd, .dbusBusoff, .dbusNodeClash, .dbusSleep, .dbusSleepCancel, .accApplied, .dbOverflow,
   .faultRaise, .faultClear, .startBegin, .startDone, .startFail, .minimalEnter, .fwUpdateDone,
   .fwUpdateFail, .mirrorUsed, .mirrorFail, .tamper, .tamperSeen, .vaultLost, .lcChanged, .lcFail,
   .keyLoaded, .srRepair, .srFail, .srPinned, .uncorrFound, .uncorrRepaired, .colFix, .colShadow, .bayFail,
   .bayRebuilt, .entryLost, .fencedHit, .bayReturned, .bankTest, .bankReturned, .regionAlarm, .regionHold,
   .regionRelease, .wear, .mgmtRestart]

/-- The code of a number, where one is assigned (R492). -/
def codeOf (n : Nat) : Option Code := allCodes.find? fun c => c.num == n

/-! ### Abort codes (R339, R418, R436, R461) -/

namespace Ab
abbrev timeout : Nat := 0x01
abbrev noObject : Nat := 0x02
abbrev noSubindex : Nat := 0x03
abbrev readOnly : Nat := 0x04
abbrev writeOnly : Nat := 0x05
abbrev mbxOnly : Nat := 0x06
abbrev typeLength : Nat := 0x07
abbrev range : Nat := 0x08
abbrev access : Nat := 0x09
abbrev noSession : Nat := 0x0A
abbrev mac : Nat := 0x0B
abbrev session : Nat := 0x0C
abbrev noKey : Nat := 0x0D
abbrev sessionFull : Nat := 0x0E
abbrev sequence : Nat := 0x0F
abbrev segSize : Nat := 0x10
abbrev locked : Nat := 0x11
abbrev superseded : Nat := 0x12
abbrev postedBusy : Nat := 0x13
abbrev cmdBusy : Nat := 0x14
abbrev dieHeld : Nat := 0x15
abbrev minimal : Nat := 0x16
abbrev badPdu : Nat := 0x17
abbrev firmware : Nat := 0x18
abbrev eventPending : Nat := 0x19
abbrev transferOpen : Nat := 0x1A
abbrev badProgram : Nat := 0x20
abbrev badTable : Nat := 0x21
abbrev badRota : Nat := 0x22
abbrev badPool : Nat := 0x23
abbrev badCascade : Nat := 0x24
abbrev allotInUse : Nat := 0x25
abbrev shareOver : Nat := 0x26
abbrev reducing : Nat := 0x27
abbrev modeBusy : Nat := 0x30
abbrev modeNotReady : Nat := 0x31
abbrev modeRota : Nat := 0x32
abbrev bankInUse : Nat := 0x33
abbrev edExpect : Nat := 0x38
abbrev edWindow : Nat := 0x39
abbrev casFenced : Nat := 0x3C
abbrev imageActive : Nat := 0x40
abbrev updNotReady : Nat := 0x41
abbrev imageHeader : Nat := 0x42
abbrev imageDigest : Nat := 0x43
abbrev imageKey : Nat := 0x44
abbrev imageSig : Nat := 0x45
abbrev flashErr : Nat := 0x46
abbrev noFwKey : Nat := 0x47
abbrev lcTransition : Nat := 0x50
abbrev tamperActive : Nat := 0x51
abbrev lcScrapped : Nat := 0x52
abbrev lcKeys : Nat := 0x53
abbrev vaultUncorr : Nat := 0x54
abbrev regionLimit : Nat := 0x60
abbrev notHeld : Nat := 0x61
end Ab

end Sys2Proof.Machine
end

