-- ==== Sys2Proof/Machine/Ops.lean ====
section
/-! DEFINITION. The named operations that the meanings share: the register files of the catalogue, time and free values,
the daybook, pins and regions, the outbound queues of the ports, instructions in flight and edition floors. -/

namespace Sys2Proof.Machine

/-! ### Registers of the catalogue -/

/-- Default of a rota entry: MAINT in phase 0, IDLE in the others (R98). -/
def rotaDefault (ext : Nat) : Nat := if ext % 64 = 0 then 0x4000 else 0

/-- Default of an object by its key (R317 and the default columns of the map); 0 where the column says 0, and where
it gives no value (log 3). -/
def regDefault (k : Nat) : Nat :=
  let idx := k / 16777216
  let sub := k / 65536 % 256
  let ext := k % 65536
  if 0x3000 ≤ idx ∧ idx ≤ 0x3F00 then
    (if sub = 0x10 ∨ sub = 0x14 ∨ sub = 0x15 then 1 else if sub = 0x09 then 4 else 0)
  else if idx = 0x4000 then (if sub = 1 then 64 else if sub = 3 then rotaDefault ext else 0)
  else if idx = 0x4400 then (if sub = 2 then 1000 else if sub = 3 then 1 else 0)
  else if 0x5100 ≤ idx ∧ idx ≤ 0x511F then (if sub = 7 then 64 else 0)
  else if idx = 0x2100 then (if sub = 5 then 100 else if sub = 6 then 2 else 0)
  else if 0x9100 ≤ idx ∧ idx ≤ 0x9110 then (if sub = 8 then 0xA000 else 0)
  else if idx = 0x9000 then (if sub = 2 then (match codeOf ext with | some c => c.info.2.1 | none => 0) else 0)
  else if idx = 0x8000 then (if sub = 2 then 0x3FF else 0)
  else if idx = 0x7300 then (if sub = 1 then 24 else 0)
  else if idx = 0x8300 then (if sub = 1 then 600 else 0)
  else if idx = 0x8600 then (if sub = 5 then 100000 else 0)
  else if idx = 0x4300 then 2097152
  else if idx = 0x1000 then (if sub = 3 then 0x6440 else 0)
  else if idx = 0xA000 then (if sub = 5 then 0x1F else 0)
  else 0

/-- The value of a register that is not shadowed. -/
def State.reg (s : State) (o : Obj) (i : Nat := 0) (off : Nat := 0) (ext : Nat := 0) : Nat :=
  sget regDefault s.cat.regs (o.key i off ext)

/-- Writes a register that is not shadowed. -/
def State.setReg (s : State) (o : Obj) (i off ext v : Nat) : State :=
  { s with cat := { s.cat with regs := sput regDefault s.cat.regs (o.key i off ext) v } }

/-- Adds to a U32 counter, which wraps (R358). -/
def State.bumpBy (s : State) (n : Nat) (o : Obj) (i : Nat := 0) (off : Nat := 0) : State :=
  s.setReg o i off 0 (wrapAdd 32 (s.reg o i off) n)

/-- Adds 1 to a U32 counter (R358). -/
def State.bump (s : State) (o : Obj) (i : Nat := 0) (off : Nat := 0) : State := s.bumpBy 1 o i off

/-- The value in force of a shadowed object, in a view of the configuration (R33, R350). -/
def View.obj (v : View) (o : Obj) (i : Nat := 0) (off : Nat := 0) (ext : Nat := 0) : Nat :=
  sget regDefault v.force (o.key i off ext)

/-- Physical bay of a logical bay after reset (R17). -/
def bayDefault (l : Nat) : Nat := 17 * (l / 16) + l % 16

/-- The physical bay of a logical bay in a view, if it has one (R17, R18); 0xFF stands for none. -/
def View.phys (v : View) (l : Nat) : Option Nat :=
  let b := sget bayDefault v.bayMap l
  if b = 0xFF then none else some b

/-- The configuration now in force. -/
def State.view (s : State) : View := ⟨s.cat.force, s.bays.bayMap⟩

/-- The staged value of a shadowed key: what was staged, what an accession takes that has not yet switched, else what is in
force (R350). -/
def State.stagedKey (s : State) (k : Nat) : Nat :=
  sget (fun a => sget (fun b => sget regDefault s.cat.force b) s.cat.acc.staged a) s.cat.staged k

/-- Writes a staged value, which stays the key's whatever is in force (R350). -/
def State.stage (s : State) (k v : Nat) : State :=
  { s with cat := { s.cat with staged := sput (fun _ => v + 1) s.cat.staged k v } }

/-- Brings values into force (R33, R354). -/
def State.enforce (s : State) (vals : Store Nat) : State :=
  { s with cat := { s.cat with force := vals.foldl (fun m e => sput regDefault m e.1 e.2) s.cat.force } }

/-! ### Time and free values -/

/-- Draws the next free value (log 7). -/
def State.drawn (s : State) : Nat := Config.freeNat s.free

/-- Advances the free-value counter. -/
def State.draw (s : State) : State := { s with free := s.free + 1 }

/-- Moves the clock to the cycle in which a due event happens (log 1). -/
def State.at (s : State) (due : Nat) : State := { s with now := max s.now due }

/-! ### Regions and dies (R25, R30) -/

/-- State of region `d` (0 to 3 search dies, 4 hub core). -/
def State.region (s : State) (d : Nat) : Region := sget (fun _ => Region.reset) s.health.regions d

/-- Writes the state of a region. -/
def State.setRegion (s : State) (d : Nat) (r : Region) : State :=
  { s with health := { s.health with regions := sput (fun _ => Region.reset) s.health.regions d r } }

/-- The intake of die `d` is held, or the die is held in reset (R30, R279). -/
def State.dieHeld (s : State) (d : Nat) : Bool := (s.region d).held || (s.region d).inReset || !s.dev.diesUp

/-- Some search die is held. -/
def State.anyHeld (s : State) : Bool := [0, 1, 2, 3].any s.dieHeld

/-- The die of a port (R16). -/
def dieOfPort (p : Nat) : Nat := p / 8

/-- The die of a physical bay (R16). -/
def dieOfBay (b : Nat) : Nat := b / 17

/-- The die of a rota unit (R97). -/
def dieOfUnit (u : Nat) : Nat := if u < 64 then u / 16 else if u < 68 then u - 64 else (u - 68) / 2

/-- The die of a block of the associated-data store (R201). -/
def dieOfBlock (b : Nat) : Nat := b / 1048576

/-- The die of a carrel word (R223). -/
def dieOfWord (w : Nat) : Nat := w / 8 % 4

/-! ### Ports -/

/-- State of port `p`. -/
def State.port (s : State) (p : Nat) : Port := sget (fun _ => Port.reset) s.ports p

/-- Writes the state of a port. -/
def State.setPort (s : State) (p : Nat) (q : Port) : State :=
  { s with ports := sput (fun _ => Port.reset) s.ports p q }

/-- A SEARCH or CANDIDATE frame reaches its consumer: the cycle of its last granule. A frame that no FRAME_RECEIVE left
on the way had its last granule `age` cycles ago (log 75). -/
def State.fromLink (s : State) (p : Nat) (f : Frame) (age : Nat) : Nat × State :=
  let q := s.port p
  match q.inbound.find? fun e => e.2 = f with
  | some e => (e.1, s.setPort p { q with inbound := eraseFirst (fun x => x = e) q.inbound })
  | none => (s.now - age, s)

/-- The role of a port in force (R255): 0 OFF, 1 HOST, 2 CASCADE. -/
def State.role (s : State) (p : Nat) : Nat := s.view.obj .portRole p % 4

/-- Granules of a frame as it is built. -/
def frameLen (f : Frame) : Nat := 1 + f.body.length

/-- Gives a frame its LINK field (R264): TYPE, CLASS and the number of its granules. -/
def linkFrame (ty cls : Nat) (f : Frame) : Frame :=
  ⟨BitVec.ofNat 128 (pack [(4, ty), (2, cls), (5, frameLen f), (5, 0)] * 2 ^ 112 + f.hdr.toNat % 2 ^ 112), f.body⟩

/-- A port keeps frames that wait to be sent: it is up, held, or back in HELLO after it was up (R262, R279). -/
def Port.keeps (q : Port) : Bool :=
  match q.st with
  | .up => true
  | .held => true
  | .hello => q.everUp
  | _ => false

/-- An outbound frame is discarded, and counted when the port has left UP (R262, R280). -/
def State.txDrop (s : State) (p : Nat) : State := if (s.port p).everUp then s.bump .portTxDiscard p else s

/-- Queues an outbound frame of class 1; on a port that keeps none it is discarded (R262). -/
def State.send1 (s : State) (p : Nat) (f : Frame) (done : TxDone := .none) : State :=
  let q := s.port p
  if q.keeps then s.setPort p { q with tx1 := q.tx1 ++ [⟨f, done⟩] } else s.txDrop p

/-- Queues a CANDIDATE frame, likewise. -/
def State.send2 (s : State) (p : Nat) (f : Frame) (done : TxDone := .none) : State :=
  let q := s.port p
  if q.keeps then s.setPort p { q with txc := q.txc ++ [⟨f, done⟩] } else s.txDrop p

/-- Queues an outbound frame of class 3, likewise. -/
def State.send3 (s : State) (p : Nat) (f : Frame) : State :=
  let q := s.port p
  if q.keeps then s.setPort p { q with tx3 := q.tx3 ++ [⟨f, .none⟩] } else s.txDrop p

/-! ### Daybook (R363 to R374) -/

/-- Kinds of SOURCE (R364): search die, port, hub block and management firmware. -/
abbrev srcDie (d : Nat) : Nat := d
abbrev srcPort (p : Nat) : Nat := 0x40 + p
abbrev srcHub (b : Nat) : Nat := 0x80 + b
abbrev srcFw : Nat := 0xC0
abbrev hubArbiter : Nat := srcHub 0
abbrev hubPool : Nat := srcHub 1
abbrev hubDaybook : Nat := srcHub 2
abbrev hubMerge : Nat := srcHub 3
abbrev hubPower : Nat := srcHub 4
abbrev hubDbus : Nat := srcHub 5
abbrev hubMaint : Nat := srcHub 6

/-- SOURCE of a code that the spec assigns to no block: a free value (R364; log 21). -/
def srcOpen (c : Code) : Nat := (Config.recordSource c.num).toNat

/-- State of ring `r`. -/
def State.ring (s : State) (r : Nat) : Ring := sget (fun _ => Ring.empty) s.rings r

/-- Writes the state of a ring. -/
def State.setRing (s : State) (r : Nat) (g : Ring) : State :=
  { s with rings := sput (fun _ => Ring.empty) s.rings r g }

/-- CLASS and FW of a code as configured (R370). -/
def State.codeCfg (s : State) (c : Code) : Nat := s.reg .dbCodeCfg 0 0 c.num

/-- DETAIL from its fields, packed from bit 142 downward (R489). -/
def detailOf (fs : List (Nat × Nat)) : BitVec 143 :=
  BitVec.ofNat 143 (pack fs * 2 ^ (143 - (fs.map Prod.fst).sum))

/-- Counts saturate at the largest value of their field (R489). -/
def satTo (w n : Nat) : Nat := min n (2 ^ w - 1)

/-- The records of a ring that still wait in its merge queue (R365; log 20). -/
def Ring.waiting (g : Ring) (now : Nat) : Nat := g.placed - now

/-- How many records stay behind the new one: those of the same TIME from a higher SOURCE (R365), but not DB_OVERFLOW, which
comes before every record of its cycle (R367, R376). -/
def laterThan (x : Rec) : List Rec → Nat
  | [] => 0
  | y :: t =>
    if y.time = x.time ∧ x.source.toNat < y.source.toNat ∧ y.code.toNat ≠ Code.dbOverflow.num then 1 + laterThan x t else 0

/-- SEQ of the record that a new record takes the place of, counted from RSEQ. -/
def Ring.place (g : Ring) (x : Rec) : Nat := g.recs.length - laterThan x g.recs.reverse

/-- Moves the pushes of a ring at or after a SEQ one place on. -/
def shiftPush (ring : Nat) (seq : BitVec 16) (l : List Push) : List Push :=
  l.map fun p => if p.ring = ring ∧ (p.seq - seq).toNat < 32768 then { p with seq := p.seq + 1 } else p

/-- Adds a push behind the earlier ones of its ring and before its later ones. -/
def addPush (x : Push) (l : List Push) : List Push :=
  let l := shiftPush x.ring x.seq l
  let later := l.filter fun p => decide (p.ring = x.ring ∧ x.seq ≠ p.seq ∧ (p.seq - x.seq).toNat < 32768)
  match later with
  | [] => l ++ [x]
  | y :: _ => l.flatMap fun p => if p = y then [x, y] else [p]

/-- Records of a ring not pushed on a port since its last EVENT frame, saturating (R372). -/
def Port.loseRec (q : Port) (ring : Nat) : Port :=
  { q with lost := sput (fun _ => 0) q.lost ring (min 0xFFFF (sget (fun _ => 0) q.lost ring + 1)) }

/-- A push becomes due on the dictionary bus: queued up to 64, else counted; asleep it asks for a wake (R342, R373). -/
def Bus.pushRec (b : Bus) (x : Push) : Bus :=
  let b := if b.push.length < 64 then { b with push := addPush x b.push } else { b with withheld := b.withheld + 1 }
  match b.sleep with
  | .awake => b
  | .waking => b
  | _ => { b with wakeDue := true, wakeRec := match b.wakeRec with | some r => some r | none => some (x.ring, x.seq.toNat) }

/-- Delivers a record just written on the paths that its ring enables for its class (R371 to R373). -/
def State.deliver (s : State) (ring : Nat) (seq : BitVec 16) (x : Rec) : State :=
  let cfg := s.reg .dbCfg ring
  let s :=
    if nbit cfg 31 && decide (bits cfg 21 20 ≤ x.cls.toNat) then
      let p := bits cfg 28 24
      let q := s.port p
      if q.st = .up ∧ s.role p = 1 ∧ q.push.length < 64 then s.setPort p { q with push := addPush ⟨ring, seq, x⟩ q.push }
      else s.setPort p (q.loseRec ring)
    else s
  if nbit cfg 19 && decide (bits cfg 17 16 ≤ x.cls.toNat) then { s with bus := s.bus.pushRec ⟨ring, seq, x⟩ } else s

/-- The records dropped in an earlier cycle join the number dropped (R366). -/
def Ring.settled (g : Ring) (now : Nat) : Ring :=
  let gone := (g.late.filter fun e => decide (e.1 < now)).map Prod.snd
  match gone.getLast? with
  | none => g
  | some y => { g with dropped := g.dropped + gone.length, lastDrop := y.time.toNat,
                       firstDrop := if g.dropped = 0 then (gone.headD y).time.toNat else g.firstDrop,
                       late := g.late.filter fun e => decide (now ≤ e.1) }

/-- Records of the merge queue that will find the ring full (R365, R366). -/
def Ring.lateWaiting (g : Ring) (now : Nat) : Nat := (g.late.filter fun e => decide (now < e.1)).length

/-- The cycle in which a ring takes the newest record of its merge queue (R365). -/
def Ring.last (g : Ring) : Nat := (g.late.map Prod.fst).foldl max g.placed

/-- A record arrives at a ring: it gets a place in TIME and SOURCE order, or is held apart with the cycle in which it finds
the queue or the ring full and is dropped, and is counted (R365, R366). -/
def State.toRing (s : State) (r : Nat) (x : Rec) : State :=
  let g := (s.ring r).settled s.now
  if 32 ≤ g.waiting s.now + g.lateWaiting s.now then
    (s.setRing r { g with late := g.late ++ [(s.now, x)] }).bump .dbDropped r
  else if 1024 ≤ g.recs.length then
    (s.setRing r { g with late := g.late ++ [(max s.now (g.last + 1), x)] }).bump .dbDropped r
  else
    let k := g.place x
    let g' := { g with recs := g.recs.take k ++ x :: g.recs.drop k, placed := max s.now (g.placed + 1) }
    (s.setRing r g').deliver r (g.rseq + BitVec.ofNat 16 k) x

/-- A wake cause of the management core (R27). -/
def State.wakeMgmt (s : State) : State := { s with dev := { s.dev with mclk := true, lastWake := some s.now } }

/-- Writes a daybook record (R364, R370): to the ring of the room concerned, the device ring, or both. -/
def State.record (s : State) (c : Code) (room : Option Nat) (source : Nat) (fields : List (Nat × Nat))
    (dir : Nat := 0) : State :=
  let cfg := s.codeCfg c
  let x : Rec := ⟨BitVec.ofNat 64 s.now, BitVec.ofNat 16 c.num, BitVec.ofNat 8 source,
    BitVec.ofNat 4 (room.getD 0), room.isSome, BitVec.ofNat 2 cfg, BitVec.ofNat 2 dir, detailOf fields⟩
  let s :=
    match c.info.2.2, room with
    | .room, some r => s.toRing r x
    | .both, some r => (s.toRing r x).toRing 16 x
    | _, _ => s.toRing 16 x
  if nbit cfg 2 || c = .guarLoss then s.wakeMgmt else s

/-- Image of a record with its SEQ (R364). -/
def Rec.image (x : Rec) (seq : BitVec 16) : BitVec 256 :=
  BitVec.ofNat 256 (pack [(64, x.time.toNat), (16, seq.toNat), (16, x.code.toNat), (8, x.source.toNat),
    (4, x.room.toNat), (1, b2n x.roomv), (2, x.cls.toNat), (2, x.dir.toNat), (143, x.detail.toNat)])

/-- The record of a ring with a given SEQ, if it is unacknowledged. -/
def Ring.find (g : Ring) (seq : BitVec 16) : Option Rec := g.recs[(seq - g.rseq).toNat]?

/-- WSEQ: the SEQ that the next record will take, records still waiting not counted (R368; log 20). -/
def Ring.wseq (g : Ring) (now : Nat) : BitVec 16 := g.rseq + BitVec.ofNat 16 (g.recs.length - g.waiting now)

/-- Writes DB_OVERFLOW into the space freed, before any record not placed in an earlier cycle (R367, R376). -/
def State.overflow (s : State) (r : Nat) : State :=
  let g := s.ring r
  let k := g.recs.length - (g.placed + 1 - s.now)
  let t := match g.recs[k]?.or (g.late.head?.map Prod.snd) with | some y => min s.now y.time.toNat | none => s.now
  let cfg := s.codeCfg .dbOverflow
  let x : Rec := ⟨BitVec.ofNat 64 t, BitVec.ofNat 16 Code.dbOverflow.num, BitVec.ofNat 8 hubDaybook,
    BitVec.ofNat 4 (if r < 16 then r else 0), decide (r < 16), BitVec.ofNat 2 cfg, 0,
    detailOf [(32, satTo 32 g.dropped), (64, g.firstDrop), (47, g.lastDrop)]⟩
  let g := { g with recs := g.recs.take k ++ x :: g.recs.drop k, dropped := 0, placed := max s.now (g.placed + 1) }
  let s := (s.setRing r g).deliver r (g.rseq + BitVec.ofNat 16 k) x
  if nbit cfg 2 then s.wakeMgmt else s

/-- Acknowledges the records before `seq` and frees their slots: DB_OVERFLOW takes the first when records were dropped
(R367, R369), and the records that would have found the ring full in this cycle or a later one arrive again, because the
acknowledgement comes first (R376). -/
def State.ackRing (s : State) (r : Nat) (seq : BitVec 16) : State :=
  let g := (s.ring r).settled s.now
  let n := (seq - g.rseq).toNat
  let s := s.setRing r { g with rseq := seq, recs := g.recs.drop n }
  if n = 0 then s
  else
    let s := if g.dropped = 0 then s else s.overflow r
    let s := s.setRing r { s.ring r with late := [] }
    let s := if g.late.isEmpty then s
      else s.setReg .dbDropped r 0 0 ((s.reg .dbDropped r + 2 ^ 32 - g.late.length % 2 ^ 32) % 2 ^ 32)
    g.late.foldl (fun s e => s.toRing r e.2) s

/-! ### Rooms and editions (R63, R191, R192) -/

/-- Current edition of a room. -/
def State.current (s : State) (room : Nat) : Edition := BitVec.ofNat 16 (s.reg .edCurrent room)

/-- The instructions of a room in flight. -/
def State.flightOf (s : State) (room : Nat) : List Inflight := s.search.flight.filter fun i => i.room = room

/-- The earlier of two editions in the window (R64). -/
def edMin (a b : Edition) : Edition := if edLe a b then a else b

/-- The instruction stands for a rejected replica (R290): it was not accepted and holds no tag. -/
def Inflight.rejected (x : Inflight) : Bool := match x.cas with | some c => decide (c.status ≠ 0) | none => false

/-- Editions of the accepted instructions of a room whose last result granule has not been sent (R191). -/
def State.editionsOf (s : State) (room : Nat) : List Edition :=
  ((s.flightOf room).filter fun x => !x.rejected).map (·.edition) ++
    ((s.search.tails.filter fun x => x.room = room ∧ s.now < x.last).map (·.edition))

/-- The oldest edition that an instruction of the room in flight holds; the current one when none is in flight (R191). -/
def State.drain (s : State) (room : Nat) : Edition := (s.editionsOf room).foldl (fun e i => edMin i e) (s.current room)

/-- The floor of a room (R124, R192). -/
def State.floor (s : State) (room : Nat) : Edition :=
  edMin (s.current room - BitVec.ofNat 16 (s.reg .edPinLag room)) (s.drain room)

/-- An entry with these fields is live for edition `e` (R64). -/
def liveAt (direct valid rset : Bool) (first retiring e : Edition) : Bool :=
  if direct then valid else edLe first e && !(rset && edLe retiring e)

/-! ### Device numbers (R6, R308) -/

/-- The state of a table number. -/
def State.table (s : State) (t : Nat) : Table := sget (fun _ => Table.none) s.tables t

/-- Writes the state of a table number. -/
def State.setTable (s : State) (t : Nat) (x : Table) : State :=
  { s with tables := sput (fun _ => Table.none) s.tables t x }

end Sys2Proof.Machine
end

