-- ==== Sys2Proof/Machine/Operands.lean ====
section
/-! DEFINITION. The operand forms: descriptors of programs, tables and pools as decoded fields (R35, R50 to R58, R77 to
R79, R98, R110 to R112, R141, R207), entries and the keys that templates read. -/

namespace Sys2Proof.Machine

/-! ### Programs -/

/-- A program header (R50). `stages` is NSTAGES + 1. -/
structure ProgHdr where
  room : Nat
  enable : Bool
  stages : Nat
  endOnErr : Bool
  minlen : Nat
  pgen : Nat
  portmask : Nat
  deriving DecidableEq, Repr

def View.prog (v : View) (p : Nat) : ProgHdr :=
  let h := v.obj .progHdr p
  ⟨bits h 127 124, nbit h 123, bits h 122 121 + 1, nbit h 120, bits h 119 112, bits h 111 108, bits h 95 64⟩

/-- A lookup descriptor (R51). `segs` is NSEG + 1. -/
structure Lkp where
  valid : Bool
  kind : Nat
  table : Nat
  miss : Nat
  report : Nat
  carry : Bool
  condEn : Bool
  condLkp : Nat
  condSense : Bool
  defptr : Nat
  deflen : Nat
  segs : Nat
  deriving DecidableEq, Repr

def View.lkp (v : View) (p i : Nat) : Lkp :=
  let d := v.obj .progLkp p i
  ⟨nbit d 63, bits d 62 61, bits d 60 53, bits d 52 50, bits d 49 48, nbit d 47, nbit d 46, bits d 45 42, nbit d 41,
    bits d 40 19, bits d 18 16, bits d 15 13 + 1⟩

/-- The valid lookups of a program in ascending index. -/
def View.lkps (v : View) (p : Nat) : List Nat := (List.range 16).filter fun i => (v.lkp p i).valid

/-- A segment descriptor (R52). -/
structure Seg where
  src : Nat
  offset : Nat
  len : Nat
  deriving DecidableEq, Repr

def View.seg (v : View) (p i q : Nat) : Seg :=
  let d := v.obj .progSeg p (8 * i + q)
  ⟨bits d 31 28, bits d 27 17, bits d 16 7⟩

/-- A tally descriptor (R58). -/
structure TallyDesc where
  en : Bool
  alkp : Nat
  aoff : Nat
  imode : Nat
  ioff : Nat
  iconst : Nat
  deriving DecidableEq, Repr

def View.tally (v : View) (p s : Nat) : TallyDesc :=
  let d := v.obj .progTally p s
  ⟨nbit d 63, bits d 62 59, bits d 58 51, bits d 50 49, bits d 48 38, bits d 37 22⟩

/-- Program latency L of R43 by number of stages. -/
def latency (stages : Nat) : Nat := 112 + 88 * (stages - 1)

/-! ### Tables -/

/-- ROOM, EXISTS and KIND of a table, at the same bits for every kind (R387). -/
structure TblHdr where
  room : Nat
  present : Bool
  kind : Nat
  deriving DecidableEq, Repr

def View.tbl (v : View) (t : Nat) : TblHdr :=
  let h := v.obj .tblHdr t
  ⟨bits h 127 124, nbit h 123, bits h 122 121⟩

/-- A ternary table descriptor (R77 to R79). `k` atoms to an entry, `g` bays to a copy; `selpos` and `copies` list the
positions and first bays in use; `rmax` is the largest replica count. -/
structure Trn where
  k : Nat
  direct : Bool
  selcnt : Nat
  seed : Nat
  base : Nat
  nbkt : Nat
  nopen : Nat
  region : Nat
  gsize : Nat
  ncopy : Nat
  rmax : Nat
  selpos : List Nat
  copies : List Nat
  deriving DecidableEq, Repr

def Trn.g (d : Trn) : Nat := 2 ^ d.gsize

def View.trn (v : View) (t : Nat) : Trn :=
  let h := v.obj .tblHdr t / 2 ^ 64
  let sw := v.obj .trnSelword t
  let cw := v.obj .trnCopyword t
  ⟨2 ^ bits h 56 55, nbit h 54, bits h 53 50, bits h 49 38, bits h 37 32, bits h 31 26, bits h 25 23, bits h 22 20,
    bits h 19 17, bits h 16 13 + 1, bits h 12 10 + 1,
    (List.range (min 12 (bits h 53 50))).map fun i => bits sw (127 - 10 * i) (118 - 10 * i),
    (List.range (bits h 16 13 + 1)).map fun c => bits cw (127 - 8 * c) (120 - 8 * c)⟩

/-- The logical bays of a copy (R80). -/
def Trn.bays (d : Trn) (c : Nat) : List Nat := (List.range d.g).map fun j => d.copies.getD c 0 + j

/-- Every logical bay of every copy. -/
def Trn.allBays (d : Trn) : List Nat := (List.range d.ncopy).flatMap d.bays

/-- First mat of bucket or open set `i` (R80): buckets are 0 to NBKT − 1, open set o is NBKT + o. -/
def Trn.mat (d : Trn) (i : Nat) : Nat := d.base + d.k * i

/-- A prefix table descriptor (R110 to R112). -/
structure Pfx where
  w : Nat
  direct : Bool
  span : Nat
  ncopy : Nat
  slices : List Nat
  initHash : Bool
  keep : Bool
  auto : Bool
  groups : List (Nat × Nat)
  filtlen : Nat
  seed : Nat
  strides : List Nat
  deriving DecidableEq, Repr

def Pfx.g (d : Pfx) : Nat := 2 ^ d.span

def View.pfx (v : View) (t : Nat) : Pfx :=
  let h := v.obj .tblHdr t
  let st := v.obj .pfxStride t
  ⟨32 * 2 ^ bits h 120 119, nbit h 118, bits h 117 116, bits h 115 114 + 1,
    (List.range (bits h 115 114 + 1)).map fun c => bits h (113 - 2 * c) (112 - 2 * c),
    nbit h 105, nbit h 104, nbit h 103,
    (List.range (bits h 102 99 + 1)).map fun i =>
      let w := v.obj .pfxGroup t i
      (bits w 31 24, bits w 23 19),
    bits h 98 93, bits h 92 61,
    (List.range 10).map fun l => bits st (63 - 5 * l) (59 - 5 * l)⟩

/-- The slices of a copy (R114). -/
def Pfx.copySlices (d : Pfx) (c : Nat) : List Nat := (List.range d.g).map fun j => d.slices.getD c 0 + j

/-- An exact-match table descriptor (R141). -/
structure EmDesc where
  wide : Bool
  w : Nat
  inline : Bool
  span : Nat
  ncopy : Nat
  slices : List Nat
  nblog : Nat
  base : Nat
  weed : Nat
  learn : Bool
  nport : Nat
  nmask : Nat
  seed : Nat
  deriving DecidableEq, Repr

def EmDesc.g (d : EmDesc) : Nat := 2 ^ d.span

def View.em (v : View) (t : Nat) : EmDesc :=
  let h := v.obj .tblHdr t
  ⟨nbit h 120, bits h 119 112, nbit h 111, bits h 110 109, bits h 108 107 + 1,
    (List.range (bits h 108 107 + 1)).map fun c => bits h (106 - 2 * c) (105 - 2 * c),
    bits h 98 94, bits h 93 78, bits h 77 76, nbit h 75, bits h 74 70, bits h 69 67, bits h 66 35⟩

def EmDesc.copySlices (d : EmDesc) (c : Nat) : List Nat := (List.range d.g).map fun j => d.slices.getD c 0 + j

/-- Key width of a table (R54), with the number of its table copies. -/
def View.keyWidth (v : View) (t : Nat) : Nat :=
  match (v.tbl t).kind with
  | 0 => 80 * (v.trn t).k
  | 1 => (v.pfx t).w
  | _ => (v.em t).w

/-! ### Rota -/

/-- The number of phases P in force (R98). -/
def View.phases (v : View) : Nat := v.obj .rotaPhases

/-- The rota entry of a unit at a phase (R98). -/
def View.rota (v : View) (u phi : Nat) : Nat := v.obj .rotaData 0 0 (u * 64 + phi)

abbrev rotaKind (e : Nat) : Nat := bits e 15 14
abbrev rotaPort (e : Nat) : Nat := bits e 13 9
abbrev rotaLkp (e : Nat) : Nat := bits e 8 5
abbrev rotaRegion (e : Nat) : Nat := bits e 4 2
abbrev rotaMaint : Nat := 0x4000
abbrev rotaIdle : Nat := 0

/-- A LANE entry (R98). -/
def rotaLane (port lkp region : Nat) : Nat := pack [(2, 2), (5, port), (4, lkp), (3, region), (2, 0)]

/-- The entry carries lane (port, lookup index), in whatever region. -/
def onLane (e port lkp : Nat) : Bool := rotaKind e = 2 && rotaPort e = port && rotaLkp e = lkp

/-! ### Pools -/

/-- A pool descriptor (R207). -/
structure Pool where
  room : Nat
  present : Bool
  owner : Bool
  rclass : Nat
  base : Nat
  size : Nat
  notice : Nat
  restrain : Nat
  stop : Nat
  hyst : Nat
  deriving DecidableEq, Repr

def Pool.of (d : Nat) : Pool :=
  ⟨bits d 127 124, nbit d 123, nbit d 122, bits d 121 120, bits d 119 98, bits d 97 75, bits d 74 52, bits d 51 29,
    bits d 28 6, bits d 5 0⟩

def View.pool (v : View) (n : Nat) : Pool := Pool.of (v.obj .poolDesc n)

/-! ### The instruction header and the key (R35, R36) -/

/-- The fields of a SEARCH header (R35). -/
structure SearchHdr where
  gcnt : Nat
  room : Nat
  prog : Nat
  tag : Nat
  edition : Edition
  keylen : Nat
  pinned : Bool
  ctx : BitVec 32
  deriving DecidableEq, Repr

def searchHdr (h : Granule) : SearchHdr :=
  ⟨fld h 121 117, fld h 111 108, fld h 107 100, fld h 99 92, BitVec.ofNat 16 (fld h 91 76), fld h 75 68,
    nbit h.toNat 67, BitVec.ofNat 32 (fld h 63 32)⟩

/-- Bit at a position of a string of bytes, position 0 the most significant bit of byte 0; 0 beyond the end (R36). -/
def bitAt (bs : List Byte) (pos : Nat) : Bool := ((bs.getD (pos / 8) 0).getMsbD (pos % 8))

/-- `len` bits of a number `width` bits wide from position `off`, position 0 its most significant bit; positions at or
beyond the width read 0 (R53). -/
def sliceAt (x width off len : Nat) : Nat :=
  if off + len ≤ width then x / 2 ^ (width - off - len) % 2 ^ len
  else (x % 2 ^ (width - min off width)) * 2 ^ (off + len - max width off) % 2 ^ len

/-- The instruction key as a number of 1,280 bits, position 0 its most significant bit (R36). -/
def keyNat (key : List Byte) : Nat := ofBytesBE ((key ++ List.replicate 160 0).take 160)

end Sys2Proof.Machine
end

