-- ==== Sys2Proof/Machine/Flags.lean ====
section
/-! DEFINITION. Status bits, fault causes and the output pins as functions of the state (R357, R358, R374, R375). -/

namespace Sys2Proof.Machine

/-- Two's complement value of an I32 register (R318). -/
def toI32 (x : Nat) : Int := if 2147483648 ≤ x % 4294967296 then (x % 4294967296 : Int) - 4294967296 else x % 4294967296

/-- The I32 image of a number (R318). -/
def ofI32 (x : Int) : Nat := (x % 4294967296).toNat

/-- The highest junction temperature of the five regions (R392). -/
def State.tjMax (s : State) : Int :=
  [1, 2, 3, 4].foldl (fun m d => max m (toI32 (s.reg .rgnTj d))) (toI32 (s.reg .rgnTj 0))

/-- DEV_STATE (R383). -/
def State.devState (s : State) : Nat :=
  match s.dev.phase with
  | .starting => 0
  | .running => 1
  | .minimal => 2

/-- PORT_STATE (R280). -/
def PortState.code : PortState → Nat
  | .off => 0 | .training => 1 | .aligning => 2 | .hello => 3 | .up => 4 | .held => 5 | .failed => 6

/-- REQUIRED of PORT_CTRL (R261). -/
def State.required (s : State) (p : Nat) : Bool := nbit (s.reg .portCtrl p) 1

/-- A required port is not UP (R261, R375). -/
def State.linkMissing (s : State) : Bool := (List.range 32).any fun p => s.required p && (s.port p).st != .up

/-- Cause bits of FAULT_CAUSE that are present, bits 0 to 9 (R375). -/
def State.faultBits (s : State) : List Bool :=
  [[0, 1, 2, 3].any fun d => (s.region d).held,
   [0, 1, 2, 3, 4].any fun d => (s.region d).alarm,
   !s.guar.lost.isEmpty,
   !s.guar.shed.isEmpty,
   !s.health.srHead.isEmpty,
   s.dev.started && s.linkMissing,
   s.dev.phase == .minimal,
   s.cas.quarantined,
   s.health.thermal,
   s.bus.busOff]

/-- One cause bit follows its cause: the change is recorded and counted (R358, R375). -/
def State.settleBit (s : State) (b : Nat) (present : Bool) : State :=
  if nbit s.dev.causes.toNat b = present then s
  else
    let c := s.dev.causes ^^^ BitVec.ofNat 32 (2 ^ b)
    ({ s with dev := { s.dev with causes := c } }.bump .faultXing).record
      (if present then .faultRaise else .faultClear) none (srcOpen (if present then .faultRaise else .faultClear))
        [(5, b), (32, c.toNat)] (if present then 1 else 2)

/-- Settles the cause bits from bit `b` on. -/
def State.settleBits (s : State) (b : Nat) : List Bool → State
  | [] => s
  | p :: t => (s.settleBit b p).settleBits (b + 1) t

/-- FAULT_CAUSE follows the causes now present (R375). -/
def State.settleFaults (s : State) : State := s.settleBits 0 s.faultBits

/-- A command's end: the cause bits settle and the machine goes on. -/
def done (s : State) : Host.Outcome State Fault Refusal := .next s.settleFaults

/-- A reset input or a boundary test holds the device in reset (R478, R488). -/
def State.inReset (s : State) : Bool := s.dev.porn || s.dev.sysrstn || s.dev.boundary

/-- FAULTn is asserted (driven low): in reset, and for a cause under its mask, MINIMAL always (R375, R479); released while a
supply is absent (R465). -/
def State.faultPin (s : State) : Bool :=
  s.dev.vin && s.dev.vio && (s.inReset || decide (s.dev.causes.toNat &&& (s.reg .faultMask ||| 0x40) ≠ 0))

/-- A ring drives EVENTn: PIN_EN and an unacknowledged record at or above PIN_MIN (R374). -/
def State.ringPin (s : State) (r : Nat) : Bool :=
  let cfg := s.reg .dbCfg r
  nbit cfg 15 && (s.ring r).recs.any fun x => decide (bits cfg 13 12 ≤ x.cls.toNat)

/-- EVENTn is asserted (driven low) (R374); released in reset and while a supply is absent (R465, R479). -/
def State.eventPin (s : State) : Bool := s.dev.vin && s.dev.vio && !s.inReset && (List.range 17).any s.ringPin

/-- What the device does with an output: it drives a level, releases it, or drives it as the unit behind it or the boundary test
asks (R479, R488). -/
inductive Drive where
  | low | high | released | inUse
  deriving DecidableEq, Repr

/-- An output with the state `reset` that R479 gives it in reset; released while VIN or VIO is absent (R465). -/
def State.outPin (s : State) (reset : Drive) : Drive :=
  if !s.dev.vin || !s.dev.vio then .released
  else if s.dev.boundary then .inUse
  else if s.inReset then reset
  else .inUse

/-- CAN_TXD: recessive in reset, which a push-pull output drives high and an open-drain one releases (R479). -/
def State.canTxd (s : State) : Drive := s.outPin (if s.boot.otp.wired then .released else .high)

/-- SPI_CLK (R479). -/
def State.spiClk (s : State) : Drive := s.outPin .low

/-- SPI_CSn (R479). -/
def State.spiCsn (s : State) : Drive := s.outPin .high

/-- SPI_IO[3:0] (R479). -/
def State.spiIo (s : State) : Drive := s.outPin .released

/-- Unacknowledged records of all rings, saturating at 65,535 (R338). -/
def State.unread (s : State) : Nat := min 65535 ((List.range 17).map fun r => (s.ring r).recs.length).sum

/-- The bus is active for sending: not asleep or waking, not bus-off, no exception state (R342, R346). -/
def Bus.isActive (b : Bus) : Bool :=
  !b.busOff && !b.exception && (match b.sleep with | .awake => true | .waiting _ => true | _ => false)

/-- ASLEEP of DBUS_STATE (R342). -/
def Bus.isAsleep (b : Bus) : Bool := match b.sleep with | .asleep => true | .waking => true | _ => false

/-- DBUS_STATE (R346). -/
def State.dbusState (s : State) : Nat :=
  maskOf (((List.range 6).zip [s.bus.isActive, s.bus.passive, s.bus.busOff, s.bus.isAsleep, s.bus.clash,
    s.boot.otp.wired]).filterMap fun e => if e.2 then some e.1 else none)

/-- RGN_STATE of region `d`; HELD and RESET read 0 for the hub (R392). -/
def State.rgnState (s : State) (d : Nat) : Nat :=
  let r := s.region d
  b2n r.alarm + (if d < 4 then 2 * b2n r.held + 4 * b2n (r.inReset || !s.dev.diesUp) else 0)

/-- The node ID in use (R330). -/
def State.nodeId (s : State) : Nat :=
  let n := s.view.obj .dbusNode
  if 1 ≤ n ∧ n ≤ 254 then n
  else if s.dev.straps.nodeId = 0 ∨ s.dev.straps.nodeId = 0xFF then 0xFE else s.dev.straps.nodeId.toNat

end Sys2Proof.Machine
end

