-- ==== Sys2Proof/Machine/Rota.lean ====
section
/-! DEFINITION. Which units serve a lookup: the serving rules of R101, R133 and R152, feasibility (R104, R241), the
transition rule (R106) and the charges of R238. A rota is given as a function of unit and phase. -/

namespace Sys2Proof.Machine

/-- A rota as entries by unit and phase (R98). -/
abbrev RotaFn := Nat → Nat → Nat

/-- The units that a bay, prefix or exact-match copy needs are free of lost ones (R241). -/
def freeOf (lost units : List Nat) : Bool := units.all fun u => !lost.contains u

/-- Units of an exact-match slice (R97). -/
def emUnits (slice : Nat) : List Nat := [68 + 2 * slice, 69 + 2 * slice]

/-- The lane stands on a bay with the table's region (R101). -/
def bayCarries (q : RotaFn) (phi port lkp region l : Nat) : Bool :=
  onLane (q l phi) port lkp && rotaRegion (q l phi) = region

/-- The copy of a ternary table that serves a lane at a phase (R101). `bar` lists copies that serve no lane. -/
def trnCopy (q : RotaFn) (d : Trn) (bar : List Nat) (phi port lkp : Nat) : Option Nat :=
  (List.range d.ncopy).find? fun c => !bar.contains c && (d.bays c).all (bayCarries q phi port lkp d.region)

/-- The copy of a prefix table that serves a lane in trie mode (R133). -/
def pfxCopy (q : RotaFn) (d : Pfx) (bar : List Nat) (phi port lkp : Nat) : Option Nat :=
  (List.range d.ncopy).find? fun c =>
    !bar.contains c && (d.copySlices c).all fun sl => onLane (q (64 + sl) phi) port lkp

/-- All four prefix units carry the lane, as hash mode needs (R133). -/
def hashServed (q : RotaFn) (phi port lkp : Nat) : Bool := [64, 65, 66, 67].all fun u => onLane (q u phi) port lkp

/-- The copy of an exact-match table that serves a lane (R152). -/
def emCopy (q : RotaFn) (d : EmDesc) (bar : List Nat) (phi port lkp : Nat) : Option Nat :=
  (List.range d.ncopy).find? fun c =>
    !bar.contains c && (d.copySlices c).all fun sl => (emUnits sl).any fun u => onLane (q u phi) port lkp

/-- Copies that serve no lane: being filled or built, or with a lost unit (R104, R241). -/
def barTrn (tb : Table) (d : Trn) (lost : List Nat) : List Nat :=
  (List.range d.ncopy).filter fun c => tb.filling.contains c || !freeOf lost (d.bays c)

def barPfx (tb : Table) (d : Pfx) (lost : List Nat) : List Nat :=
  (List.range d.ncopy).filter fun c => tb.filling.contains c || !freeOf lost ((d.copySlices c).map (64 + ·))

def barEm (tb : Table) (d : EmDesc) (lost : List Nat) : List Nat :=
  (List.range d.ncopy).filter fun c => tb.filling.contains c || !freeOf lost ((d.copySlices c).flatMap emUnits)

/-- A prefix table needs hash mode served: its mode, or a switch to or from it (R133, R138). -/
def Table.needsHash (tb : Table) : Bool := tb.hash || tb.switch != .none

/-- The hash image answers lookups of some admitted edition (R136, R137). -/
def Table.hashInForce (tb : Table) : Bool :=
  match tb.switch with
  | .unsettled _ _ => true
  | _ => tb.hash

/-- A prefix table needs trie mode served. -/
def Table.needsTrie (tb : Table) : Bool := !tb.hash || tb.switch != .none

/-- `served` of R104 for a table, a lane and a phase; a table that does not exist is never served. -/
def served (q : RotaFn) (v : View) (tb : Table) (lost : List Nat) (t port lkp phi : Nat) : Bool :=
  (v.tbl t).present &&
  match (v.tbl t).kind with
  | 0 => (trnCopy q (v.trn t) (barTrn tb (v.trn t) lost) phi port lkp).isSome
  | 1 =>
    (!tb.needsTrie || (pfxCopy q (v.pfx t) (barPfx tb (v.pfx t) lost) phi port lkp).isSome) &&
    (!tb.needsHash || (hashServed q phi port lkp && freeOf lost [64, 65, 66, 67]))
  | 2 => (emCopy q (v.em t) (barEm tb (v.em t) lost) phi port lkp).isSome
  | _ => false

/-- The phases that a port reaches under P phases (R99, R104). -/
def reached (P port : Nat) : List Nat := (List.range P).filter fun phi => P % 2 = 1 || phi % 2 = port % 2

/-- A program slot counts as enabled for feasibility: enabled, and its room not shed (R241). -/
def View.counts (v : View) (shed : List Nat) (p : Nat) : Bool := (v.prog p).enable && !shed.contains (v.prog p).room

/-- The ports of a program that need service: in PORTMASK and not on a held die (R104, R241). -/
def lanePorts (v : View) (heldDies : List Nat) (p : Nat) : List Nat :=
  (setBits 32 (v.prog p).portmask).filter fun n => !heldDies.contains (dieOfPort n)

/-- Feasibility of one program slot under a rota of P phases (R104). -/
def slotFeasible (q : RotaFn) (P : Nat) (v : View) (tables : Nat → Table) (lost held : List Nat) (p : Nat) : Bool :=
  (v.lkps p).all fun i => (lanePorts v held p).all fun n => (reached P n).all fun phi =>
    served q v (tables (v.lkp p i).table) lost (v.lkp p i).table n i phi

/-- Enabled program slots. -/
def View.enabledSlots (v : View) (shed : List Nat) : List Nat := (List.range 256).filter fun p => v.counts shed p

/-- `feasible` of R104 over every enabled program. -/
def feasible (q : RotaFn) (P : Nat) (v : View) (tables : Nat → Table) (shed lost held : List Nat) : Bool :=
  (v.enabledSlots shed).all (slotFeasible q P v tables lost held)

/-- One unit and cycle break the transition rule (R106). -/
def clashes (a b : Nat) : Bool :=
  rotaKind a = 2 && rotaKind b = 2 && a != b && decide (rotaLkp b / 4 < rotaLkp a / 4)

/-- `transition_ok` of R106, with the first unit and cycle at fault. -/
def transitionFault (o : RotaFn) (oP : Nat) (w : RotaFn) (wP : Nat) : Option (Nat × Nat) :=
  (List.range 76).findSome? fun u => (List.range (Nat.lcm oP wP)).findSome? fun c =>
    if clashes (o u (c % oP)) (w u (c % wP)) then some (u, c) else none

/-- Tables that exist, by kind. -/
def View.tablesOf (v : View) (kind : Nat) : List Nat :=
  (List.range 256).filter fun t => (v.tbl t).present && (v.tbl t).kind = kind

/-- The table whose region ρ lies in a logical bay (R81, R105). -/
def View.regionTable (v : View) (l rho : Nat) : Option Nat :=
  (v.tablesOf 0).find? fun t => (v.trn t).region = rho && (v.trn t).allBays.contains l

/-- A table has a copy on the slice of a unit 64 to 75 (R238). -/
def View.onUnit (v : View) (t u : Nat) : Bool :=
  match (v.tbl t).kind with
  | 1 => u < 68 && ((List.range (v.pfx t).ncopy).any fun c => ((v.pfx t).copySlices c).contains (u - 64))
  | 2 => decide (68 ≤ u) && ((List.range (v.em t).ncopy).any fun c => ((v.em t).copySlices c).contains ((u - 68) / 2))
  | _ => false

/-- The rooms that an entry is charged to, shed ones included (R238). -/
def chargedTo (v : View) (u e : Nat) : List Nat :=
  if rotaKind e ≠ 2 then []
  else if u < 64 then
    match v.regionTable u (rotaRegion e) with
    | some t => [(v.tbl t).room]
    | none => []
  else
    (List.range 16).filter fun r => (v.enabledSlots []).any fun p =>
      (v.prog p).room = r && nbit (v.prog p).portmask (rotaPort e) && (v.lkp p (rotaLkp e)).valid &&
        (v.tbl (v.lkp p (rotaLkp e)).table).present && v.onUnit (v.lkp p (rotaLkp e)).table u

/-- Charge of a room on a range of units: ⌈E × 64 / P⌉ (R238). -/
def chargeOn (q : RotaFn) (P : Nat) (v : View) (lo n room : Nat) : Nat :=
  cdiv (64 * (((List.range n).map fun j =>
    ((List.range P).filter fun phi => (chargedTo v (lo + j) (q (lo + j) phi)).contains room).length).sum)) P

/-- Bay, prefix and exact-match charges of a room (R238). -/
def charges (q : RotaFn) (P : Nat) (v : View) (room : Nat) : Nat × Nat × Nat :=
  (chargeOn q P v 0 64 room, chargeOn q P v 64 4 room, chargeOn q P v 68 8 room)

/-- The charges of a room lie within its shares (R105, R236). -/
def withinShares (q : RotaFn) (P : Nat) (v : View) (room : Nat) : Bool :=
  let c := charges q P v room
  decide (c.1 ≤ v.obj .roomShareBay room ∧ c.2.1 ≤ v.obj .roomSharePfx room ∧ c.2.2 ≤ v.obj .roomShareEm room)

/-- The rota in force as a function. -/
def View.rotaFn (v : View) : RotaFn := fun u phi => v.rota u phi

/-- The search dies held now. -/
def State.heldDies (s : State) : List Nat := [0, 1, 2, 3].filter s.dieHeld

end Sys2Proof.Machine
end

