-- ==== Sys2Proof/Machine/Lookup.lean ====
section
/-! DEFINITION. One lookup on one table: the finding aid and compare of ternary bays (R64, R65, R73, R75, R83 to R85),
the longest live prefix (R66, R114, R121), the exact-match candidates (R144, R146 to R148) and the read of an action
(R202). -/

namespace Sys2Proof.Machine

/-! ### Memories -/

/-- Key of a row of a bay's mat in the atom and side arrays. -/
def rowKey (bay mat row : Nat) : Nat := (bay * 36 + mat) * 1024 + row

def State.atom (s : State) (k : Nat) : BitVec 160 := sget (fun _ => 0) s.bays.atoms k
def State.sideWord (s : State) (k : Nat) : BitVec 96 := sget (fun _ => 0) s.bays.sides k
def State.adsBlock (s : State) (b : Nat) : BitVec 128 := sget (fun _ => 0) s.mem.ads b
def State.emSlot (s : State) (i : Nat) : BitVec 128 := sget (fun _ => 0) s.em.slots i
def State.stamp (s : State) (i : Nat) : BitVec 33 := sget (fun _ => 0) s.em.stamps i

/-- A word is marked as poisoned (R443). -/
def State.poisoned (s : State) (k : MemKind) (u i : Nat) : Bool := s.health.poison.contains ⟨k, u, i⟩

/-- A write of a whole word clears its mark (R444). -/
def State.cleanse (s : State) (k : MemKind) (u i : Nat) : State :=
  { s with health := { s.health with poison := s.health.poison.filter fun w => w ≠ ⟨k, u, i⟩ } }

/-! ### Ternary compare -/

/-- A side word (R74). -/
structure Side where
  role : Nat
  width : Nat
  valid : Bool
  rset : Bool
  prio : Nat
  first : Edition
  retiring : Edition
  ptr : Nat
  plen : Nat
  replica : Nat
  deriving DecidableEq, Repr

def sideOf (w : BitVec 96) : Side :=
  ⟨fld w 95 94, fld w 93 92, nbit w.toNat 91, nbit w.toNat 90, fld w 89 66, BitVec.ofNat 16 (fld w 65 50),
    BitVec.ofNat 16 (fld w 49 34), fld w 33 12, fld w 11 9, fld w 8 6⟩

/-- Image of a side word (R74). -/
def Side.image (x : Side) : BitVec 96 :=
  BitVec.ofNat 96 (pack [(2, x.role), (2, x.width), (1, b2n x.valid), (1, b2n x.rset), (24, x.prio),
    (16, x.first.toNat), (16, x.retiring.toNat), (22, x.ptr), (3, x.plen), (3, x.replica), (6, 0)])

/-- WIDTH code of an entry of `k` atoms (R74). -/
def widthCode (k : Nat) : Nat := if k = 1 then 0 else if k = 2 then 1 else if k = 4 then 2 else 3

/-- An atom matches 80 key bits (R71, R73). -/
def atomHit (a : BitVec 160) (kb : Nat) : Bool :=
  let value := a.toNat / 2 ^ 80
  let mask := a.toNat % 2 ^ 80
  decide (value &&& ((2 ^ 80 - 1) ^^^ mask) = 0) && decide (mask &&& (value ^^^ kb) = 0)

/-- The entry at a row hits a key of 80k bits (R73). -/
def State.entryHit (s : State) (k bay mat row key : Nat) : Bool :=
  (List.range k).all fun a => atomHit (s.atom (rowKey bay (mat + a) row)) (sliceAt key (80 * k) (80 * a) 80)

/-- Selector value of a key of 80k bits: bit i is the key bit at SELPOS i (R83). -/
def selector (d : Trn) (key : Nat) : Nat :=
  maskOf ((List.range d.selpos.length).filter fun i => sliceAt key (80 * d.k) (d.selpos.getD i 0) 1 = 1)

/-- Bucket index of a selector value (R84). -/
def bucketOf (d : Trn) (sel : Nat) : Nat := ((sel ^^^ d.seed) * 0x9E37 % 65536) * d.nbkt / 65536

/-- First mats that a lookup compares: its bucket and every open set (R85). -/
def comparedMats (d : Trn) (key : Nat) : List Nat :=
  d.mat (bucketOf d (selector d key)) :: (List.range d.nopen).map fun o => d.mat (d.nbkt + o)

/-- Rows of a mat whose side word is not the empty one: row and word. -/
def State.usedRows (s : State) (bay mat : Nat) : List (Nat × BitVec 96) :=
  s.bays.sides.filterMap fun e =>
    if rowKey bay mat 0 ≤ e.1 ∧ e.1 < rowKey bay mat 1024 then some (e.1 - rowKey bay mat 0, e.2) else none

/-- A call number (R65). -/
def callNumber (device bay mat row : Nat) : Nat := pack [(12, device), (7, bay), (6, mat), (10, row)]

/-- Winner of a ternary lookup so far, with the number of live hits at its priority (R65, R95). -/
structure Best where
  prio : Nat
  call : Nat
  n : Nat
  first : Nat
  ptr : Nat
  plen : Nat
  deriving DecidableEq, Repr

/-- The merge of R95. -/
def mergeBest (a b : Option Best) : Option Best :=
  match a, b with
  | none, b => b
  | a, none => a
  | some a, some b =>
    if a.prio ≠ b.prio then some (if a.prio < b.prio then a else b)
    else some { (if a.call < b.call then a else b) with n := a.n + b.n }

/-- Candidates of one mat set of one bay (R73, R75). -/
def State.matBest (s : State) (d : Trn) (device bay mat key : Nat) (e : Edition) : Option Best :=
  (s.usedRows bay mat).foldl (fun acc r =>
    let x := sideOf r.2
    if x.role = 1 && x.width = widthCode d.k && liveAt d.direct x.valid x.rset x.first x.retiring e &&
        s.entryHit d.k bay mat r.1 key then
      mergeBest acc (some ⟨x.prio, callNumber device bay mat r.1, 1, if d.direct then 0 else x.first.toNat, x.ptr, x.plen⟩)
    else acc) none

/-- Winner of a ternary lookup over the physical bays of the serving copy (R65). -/
def State.trnBest (s : State) (d : Trn) (device : Nat) (bays : List Nat) (key : Nat) (e : Edition) : Option Best :=
  bays.foldl (fun acc b => (comparedMats d key).foldl (fun acc m => mergeBest acc (s.matBest d device b m key e)) acc) none

/-- A compared row of a bay has an uncorrectable side word (R74). -/
def State.sideUncorr (s : State) (d : Trn) (bays : List Nat) (key : Nat) : Bool :=
  s.health.poison.any fun w => w.kind == .side && bays.contains w.unit &&
    (comparedMats d key).any fun m => decide (m ≤ w.index / 1024 ∧ w.index / 1024 < m + d.k)

/-! ### Prefix -/

/-- A key of `w` bits with position 0 at bit 127. -/
def key128 (w key : Nat) : Nat := key * 2 ^ (128 - w)

/-- The first `g` positions of a 128-bit key, the rest cleared. -/
def clip (g x : Nat) : Nat := x / 2 ^ (128 - g) * 2 ^ (128 - g)

/-- The entry covers the key. -/
def PfxEntry.covers (x : PfxEntry) (k : Nat) : Bool := clip x.len k = x.prefix_.toNat

def PfxEntry.live (x : PfxEntry) (direct : Bool) (e : Edition) : Bool :=
  liveAt direct x.valid x.rset x.first x.retiring e

/-- The longer of two prefix entries. -/
def longer (a : Option PfxEntry) (b : PfxEntry) : Option PfxEntry :=
  match a with
  | none => some b
  | some a => if a.len < b.len then some b else some a

/-- The longest entry live at an edition that covers a key (R66, R121). -/
def longestLive (direct : Bool) (es : List PfxEntry) (k : Nat) (e : Edition) : Option PfxEntry :=
  (es.filter fun x => x.covers k && x.live direct e).foldl longer none

/-- The slice of a copy that owns a key (R114). -/
def Pfx.owner (d : Pfx) (c key : Nat) : Nat := d.slices.getD c 0 + sliceAt key d.w 0 d.span

/-- Address of a word of a prefix memory: its table, its memory (0 to 9 a trie level, 10 the answer words, 11 the records, 12
the hash cells, 13 the filter; R489) and its index there. -/
def pfxAddr (t mem i : Nat) : Nat := t * 2 ^ 36 + mem * 2 ^ 32 + i

/-- Table, memory and index of a prefix-engine word. -/
def pfxWord (w : MemWord) : Nat × Nat × Nat := (w.index / 2 ^ 36, w.index / 2 ^ 32 % 16, w.index % 2 ^ 32)

/-- Image of an answer word (R119). -/
def AnsWord.image (w : AnsWord) : BitVec 64 :=
  BitVec.ofNat 64 (pack [(1, b2n w.swset), (16, w.sw.toNat), (1, b2n w.ohit), (22, w.orec), (1, b2n w.nhit), (22, w.nrec),
    (1, 0)])

/-- `version()` of R120: the record that answers at an edition. -/
def AnsWord.version (w : AnsWord) (e : Edition) : Option Nat :=
  if w.swset && !edLe w.sw e then (if w.ohit then some w.orec else .none)
  else if w.nhit then some w.nrec else .none

/-! #### The trie (R118 to R121) -/

/-- Key bits that a trie level consumes, and those that the levels above it have consumed (R111). -/
def Pfx.stride (d : Pfx) (l : Nat) : Nat := d.strides.getD l 0
def Pfx.pos (d : Pfx) (l : Nat) : Nat := (d.strides.take l).sum

/-- A slot word of a type and an index (R118). -/
def slotImage (ty i : Nat) : BitVec 32 := BitVec.ofNat 32 (ty * 2 ^ 30 + i)

/-- The node that a word of a level belongs to. -/
def Table.nodeAt (tb : Table) (d : Pfx) (slice l i : Nat) : Option TrieNode :=
  tb.nodes.find? fun n => n.slice = slice && n.level = l && decide (n.index ≤ i ∧ i < n.index + 2 ^ d.stride l)

/-- The leaves that hold a key. -/
def Table.leavesAt (tb : Table) (slice lo : Nat) : Option Leaves :=
  tb.leaves.find? fun r => r.slice = slice && decide (r.lo ≤ lo ∧ lo < r.past)

/-- A slot word (R118): CHILD where a node of the next level stands for its keys, LEAF where a leaf does, else EMPTY. -/
def Table.slotWord (tb : Table) (d : Pfx) (slice l i : Nat) : BitVec 32 :=
  match tb.nodeAt d slice l i with
  | .none => 0
  | some n =>
    let size := 2 ^ (128 - d.pos (l + 1))
    let lo := n.lo + (i - n.index) * size
    match tb.nodes.find? fun c => c.slice = slice && c.level = l + 1 && c.lo = lo with
    | some c => slotImage 0 c.index
    | .none =>
      match tb.leavesAt slice lo with
      | some r => slotImage 1 (r.index + (lo - r.lo) / size)
      | .none => slotImage 2 0

/-- An answer word of level 10 (R119). -/
def Table.answerWord (tb : Table) (slice i : Nat) : AnsWord :=
  match tb.leaves.find? fun r => r.slice = slice && decide (r.index ≤ i ∧ i < r.index + r.count) with
  | some r => r.answer
  | .none => AnsWord.blank

/-- The walk of R120 from a slot of a level on: the slots read, as level and index, and the answer word of the leaf it ends
at, if it ends at one. -/
def Table.walk (tb : Table) (d : Pfx) (slice key : Nat) : Nat → Nat → Nat → List (Nat × Nat) × Option Nat
  | 0, _, _ => ([], .none)
  | n + 1, l, i =>
    let x := (tb.slotWord d slice l i).toNat
    if x / 2 ^ 30 = 0 then
      let r := tb.walk d slice key n (l + 1) (x % 2 ^ 30 + sliceAt key d.w (d.pos (l + 1)) (d.stride (l + 1)))
      ((l, i) :: r.1, r.2)
    else ([(l, i)], if x / 2 ^ 30 = 1 then some (x % 2 ^ 30) else .none)

/-- The walk for a key of `w` bits from the root of a slice; without a root nothing is read. -/
def Table.walkFrom (tb : Table) (d : Pfx) (slice key : Nat) : List (Nat × Nat) × Option Nat :=
  match tb.nodes.find? fun n => n.slice = slice && n.level = 0 with
  | some n => tb.walk d slice key 10 0 (n.index + sliceAt key d.w 0 (d.stride 0))
  | .none => ([], .none)

/-- The entry whose record has an index on a slice. -/
def recordAt (es : List PfxEntry) (slice r : Nat) : Option PfxEntry :=
  es.find? fun e => sget (fun _ => 0) e.recs slice = r + 1

/-- What a lookup finds in a prefix image: nothing, a record, or an uncorrectable word on its way (R138). -/
inductive PfxFound where
  | miss
  | bad
  | entry (e : PfxEntry)
  deriving DecidableEq, Repr

/-- The cycle in which the update port writes the word of a key of a range: 64 words to an update, an update in 100 cycles
(R125, R126). -/
def LateRange.due (r : LateRange) (k : Nat) : Nat := r.start + 100 * ((r.first + (k - r.lo) / r.size) / 64)

/-- A read of a key's word in cycle `c` finds what the word held before a write: the write comes in that cycle or later
(R125). -/
def LateImage.stands (m : LateImage) (slice : Nat) (group : Option Nat) (k c : Nat) : Bool :=
  m.ranges.any fun r => r.slice = slice && r.group = group && decide (r.lo ≤ k ∧ k < r.past ∧ c ≤ r.due k)

/-- A table as a read of a key's word in cycle `c` finds it (R125). -/
def Table.asOf (tb : Table) (slice : Nat) (group : Option Nat) (k c : Nat) : Table :=
  match tb.late.find? fun m => m.stands slice group k c with
  | some m => { tb with entries := m.entries, nodes := m.nodes, leaves := m.leaves, cells := m.cells, filter := m.filter }
  | .none => tb

/-- The record that an answer word selects at an edition (R120, R131). -/
def State.pfxRecord (s : State) (t : Nat) (tb : Table) (slice : Nat) (r : Option Nat) : PfxFound :=
  match r with
  | none => .miss
  | some r =>
    if s.poisoned .pfxRecord slice (pfxAddr t 11 r) then .bad
    else match recordAt tb.entries slice r with
      | some e => .entry e
      | none => .miss

/-- The first level at which two walks read different slot words (R118). -/
def walkSplit (old new : Table) (d : Pfx) (slice : Nat) (w : List (Nat × Nat)) : Option Nat :=
  (w.find? fun x => old.slotWord d slice x.1 x.2 ≠ new.slotWord d slice x.1 x.2).map Prod.fst

/-- The image that a walk whose compare begins in cycle `c` finds: level `l` is read from cycle c + 2l on and the answer word
from c + 20 on (R132). -/
def Table.walked (tb : Table) (d : Pfx) (slice key c : Nat) : Table :=
  let k := key128 d.w key
  let old := tb.asOf slice .none k c
  let new := tb.asOf slice .none k (c + 20)
  match walkSplit old new d slice (old.walkFrom d slice key).1 with
  | some l => tb.asOf slice .none k (c + 2 * l)
  | .none => new

/-- A lookup in trie mode on a slice (R120), its compare beginning in cycle `c`. -/
def State.trieFind (s : State) (t : Nat) (d : Pfx) (slice key c : Nat) (e : Edition) : PfxFound :=
  let tb := (s.table t).walked d slice key c
  let w := tb.walkFrom d slice key
  if w.1.any fun x => s.poisoned .trieNode slice (pfxAddr t x.1 x.2) then .bad
  else match w.2 with
    | none => .miss
    | some i =>
      if s.poisoned .trieAnswer slice (pfxAddr t 10 i) then .bad
      else s.pfxRecord t tb slice ((tb.answerWord slice i).version e)

/-! #### The hash image (R127, R128, R130, R131) -/

/-- The group hash of R128 over a 128-bit key. -/
def pfxHash (k g seed : Nat) : Nat :=
  [96, 64, 32, 0].foldl (fun a sh =>
    let x := (a ^^^ (clip g k / 2 ^ sh % 4294967296)) * 0x9E3779B1 % 4294967296
    x ^^^ (x / 32768)) ((seed ^^^ g) % 4294967296)

/-- Bucket of a hash (R128). -/
def bkt (h nblog : Nat) : Nat := if nblog = 0 then 0 else h / 2 ^ (32 - nblog)

/-- GLEN and NBLOG of a group (R112), and the slice that it lives on (R127). -/
def Pfx.glen (d : Pfx) (i : Nat) : Nat := (d.groups.getD i (0, 0)).1
def Pfx.nblog (d : Pfx) (i : Nat) : Nat := (d.groups.getD i (0, 0)).2
def groupSlice (i : Nat) : Nat := i % 4

/-- The two buckets of a key in a group (R128). -/
def Pfx.buckets (d : Pfx) (i k : Nat) : List Nat :=
  [bkt (pfxHash k (d.glen i) d.seed) (d.nblog i), bkt (pfxHash k (d.glen i) (d.seed ^^^ 0x5BD1E995)) (d.nblog i)]

/-- Filter index of a key (R130). -/
def Pfx.filterIndex (d : Pfx) (k : Nat) : Nat := pfxHash k d.filtlen (d.seed ^^^ 0x2F6B4A1D) / 65536

/-- Bit `i` of a filter word (R130): its count is not zero. -/
def Table.filterBit (tb : Table) (f i : Nat) : Bool := sget (fun _ => 0) tb.filter (16 * f + i) != 0

/-- The groups that a lookup of a key probes (R130, R131). -/
def Table.probed (tb : Table) (d : Pfx) (k : Nat) : List Nat :=
  (List.range d.groups.length).filter fun i =>
    d.filtlen = 0 || decide (d.glen i < d.filtlen) || tb.filterBit (d.filterIndex k) i

/-- Address of a place of a bucket, and of a filter word, which stands on slice 0 (log 9). -/
def cellAddr (t i b sl : Nat) : Nat := pfxAddr t 12 ((i / 4 * 2 ^ 20 + b) * 4 + sl)
def filterAddr (t f : Nat) : Nat := pfxAddr t 13 f

/-- A cell of a group holds the key. -/
def Cell.matches (c : Cell) (i : Nat) (bs : List Nat) (k : Nat) : Bool :=
  c.group = i && bs.contains c.bucket && c.key.toNat = k

/-- What a group answers for a key at an edition (R131). -/
def Table.groupAnswer (tb : Table) (d : Pfx) (i k : Nat) (e : Edition) : Option Nat :=
  let kc := clip (d.glen i) k
  (tb.cells.find? fun c => c.matches i (d.buckets i kc) kc && (c.answer.version e).isSome).bind fun c => c.answer.version e

/-- A lookup in hash mode (R131): the longest group that answers, with the slice it lives on. Its compare begins in cycle `c`: the
filter is read from that cycle and the buckets from c + 2 on (R132). -/
def State.hashFind (s : State) (t : Nat) (d : Pfx) (k c : Nat) (e : Edition) : PfxFound :=
  let tb := s.table t
  let at_ := fun (i n : Nat) => tb.asOf (groupSlice i) (some i) (clip (d.glen i) k) n
  let probed := (List.range d.groups.length).filter fun i => ((at_ i c).probed d k).contains i
  if (d.filtlen ≠ 0 ∧ s.poisoned .hashCell 0 (filterAddr t (d.filterIndex k))) ∨
      probed.any fun i => (d.buckets i (clip (d.glen i) k)).any fun b => [0, 1, 2, 3].any fun sl =>
        s.poisoned .hashCell (groupSlice i) (cellAddr t i b sl) then .bad
  else match (probed.filterMap fun i => ((at_ i (c + 2)).groupAnswer d i k e).map fun r => (i, r)).getLast? with
    | some x => s.pfxRecord t (at_ x.1 (c + 2)) (groupSlice x.1) (some x.2)
    | none => .miss

/-! ### Exact match -/

/-- The key hash of R146; `k` has `w` bits. -/
def emHash (k w seed : Nat) : Nat :=
  (List.range 7).foldl (fun a i =>
    let x := (a ^^^ sliceAt k w (32 * i) 32) * 0x9E3779B1 % 4294967296
    x ^^^ (x / 32768)) ((seed ^^^ w) % 4294967296)

/-- The way salts of R146. -/
def emSalt (j : Nat) : Nat := [0x00000000, 0x85EBCA6B, 0xC2B2AE35, 0x27D4EB2F].getD j 0

/-- Owner slice of a copy (R146). -/
def EmDesc.owner (d : EmDesc) (c k : Nat) : Nat :=
  d.slices.getD c 0 + (if d.span = 0 then 0 else emHash k d.w (d.seed ^^^ 0x165667B1) / 2 ^ (32 - d.span))

/-- Bucket of a key in a way (R146). -/
def EmDesc.bucket (d : EmDesc) (k j : Nat) : Nat := d.base + bkt (emHash k d.w (d.seed ^^^ emSalt j)) d.nblog

/-- A slot index (R140). -/
def slotIndex (slice way bucket slot : Nat) : Nat := pack [(2, slice), (2, way), (16, bucket), (3, slot)]

/-- Head slots of the positions of a bucket (R144). -/
def EmDesc.heads (d : EmDesc) : List Nat := if d.wide then [0, 2, 4, 6] else [0, 1, 2, 3, 4, 5, 6, 7]

/-- Candidate head positions of a key in one way of a slice, ascending (R147). -/
def EmDesc.wayHeads (d : EmDesc) (slice k j : Nat) : List Nat :=
  d.heads.map fun h => slotIndex slice j (d.bucket k j) h

/-- Candidate head positions of a key on a slice, ascending in slot index (R147, R148). -/
def EmDesc.candidates (d : EmDesc) (slice k : Nat) : List Nat := (List.range 4).flatMap (d.wayHeads slice k)

/-- VALID, STATIC, LEARNT and DATA of a head slot (R143). -/
def slotValid (x : BitVec 128) : Bool := nbit x.toNat 127
def slotStatic (x : BitVec 128) : Bool := nbit x.toNat 126
def slotLearnt (x : BitVec 128) : Bool := nbit x.toNat 125
def slotData (x : BitVec 128) : Nat := fld x 119 96

/-- Key held at a position, `w` bits (R143, R144). -/
def State.slotKey (s : State) (d : EmDesc) (i : Nat) : Nat :=
  let head := fld (s.emSlot i) 95 0
  if d.wide then sliceAt (head * 2 ^ 128 + (s.emSlot (i + 1)).toNat) 224 0 d.w else sliceAt head 96 0 d.w

/-- Granules that hold a key: 1 + WIDTH. -/
def EmDesc.nslots (d : EmDesc) : Nat := if d.wide then 2 else 1

/-- The key that the slots of a command carry (R143, R171). -/
def EmDesc.bodyKey (d : EmDesc) (gs : List Granule) : Nat :=
  let h := fld (gs.headD 0) 95 0
  if d.wide then sliceAt (h * 2 ^ 128 + (gs.getD 1 0).toNat) 224 0 d.w else sliceAt h 96 0 d.w

/-- A position holds an uncorrectable error in its head or tail (R148). -/
def State.slotBad (s : State) (d : EmDesc) (i : Nat) : Bool :=
  s.poisoned .emSlot (i / 2097152) i || (d.wide && s.poisoned .emSlot (i / 2097152) (i + 1))

/-- The clean live position of a key on a slice, lowest slot index first (R148). -/
def State.emFind (s : State) (d : EmDesc) (slice k : Nat) : Option Nat :=
  (d.candidates slice k).find? fun i => !s.slotBad d i && slotValid (s.emSlot i) && s.slotKey d i = k

/-- Some candidate position is uncorrectable (R148). -/
def State.emBad (s : State) (d : EmDesc) (slice k : Nat) : Bool := (d.candidates slice k).any (s.slotBad d)

/-- The exact-match memories as a read in cycle `c` finds them: a slot that is written in that cycle or later holds what it held
before (R153, R154). -/
def State.emAsOf (s : State) (c : Nat) : State :=
  (s.em.late.filter fun w => decide (c ≤ w.due)).foldr (fun w s =>
    let m : MemWord := ⟨.emSlot, w.slot / 2097152, w.slot⟩
    { s with em := { s.em with slots := sput (fun _ => 0) s.em.slots w.slot w.was },
             health := { s.health with poison := if w.bad then insertNew m s.health.poison else s.health.poison } }) s

/-- The same position in another copy's owner slice (R147). -/
def moveSlice (i slice : Nat) : Nat := slice * 2097152 + i % 2097152

/-- Blocks of a length code (R143, R204). -/
def codeBlocks (c : Nat) : Nat := 2 ^ c

/-! ### Actions -/

/-- The first two action blocks of a pointer (R55, R202). -/
def State.action (s : State) (ptr plen : Nat) : BitVec 128 × BitVec 128 :=
  (s.adsBlock ptr, if 1 ≤ plen ∧ ptr % 2 = 0 then s.adsBlock (ptr + 1) else 0)

/-- The ADS word of a block is uncorrectable (R203). -/
def State.adsBad (s : State) (ptr : Nat) : Bool := s.poisoned .ads (dieOfBlock ptr) (ptr / 2)

/-- The device number in force (R6, R308). -/
def View.device (v : View) (st : Straps) : Nat :=
  let a := v.obj .casAdopt
  if nbit a 15 then bits a 11 0 else bits (v.obj .casSelf) 30 23 * 16 + st.clusterPos.toNat

def State.device (s : State) : Nat := s.view.device s.dev.straps

/-- This device's membership generation (R307). -/
def State.mgen (s : State) : Nat := bits (s.view.obj .casSelf) 22 15

/-- QUIET (R307). -/
def State.quiet (s : State) : Bool := nbit (s.view.obj .casSelf) 14

end Sys2Proof.Machine
end

