-- ==== Sys2Proof/Machine/Lanes.lean ====
section
/-! DEFINITION. The lanes of a port (R263, R266, R271, R272, R279): IDLE/CREDIT frames, what a transmitter sends in the slots
that no command fills, link blocks with their trailers, and the entry into HELLO. -/

namespace Sys2Proof.Machine

/-! ### IDLE/CREDIT frames (R271, R272) -/

/-- An IDLE/CREDIT frame (R271). -/
structure Credit where
  sub : Nat
  txsent1 : BitVec 16
  rxfreed1 : BitVec 16
  txsent3 : BitVec 16
  rxfreed3 : BitVec 16
  limit1 : Nat
  limit3 : Nat
  device : Nat
  port : Nat
  role : Nat
  version : Nat
  deriving DecidableEq, Repr

def credit (h : Granule) : Credit :=
  ⟨fld h 111 108, BitVec.ofNat 16 (fld h 107 92), BitVec.ofNat 16 (fld h 91 76), BitVec.ofNat 16 (fld h 75 60),
    BitVec.ofNat 16 (fld h 59 44), fld h 43 36, fld h 35 28, fld h 27 16, fld h 15 11, fld h 10 9, fld h 8 5⟩

/-- The frame of an IDLE/CREDIT granule (R271). -/
def creditFrame (c : Credit) : Frame :=
  linkFrame 0 0 ⟨granule [(16, 0), (4, c.sub), (16, c.txsent1.toNat), (16, c.rxfreed1.toNat), (16, c.txsent3.toNat),
    (16, c.rxfreed3.toNat), (8, c.limit1), (8, c.limit3), (12, c.device), (5, c.port), (2, c.role), (4, c.version),
    (5, 0)], []⟩

/-- The device's HELLO on a port (R272). -/
def State.ownHello (s : State) (p : Nat) : Credit :=
  ⟨1, 0, 0, 0, 0, 128, 64, s.device, p, s.role p, 1⟩

/-- The device's IDLE on a port (R271). -/
def Port.ownIdle (q : Port) : Credit := ⟨0, q.txsent1, q.rxfreed1, q.txsent3, q.rxfreed3, 0, 0, 0, 0, 0, 0⟩

/-! ### Link blocks (R263, R266) -/

/-- The port still owes its peer the HELLO that follows a valid one (R272). -/
def Port.owesHello (q : Port) : Bool := q.helloValid && !q.helloSent

/-- What a transmitter sends in a slot that no command fills: zeros while its die is held (R279), HELLO until the exchange is
over (R272), then IDLE (R263); none on a port whose lanes carry no slots. The Boolean says that a frame begins there. -/
def State.filler (s : State) (p : Nat) : Option (Granule × Bool) :=
  let q := s.port p
  let zero := if s.dieHeld (dieOfPort p) then some (0, false) else none
  match q.st with
  | .held => some (0, false)
  | .hello => some (zero.getD (if q.helloValid && q.helloSent then ((creditFrame q.ownIdle).hdr, true)
      else ((creditFrame (s.ownHello p)).hdr, true)))
  | .up => some (zero.getD (if q.owesHello then ((creditFrame (s.ownHello p)).hdr, true)
      else ((creditFrame q.ownIdle).hdr, true)))
  | _ => none

/-- Slot in which the next granule of a port goes, counted from cycle 0. Blocks begin at the slots that are multiples of 80
(log 79). -/
def Port.nextSlot (q : Port) : Nat := 80 * q.blkNo + q.blk.length

/-- A frame may begin in the next slot: the first of a block begins in its slots 0 to 15 (R266; log 79). -/
def Port.mayBegin (q : Port) : Bool := q.blkFirst.isSome || decide (q.blk.length ≤ 15)

/-- Adds `n` slots to the block being sent that all carry `g`, of frames of one granule or, where no frame may begin, of
zeros. -/
def Port.fillSlots (q : Port) (g : Granule) (head : Bool) (n : Nat) : Port :=
  if n = 0 then q
  else if head && q.mayBegin then
    { q with blk := q.blk ++ List.replicate n g, blkFirst := some (q.blkFirst.getD q.blk.length) }
  else { q with blk := q.blk ++ List.replicate n 0 }

/-- Trailer of a link block: FIRST, FILL when no frame begins in it, and the CRC of its slots (R266, R279). -/
def blockTrailer (first : Option Nat) (slots : List Granule) : BitVec 40 :=
  BitVec.ofNat 40 (pack [(8, first.getD 0xFE), (32, frameCrc (slots.flatMap fun g => bytesBE 16 g.toNat))])

/-- A full block goes: its trailer's bits 39:20 travel with its second codeword and bits 19:0 with the codeword after it
(R263). -/
def State.closeBlock (s : State) (p : Nat) : State :=
  let q := s.port p
  if q.blk.length < 80 then s
  else
    let t := blockTrailer q.blkFirst q.blk
    { s.setPort p { q with blkNo := q.blkNo + 1, blk := [], blkFirst := none } with
      wire := ⟨80 * q.blkNo + 80, p, .sub (t.extractLsb' 0 20)⟩ :: ⟨80 * q.blkNo + 40, p, .sub (t.extractLsb' 20 20)⟩ :: s.wire }

/-- Sends `n` slots of filler in the block being sent, and its trailer when that fills it. -/
def State.fillRun (s : State) (p : Nat) (f : Granule × Bool) (n : Nat) : State :=
  let q := s.port p
  let q' := q.fillSlots f.1 f.2 n
  if n = 0 then s
  else
    ({ s.setPort p q' with wire := ⟨q.nextSlot, p, .run n (if f.2 && q.mayBegin then f.1 else 0)⟩ :: s.wire }).closeBlock p

/-- Sends `n` whole blocks of filler. -/
def State.fillBlocks (s : State) (p : Nat) (f : Granule × Bool) (n : Nat) : State :=
  let q := s.port p
  if n = 0 then s
  else
    { s.setPort p { q with blkNo := q.blkNo + n } with
      wire := ⟨80 * q.blkNo, p, .blocks n f.1 (blockTrailer (if f.2 then some 0 else none) (List.replicate 80 f.1))⟩ :: s.wire }

/-- The transmitter has sent an IDLE/CREDIT frame with its counts in the slot before `k` (R271, R277). -/
def Port.noteIdle (q : Port) (k : Nat) : Port := { q with lastIdle := k - 1, freedSent1 := q.rxfreed1, freedSent3 := q.rxfreed3 }

/-- Sends filler up to slot `k` (R263). -/
def State.fillTo (s : State) (p k : Nat) : State :=
  match s.filler p with
  | none => s
  | some f =>
    let q := s.port p
    if k ≤ q.nextSlot then s
    else
      let s :=
        if q.blkNo = k / 80 then s.fillRun p f (k - q.nextSlot)
        else
          ((s.fillRun p f (if q.blk.isEmpty then 0 else 80 - q.blk.length)).fillBlocks p f
            (k / 80 - q.blkNo - b2n (!q.blk.isEmpty))).fillRun p f (k % 80)
      if f.2 && (q.mayBegin || q.blkNo != k / 80) then s.setPort p ((s.port p).noteIdle k) else s

/-- A port that owes a HELLO sends it in the first slot that no command fills, unless its die is held (R272). -/
def State.payHello (s : State) (p k : Nat) : State :=
  let q := s.port p
  if q.owesHello && decide (q.nextSlot < k) && !s.dieHeld (dieOfPort p) && (q.st = .up || q.st = .hello) && q.mayBegin then
    let s := s.fillTo p (q.nextSlot + 1)
    s.setPort p { s.port p with helloSent := true }
  else s

/-- The slots before slot `k` that no command filled go with filler (R263, R272, R279). -/
def State.padTo (s : State) (p k : Nat) : State := (s.payHello p k).fillTo p k

/-- Sends one slot (R263): `head` when a frame begins in it. A full block has its trailer in the sub-channel. -/
def State.putGranule (s : State) (p : Nat) (g : Granule) (head : Bool) : State :=
  let q := s.port p
  (s.setPort p { q with blk := q.blk ++ [g], blkFirst := if head then some (q.blkFirst.getD q.blk.length) else q.blkFirst })
    |>.closeBlock p

/-- Sends the granules of a frame after its first. -/
def State.putBody (s : State) (p : Nat) : List Granule → State
  | [] => s
  | g :: t => (s.putGranule p g false).putBody p t

/-- Puts a frame on the lanes from slot `k`, its granules in consecutive slots (R263). -/
def State.putOn (s : State) (p k : Nat) (f : Frame) : State :=
  let s := s.padTo p k
  let s := { s with wire := ⟨k, p, .frame f⟩ :: s.wire }
  let s := s.setPort p { s.port p with txSlot := max (s.port p).txSlot (k + frameLen f) }
  (s.putGranule p f.hdr true).putBody p f.body

/-! ### Entry into HELLO (R260, R262, R279) -/

/-- Credits at an exchange of HELLO: every count starts at 0, and frames still in the buffers are not counted again
(R262, R271). -/
def Port.freshCredits (q : Port) : Port :=
  { q with txsent1 := 0, txsent3 := 0, rxcount1 := 0, rxcount3 := 0, rxfreed1 := 0, rxfreed3 := 0, peerFreed1 := 0,
           peerFreed3 := 0, freedSent1 := 0, freedSent3 := 0, old1 := q.rx1.length, old3 := q.rx3.length }

/-- The transmitter of a port that comes from training begins with a whole block (R263; log 79). -/
def Port.firstBlock (q : Port) (now : Nat) : Port :=
  let n := (5 * now + 79) / 80
  { q with blkNo := n, blk := [], blkFirst := none, txSlot := max q.txSlot (80 * n) }

/-- A port enters HELLO (R260 step 5, R262, R279). -/
def Port.enterHello (q : Port) (now : Nat) : Port :=
  let fresh := decide (q.st = .aligning ∨ q.st = .training)
  let r := { q.freshCredits with
    st := .hello, step := 5, begun := if fresh then q.begun else now, downAt := if q.st = .up then now else q.downAt,
    helloValid := false, helloSent := false, helloErr := false, resync := false }
  if fresh then r.firstBlock now else r

end Sys2Proof.Machine
end

