-- ==== Sys2Proof/Machine/Cascade.lean ====
section
/-! DEFINITION. Shard sets, parts, candidate frames and the merge (R281 to R304). -/

namespace Sys2Proof.Machine

/-- A cluster entry (R283). -/
structure ClEntry where
  cluster : Nat
  collector : Nat
  posmask : Nat
  deriving DecidableEq, Repr

/-- A set descriptor (R282) with the entries of its cluster list. -/
structure CasSet where
  room : Nat
  present : Bool
  kind : Nat
  table : Nat
  collection : Bool
  byCtx : Bool
  owner : Nat
  fbudget : Nat
  nclust : Nat
  entries : List ClEntry
  deriving DecidableEq, Repr

def View.set (v : View) (n : Nat) : CasSet :=
  let d := v.obj .casSet n
  ⟨bits d 127 124, nbit d 123, bits d 122 121, bits d 120 113, nbit d 112, nbit d 111, bits d 110 99, bits d 98 85,
    bits d 84 77,
    (List.range (bits d 84 77 + 1)).map fun i =>
      let e := v.obj .casSetCl n 0 i
      ⟨bits e 31 24, bits e 23 20, bits e 19 4⟩⟩

/-- Device numbers of the members of a set (R283). -/
def CasSet.members (c : CasSet) : List Nat :=
  c.entries.flatMap fun e => (setBits 16 e.posmask).map fun q => e.cluster * 16 + q

/-- The cluster entry of a device. -/
def CasSet.entryOf (c : CasSet) (dev : Nat) : Option ClEntry :=
  c.entries.find? fun e => e.cluster = dev / 16 && nbit e.posmask (dev % 16)

/-- The existing set that a table is bound to (R284). -/
def View.setOfTable (v : View) (t : Nat) : Option Nat :=
  (List.range 64).find? fun n => nbit (v.obj .casSet n) 123 && bits (v.obj .casSet n) 120 113 = t

/-- The sharded lookups of a program, ascending (R285). -/
def View.sharded (v : View) (p : Nat) : List Nat :=
  (v.lkps p).filter fun i => (v.setOfTable (v.lkp p i).table).isSome

/-- The set that a program names (R285). -/
def View.progSet (v : View) (p : Nat) : Option Nat :=
  (v.lkps p).findSome? fun i => v.setOfTable (v.lkp p i).table

/-- Merge budget of a set (R301). -/
def CasSet.budget (c : CasSet) : Nat := if c.collection then c.fbudget else 60

/-- The owner's device number for an instruction (R287). -/
def CasSet.ownerOf (c : CasSet) (ctx : BitVec 32) : Nat := if c.byCtx then fld ctx 31 20 else c.owner

/-- The part a device plays (R287). -/
def CasSet.partOf (c : CasSet) (dev owner : Nat) : Part :=
  if !c.members.contains owner then .nobody
  else if dev = owner then .owner
  else if c.collection && dev / 16 ≠ owner / 16 then
    match c.entryOf dev with
    | some e => if dev % 16 = e.collector then .collector else .member
    | none => .member
  else .member

/-- The device that a device's candidate goes to (R287): the owner, or the collector of its cluster. -/
def CasSet.target (c : CasSet) (dev owner : Nat) (part : Part) : Nat :=
  if part = .collector ∨ dev / 16 = owner / 16 then owner
  else match c.entryOf dev with
    | some e => e.cluster * 16 + e.collector
    | none => owner

/-- Devices that a merge must represent (R296): the whole set for the owner, its cluster for a collector. -/
def CasSet.represent (c : CasSet) (dev : Nat) (part : Part) : Nat :=
  if part = .collector then (match c.entryOf dev with | some e => popcount 16 e.posmask | none => 1)
  else c.members.length

/-- The call number of a record (R292). -/
def CandRec.call (r : CandRec) : Nat := r.device * 2 ^ 23 + r.loc

/-- The merge of R295. -/
def mergeRec (a b : CandRec) : CandRec :=
  let w :=
    if !b.hit then a
    else if !a.hit then b
    else if a.prio ≠ b.prio then (if a.prio < b.prio then a else b)
    else { (if a.call < b.call then a else b) with tie := true }
  { w with incomplete := a.incomplete || b.incomplete, error := a.error || b.error, count := a.count + b.count + 1 }

/-- Image of a record (R292). -/
def recImage (lkp : Nat) (r : CandRec) : Granule :=
  granule [(24, r.prio), (12, r.device), (23, r.loc), (16, r.edition.toNat), (22, r.ptr), (3, r.plen), (4, lkp),
    (8, r.mgen), (1, b2n r.hit), (1, b2n r.tie), (1, b2n r.incomplete), (1, b2n r.error), (12, r.count)]

/-- A record from its granule, with its LOOKUP (R292). -/
def recOf (g : Granule) : Nat × CandRec :=
  (fld g 27 24, ⟨fld g 127 104, fld g 103 92, fld g 91 69, BitVec.ofNat 16 (fld g 68 53), fld g 52 31, fld g 30 28,
    fld g 23 16, nbit g.toNat 15, nbit g.toNat 14, nbit g.toNat 13, nbit g.toNat 12, fld g 11 0⟩)

/-- A CANDIDATE header (R291). -/
structure CandHdr where
  kind : Nat
  set : Nat
  room : Nat
  prog : Nat
  tag : Nat
  xid : Nat
  sender : Nat
  smgen : Nat
  dest : Nat
  status : Nat
  nrec : Nat
  deriving DecidableEq, Repr

def candHdr (h : Granule) : CandHdr :=
  ⟨fld h 111 110, fld h 109 104, fld h 103 100, fld h 99 92, fld h 91 84, fld h 83 68, fld h 67 56, fld h 55 48,
    fld h 47 36, fld h 35 28, fld h 27 24⟩

/-- A CANDIDATE frame from its header fields and granules (R291). -/
def candFrame (c : CandHdr) (body : List Granule) : Frame :=
  linkFrame 3 2 ⟨granule [(16, 0), (2, c.kind), (6, c.set), (4, c.room), (8, c.prog), (8, c.tag), (16, c.xid),
    (12, c.sender), (8, c.smgen), (12, c.dest), (8, c.status), (4, c.nrec), (24, 0)], body⟩

/-- The port a frame leaves on from a mask of ports, for pipeline `p` (R303). -/
def routePort (mask p : Nat) : Option Nat :=
  let l := setBits 32 mask
  if l.isEmpty then none else l[p % l.length]?

/-- A part of an instruction of a room, program and tag matches a candidate header (R304). -/
def CasPart.matchesCand (c : CasPart) (room prog tag : Nat) (h : CandHdr) : Bool :=
  (c.part = .owner || c.part = .collector) && c.set = h.set && room = h.room && prog = h.prog && tag = h.tag && c.xid = h.xid

/-- An instruction matches a candidate header (R304). -/
def Inflight.matchesCand (x : Inflight) (h : CandHdr) : Bool :=
  match x.cas with
  | none => false
  | some c => c.matchesCand x.room x.prog x.tag h

/-- An instruction whose result is leaving matches a candidate header (R48, R305). -/
def Tail.matchesCand (x : Tail) (h : CandHdr) : Bool :=
  match x.cas with
  | none => false
  | some c => c.matchesCand x.room x.prog x.tag h

/-- Takes one record of a frame into an instruction's merge (R305): the wrong edition, or else a lookup that is not
sharded, drops it. -/
def takeRec (c : CasPart) (ed : Edition) (g : Granule) (s : State) : CasPart × State :=
  let r := recOf g
  if r.2.edition ≠ ed then (c, s.bump .casEdMismatch)
  else if !c.lookups.contains r.1 then (c, s.bump .casMisroute)
  else ({ c with recs := c.recs ++ [r] }, s)

/-- Takes the records of a frame. -/
def takeRecs (c : CasPart) (ed : Edition) : List Granule → State → CasPart × State
  | [], s => (c, s)
  | g :: t, s => let r := takeRec c ed g s; takeRecs r.1 ed t r.2

/-- A frame's records enter the merge of an instruction that has none from its SENDER yet (R304, R305). -/
def Inflight.absorb (x : Inflight) (h : CandHdr) (body : List Granule) (s : State) : Inflight × State :=
  match x.cas with
  | none => (x, s)
  | some c =>
    let r := takeRecs { c with senders := c.senders ++ [h.sender] } x.edition body s
    ({ x with cas := some r.1 }, r.2)

/-- Replaces an instruction in flight. -/
def State.setFlight (s : State) (x : Inflight) : State :=
  { s with search := { s.search with flight := s.search.flight.map fun y => if y.id = x.id then x else y } }

/-- Removes an instruction from those in flight. -/
def State.dropFlight (s : State) (id : Nat) : State :=
  { s with search := { s.search with flight := s.search.flight.filter fun y => y.id ≠ id } }

/-- Frames of the pending store that an instruction just accepted takes, in order of arrival; a second frame of one
SENDER is discarded (R304, R305). -/
def absorbPending (x : Inflight) : List PendCand → State → Inflight × List PendCand × State
  | [], s => (x, [], s)
  | p :: t, s =>
    let h := candHdr p.frame.hdr
    if !x.matchesCand h || !decide (s.now ≤ p.arrived + 10240) then
      let r := absorbPending x t s
      (r.1, p :: r.2.1, r.2.2)
    else
      let again := match x.cas with | some c => c.senders.contains h.sender | none => false
      if again then absorbPending x t (s.bump .casDup)
      else
        let r := x.absorb h p.frame.body s
        absorbPending r.1 t r.2

end Sys2Proof.Machine
end

