-- ==== Sys2Proof/Machine/Rooms.lean ====
section
/-! DEFINITION. Rooms: losses and reductions (R244 to R253), the checks of allotments and shares (R237, R239) and the
maintenance arbiter (R242). -/

namespace Sys2Proof.Machine

/-! ### The reduced rota (R246, R247) -/

/-- A reduction being computed: the rota as its differences from the one in force, rooms kept, shed (with the first
lane and phase not served) and moved. -/
structure Redu where
  q : Store Nat
  kept : List Nat
  shed : List (Nat × Nat × Nat × Nat)
  moved : List Nat
  deriving DecidableEq, Repr

/-- The rota that differences `q` give over a view (R98). -/
def rotaOver (v : View) (q : Store Nat) : RotaFn := fun u phi => sget (fun k => v.rota (k / 64) (k % 64)) q (u * 64 + phi)

/-- Writes an entry of a rota given by its differences. -/
def putRota (v : View) (q : Store Nat) (u phi e : Nat) : Store Nat :=
  sput (fun k => v.rota (k / 64) (k % 64)) q (u * 64 + phi) e

/-- The lowest IDLE phase of a unit other than `phi`. -/
def idlePhase (q : RotaFn) (P u phi : Nat) : Option Nat :=
  (List.range P).find? fun f => f ≠ phi && rotaKind (q u f) = 0

/-- A unit's entry at a phase can be claimed for a lane of room `r` (R247). -/
def canClaim (v : View) (q : RotaFn) (P : Nat) (kept : List Nat) (r u phi lane : Nat) : Bool :=
  let e := q u phi
  if e = lane then true
  else if rotaKind e = 0 then true
  else if rotaKind e = 1 then (idlePhase q P u phi).isSome
  else (chargedTo v u e).all fun x => !kept.contains x && x ≠ r

/-- Claims a unit's entry; a MAINT entry moves to the unit's lowest IDLE phase (R247). -/
def claim (v : View) (P : Nat) (q : Store Nat) (u phi lane : Nat) : Store Nat :=
  let f := rotaOver v q
  if f u phi = lane then q
  else
    let q := if rotaKind (f u phi) = 1 then
        (match idlePhase f P u phi with | some i => putRota v q u i rotaMaint | none => q) else q
    putRota v q u phi lane

/-- The units to claim for a copy: of an exact-match slice, the lower of its two units that can be claimed; none when
some unit cannot (R247; log 22). -/
def unitsFor (ok : Nat → Bool) : List (List Nat) → Option (List Nat)
  | [] => some []
  | g :: t =>
    match g.find? ok with
    | some u => (unitsFor ok t).map (u :: ·)
    | none => none

/-- Groups of units, of each of which one must be claimed, for each copy free of lost units (R133, R152, R247). -/
def copyGroups (v : View) (tb : Table) (lost : List Nat) (t : Nat) : List (List (List Nat)) :=
  match (v.tbl t).kind with
  | 0 =>
    let d := v.trn t
    ((List.range d.ncopy).filter fun c => !(barTrn tb d lost).contains c).map fun c => (d.bays c).map fun l => [l]
  | 1 =>
    let d := v.pfx t
    let all4 := [[64], [65], [66], [67]]
    if tb.needsHash then (if freeOf lost [64, 65, 66, 67] then [all4] else [])
    else ((List.range d.ncopy).filter fun c => !(barPfx tb d lost).contains c).map fun c =>
      (d.copySlices c).map fun sl => [64 + sl]
  | 2 =>
    let d := v.em t
    ((List.range d.ncopy).filter fun c => !(barEm tb d lost).contains c).map fun c => (d.copySlices c).map emUnits
  | _ => []

/-- `repair()` of R247. -/
def repair (v : View) (tb : Table) (lost : List Nat) (P : Nat) (q : Store Nat) (kept : List Nat)
    (r t port lkp phi : Nat) : Option (Store Nat) :=
  let region := if (v.tbl t).kind = 0 then (v.trn t).region else 0
  let lane := rotaLane port lkp region
  let ok := fun u => canClaim v (rotaOver v q) P kept r u phi lane
  match (copyGroups v tb lost t).findSome? (unitsFor ok) with
  | some us => some (us.foldl (fun q u => claim v P q u phi lane) q)
  | none => none

/-- A lane of a program with the phase it must be served in: lookup index, port, phase. -/
def needs (v : View) (held : List Nat) (P p : Nat) : List (Nat × Nat × Nat) :=
  (v.lkps p).flatMap fun i => (lanePorts v held p).flatMap fun n => (reached P n).map fun phi => (i, n, phi)

/-- Serves every lane of a slot by repair where needed; answers the rota and whether anything moved, or the first lane
that cannot be served (R246). -/
def repairSlot (v : View) (tables : Nat → Table) (lost : List Nat) (P : Nat) (kept : List Nat) (r p : Nat) :
    List (Nat × Nat × Nat) → Store Nat → Bool → Except (Nat × Nat × Nat) (Store Nat × Bool)
  | [], q, m => .ok (q, m)
  | (i, n, phi) :: t, q, m =>
    let tbl := (v.lkp p i).table
    if served (rotaOver v q) v (tables tbl) lost tbl n i phi then repairSlot v tables lost P kept r p t q m
    else match repair v (tables tbl) lost P q kept r tbl n i phi with
      | some q' => repairSlot v tables lost P kept r p t q' true
      | none => .error (n, i, phi)

/-- Serves every enabled slot of a room (R246). -/
def repairSlots (v : View) (tables : Nat → Table) (lost held : List Nat) (P : Nat) (kept : List Nat) (r : Nat) :
    List Nat → Store Nat → Bool → Except (Nat × Nat × Nat) (Store Nat × Bool)
  | [], q, m => .ok (q, m)
  | p :: t, q, m =>
    match repairSlot v tables lost P kept r p (needs v held P p) q m with
    | .ok (q', m') => repairSlots v tables lost held P kept r t q' m'
    | .error x => .error x

/-- Sets every LANE entry charged only to a room to IDLE (R246). -/
def idleOf (v : View) (P r : Nat) (q : Store Nat) : Store Nat :=
  (List.range 76).foldl (fun q u => (List.range P).foldl (fun q phi =>
    if chargedTo v u (rotaOver v q u phi) = [r] then putRota v q u phi rotaIdle else q) q) q

/-- One room of the reduction: kept, or shed in full (R246). -/
def reduceRoom (v : View) (tables : Nat → Table) (lost held shed0 : List Nat) (P : Nat) (x : Redu) (r : Nat) : Redu :=
  let shed := shed0 ++ x.shed.map Prod.fst
  let slots := (v.enabledSlots shed).filter fun p => (v.prog p).room = r
  let out := fun (lane : Nat × Nat × Nat) =>
    { x with q := idleOf v P r x.q, shed := x.shed ++ [(r, lane)] }
  match repairSlots v tables lost held P x.kept r slots x.q false with
  | .ok (q', m) =>
    if withinShares (rotaOver v q') P v r then
      { x with q := q', kept := x.kept ++ [r], moved := if m then x.moved ++ [r] else x.moved }
    else out (0xFF, 0xFF, 0xFF)
  | .error lane => out lane

/-- Rooms with an enabled program, by rank from 15 down and ascending number (R246). -/
def rankOrder (v : View) (shed ranks : List Nat) : List Nat :=
  (List.range 16).flatMap fun k => (List.range 16).filter fun r =>
    ranks.getD r 0 = 15 - k && (v.enabledSlots shed).any fun p => (v.prog p).room = r

/-- Lost units become MAINT in phase 0 and IDLE elsewhere (R246). -/
def blankLost (v : View) (P : Nat) (lost : List Nat) : Store Nat :=
  lost.foldl (fun q u => (List.range P).foldl (fun q phi => putRota v q u phi (if phi = 0 then rotaMaint else rotaIdle)) q) []

/-- The reduced rota and the fate of the rooms (R246). -/
def reduce (v : View) (tables : Nat → Table) (lost held shed ranks : List Nat) : Redu :=
  let P := v.phases
  (rankOrder v shed ranks).foldl (reduceRoom v tables lost held shed P) ⟨blankLost v P lost, [], [], []⟩

/-- Entries of the rota in force that break the transition rule against the reduced rota, made IDLE (R248). -/
def firstStep (v : View) (q : Store Nat) : Store Nat :=
  let P := v.phases
  (List.range 76).foldl (fun m u => (List.range P).foldl (fun m phi =>
    if clashes (v.rota u phi) (rotaOver v q u phi) then putRota v m u phi rotaIdle else m) m) []

/-! ### Losses (R244, R248, R250) -/

/-- The rank of every room (R236). -/
def State.ranks (s : State) : List Nat := (List.range 16).map fun r => s.reg .roomRank r

/-- The reduction that the present losses call for: none while every enabled lane is served, and none but the second switch
cycle of one under way when that serves every lane (R248, R253). -/
def State.planReduction (s : State) : State :=
  let v := s.view
  let g := s.guar
  let serves := fun (q : RotaFn) => feasible q v.phases v s.table g.shed g.lost s.heldDies
  if s.dev.phase = .minimal ∨ (g.second.isSome ∧ serves (rotaOver v g.final)) then s
  else if serves v.rotaFn then
    { s with guar := { g with active := false, second := none, first := [], final := [], toShed := [], toReduce := [] } }
  else
    let r := reduce v s.table g.lost s.heldDies g.shed g.ranks
    let two := (transitionFault v.rotaFn v.phases (rotaOver v r.q) v.phases).isSome
    { s with guar := { g with active := true, second := none, final := r.q, first := if two then firstStep v r.q else [],
                              toShed := r.shed, toReduce := r.moved } }

/-- Reasons for DEGRADED of a room: an enabled program with a tally, or pool blocks on a held die's slice (R250). -/
def State.degradeReason (s : State) (room : Nat) (die : Nat) : Nat :=
  let v := s.view
  let tally := (v.enabledSlots []).any fun p =>
    (v.prog p).room = room && (List.range (v.prog p).stages).any fun st => (v.tally p st).en
  let pool := (List.range 64).any fun n =>
    let d := v.pool n
    d.present && d.room = room && decide (d.base / 1048576 ≤ die ∧ die ≤ (d.base + d.size - 1) / 1048576)
  b2n tally + 2 * b2n pool

/-- A room becomes DEGRADED by the lowest held die that gives it a reason (R250, R251, R358). -/
def State.degradeRoom (s : State) (room : Nat) : State :=
  match s.heldDies.find? fun d => s.degradeReason room d ≠ 0 with
  | none => s
  | some d =>
    if s.guar.degraded.contains room then s
    else ({ s with guar := { s.guar with degraded := s.guar.degraded ++ [room] } }).record .guarDegraded (some room)
      (srcOpen .guarDegraded) [(8, d), (8, s.degradeReason room d)] 1

/-- A room is DEGRADED no more, since the last held die, `die`, is released (R250, R358). -/
def State.undegrade (die : Nat) (s : State) (room : Nat) : State :=
  ({ s with guar := { s.guar with degraded := s.guar.degraded.filter (· ≠ room) } }).record .guarDegraded (some room)
    (srcOpen .guarDegraded) [(8, die), (8, s.degradeReason room die)] 2

/-- DEGRADED follows the held dies; it clears when none is held, the last one having been `die` (R250). -/
def State.updateDegraded (s : State) (die : Nat) : State :=
  if s.heldDies.isEmpty then s.guar.degraded.foldl (State.undegrade die) s
  else (List.range 16).foldl State.degradeRoom s

/-- A loss is detected: units are marked, recorded, and a reduction is planned with the ranks sampled at the first
detection before the switch cycle (R246, R253). `what` is the die held or the physical bay lost. -/
def State.loseUnits (s : State) (units : List Nat) (cause what : Nat) : State :=
  let g := s.guar
  let lost := units.foldl (fun l u => insertNew u l) g.lost
  let ranks := if g.active && g.second.isNone then g.ranks else s.ranks
  let s := { s with guar := { g with lost := lost, cause := cause, detected := s.now, ranks := ranks } }
  let s := s.record .guarLoss none (srcOpen .guarLoss) [(8, cause), (8, what), (76, maskOf lost)]
  s.planReduction

/-- Units of a search die (R97, R244). -/
def dieUnits (d : Nat) : List Nat := (List.range 16).map (16 * d + ·) ++ [64 + d, 68 + 2 * d, 69 + 2 * d]

/-! ### Switch cycles of a reduction (R248, R249, R251) -/

/-- Applies differences of a rota to the one in force. -/
def State.applyRota (s : State) (q : Store Nat) : State :=
  s.enforce (q.map fun e => (Obj.rotaData.key 0 0 e.1, e.2))

/-- REDUCED of a room clears (R249, R358); its record names the rank and the cycle (log 81). -/
def State.unreduce (s : State) (room : Nat) : State :=
  if s.guar.reduced.contains room then
    ({ s with guar := { s.guar with reduced := s.guar.reduced.filter (· ≠ room) } }).record .guarReduced (some room)
      (srcOpen .guarReduced) [(8, s.reg .roomRank room), (64, s.now)] 2
  else s

/-- A room is shed: SHED, its count and its records (R249, R251). -/
def State.shedRoom (s : State) (x : Nat × Nat × Nat × Nat) : State :=
  let g := s.guar
  if g.shed.contains x.1 then s
  else
    let s := { s with guar := { g with shed := g.shed ++ [x.1] } }.unreduce x.1
    (s.bump .roomShedCnt x.1).record .guarShed (some x.1) (srcOpen .guarShed)
      [(8, g.ranks.getD x.1 0), (8, x.2.1), (8, x.2.2.1), (8, x.2.2.2), (8, g.cause)] 1

/-- A kept room whose entries moved becomes REDUCED (R249, R251). -/
def State.reduceMark (s : State) (room : Nat) : State :=
  ({ s with guar := { s.guar with reduced := insertNew room s.guar.reduced } }).record .guarReduced (some room)
    (srcOpen .guarReduced) [(8, s.guar.ranks.getD room 0), (64, s.now)] (if s.guar.reduced.contains room then 0 else 1)

/-- ROTA_APPLIED (R107, R489). -/
def State.rotaApplied (s : State) (cause : Nat) : State := s.record .rotaApplied none hubArbiter [(64, s.now), (8, cause)]

/-- REDUCTION_SWITCH (R248): the reduced rota takes effect, or the first of its two switch cycles, in the next cycle, so
that what intake took in this one keeps the old rota (log 78). -/
def execReductionSwitch (s : State) : Host.Outcome State Fault Refusal :=
  let g := s.guar
  if !g.active || g.second.isSome then .next s
  else
    let two := !g.first.isEmpty
    let s := (s.at (s.now + 1)).applyRota (if two then g.first else g.final)
    let s := g.toShed.foldl State.shedRoom s
    let s := g.toReduce.foldl State.reduceMark s
    let s := (s.bump .guarReductions).rotaApplied (if two then 2 else 1)
    done { s with guar := { s.guar with active := two, toShed := [], toReduce := [],
                                        second := if two then some (s.now + 264) else none } }

/-- REDUCTION_SECOND_SWITCH (R248): 264 cycles later the reduced rota comes in whole. -/
def execReductionSecondSwitch (s : State) : Host.Outcome State Fault Refusal :=
  match s.guar.second with
  | none => .next s
  | some c =>
    let s := (s.at (max c (s.now + 1))).applyRota s.guar.final
    let s := s.rotaApplied 1
    done { s with guar := { s.guar with active := false, second := none, first := [], final := [] } }

/-! ### Checks of room objects (R237, R239) -/

/-- A room's allotment as a set of logical bays (R236). -/
def View.allotted (v : View) (room l : Nat) : Bool :=
  if l < 32 then nbit (v.obj .roomBaysLo room) l else nbit (v.obj .roomBaysHi room) (l - 32)

/-- A room keeps every bay that a copy of one of its tables lies in (R237). -/
def allotOk (v : View) (room : Nat) : Bool :=
  (v.tablesOf 0).all fun t => (v.tbl t).room ≠ room || (v.trn t).allBays.all (v.allotted room)

/-- The share sums stay within their limits (R239). -/
def sharesOk (v : View) : Bool :=
  let sum := fun o => ((List.range 16).map fun r => v.obj o r).sum
  decide (sum .roomShareBay ≤ 4032 ∧ sum .roomSharePfx ≤ 252 ∧ sum .roomShareEm ≤ 504)

/-! ### The maintenance arbiter (R242) -/

/-- A room's maintenance queue. -/
def State.queue (s : State) (room : Nat) : List MqCmd := sget (fun _ => []) s.arb.queues room

/-- Writes a room's maintenance queue. -/
def State.setQueue (s : State) (room : Nat) (l : List MqCmd) : State :=
  { s with arb := { s.arb with queues := sput (fun _ => []) s.arb.queues room l } }

/-- Rooms in ascending order after the last holder (R242). -/
def afterHolder (last : Option Nat) : List Nat :=
  match last with
  | none => List.range 16
  | some h => (List.range 16).map fun i => (h + 1 + i) % 16

/-- The room that an arbitration point grants, with whether it won by being passed over (R242). `can` says whether a
room's head can start. -/
def arbitrate (a : Arbiter) (prio : Nat → Nat) (can : Nat → Bool) : Option (Nat × Bool) :=
  let order := (afterHolder a.lastHolder).filter can
  match order.find? fun r => decide (64 ≤ sget (fun _ => 0) a.passed r) with
  | some r => some (r, true)
  | none =>
    let best := order.foldl (fun m r => max m (prio r)) 0
    (order.find? fun r => prio r = best).map fun r => (r, false)

end Sys2Proof.Machine
end

