-- ==== Sys2Proof/Machine/Repair.lean ====
section
/-! DEFINITION. Finding an uncorrectable word (R443, R444, R138) and failing a bay (R447 to R449): operations that the
searches, the maintenance slots and the health engines share. -/

namespace Sys2Proof.Machine

/-- Changes the health state. -/
def State.setHealth (s : State) (f : Health → Health) : State := { s with health := f s.health }

/-! ### Bays -/

/-- Fences a physical bay; its one test comes a second later (R448, R451). -/
def State.fence (s : State) (b : Nat) : State :=
  if s.bays.fenced.contains b then s
  else { s with bays := { s.bays with fenced := s.bays.fenced ++ [b],
                                      retests := s.bays.retests ++ [(b, s.now + Config.sec)] } }

/-- Writes the bay map (R18); 0xFF stands for no physical bay. -/
def State.mapBay (s : State) (l b : Nat) : State :=
  { s with bays := { s.bays with bayMap := sput bayDefault s.bays.bayMap l b } }

/-- The logical bay of a physical bay. -/
def State.logicalOf (s : State) (b : Nat) : Option Nat := (List.range 64).find? fun l => s.view.phys l = some b

/-- The standing spare of a die: unmapped, unfenced and not being filled (R17, R18, R451). -/
def State.spareOf (s : State) (d : Nat) : Option Nat :=
  if s.bays.spareUsed.contains d then none
  else ((List.range 17).map (17 * d + ·)).find? fun b =>
    (s.logicalOf b).isNone && !s.bays.fenced.contains b && !s.bays.rebuilds.any fun r => r.spare = b

/-- Rebuilds that have not switched yet. -/
def State.rebuilding (s : State) : List Rebuild := s.bays.rebuilds.filter fun r => !r.switched

/-- REBUILD_WAIT of every table follows the rebuilds under way (R200, R448). -/
def State.updateWaits (s : State) : State :=
  (s.view.tablesOf 0).foldl (fun s t =>
    let w := s.rebuilding.any fun r => (s.view.trn t).allBays.contains r.lbay
    if (s.table t).rebuildWait = w then s else s.setTable t { s.table t with rebuildWait := w }) s

/-- The logical bays that collation visits: mapped, on a die that is not held (R445). -/
def State.colBays (s : State) : List Nat := (List.range 64).filter fun l => (s.view.phys l).isSome && !s.dieHeld (l / 16)

/-- The pass over the device ends when every bay that collation visits is done (R445). -/
def State.endColPass (s : State) : State :=
  if !s.colBays.isEmpty && s.colBays.all s.health.colDone.contains then
    (s.setHealth fun h => { h with colDone := [], colBad := [] }).bump .colPasses
  else s

/-- A test of a region of a bay's unit is over without a restore: its save buffer is released (R448). -/
def State.dropTest (s : State) (l : Nat) : State :=
  s.setHealth fun h => { h with srSteps := sput (fun _ => 0) h.srSteps l 0 }

/-- A logical bay is left without a physical bay (R244, R449). -/
def State.loseBay (s : State) (l b cause : Nat) : State :=
  ((((s.mapBay l 0xFF).fence b).dropTest l).updateWaits.loseUnits [l] cause b).endColPass

/-- A bay fails (R447 to R449): a spare takes over when the die has one, else it is a loss. -/
def State.failBay (s : State) (b cause : Nat) : State :=
  match s.logicalOf b with
  | none => (s.record .bayFail none (srcDie (dieOfBay b)) [(8, b), (8, 0xFF), (8, cause)]).fence b
  | some l =>
    if s.rebuilding.any fun r => r.failed = b then s
    else
      let s := s.record .bayFail none (srcDie (dieOfBay b)) [(8, b), (8, l), (8, cause)]
      match s.spareOf (dieOfBay b) with
      | none => s.loseBay l b 1
      | some sp =>
        let now := decide (cause = 2)
        let s := if now then (s.fence b).dropTest l else s
        let r : Rebuild := ⟨b, sp, l, s.now, s.now + 37888 + 1 + s.drawn % 2500, false, !now, cause⟩
        (({ s with bays := { s.bays with rebuilds := s.bays.rebuilds ++ [r] } }).draw).updateWaits

/-! ### Uncorrectable words -/

/-- Memory code of UNCORR_FOUND (R494). -/
def memCode : MemKind → Nat
  | .side => 1 | .shadow => 2 | .trieNode => 3 | .trieAnswer => 4 | .pfxRecord => 5 | .hashCell => 6 | .emSlot => 7
  | .stamp => 8 | .ads => 9 | .count => 10 | .carrel => 11 | .secure => 12 | .daybook => 13 | .mgmt => 14 | .hub => 15

/-- Die of a memory word: 0 to 3, or 4 for the hub (R16, R201, R223). -/
def dieOfMem (w : MemWord) : Nat :=
  match w.kind with
  | .side => w.unit / 17
  | .shadow => w.unit / 16
  | .trieNode | .trieAnswer | .pfxRecord | .hashCell => w.unit
  | .emSlot | .stamp => w.index / 2097152
  | .ads => w.index / 524288
  | .count => w.index / 1048576
  | .carrel => dieOfWord w.index
  | _ => 4

/-- Shelf-reading region of a memory word within its die (R439; log 23 says where the spec leaves the place open). -/
def regionOf (w : MemWord) : Nat :=
  match w.kind with
  | .side => 36 * (w.unit % 17) + w.index / 1024
  | .shadow => 612 + ((w.unit % 16) * 36864 + w.index) * 20 / 4096
  | .trieNode | .trieAnswer | .pfxRecord | .hashCell => 4196 + w.index / 1024 % 5120
  | .emSlot => 9316 + w.index % 2097152 / 256
  | .stamp => 17508 + w.index % 2097152 * 2304 / 2097152
  | .ads => 19812 + w.index % 524288 / 128
  | .count => 23908 + w.index % 1048576 * 6 / 4096
  | .carrel => 25444 + w.unit * 32 + w.index / 2048
  | .secure => w.index / 512
  | .daybook => 32 + (w.unit * 1024 + w.index % 1024) / 128
  | .mgmt => 168 + w.index / 1024 % 192
  | .hub => 360 + w.index / 1024 % 192

/-- Every enabled program that names a table is served in hash mode by the rota in force (R133, R138). -/
def State.hashServes (s : State) (t : Nat) : Bool :=
  let v := s.view
  (v.enabledSlots s.guar.shed).all fun p => (v.lkps p).all fun i =>
    (v.lkp p i).table ≠ t || (lanePorts v s.heldDies p).all fun n =>
      (reached v.phases n).all fun phi => hashServed v.rotaFn phi n i

/-- A prefix-engine word is found uncorrectable (R138). -/
def State.pfxUncorr (s : State) (w : MemWord) : State :=
  let a := pfxWord w
  let t := a.1
  let tb := s.table t
  let d := s.view.pfx t
  let rec' := fun (s : State) (auto : Nat) =>
    s.record .pfxUncorr (some (s.view.tbl t).room) (srcDie w.unit) [(8, t), (8, w.unit), (8, a.2.1), (32, a.2.2), (8, auto)]
  match w.kind with
  | .pfxRecord => rec' s 0
  | .hashCell => rec' (if tb.hashInForce then s else s.setTable t { tb with hashReady := false }) 0
  | _ =>
    let s := s.setTable t { tb with trieFault := true }
    if !d.auto || (tb.hash && tb.switch = .none) then rec' s 0
    else if tb.hashReady && tb.switch = .none && s.hashServes t then
      rec' (s.setTable t { s.table t with switch := .requested true }) 1
    else rec' s 2

/-- A record of a ring is lost (R444): it keeps its place and its TIME, its other fields are free values (log 24), and it is
counted as a drop (R366). -/
def State.loseRecord (s : State) (ring : Nat) (seq : BitVec 16) : State :=
  let g := (s.ring ring).settled s.now
  let i := (seq - g.rseq).toNat
  match g.recs[i]? with
  | some x =>
    let t := x.time.toNat
    let v := BitVec.ofNat 184 s.drawn
    let x := { x with code := v.extractLsb' 0 16, source := v.extractLsb' 16 8, room := v.extractLsb' 24 4, roomv := v.getLsbD 28,
                      cls := 0, dir := v.extractLsb' 29 2, detail := v.extractLsb' 31 143 }
    ((s.setRing ring { g with recs := g.recs.set i x, dropped := g.dropped + 1, lastDrop := t,
                              firstDrop := if g.dropped = 0 then t else g.firstDrop }).bump .dbDropped ring).draw
  | none => s

/-- What the device does at once about a word found uncorrectable (R444, R447, R163; log 24). -/
def State.treatUncorr (s : State) (w : MemWord) : State :=
  match w.kind with
  | .trieNode | .trieAnswer | .pfxRecord | .hashCell => s.pfxUncorr w
  | .side =>
    let n := sget (fun _ => 0) s.health.sideBad w.unit + 1
    let s := s.setHealth fun h => { h with sideBad := sput (fun _ => 0) h.sideBad w.unit n }
    if 17 ≤ n ∧ !s.bays.fenced.contains w.unit then s.failBay w.unit 3 else s
  | .shadow =>
    if s.rebuilding.any fun r => r.lbay = w.unit then s
    else match s.view.phys w.unit with
      | some b =>
        let a := s.atom (rowKey b (w.index / 1024) (w.index % 1024))
        let k := rowKey w.unit (w.index / 1024) (w.index % 1024)
        ({ s with bays := { s.bays with shadow := sput (fun _ => 0) s.bays.shadow k a } }).cleanse w.kind w.unit w.index
      | none => s
  | .daybook => s.loseRecord w.unit (BitVec.ofNat 16 w.index)
  | .mgmt => (s.record .mgmtRestart none srcFw [(32, w.index)]).wakeMgmt
  | _ => s

/-- WORD of UNCORR_FOUND: its number among the words of its memory on its die, or of its memory on the hub (R443; log 24). -/
def recordWord (w : MemWord) : Nat :=
  match w.kind with
  | .side => w.unit % 17 * 36864 + w.index
  | .shadow => w.unit % 16 * 36864 + w.index
  | .carrel => w.unit * 65536 + w.index
  | .daybook => w.unit * 1024 + w.index % 1024
  | _ => w.index % 2 ^ 32

/-- An access finds an uncorrectable word (R443): marked, recorded, its region next under test. -/
def State.foundUncorr (s : State) (w : MemWord) : State :=
  if s.health.poison.contains w then s
  else
    let d := dieOfMem w
    let x := (d, regionOf w)
    let s := s.setHealth fun h => { h with poison := h.poison ++ [w], srHead := x :: h.srHead.filter (· ≠ x) }
    let s := s.record .uncorrFound none (if d = 4 then srcOpen .uncorrFound else srcDie d)
      [(8, d), (8, memCode w.kind), (32, recordWord w)]
    s.treatUncorr w

/-- Several words at once. -/
def State.foundAll (s : State) (l : List MemWord) : State := l.foldl State.foundUncorr s

end Sys2Proof.Machine
end

