-- ==== Sys2Proof/Machine/Search.lean ====
section
/-! DEFINITION. Searches, programs and results (R35 to R69): intake, the stages of a program, tallies, the result, and
what an owner, collector or member of a shard set adds to them (R287 to R290, R294 to R299). -/

namespace Sys2Proof.Machine

/-! ### Intake (R37 to R41, R45, R63) -/

/-- The configuration in force at cycle `t`: a switch at or before `t` that is already fixed counts as made (R33). -/
def State.viewAt (s : State) (t : Nat) : View :=
  let f := if s.cat.acc.busy && decide (s.cat.acc.switchAt ≤ t) then
      s.cat.acc.values.foldl (fun m e => sput regDefault m e.1 e.2) s.cat.force else s.cat.force
  let m := s.bays.rebuilds.foldl (fun m r =>
    if !r.switched && decide (r.switchAt ≤ t) then sput bayDefault m r.lbay r.spare else m) s.bays.bayMap
  ⟨f, m⟩

/-- The intake cycle of a frame whose last granule came at `a`: the first slot of its port at or after 7 cycles
(R39, R41). -/
def intakeCycle (port a : Nat) : Nat := if (a + 7) % 2 = port % 2 then a + 7 else a + 8

/-- Granules of the instruction's RESULT frame (R67). -/
def Inflight.granules (x : Inflight) : Nat :=
  1 + ((x.view.lkps x.prog).filter fun i => (x.view.lkp x.prog i).report ≠ 0).length

/-- The cycle in which the tag is free: that of the last result granule, or A + L + M without a result (R48, R289). -/
def Inflight.freeAt (x : Inflight) : Nat := if x.noResult then x.due else x.due + cdiv x.granules 5 - 1

/-- A tag is in use on a port at intake cycle `t` (R48, R289). -/
def State.tagBusy (s : State) (t port tag : Nat) : Bool :=
  (s.search.flight.any fun x => x.port = port && x.tag = tag && !x.rejected && decide (t < x.freeAt)) ||
  s.search.tails.any fun x => x.port = port && x.tag = tag && decide (t < x.last)

/-- A room is shed at cycle `t` (R249): a restoration at or before `t` that is already fixed counts as made (R252). -/
def State.shedAt (s : State) (t room : Nat) : Bool :=
  s.guar.shed.contains room && !(s.cat.acc.busy && s.cat.acc.rota && decide (s.cat.acc.switchAt ≤ t) && s.cat.acc.restore.contains room)

/-- An edition is admitted when pinned (R63). -/
def State.admitted (s : State) (room : Nat) (e : Edition) : Bool :=
  decide ((s.current room - e).toNat ≤ s.reg .edPinLag room)

/-- The first check of R37 that fails, as its STATUS. -/
def State.intakeStatus (s : State) (v : View) (port t : Nat) (h : SearchHdr) (granules : Nat) (pace : Bool) : Option Nat :=
  let p := v.prog h.prog
  if pace then some 0x09
  else if h.keylen = 0 ∨ 160 < h.keylen then some 0x01
  else if granules ≠ 1 + cdiv h.keylen 16 then some 0x02
  else if !p.enable || !nbit p.portmask port then some 0x04
  else if p.room ≠ h.room then some 0x03
  else if s.shedAt t h.room then some 0x08
  else if p.minlen ≠ 0 ∧ h.keylen < p.minlen then some 0x05
  else if s.tagBusy t port h.tag then some 0x06
  else if h.pinned && !s.admitted h.room h.edition then some 0x07
  else none

/-- A result window at `due` would begin less than 2 cycles from a reserved one on the port (R45). -/
def State.windowClash (s : State) (port due : Nat) : Bool :=
  let near := fun d => decide (d < due + 2 ∧ due < d + 2)
  (s.search.flight.any fun x => x.port = port && !x.noResult && near x.due) ||
  s.search.errs.any fun x => x.port = port && near x.due

/-- A clash is counted and recorded (R45). -/
def State.clash (s : State) (port : Nat) (h : SearchHdr) (status : Nat) : State :=
  (s.bump .portWinClash port).record .windowClash (some h.room) (srcPort port)
    [(8, h.tag), (8, h.prog), (8, port), (8, status)]

/-- Fields of a RESULT header (R67). -/
structure ResultHdr where
  room : Nat
  prog : Nat
  tag : Nat
  edition : Nat
  pgen : Nat
  status : Nat
  ctx : Nat
  hits : Nat
  error : Bool
  tie : Bool
  incomplete : Bool
  ended : Bool
  defaulted : Bool
  nrep : Nat
  deriving DecidableEq, Repr

/-- A RESULT frame (R67). -/
def resultFrame (h : ResultHdr) (reports : List Granule) : Frame :=
  linkFrame 2 0 ⟨granule [(16, 0), (4, h.room), (8, h.prog), (8, h.tag), (16, h.edition), (4, h.pgen), (8, h.status),
    (32, h.ctx), (16, h.hits), (1, b2n h.error), (1, b2n h.tie), (1, b2n h.incomplete), (1, b2n h.ended),
    (1, b2n h.defaulted), (3, 0), (4, h.nrep), (4, 0)], reports⟩

/-- The header granule of an error result (R38). -/
def errorHdr (v : View) (h : SearchHdr) (status : Nat) : Granule :=
  (resultFrame ⟨h.room, h.prog, h.tag, h.edition.toNat, (v.prog h.prog).pgen, status, h.ctx.toNat, 0, true, false,
    false, false, false, 0⟩ []).hdr

/-- Reserves the window of an error result, or counts its clash (R38, R45). -/
def State.errorResult (s : State) (v : View) (port a : Nat) (h : SearchHdr) (status : Nat) : State :=
  if s.windowClash port (a + 112) then s.clash port h status
  else { s with search := { s.search with errs := s.search.errs ++ [⟨port, a + 112, errorHdr v h status⟩] } }

/-- The cascade part of an instruction of a program that names set `n` (R287, R301). -/
def casPartOf (v : View) (dev n prog status : Nat) (ctx : BitVec 32) : CasPart :=
  let c := v.set n
  let owner := c.ownerOf ctx
  ⟨n, c.partOf dev owner, owner, fld ctx 15 0, c.budget, v.sharded prog, [], [], false, false, status⟩

/-- An instruction as intake leaves it, its last granule received in cycle `a` and its intake cycle `t`: `status` is 0
when it is accepted. -/
def newFlight (v : View) (s : State) (port a t status : Nat) (h : SearchHdr) (key : List Byte) (cas : Option CasPart) :
    Inflight :=
  let p := v.prog h.prog
  let other := match cas with | some c => c.part ≠ .owner | none => false
  let m := match cas with | some c => c.budget | none => 0
  ⟨s.search.nextId, port, h.room, h.prog, h.tag, h.ctx, if h.pinned then h.edition else s.current h.room, h.pinned,
    p.pgen, h.keylen, key, a, t, a + latency p.stages + m, v, if status = 0 then 0 else 4, none, 0, decide (status ≠ 0), status,
    decide (status ≠ 0), [], cas, other⟩

/-- Adds an instruction to those in flight, with the waiting candidates that it matches (R304). -/
def State.launch (s : State) (x : Inflight) : State :=
  let r := absorbPending x s.cas.pend s
  let s := r.2.2
  { s with cas := { s.cas with pend := r.2.1 },
           search := { s.search with flight := s.search.flight ++ [r.1], nextId := s.search.nextId + 1 } }

/-- A rejected frame (R37, R38, R290): recorded, and answered by an error result, or on a device that is not the owner
by a candidate with ERROR records. -/
def State.reject (s : State) (v : View) (port a t status : Nat) (h : SearchHdr) (set : Option Nat) : State :=
  let s := s.record .srchReject (some h.room) (srcPort port) [(8, status), (8, h.tag), (8, h.prog), (8, port)]
  match set with
  | some n =>
    let c := casPartOf v (v.device s.dev.straps) n h.prog status h.ctx
    if !(v.prog h.prog).enable || c.part = .owner then s.errorResult v port a h status
    else if c.part = .nobody then s.bump .casNoOwner
    else s.launch (newFlight v s port a t status h [] (some c))
  | none => s.errorResult v port a h status

/-- An accepted frame (R45, R48, R63): its window is reserved and it holds its tag, or it clashes and is not run. -/
def State.accept (s : State) (v : View) (port a t : Nat) (h : SearchHdr) (key : List Byte) (set : Option Nat) : State :=
  let cas := set.map fun n => casPartOf v (v.device s.dev.straps) n h.prog 0 h.ctx
  let x := newFlight v s port a t 0 h key cas
  if !x.noResult && s.windowClash port x.due then s.clash port h 0
  else
    let s := match x.cas with | some c => if c.part = Part.nobody then s.bump .casNoOwner else s | none => s
    s.launch x

/-- Intake of a SEARCH frame whose last granule was received in cycle `a`, at intake cycle `t` (R37, R312). -/
def State.intake (s : State) (port a t : Nat) (f : Frame) : State :=
  let h := searchHdr f.hdr
  let v := s.viewAt t
  let last := sget (fun _ => 0) s.search.lastAt port
  let pace := decide (last ≠ 0 ∧ a + 1 < last + 2)
  let s := { s with search := { s.search with lastAt := sput (fun _ => 0) s.search.lastAt port (a + 1) } }
  let set := v.progSet h.prog
  if set.isSome && (s.cas.quarantined || nbit (v.obj .casSelf) 14) then s.bump .casQuarDrop
  else
    match s.intakeStatus v port t h (frameLen f) pace with
    | some st => s.reject v port a t st h set
    | none => s.accept v port a t h ((f.body.flatMap granuleBytes).take h.keylen) set

/-- SEARCH (R37, R39, R41): a frame reaches intake in the slot of its port, 7 or 8 cycles after its last granule; while
the die's intake is held it is discarded (R30, R267). -/
def execSearch (port : Fin 32) (frame : Frame) (s : State) : Host.Outcome State Fault Refusal :=
  let r := s.fromLink port frame 7
  let t := intakeCycle port r.1
  let s := r.2.at t
  .next (if s.dieHeld (dieOfPort port) then s.bump .portHeldDrop port else s.intake port r.1 t frame)

/-! ### One stage (R42, R51 to R62) -/

/-- The outcome of a lookup of an instruction so far. -/
def Inflight.out (x : Inflight) (i : Nat) : LookupOut := sget (fun _ => LookupOut.none) x.outs i

/-- Sets the outcome of a lookup. -/
def Inflight.setOut (x : Inflight) (i : Nat) (o : LookupOut) : Inflight :=
  { x with outs := sput (fun _ => LookupOut.none) x.outs i o }

/-- Two blocks as 256 bits, the first block's bit 127 at position 0 (R55). -/
def LookupOut.carry (o : LookupOut) : Nat := o.b0.toNat * 2 ^ 128 + o.b1.toNat

/-- A source of template segments and its width (R53). -/
def Inflight.source (x : Inflight) (src : Nat) : Nat × Nat :=
  if src = 0 then (keyNat x.key, 1280)
  else if src ≤ 12 then ((x.out (src - 1)).carry, 256)
  else if src = 13 then (pack [(32, x.ctx.toNat), (16, x.edition.toNat), (8, x.tag), (5, x.port), (3, 0)], 64)
  else if src = 14 then (x.view.obj .progConst x.prog, 128)
  else (0, 1024)

/-- The lookup key: the segments end to end (R52). -/
def Inflight.lookupKey (x : Inflight) (i : Nat) : Nat :=
  (List.range (x.view.lkp x.prog i).segs).foldl (fun acc q =>
    let g := x.view.seg x.prog i q
    let src := x.source g.src
    acc * 2 ^ g.len + sliceAt src.1 src.2 g.offset g.len) 0

/-- A winner whose action is read from the associated-data store. -/
def hitOut (tie : Bool) (prio loc first ptr plen : Nat) : LookupOut :=
  { LookupOut.none with performed := true, hit := true, tie := tie, prio := prio, loc := loc, first := first,
                        ptr := ptr, plen := plen }

/-- A bay of the serving copy that makes the lookup error: its die held, no physical bay, or fenced (R61, R100). -/
def State.bayFault (s : State) (v : View) (l : Nat) : Option Nat :=
  if s.dieHeld (l / 16) then some 1
  else match v.phys l with
    | none => some 4
    | some b => if s.bays.fenced.contains b then some 4 else none

/-- A ternary lookup under the rota entries of phase `phi` (R65, R101). -/
def State.findTrn (s : State) (x : Inflight) (t i phi key : Nat) : Found :=
  let v := x.view
  let d := v.trn t
  match trnCopy v.rotaFn d [] phi x.port i with
  | none => .bad 5 0xFF
  | some c =>
    match (d.bays c).findSome? fun l => (s.bayFault v l).map fun cause => (cause, l) with
    | some (cause, l) => .bad cause l
    | none =>
      let bays := (d.bays c).filterMap v.phys
      if s.sideUncorr d bays key then .bad 2 ((d.bays c).headD 0)
      else match s.trnBest d (v.device s.dev.straps) bays key x.edition with
        | none => .miss
        | some b => .hit (hitOut (decide (2 ≤ b.n)) b.prio b.call b.first b.ptr b.plen)

/-- A lookup uses hash mode: the mode of the instruction's edition while a switch is unsettled (R136). -/
def Table.hashMode (tb : Table) (e : Edition) : Bool :=
  match tb.switch with
  | .unsettled toHash sw => if edLe sw e then toHash else !toHash
  | _ => tb.hash

/-- The slices that hold the hash groups of a table (R127): a lookup in hash mode errors when one of their dies is held
(log 85). -/
def Pfx.hashSlices (d : Pfx) : List Nat := (List.range (min 4 d.groups.length))

/-- A prefix lookup whose compare begins in cycle `c` (R114, R120, R131 to R133): the image of the mode of the instruction's edition
answers. -/
def State.findPfx (s : State) (x : Inflight) (t i c key : Nat) : Found :=
  let v := x.view
  let phi := c % v.phases
  let d := v.pfx t
  let found := fun (slice : Nat) (f : PfxFound) =>
    match f with
    | .miss => Found.miss
    | .bad => .bad 2 (64 + slice)
    | .entry e =>
      .hit (hitOut false e.len (v.device s.dev.straps * 2 ^ 23) (if d.direct then 0 else e.first.toNat) e.ptr e.plen)
  if (s.table t).hashMode x.edition then
    if !hashServed v.rotaFn phi x.port i then .bad 5 0xFF
    else match d.hashSlices.find? s.dieHeld with
      | some sl => .bad 1 (64 + sl)
      | none => found (d.hashSlices.headD 0) (s.hashFind t d (key128 d.w key) c x.edition)
  else
    match pfxCopy v.rotaFn d [] phi x.port i with
    | none => .bad 5 0xFF
    | some c =>
      let sl := d.owner c key
      if s.dieHeld sl then .bad 1 (64 + sl) else found sl (s.trieFind t d sl key c x.edition)

/-- The unit of an exact-match slice that performs a read: the lower one that carries the lane (R152). -/
def emUnitFor (q : RotaFn) (phi port lkp slice : Nat) : Nat :=
  ((emUnits slice).find? fun u => onLane (q u phi) port lkp).getD (68 + 2 * slice)

/-- An exact-match lookup, and the head slot it hit (R148, R149). -/
def State.findEm (s : State) (x : Inflight) (t i phi key : Nat) : Found × Option Nat :=
  let v := x.view
  let d := v.em t
  match emCopy v.rotaFn d [] phi x.port i with
  | none => (.bad 5 0xFF, none)
  | some c =>
    let sl := d.owner c key
    let u := emUnitFor v.rotaFn phi x.port i sl
    if s.dieHeld sl then (.bad 1 u, none)
    else match s.emFind d sl key with
      | some n =>
        let data := slotData (s.emSlot n)
        let loc := v.device s.dev.straps * 2 ^ 23 + n
        if d.inline then
          (.inline { hitOut false 0 loc 0 0 0 with b0 := BitVec.ofNat 128 (data * 2 ^ 104) }, some n)
        else (.hit (hitOut false 0 loc 0 (data / 4) (codeBlocks (data % 4) - 1)), some n)
      | none => (if s.emBad d sl key then .bad 2 u else .miss, none)

/-- A hit sets HIT and LAST of the entry's stamp word, held with copy 0, 6 cycles after the compare; until then the write
waits (R145, R151). -/
def State.stampHit (s : State) (c : Nat) (d : EmDesc) (n key : Nat) : State :=
  { s with em := { s.em with hits := s.em.hits ++ [⟨moveSlice n (d.owner 0 key), c + 6⟩] } }

/-- EM_NOW (R162). -/
def State.emNow (s : State) : Nat := s.reg .emNow

/-- Writes a stamp word (R145). -/
def State.putStamp (s : State) (i : Nat) (hit : Bool) (ins last : Nat) : State :=
  let w := BitVec.ofNat 33 (pack [(1, b2n hit), (16, ins), (16, last)])
  { s with em := { s.em with stamps := sput (fun _ => 0) s.em.stamps i w } }

/-- The exact-match table whose copy 0 holds a slot. -/
def State.emTableAt (s : State) (i : Nat) : Option Nat :=
  (s.view.tablesOf 2).find? fun t =>
    let d := s.view.em t
    (d.copySlices 0).contains (bits i 22 21) && decide (d.base ≤ bits i 18 3 ∧ bits i 18 3 < d.base + 2 ^ d.nblog)

/-- An uncorrectable stamp word is rewritten as fresh, and EM_STAMP_FIX written: in the room of its table, or in no room when
no table has the slot (R163, R370). -/
def State.fixStamp (s : State) (i : Nat) : State :=
  let s := (s.putStamp i true s.emNow s.emNow).cleanse .stamp (i / 2097152) i
  let t := s.emTableAt i
  s.record .emStampFix (t.map fun t => (s.view.tbl t).room) hubMaint [(8, t.getD 0), (32, i)]

/-- An access to a stamp word repairs it first when it is uncorrectable (R163). -/
def State.soundStamp (s : State) (i : Nat) : State := if s.poisoned .stamp (i / 2097152) i then s.fixStamp i else s

/-- The stamp writes due up to cycle `t` are made, each to a word repaired first when it is uncorrectable (R151, R163). -/
def State.stampHits (s : State) (t : Nat) : State :=
  let due := s.em.hits.filter fun h => decide (h.due ≤ t)
  if due.isEmpty then s
  else due.foldl (fun s h =>
    let s := s.soundStamp h.slot
    s.putStamp h.slot true (fld (s.stamp h.slot) 31 16) s.emNow)
    { s with em := { s.em with hits := s.em.hits.filter fun h => !decide (h.due ≤ t) } }

/-- Reads an action: an error when its slice is held or its word uncorrectable (R61, R203, R250). -/
def State.fetchAction (s : State) (o : LookupOut) : Except Nat LookupOut :=
  if s.dieHeld (dieOfBlock o.ptr) then .error 1
  else if s.adsBad o.ptr then .error 3
  else
    let a := s.action o.ptr o.plen
    .ok { o with b0 := a.1, b1 := a.2, supplied := true }

/-- A lookup errors (R61): PORT_DEFACT under CONTINUE, nothing under END. It stays performed or skipped, and a tie found
before the error stays (R56, R65). DEFAULTED stays 0 (log 76). -/
def errorOut (v : View) (x : Inflight) (sharded : Bool) (o : LookupOut) : LookupOut :=
  let e := { LookupOut.none with performed := o.performed, skipped := o.skipped, tie := o.tie, error := true }
  if sharded ∨ (v.prog x.prog).endOnErr then e
  else { e with supplied := true, b0 := BitVec.ofNat 128 (v.obj .portDefact x.port) }

/-- The miss action of a lookup, for a miss or a skip (R56, R60); an error of the DEFAULT action's read is the
lookup's. -/
def State.missAction (s : State) (x : Inflight) (i : Nat) (skipped : Bool) : Except Nat LookupOut :=
  let d := x.view.lkp x.prog i
  let o := { LookupOut.none with performed := !skipped, skipped := skipped }
  if d.miss = 1 then s.fetchAction { o with defaulted := true, ptr := d.defptr, plen := d.deflen }
  else if d.miss = 2 then
    .ok { o with defaulted := true, supplied := true, b0 := BitVec.ofNat 128 (x.view.obj .portDefact x.port) }
  else .ok o

/-- LOOKUP_ERROR (R61, R489). -/
def State.lookupError (s : State) (x : Inflight) (i cause unit : Nat) : State :=
  s.record .lookupError (some x.room) (srcOpen .lookupError)
    [(8, i), (8, cause), (8, x.prog), (8, x.tag), (8, x.port), (8, unit)]

/-- A lookup that has been performed and has found nothing yet. -/
def LookupOut.begun : LookupOut := { LookupOut.none with performed := true }

/-- The instruction after lookup `i`, whose outcome so far was `o`, errored: ERROR and STATUS 0x10 or 0x11 (R61). -/
def Inflight.erred (x : Inflight) (i : Nat) (o : LookupOut) : Inflight :=
  let st := if (x.view.prog x.prog).endOnErr then 0x11 else if x.status = 0x11 then 0x11 else 0x10
  { (x.setOut i (errorOut x.view x false o)) with error := true, status := st }

/-- Settles a lookup that is not sharded: its action, its miss action, or its error (R60, R61). -/
def State.settle (s : State) (x : Inflight) (i : Nat) (f : Found) : State × Inflight :=
  match f with
  | .inline o => (s, x.setOut i { o with supplied := true })
  | .hit o =>
    match s.fetchAction o with
    | .ok o => (s, x.setOut i o)
    | .error c => (s.lookupError x i c 0xFF, x.erred i o)
  | .miss =>
    match s.missAction x i false with
    | .ok o => (s, x.setOut i o)
    | .error c => (s.lookupError x i c 0xFF, x.erred i .begun)
  | .bad c u => (s.lookupError x i c u, x.erred i .begun)

/-- Settles a sharded lookup as far as this device goes: its record's fields (R294, R296). -/
def State.settleShard (s : State) (x : Inflight) (i : Nat) (f : Found) : State × Inflight :=
  match f with
  | .inline o => (s, x.setOut i o)
  | .hit o => (s, x.setOut i o)
  | .miss => (s, x.setOut i { LookupOut.none with performed := true })
  | .bad c u =>
    let own : Bool := match x.cas with | some k => decide (k.part = .owner) | none => false
    (if own then s else s.lookupError x i c u, x.setOut i (errorOut x.view x true .begun))

/-- The condition of a lookup holds (R56). -/
def Inflight.condOk (x : Inflight) (i : Nat) : Bool :=
  let d := x.view.lkp x.prog i
  !d.condEn || (x.out d.condLkp).hit == d.condSense

/-- Lookup `i` of a stage in its compare cycle `c`, when it is ternary or exact-match: the rows and the buckets are read in that
cycle (R99, R150). -/
def compareLookup (c : Nat) (x : Inflight) (r : State × List (Nat × Found)) (i : Nat) : State × List (Nat × Found) :=
  let s := r.1
  let d := x.view.lkp x.prog i
  let phi := c % x.view.phases
  if !d.valid || d.kind = 1 || !x.condOk i then r
  else
    let key := x.lookupKey i
    if d.kind = 0 then (s, r.2 ++ [(i, s.findTrn x d.table i phi key)])
    else
      let f := (s.emAsOf c).findEm x d.table i phi key
      (match f.2 with | some n => s.stampHit c (x.view.em d.table) n key | none => s, r.2 ++ [(i, f.1)])

/-- Lookup `i` of the stage whose compare cycle is `c`, when its compare ends: a prefix lookup reads its words in their own cycles
up to then, and the action of each lookup is read (R51, R56, R61, R132; log 86). `front` is what the others found. A sharded
lookup that is skipped takes its miss action at the close (R296). -/
def runLookup (c : Nat) (front : List (Nat × Found)) (r : State × Inflight) (i : Nat) : State × Inflight :=
  let s := r.1
  let x := r.2
  let d := x.view.lkp x.prog i
  let shard := (x.view.setOfTable d.table).isSome
  if !d.valid then r
  else if !x.condOk i then
    if shard then (s, x.setOut i { LookupOut.none with skipped := true })
    else match s.missAction x i true with
      | .ok o => (s, x.setOut i o)
      | .error cause => (s.lookupError x i cause 0xFF, x.erred i { LookupOut.none with skipped := true })
  else
    let f := if d.kind = 1 then s.findPfx x d.table i c (x.lookupKey i)
      else ((front.find? fun e => e.1 = i).map Prod.snd).getD .miss
    if shard then s.settleShard x i f else s.settle x i f

/-- A lookup of the stage ends the program: an END miss or skip, or an error under END (R60, R61). -/
def Inflight.endsAt (x : Inflight) (i : Nat) : Bool :=
  let d := x.view.lkp x.prog i
  let o := x.out i
  d.valid && ((d.miss = 3 && !o.hit && !o.error) || (o.error && (x.view.prog x.prog).endOnErr)) &&
    (x.view.setOfTable d.table).isNone

/-- The cycle in which a clear zeroes row `row` of each die (R233; log 31). -/
def Clear.cycle (c : Clear) (row : Nat) : Nat := c.start + 4 * (row + 1)

/-- A clear zeroes the lines whose cycle has come by cycle `t`: a word that a tally reached in that cycle stays
(R233, R234). -/
def State.clearLines (s : State) (c : Clear) (t : Nat) : State :=
  let n := min 2048 ((t - c.start) / 4)
  let due := fun (k : Nat) => decide (k / 65536 = c.room ∧ c.lines ≤ k % 65536 / 32 ∧ k % 65536 / 32 < n) &&
    !c.held.contains (dieOfWord (k % 65536))
  let won := fun (k : Nat) => decide (s.mem.talliedAt = c.cycle (k % 65536 / 32)) && s.mem.tallied.any fun e => e.1 = k
  let kept := s.mem.tallied.filter fun e => due e.1 && won e.1
  let s := s.bumpBy kept.length .carSuper c.room
  let rest := s.mem.carrel.filter fun e => !due e.1 || won e.1
  let cl := s.mem.clearing.map fun x => if x.room = c.room then { x with lines := max x.lines n } else x
  let poison := s.health.poison.filter fun w =>
    !(w.kind == .carrel && w.unit = c.room && due (c.room * 65536 + w.index))
  { s with mem := { s.mem with carrel := rest, clearing := cl }, health := { s.health with poison := poison } }

/-- Every clear under way as far as cycle `t`. -/
def State.clearTo (s : State) (t : Nat) : State := s.mem.clearing.foldl (fun s c => s.clearLines c t) s

/-- A tally in cycle `c` is noted with what its word held before the tallies of that cycle (R234). -/
def Mem.noteTally (m : Mem) (c k : Nat) (old : BitVec 64) : Mem :=
  if m.talliedAt ≠ c then { m with talliedAt := c, tallied := [(k, old)] }
  else if m.tallied.any fun e => e.1 = k then m else { m with tallied := m.tallied ++ [(k, old)] }

/-- Applies a tally of cycle `c` to its carrel word (R59, R223, R234). -/
def State.tally (s : State) (c room prog stage word inc : Nat) : State :=
  let die := dieOfWord word
  let k := room * 65536 + word
  if s.dieHeld die then
    (s.bump .tallyHeld room).record .tallyHeld (some room) (srcDie die) [(8, prog), (8, stage), (16, word), (8, die)]
  else
    let s := s.clearTo (c - 1)
    let old := (sget (fun _ => (0 : BitVec 64)) s.mem.carrel k)
    let bad := s.poisoned .carrel room word
    let base := if bad then 0 else old.toNat
    let m := s.mem.noteTally c k old
    let s := { s with mem := { m with carrel := sput (fun _ => 0) m.carrel k (BitVec.ofNat 64 (base + inc)) } }
    let s := if bad then s.cleanse .carrel room word else s
    if 2 ^ 64 ≤ base + inc then s.bump .tallyWrap room else s

/-- The tally of a stage in cycle `c` (R58, R59; log 86). -/
def State.stageTally (s : State) (c : Nat) (x : Inflight) (stage : Nat) : State :=
  let d := x.view.tally x.prog stage
  let o := x.out d.alkp
  if !d.en || !o.supplied then s
  else
    let word := sliceAt o.carry 256 d.aoff 16
    let inc := if d.imode = 0 then d.iconst else if d.imode = 1 then x.keyLen else sliceAt (keyNat x.key) 1280 d.ioff 16
    s.tally c x.room x.prog stage word inc

/-- FENCED_HITS: assertions from bays that are not in the instruction's map are ignored and counted (R450). -/
def State.strayHits (s : State) (v : View) (stray : List (Fin 68)) : State :=
  let l := stray.filter fun b => (List.range 64).all fun i => v.phys i ≠ some b.val
  match l with
  | [] => s
  | b :: _ =>
    let s := s.bumpBy l.length .fencedHits
    let n := s.bays.fencedHeld + l.length
    let first := if s.bays.fencedHeld = 0 then b.val else s.bays.fencedFirst
    if s.bays.fencedLast = 0 ∨ s.bays.fencedLast + Config.sec ≤ s.now + 1 then
      ({ s with bays := { s.bays with fencedHeld := 0, fencedFirst := 0, fencedLast := s.now + 1 } }).record
        .fencedHit none (srcOpen .fencedHit) [(32, satTo 32 n), (8, first)]
    else { s with bays := { s.bays with fencedHeld := n, fencedFirst := first } }

/-- The lookups of a stage. -/
def stageLookups (n : Nat) : List Nat := [4 * n, 4 * n + 1, 4 * n + 2, 4 * n + 3]

/-- The compare cycle of the next stage of an instruction (R99). -/
def Inflight.compareAt (x : Inflight) : Nat := x.accepted + 88 * x.nextStage + 24

/-- The next stage of an instruction in its compare cycle: `uncorr` are the words found damaged, `stray` the assertions from bays
out of the map (R42, R99, R450). The second time, only these come on top. -/
def State.compareStage (s : State) (x : Inflight) (uncorr : List MemWord) (stray : List (Fin 68)) : State × Inflight :=
  let s := s.at x.compareAt
  let s := (s.foundAll uncorr).strayHits x.view stray
  match x.front with
  | some _ => (s, x)
  | none =>
    let r := (stageLookups x.nextStage).foldl (compareLookup x.compareAt x) (s, [])
    let y := { x with front := some r.2 }
    (r.1.setFlight y, y)

/-- The last cycle of the compare part of a stage (R42, R132): actions are read and the tally made in it (log 86). -/
abbrev compareLen : Nat := 23

/-- Runs the next stage of an instruction to the end of its compare (R42, R62). The program has ended when stages are left
that it will not perform (R60, R67). -/
def State.runStage (s : State) (x : Inflight) (uncorr : List MemWord) (stray : List (Fin 68)) : State :=
  let p := x.view.prog x.prog
  let n := x.nextStage
  let c := x.compareAt
  if p.stages ≤ n then s
  else if x.ended then (s.at c).setFlight { x with nextStage := n + 1 }
  else
    let r := s.compareStage x uncorr stray
    let y := { r.2 with nextStage := n + 1, front := none }
    let r := (stageLookups n).foldl (runLookup c (r.2.front.getD [])) (r.1.at (c + compareLen), y)
    let ends := decide (n + 1 < p.stages) && (stageLookups n).any r.2.endsAt
    (r.1.stageTally (c + compareLen) r.2 n).setFlight { r.2 with ended := ends }

/-- The instruction in flight under a tag of a port that has a stage to run, or one that was run ahead. -/
def State.running (s : State) (port tag : Nat) : Option Inflight :=
  s.search.flight.find? fun x =>
    x.port = port && x.tag = tag && decide (x.nextStage < (x.view.prog x.prog).stages + x.ahead)

/-- PROGRAM_STAGE (R42): the next stage of the instruction under a tag, up to the end of its compare, unless it was run when another command came after
it (log 84). -/
def execProgramStage (port : Fin 32) (tag : BitVec 8) (uncorr : List MemWord) (stray : List (Fin 68)) (s : State) :
    Host.Outcome State Fault Refusal :=
  match s.running port tag.toNat with
  | none => .next s
  | some x =>
    done (if x.ahead = 0 then s.runStage x uncorr stray
      else ((s.setFlight { x with ahead := x.ahead - 1 }).foundAll uncorr).strayHits x.view stray)

/-- The instruction numbered `id`, if it is in flight. -/
def State.flight? (s : State) (id : Nat) : Option Inflight := s.search.flight.find? fun x => x.id = id

/-- Runs the stages an instruction has left. -/
def State.finish (s : State) (id : Nat) : Nat → State
  | 0 => s
  | n + 1 => match s.flight? id with
    | some x => (s.runStage x [] []).finish id n
    | none => s

/-! ### The cascade's part (R294 to R299) -/

/-- The record of this device for a sharded lookup (R292, R294); a rejected replica gives ERROR (R290). -/
def ownRec (v : View) (dev mgen : Nat) (x : Inflight) (status i : Nat) : CandRec :=
  let o := x.out i
  let k := (v.lkp x.prog i).kind
  if status ≠ 0 then { CandRec.miss with edition := x.edition, mgen := mgen, error := true }
  else if !o.hit then { CandRec.miss with edition := x.edition, mgen := mgen, error := o.error }
  else
    ⟨if k = 0 then o.prio else if k = 1 then 128 - o.prio else 0, dev, o.loc % 2 ^ 23, x.edition, o.ptr, o.plen, mgen,
      true, o.tie, false, o.error, 0⟩

/-- The records that an instruction has of a lookup, this device's own first. -/
def recsOf (c : CasPart) (own : CandRec) (i : Nat) : List CandRec :=
  own :: (c.recs.filter fun r => r.1 = i).map Prod.snd

/-- The merge of a sharded lookup at the close (R296). -/
def mergedRec (cs : CasSet) (dev : Nat) (c : CasPart) (own : CandRec) (i : Nat) : CandRec :=
  let w := match recsOf c own i with
    | [] => own
    | a :: t => t.foldl mergeRec a
  if w.count + 1 < cs.represent dev c.part then { w with incomplete := true } else w

/-- MGEN of the device in an instruction's view (R307). -/
def View.mgen (v : View) : Nat := bits (v.obj .casSelf) 22 15

/-- A record of a rejected replica's frame: HIT = 0 and ERROR = 1 (R290), with zeros for the winner (R292). -/
def CandRec.refused (r : CandRec) : CandRec :=
  { r with prio := 0, device := 0, loc := 0, ptr := 0, plen := 0, hit := false, tie := false, error := true }

/-- The CANDIDATE frame of a member or collector (R290, R291, R299). -/
def candOf (dev : Nat) (x : Inflight) (c : CasPart) (merged : Bool) : Frame :=
  let v := x.view
  let cs := v.set c.set
  let recs := c.lookups.map fun i =>
    let own := ownRec v dev v.mgen x c.status i
    let r := if merged then mergedRec cs dev c own i else own
    recImage i (if c.status ≠ 0 then r.refused else r)
  candFrame ⟨if merged then 1 else 0, c.set, x.room, x.prog, x.tag, c.xid, dev, v.mgen, cs.target dev c.owner c.part,
    c.status, recs.length⟩ recs

/-- The mask of ports toward a device: its position's route in this cluster, else the fabric's (R303). -/
def routeMask (v : View) (dev dest : Nat) : Nat :=
  if dest / 16 = dev / 16 then v.obj .casRoute 0 (dest % 16) else v.obj .casRouteFabric

/-- Hands a candidate frame to the transmitter of its route port (R303). -/
def State.handCand (s : State) (x : Inflight) (c : CasPart) (f : Frame) : State :=
  let dev := x.view.device s.dev.straps
  match routePort (routeMask x.view dev ((x.view.set c.set).target dev c.owner c.part)) (x.port / 2) with
  | none => s
  | some p => s.send2 p f (.cand x.id)

/-- Cascade exchange is barred: QUARANTINED or QUIET (R312), or no cluster number yet (R21). -/
def State.casBarred (s : State) : Bool := s.cas.quarantined || s.quiet || !s.cas.clvalid

/-- Puts the owner's merged lookup into the result (R296 to R298). -/
def State.mergeOut (s : State) (x : Inflight) (w : CandRec) (i : Nat) (ptrOk : Bool) : State × Inflight :=
  let k := (x.view.lkp x.prog i).kind
  let own := decide (w.device = x.view.device s.dev.straps)
  let prio := if k = 1 then 128 - w.prio else w.prio
  let o : LookupOut := { hitOut w.tie (if k = 2 then 0 else prio) w.call (if own then (x.out i).first else 0) w.ptr w.plen
    with incomplete := w.incomplete }
  let skipped := (x.out i).skipped
  let mark := fun (r : State × Inflight) =>
    (r.1, r.2.setOut i { r.2.out i with incomplete := w.incomplete, tie := w.tie, skipped := skipped, performed := !skipped })
  if w.error then mark (s.lookupError x i 6 0xFF, x.erred i .begun)
  else if !w.hit then mark (s.settle x i .miss)
  else if !own && !ptrOk then mark ((s.bump .casPtrBad).lookupError x i 7 0xFF, x.erred i .begun)
  else if k = 2 && (x.view.em (x.view.lkp x.prog i).table).inline && own then
    (s, x.setOut i { o with supplied := true, b0 := (x.out i).b0 })
  else mark (s.settle x i (.hit o))

/-! ### The result (R43, R67 to R69) -/

/-- A MATCH report (R69). -/
def matchReport (i kind : Nat) (o : LookupOut) : Granule :=
  granule [(4, i), (2, kind), (1, b2n o.hit), (1, b2n o.tie), (1, b2n o.incomplete), (1, b2n o.error),
    (1, b2n o.defaulted), (1, b2n o.skipped), (4, 0), (24, if o.hit then o.prio else 0), (35, if o.hit then o.loc else 0),
    (16, if o.hit then o.first else 0), (22, if o.supplied then o.ptr else 0), (3, if o.supplied then o.plen else 0),
    (12, 0)]

/-- The report granules, one for each lookup with REPORT other than NONE (R67). -/
def Inflight.reports (x : Inflight) : List Granule :=
  ((x.view.lkps x.prog).filter fun i => (x.view.lkp x.prog i).report ≠ 0).map fun i =>
    let d := x.view.lkp x.prog i
    let o := x.out i
    if d.report = 1 then (if o.supplied then o.b0 else 0) else matchReport i d.kind o

/-- The RESULT frame of an instruction (R67). -/
def Inflight.result (x : Inflight) : Frame :=
  let os := (List.range 16).map x.out
  let reps := x.reports
  resultFrame ⟨x.room, x.prog, x.tag, x.edition.toNat, x.pgen, x.status, x.ctx.toNat,
    maskOf ((List.range 16).filter fun i => (x.out i).hit), x.error, os.any (·.tie), os.any (·.incomplete), x.ended,
    os.any (·.defaulted), reps.length⟩ reps

/-- An instruction leaves: its tag is free, and it is in flight no longer, once its last granule has left (R48, R191). -/
def State.retire (s : State) (x : Inflight) : State :=
  let s := s.dropFlight x.id
  let tails := s.search.tails.filter fun e => decide (s.now < e.last)
  { s with search := { s.search with tails :=
      if s.now < x.freeAt ∧ !x.rejected then tails ++ [⟨x.id, x.port, x.room, x.prog, x.tag, x.edition, x.cas, x.freeAt⟩] else tails } }

/-- Puts a result on the lanes in its window at its due cycle, or discards it when the port is not UP (R44, R47, R262). -/
def State.sendResult (s : State) (port due : Nat) (f : Frame) : State :=
  let s := s.setPort port { s.port port with txSlot := max (s.port port).txSlot (5 * (due + 2)) }
  if (s.port port).st = .up then s.putOn port (5 * due) f else s.bump .portTxDiscard port

end Sys2Proof.Machine
end

