-- ==== Sys2Proof/Machine/Pools.lean ====
section
/-! DEFINITION. Block pools (R204 to R222): size classes, allocation and release, references, pointer checks and
watermarks. -/

namespace Sys2Proof.Machine

/-- Size class in blocks of an action of `n` blocks (R204). -/
def classOf (n : Nat) : Nat := if n ≤ 1 then 1 else if n ≤ 2 then 2 else if n ≤ 4 then 4 else 8

/-- Class code of a size class (R205). -/
def classCode (c : Nat) : BitVec 2 := if c = 1 then 0 else if c = 2 then 1 else if c = 4 then 2 else 3

/-- The allocation record of a block (R205). -/
def State.alloc (s : State) (b : Nat) : Alloc := sget (fun _ => Alloc.none) s.mem.allocs b

/-- Writes an allocation record. -/
def State.setAlloc (s : State) (b : Nat) (a : Alloc) : State :=
  { s with mem := { s.mem with allocs := sput (fun _ => Alloc.none) s.mem.allocs b a } }

/-- Blocks of an allocation. -/
def Alloc.blocks (a : Alloc) : Nat := 2 ^ a.cls.toNat

/-- Image of an allocation record (R205). -/
def Alloc.image (a : Alloc) : Nat :=
  pack [(1, b2n a.allocated), (1, b2n a.hold), (2, a.cls.toNat), (4, 0), (24, a.count), (16, a.owner.toNat)]

/-- A pool contains a run of blocks. -/
def Pool.holds (d : Pool) (b n : Nat) : Bool := d.present && decide (d.base ≤ b ∧ b + n ≤ d.base + d.size)

/-- The existing pool that a run of blocks lies in (R219). -/
def View.poolOf (v : View) (b n : Nat) : Option Nat := (List.range 64).find? fun i => (v.pool i).holds b n

/-- Runs of blocks in use: allocations, and releases that still wait (R214). -/
def State.extents (s : State) : List (Nat × Nat) :=
  (s.mem.allocs.filter fun e => e.2.allocated).map (fun e => (e.1, e.2.blocks)) ++
    s.mem.releasing.map fun r => (r.block, r.size)

/-- A run of blocks touches no run in use. -/
def State.runFree (s : State) (b n : Nat) : Bool := s.extents.all fun e => decide (e.1 + e.2 ≤ b ∨ b + n ≤ e.1)

/-- POOL_LEVEL: blocks allocated, those awaiting release included (R209, R214). -/
def State.poolLevel (s : State) (n : Nat) : Nat :=
  let d := s.view.pool n
  ((s.extents.filter fun e => d.holds e.1 e.2).map Prod.snd).sum

/-- ROOM_LEVEL (R210). -/
def State.roomLevel (s : State) (room : Nat) : Nat :=
  (((List.range 64).filter fun n => (s.view.pool n).present && (s.view.pool n).room = room).map s.poolLevel).sum

/-- The lowest multiple of `c` at or above `b`. -/
def alignUp (b c : Nat) : Nat := cdiv b c * c

/-- The lowest-indexed free aligned run of `c` blocks of a pool (R206): it starts at the pool's base or where a run in
use ends. -/
def State.freeRun (s : State) (d : Pool) (c : Nat) : Option Nat :=
  let cands := (d.base :: s.extents.map fun e => e.1 + e.2).map fun b => alignUp b c
  (cands.filter fun b => d.holds b c && s.runFree b c).foldl (fun m b =>
    match m with | none => some b | some a => some (min a b)) none

/-! ### Watermarks (R220, R221) -/

/-- The status bits of a pool: NOTICE, RESTRAIN, STOP. -/
def State.poolStatus (s : State) (n : Nat) : Nat := sget (fun _ => 0) s.mem.poolStatus n

/-- A crossing of mark `m` (R221). -/
def State.crossing (s : State) (n m : Nat) (rise : Bool) (level : Nat) : State :=
  let st := s.poolStatus n
  let st' := if rise then st ||| 2 ^ m else st ^^^ (st &&& 2 ^ m)
  let s := { s with mem := { s.mem with poolStatus := sput (fun _ => 0) s.mem.poolStatus n st' } }
  (s.bump (if m = 0 then .poolXingNotice else if m = 1 then .poolXingRestrain else .poolXingStop) n).record .poolXing
    (some (s.view.pool n).room) hubPool [(8, n), (8, m), (32, level)] (if rise then 1 else 2)

/-- A mark of a pool by number. -/
def Pool.mark (d : Pool) (m : Nat) : Nat := if m = 0 then d.notice else if m = 1 then d.restrain else d.stop

/-- A rising crossing of mark `m`, if any (R220). -/
def State.markRise (s : State) (n m : Nat) : State :=
  let d := s.view.pool n
  let level := s.poolLevel n
  if d.mark m ≠ 0 ∧ !nbit (s.poolStatus n) m ∧ d.mark m ≤ level then s.crossing n m true level else s

/-- A falling crossing of mark `m`, if any (R220). -/
def State.markFall (s : State) (n m : Nat) : State :=
  let d := s.view.pool n
  let level := s.poolLevel n
  let low := d.mark m - 64 * d.hyst
  if nbit (s.poolStatus n) m ∧ (d.mark m = 0 ∨ level < low) then s.crossing n m false level else s

/-- Evaluates the marks of a pool (R220). -/
def State.evalMarks (s : State) (n : Nat) : State :=
  (((((s.markRise n 0).markRise n 1).markRise n 2).markFall n 2).markFall n 1).markFall n 0

/-! ### Pointer checks (R219) and references (R216) -/

/-- A count-memory record is frozen by an uncorrectable error (R444). -/
def State.frozen (s : State) (b : Nat) : Bool := s.poisoned .count (b / 1048576) b

/-- The first failing check of R219 for an action of `n` blocks at `ptr`, as its TCOMP status. -/
def State.ptrCheck (s : State) (v : View) (room ptr n : Nat) : Option Nat :=
  let c := classOf n
  if 4194304 < ptr + c then some 0x60
  else match v.poolOf ptr c with
    | none => some 0x60
    | some i =>
      if ptr % c ≠ 0 then some 0x61
      else if (v.pool i).room ≠ room then some 0x62
      else if !(s.alloc ptr).allocated || (s.alloc ptr).blocks ≠ c || s.frozen ptr then some 0x63
      else if 16777215 ≤ (s.alloc ptr).count then some 0x64
      else none

/-- A new table reference (R216). -/
def State.addRef (s : State) (ptr : Nat) : State := s.setAlloc ptr { s.alloc ptr with count := (s.alloc ptr).count + 1 }

/-- A candidate frame of an instruction still waits to be sent (R214). -/
def State.candQueued (s : State) (id : Nat) : Bool :=
  (List.range 32).any fun p => (s.port p).txc.any fun f => f.done = .cand id

/-- An instruction has not begun to send its last frame: its result, or its candidate when it sends no result (R214). -/
def State.unsent (s : State) (id : Nat) : Bool :=
  s.candQueued id || (match s.flight? id with
    | some x => (match x.cas with | some c => !x.noResult || !c.sent | none => true)
    | none => false)

/-- The cycle of the last granule of the frames of an instruction that have begun to leave. -/
def State.lastGranule (s : State) (id : Nat) : Nat :=
  max (((s.search.tails.filter fun e => e.id = id).map (·.last)).foldl max 0)
    (((s.search.cands.filter fun e => e.1 = id).map Prod.snd).foldl max 0)

/-- An instruction has not sent its last granule (R214). -/
def State.sending (s : State) (id : Nat) : Bool := s.unsent id || decide (s.now < s.lastGranule id)

/-- The instructions that a release in this cycle waits for: those accepted before it (R214). -/
def State.waitsFor (s : State) : List Nat :=
  ((s.search.flight.filter fun x => !x.rejected && decide (x.accepted < s.now)).map (·.id) ++
    s.search.tails.map (·.id) ++ s.search.cands.map Prod.fst).eraseDups.filter s.sending

/-- An allocation is released: its blocks wait for the instructions in flight (R214). -/
def State.release (s : State) (ptr : Nat) : State :=
  let a := s.alloc ptr
  let s := s.setAlloc ptr { a with allocated := false, hold := false, count := 0 }
  let waits := s.waitsFor
  match s.view.poolOf ptr a.blocks with
  | none => s
  | some n =>
    if waits.isEmpty then s.evalMarks n
    else { s with mem := { s.mem with releasing := s.mem.releasing ++ [⟨ptr, a.blocks, n, waits⟩] } }

/-- A table reference goes; with none left and no hold the allocation is released (R214, R216). -/
def State.dropRef (s : State) (ptr : Nat) : State :=
  let a := s.alloc ptr
  let s' := s.setAlloc ptr { a with count := a.count - 1 }
  if a.allocated ∧ a.count ≤ 1 ∧ !a.hold ∧ !s.frozen ptr then s'.release ptr else s'

/-! ### ALLOC and FREE (R206, R211 to R213) -/

/-- The pool word (R211). -/
structure PoolWord where
  cls : BitVec 2
  urgency : Nat
  atEn : Bool
  index : Nat
  owner : BitVec 16
  deriving DecidableEq, Repr

def poolWord (g : Granule) : PoolWord :=
  ⟨BitVec.ofNat 2 (fld g 127 126), fld g 125 124, nbit g.toNat 123, fld g 121 100, BitVec.ofNat 16 (fld g 99 84)⟩

/-- The first failing check of an ALLOC (R212). -/
def State.allocStatus (s : State) (n : Nat) (w : PoolWord) : Option Nat :=
  let d := s.view.pool n
  let c := 2 ^ w.cls.toNat
  let st := s.poolStatus n
  if nbit st 2 then some 0x6A
  else if nbit st 1 && decide (w.urgency < d.rclass) then some 0x69
  else if s.reg .roomQuota d.room < s.roomLevel d.room + c then some 0x68
  else if w.atEn && (w.index % c ≠ 0 || !d.holds w.index c) then some 0x61
  else if w.atEn && !s.runFree w.index c then some 0x6C
  else if !w.atEn && (s.freeRun d c).isNone then some 0x6B
  else none

/-- ALLOC on pool `n`: the state, TCOMP status and RESULT (R206, R212). -/
def State.doAlloc (s : State) (n : Nat) (w : PoolWord) : State × Nat × Nat :=
  let d := s.view.pool n
  match s.allocStatus n w with
  | some st =>
    ((s.bump .poolRefused n).record .allocRefused (some d.room) hubPool
      [(8, n), (8, w.cls.toNat), (8, st), (8, w.urgency)], st, 0)
  | none =>
    let b := if w.atEn then w.index else (s.freeRun d (2 ^ w.cls.toNat)).getD 0
    (((s.setAlloc b ⟨true, true, w.cls, 0, w.owner⟩).cleanse .count (b / 1048576) b).evalMarks n, 0, b)

/-- FREE on pool `n`: the state, TCOMP status and RESULT, COUNT after the command (R213). -/
def State.doFree (s : State) (n : Nat) (w : PoolWord) : State × Nat × Nat :=
  let d := s.view.pool n
  let a := s.alloc w.index
  if !a.allocated || a.cls ≠ w.cls || !d.holds w.index a.blocks || s.frozen w.index then (s, 0x6D, a.count)
  else if !d.owner then
    if !a.hold then (s, 0x67, a.count)
    else
      let s := s.setAlloc w.index { a with hold := false }
      (if a.count = 0 then s.release w.index else s, 0, a.count)
  else if a.owner ≠ w.owner then (s, 0x6E, a.count)
  else if a.count ≠ 0 then (s, 0x6F, a.count)
  else (s.release w.index, 0, 0)

/-! ### The end of a release's wait (R214) -/

/-- RELEASE_WAIT_END: the blocks of a released allocation are free once every instruction it waits for has sent its last
granule. -/
def execReleaseWaitEnd (block : BitVec 22) (s : State) : Host.Outcome State Fault Refusal :=
  match s.mem.releasing.find? fun r => r.block = block.toNat with
  | none => .next s
  | some r =>
    if r.waits.any s.unsent then .next s
    else
      let s := s.at ((r.waits.map s.lastGranule).foldl max 0)
      let s := { s with mem := { s.mem with releasing := s.mem.releasing.filter fun x => x ≠ r } }
      .next (s.evalMarks r.pool)

end Sys2Proof.Machine
end

