-- ==== Sys2Proof/Machine/Replies.lean ====
section
/-! DEFINITION. The frames of table commands (R169 to R172), TCOMP replies (R177, R180), and the end of a command (R183, R216). -/

namespace Sys2Proof.Machine

/-! ### The command header (R170) -/

structure TabHdr where
  room : Nat
  table : Nat
  op : Nat
  ctag : Nat
  byaddr : Bool
  placed : Bool
  addr : Nat
  aux : Nat
  reserved : Bool
  deriving DecidableEq, Repr

def tabHdr (h : Granule) : TabHdr :=
  ⟨fld h 111 108, fld h 107 100, fld h 99 96, fld h 95 80, nbit h.toNat 79, nbit h.toNat 78, fld h 75 44, fld h 43 28,
    decide (fld h 77 76 ≠ 0 ∨ fld h 27 0 ≠ 0)⟩

/-- Operation codes (R169). -/
abbrev opInsert : Nat := 1
abbrev opWrite : Nat := 2
abbrev opRead : Nat := 3
abbrev opDelete : Nat := 4
abbrev opMove : Nat := 5
abbrev opScan : Nat := 6
abbrev opAlloc : Nat := 7
abbrev opFree : Nat := 8
abbrev opAdvance : Nat := 9

/-- The header of a queued command. -/
def MqCmd.hdr (c : MqCmd) : TabHdr := tabHdr c.frame.hdr

/-- The granules after the header. -/
def MqCmd.body (c : MqCmd) : List Granule := c.frame.body

/-- The command acts on a table: its OP is not a pool operation or ADVANCE. -/
def TabHdr.onTable (h : TabHdr) : Bool := !(h.op = opAlloc || h.op = opFree || h.op = opAdvance)

/-! ### Replies (R177 to R180) -/

/-- What a command answers: its status, RESULT, DONE, and the record count and granules of each TCOMP frame (R177). -/
structure Reply where
  status : Nat
  result : Nat
  fin : Bool
  frames : List (Nat × List Granule)
  deriving DecidableEq, Repr

def reply (status result : Nat) : Reply := ⟨status, result, false, [(0, [])]⟩

/-- A TCOMP frame (R177); SEQ counts modulo 256 (log 112). -/
def tcomp (h : TabHdr) (status : Nat) (final fin : Bool) (nrec seq result : Nat) (body : List Granule) : Frame :=
  linkFrame 5 1 ⟨granule [(16, 0), (4, h.room), (8, h.table), (4, h.op), (16, h.ctag), (8, status), (1, b2n final),
    (1, b2n fin), (4, nrec), (8, seq), (32, result), (26, 0)], body⟩

/-- The TCOMP frames of a reply: only the last has FINAL, DONE and RESULT (R177). -/
def Reply.tcomps (r : Reply) (h : TabHdr) : List Frame :=
  let n := r.frames.length
  (r.frames.zip (List.range n)).map fun f =>
    let last := decide (f.2 + 1 = n)
    tcomp h r.status last (last && r.fin) f.1.1 f.2 (if last then r.result else 0) f.1.2

/-- Removes a command from its queue (R181). -/
def State.dequeue (s : State) (room id : Nat) : State := s.setQueue room ((s.queue room).filter fun c => c.id ≠ id)

/-- Sends TCOMP frames on a port; the last completes the command when it leaves (R183). -/
def State.sendTcomps (s : State) (p room id : Nat) : List Frame → State
  | [] => s
  | [f] =>
    let keeps := (s.port p).keeps
    let s := s.send1 p f (.cmd room id)
    if keeps then s else s.dequeue room id
  | f :: t => (s.send1 p f).sendTcomps p room id t

/-- Writes a TCOMP image into the command-register set of a room (R179, R180). -/
def State.replyReg (s : State) (room status : Nat) (f : Frame) : State :=
  let gs := f.hdr :: f.body
  let s := (List.range 16).foldl (fun s i => s.setReg .tblReply room i 0 (gs.getD i 0).toNat) s
  s.setReg .tblStatus room 0 0 (pack [(1, 0), (1, 1), (6, 0), (8, status), (4, gs.length - 1), (12, 0)])

/-- The abort code that a status of ADVANCE becomes on the catalogue path (R190). -/
def advCode (status : Nat) : Nat := if status = 0x57 then Ab.edExpect else if status = 0x58 then Ab.edWindow else 0

/-- ED_ADV_STATUS after a write of ED_ADVANCE has completed (R191). -/
def State.replyAdv (s : State) (room status : Nat) : State :=
  s.setReg .edAdvStatus room 0 0 (pack [(1, 0), (7, 0), (8, advCode status), (16, s.reg .edCurrent room)])

/-- A command answers on the path it came by (R177, R180, R190). -/
def State.answer (s : State) (c : MqCmd) (r : Reply) : State :=
  match c.src with
  | .port p => s.sendTcomps p c.room c.id (r.tcomps c.hdr)
  | .reg => (s.replyReg c.room r.status ((r.tcomps c.hdr).headD ⟨0, []⟩)).dequeue c.room c.id
  | .catalogue => (s.replyAdv c.room r.status).dequeue c.room c.id

/-- The port of a command for its records, 0xFF on the other paths (R489). -/
def CmdSrc.portNo (x : CmdSrc) : Nat := match x with | .port p => p | _ => 0xFF

/-- A command that failed a check: TCMD_REJECT and its reply (R182). -/
def State.refuse (s : State) (c : MqCmd) (status result : Nat) : State :=
  let h := c.hdr
  (s.record .tcmdReject (some h.room) hubMaint
    [(8, h.table), (8, h.op), (8, status), (16, h.ctag), (8, c.src.portNo)]).answer c (reply status result)

/-! ### The end of a command (R183, R216) -/

/-- A command is done when nothing is left to write: references go, entries come and go, the reply is given
(R183, R216). -/
def State.complete (s : State) (c : MqCmd) (r : Reply) : State :=
  let t := c.hdr.table
  let s := c.drops.foldl State.dropRef s
  let s := if c.adds.isEmpty && c.dels.isEmpty then s
    else s.setTable t { s.table t with placed := ((s.table t).placed.filter fun e => !c.dels.contains e) ++ c.adds }
  s.answer c r

/-- The reply that a command in progress holds ready: OK with the RESULT of its only frame. -/
def MqCmd.held (c : MqCmd) : Reply := Machine.reply 0 (fld (c.reply.headD ⟨0, []⟩).hdr 57 26)

/-- Replaces a queued command. -/
def State.setCmd (s : State) (c : MqCmd) : State :=
  s.setQueue c.room ((s.queue c.room).map fun x => if x.id = c.id then c else x)

/-- A command whose last update falls in cycle `t` releases its references and answers then (R125, R154, R155). -/
def State.finishAt (s : State) (c : MqCmd) (t : Nat) (drops : List Nat) (result : Nat) : State :=
  let c := { c with drops := drops, reply := (reply 0 result).tcomps c.hdr, doneAt := some t }
  if t ≤ s.now then s.complete c c.held else s.setCmd c

/-- The commands whose last update has been made, the earliest first. -/
def State.dueCmds (s : State) : List MqCmd :=
  (((List.range 16).flatMap s.queue).filter fun c => c.doneAt.any fun t => decide (t ≤ s.now)).insertionSort fun a b =>
    a.doneAt.getD 0 ≤ b.doneAt.getD 0

/-- The commands whose last update has been made complete. -/
def State.completeDue (s : State) : State := s.dueCmds.foldl (fun s c => s.complete c c.held) s

end Sys2Proof.Machine
end

