-- ==== Sys2Proof/Machine/Merge.lean ====
section
/-! DEFINITION. Results and the cascade exchange: RESULT (R43, R67), candidates and fences received (R305, R310, R311),
a member's candidate, a collector's and an owner's close (R296, R299) and orphans (R304). -/

namespace Sys2Proof.Machine

/-! ### Closes (R296, R299) -/

/-- Program latency L of an instruction. -/
def Inflight.lat (x : Inflight) : Nat := latency (x.view.prog x.prog).stages

/-- The cycle in which the merge of an instruction closes (R299): A + L + 16 for a collector, A + L + M − 44 for an
owner. -/
def Inflight.closeAt (x : Inflight) (c : CasPart) : Nat :=
  if c.part = .collector then x.arrived + x.lat + 16 else x.arrived + x.lat + c.budget - 44

/-- The owner settles one sharded lookup (R296, R297); one of a stage that the program did not perform stays so (R62, R68). -/
def closeLookup (c : CasPart) (r : State × Inflight) (i : Nat) : State × Inflight :=
  let s := r.1
  let x := r.2
  let v := x.view
  let dev := v.device s.dev.straps
  if !(x.out i).performed && !(x.out i).skipped then r
  else
  let w := mergedRec (v.set c.set) dev c (ownRec v dev v.mgen x c.status i) i
  let ok := match s.ptrCheck s.view (v.set c.set).room w.ptr (w.plen + 1) with | none => true | some st => st = 0x64
  s.mergeOut x w i ok

/-- The owner's close of an instruction (R296). -/
def State.closeOwner (s : State) (x : Inflight) : State :=
  match x.cas with
  | none => s
  | some c =>
    if c.part ≠ .owner ∨ c.closed then s
    else
      let r := c.lookups.foldl (closeLookup c) (s, { x with cas := some { c with closed := true } })
      r.1.setFlight r.2

/-! ### Quarantine, stale and late frames (R305, R310 to R312) -/

/-- One more frame of a kind recorded at most once per microsecond (R305): whether a record is due, and the state after. -/
def Limited.more (l : Limited) (now sender gen : Nat) : Bool × Nat × Nat × Nat × Limited :=
  let n := l.count + 1
  let snd' := if l.count = 0 then sender else l.sender
  let gen' := if l.count = 0 then gen else l.gen
  let due := match l.last with | none => true | some c => decide (c + Config.usec ≤ now)
  (due, n, snd', gen', if due then ⟨0, 0, 0, some now⟩ else ⟨n, snd', gen', l.last⟩)

/-- The device quarantines (R311, R312): QUARANTINED rises, and the record says so (R358). `cause` is 1 for a FENCE, 2
for its own number with a newer generation. -/
def State.quarantine (s : State) (cause who gen expected : Nat) : State :=
  let r := s.cas.quar.more s.now who gen
  let dir := if s.cas.quarantined then 0 else 1
  let s := { s with cas := { s.cas with quarantined := true, quar := r.2.2.2.2 } }
  if r.1 then s.record .casQuarantine none hubMerge [(8, cause), (16, r.2.2.1), (8, r.2.2.2.1), (8, expected), (32, satTo 32 r.2.1)] dir
  else s

/-- Entry of the member table (R309), a switch of this cycle counted as made (R305): LIVE and MGEN. -/
def State.member (s : State) (dev : Nat) : Nat := (s.viewAt s.now).obj .casMember 0 0 dev

/-- A FENCE frame (R291, R293, R310). -/
def fenceFrame (dev mgen sender stale expected : Nat) : Frame :=
  candFrame ⟨2, 0, 0, 0, 0, 0, dev, mgen, sender, 0, 1⟩ [granule [(12, sender), (8, stale), (8, expected), (100, 0)]]

/-- Answers a stale frame with a FENCE, at most one per sender and microsecond (R310). -/
def State.sendFence (s : State) (port sender stale : Nat) : State :=
  let last := sget (fun _ => 0) s.cas.fenceLast sender
  if !s.cas.clvalid ∨ (last ≠ 0 ∧ s.now + 1 < last + Config.usec) then s
  else
    let m := s.member sender
    let f := fenceFrame s.device s.mgen sender stale (if nbit m 15 then m % 256 else 0)
    let s := { s with cas := { s.cas with fenceLast := sput (fun _ => 0) s.cas.fenceLast sender (s.now + 1) } }
    (s.send2 port f).bump .casFenceTx

/-- A stale sender (R305): counted, recorded, fenced. -/
def State.staleFrame (s : State) (port : Nat) (h : CandHdr) : State :=
  let r := s.cas.stale.more s.now h.sender h.smgen
  let s := { (s.bump .casStale) with cas := { s.cas with stale := r.2.2.2.2 } }
  let s := if r.1 then s.record .casStale none hubMerge [(32, satTo 32 r.2.1), (16, r.2.2.1), (8, r.2.2.2.1)] else s
  s.sendFence port h.sender h.smgen

/-- A late frame (R305). -/
def State.lateFrame (s : State) (h : CandHdr) : State :=
  let r := s.cas.late.more s.now h.sender 0
  let s := { (s.bump .casLate) with cas := { s.cas with late := r.2.2.2.2 } }
  if r.1 then s.record .casLate none hubMerge [(32, satTo 32 r.2.1), (16, r.2.2.1)] else s

/-- A merge takes records that arrive now (R300). -/
def Inflight.open? (x : Inflight) (now : Nat) : Bool :=
  match x.cas with
  | some c => !c.closed && decide (now ≤ x.closeAt c)
  | none => false

/-- The earliest accepted at intake of some instructions, the first launched of one cycle (R304). -/
def earliest : List Inflight → Option Inflight
  | [] => none
  | x :: t => match earliest t with
    | some y => if y.accepted < x.accepted then some y else some x
    | none => some x

/-- No frame of a sender yet. -/
def Inflight.fresh (x : Inflight) (sender : Nat) : Bool :=
  match x.cas with | some c => !c.senders.contains sender | none => false

/-- A candidate frame that passed the first rows of R305 and arrived in a cycle meets the instructions in flight (R300, R304,
R305). -/
def State.matchCand (s : State) (port : Nat) (h : CandHdr) (f : Frame) (arrived : Nat) : State :=
  let ms := s.search.flight.filter fun x => x.matchesCand h
  let opens := ms.filter fun x => x.open? arrived
  let fresh := opens.filter fun x => x.fresh h.sender
  match earliest fresh with
  | some x =>
    let s := if fresh.length ≤ 1 then s else s.bump .casAmbig
    let r := x.absorb h f.body s
    r.2.setFlight r.1
  | none =>
    if !opens.isEmpty then s.bump .casDup
    else if !ms.isEmpty || s.search.tails.any (fun e => decide (s.now < e.last) && e.matchesCand h) then s.lateFrame h
    else if 4096 ≤ s.cas.pend.length then s.bump .casPendFull
    else { s with cas := { s.cas with pend := s.cas.pend ++ [⟨s.now, port, f⟩] } }

/-- The rows of R305 for a MEMBER or MERGED frame, against the member table in force in this cycle;
before CLUSTER has been applied no exchange takes place (R21, R307; log 77). -/
def State.takeCand (s : State) (port : Nat) (f : Frame) (arrived : Nat) : State :=
  let h := candHdr f.hdr
  if !s.cas.clvalid then s
  else if s.cas.quarantined || s.quiet then s.bump .casQuarDrop
  else if h.dest ≠ s.device then s.bump .casMisroute
  else
    let newer := (h.smgen + 256 - s.mgen) % 256
    if h.sender = s.device ∧ 1 ≤ newer ∧ newer ≤ 127 then s.quarantine 2 h.sender h.smgen s.mgen
    else
      let m := s.member h.sender
      if !(nbit m 15) || m % 256 ≠ h.smgen then s.staleFrame port h
      else s.matchCand port h f arrived

/-- A FENCE received (R311); before CLUSTER has been applied no exchange takes place (R21, R307; log 77). -/
def State.takeFence (s : State) (f : Frame) : State :=
  let h := candHdr f.hdr
  let g := f.body.headD 0
  let stale := fld g 115 108
  let exp := fld g 107 100
  let newer := (exp + 256 - s.mgen) % 256
  if !s.cas.clvalid then s
  else if fld g 127 116 ≠ s.device then s.bump .casMisroute
  else if stale = s.mgen ∧ (exp = 0 ∨ (1 ≤ newer ∧ newer ≤ 127)) then s.quarantine 1 h.sender stale exp
  else s.bump .casFenceIgn

/-- A frame of type CANDIDATE by its KIND (R291): a FENCE under R311, the reserved kind as R305 treats a misrouted one. -/
def State.candidateFrame (s : State) (port : Nat) (f : Frame) (arrived : Nat) : State :=
  let k := (candHdr f.hdr).kind
  if k = 2 then s.takeFence f else if k = 3 then s.bump .casMisroute else s.takeCand port f arrived

/-- A frame of type CANDIDATE reaches its consumer 4 cycles after its last granule (R300), and `run` takes it with that cycle;
a held die's port discards it (R267). One that a close took in early has been taken (log 84). -/
def State.arriveCand (s : State) (port : Nat) (f : Frame) (run : State → Nat → State) : State :=
  let q := s.port port
  if q.early.contains f then s.setPort port { q with early := eraseFirst (fun x => x = f) q.early }
  else
    let r := s.fromLink port f 4
    let s := r.2.at (r.1 + 4)
    if s.dieHeld (dieOfPort port) then s.bump .portHeldDrop port else run s (r.1 + 4)

/-- CANDIDATE (R305): a MEMBER or MERGED frame arrives. -/
def execCandidate (port : Fin 32) (frame : Frame) (s : State) : Host.Outcome State Fault Refusal :=
  done (s.arriveCand port frame fun s t => s.candidateFrame port frame t)

/-- FENCE (R311): a FENCE arrives. -/
def execFence (port : Fin 32) (frame : Frame) (s : State) : Host.Outcome State Fault Refusal :=
  done (s.arriveCand port frame fun s _ => s.takeFence frame)

/-! ### The closes' commands (R296, R299, R300) -/

/-- The MEMBER and MERGED frames on their way from port `p` that arrive by cycle `t` are taken in (R300; log 84). -/
def State.earlyOn (t : Nat) (s : State) (p : Nat) : State :=
  if s.dieHeld (dieOfPort p) then s
  else
    ((s.port p).inbound.filter fun e => decide (fld e.2.hdr 127 124 = 3 ∧ (candHdr e.2.hdr).kind < 2 ∧ e.1 + 4 ≤ t)).foldl
      (fun s e =>
        let q := s.port p
        (s.setPort p { q with inbound := eraseFirst (fun x => x = e) q.inbound, early := q.early ++ [e.2] }).takeCand p e.2 (e.1 + 4)) s

/-- An owner's or collector's merge closes: it takes the records that arrive by the close cycle (R300), and an owner settles
its sharded lookups (R296). -/
def State.closeMerge (s : State) (x : Inflight) (c : CasPart) : State :=
  let s := ((List.range 32).foldl (State.earlyOn (x.closeAt c)) s).finish x.id 4
  match s.flight? x.id with
  | none => s
  | some y =>
    if c.part = .owner then s.closeOwner y
    else s.setFlight { y with cas := some { (y.cas.getD c) with closed := true } }

/-- The instruction of a port and tag that plays a part still open to `p`. -/
def State.casFlight (s : State) (port tag : Nat) (p : CasPart → Bool) : Option (Inflight × CasPart) :=
  s.search.flight.findSome? fun x =>
    match x.cas with
    | some c => if x.port = port && x.tag = tag && p c then some (x, c) else none
    | none => none

/-- MEMBER_SEND (R299): a member's candidate goes to its route port at A + L − 44. -/
def execMemberSend (port : Fin 32) (tag : BitVec 8) (s : State) : Host.Outcome State Fault Refusal :=
  match s.casFlight port tag.toNat fun c => c.part = .member && !c.sent with
  | none => .next s
  | some (x, c) =>
    let s := (s.at (x.arrived + x.lat - 44)).finish x.id 4
    let y := (s.flight? x.id).getD x
    let s := s.setFlight { y with cas := some { c with sent := true } }
    if s.casBarred then done s
    else done (s.handCand y c (candOf (y.view.device s.dev.straps) y c false))

/-- COLLECTOR_CLOSE (R299): the merge takes no further record after A + L + 16, and that cycle is over (log 84). -/
def execCollectorClose (port : Fin 32) (tag : BitVec 8) (s : State) : Host.Outcome State Fault Refusal :=
  match s.casFlight port tag.toNat fun c => c.part = .collector && !c.closed with
  | none => .next s
  | some (x, c) =>
    done (((s.at (x.closeAt c)).closeMerge x c).at (x.closeAt c + 1))

/-- MERGED_SEND (R299): a collector's MERGED frame goes to a fabric port at A + L + 20. -/
def execMergedSend (port : Fin 32) (tag : BitVec 8) (s : State) : Host.Outcome State Fault Refusal :=
  match s.casFlight port tag.toNat fun c => c.part = .collector && c.closed && !c.sent with
  | none => .next s
  | some (x, c) =>
    let s := s.at (x.arrived + x.lat + 20)
    let s := s.setFlight { x with cas := some { c with sent := true } }
    if s.casBarred then .next s
    else .next (s.handCand x c (candOf (x.view.device s.dev.straps) x c true))

/-- OWNER_CLOSE (R296, R299): the owner's merge closes at A + L + M − 44 and its lookups settle, and that cycle is over (log 84). -/
def execOwnerClose (port : Fin 32) (tag : BitVec 8) (s : State) : Host.Outcome State Fault Refusal :=
  match s.casFlight port tag.toNat fun c => c.part = .owner && !c.closed with
  | none => .next s
  | some (x, c) =>
    done (((s.at (x.closeAt c)).closeMerge x c).at (x.closeAt c + 1))

/-! ### RESULT (R43, R48) -/

/-- What a port has due: an error result, or an instruction. -/
inductive Due where
  | err (e : ErrResult)
  | flight (x : Inflight)
  deriving DecidableEq, Repr

def Due.cycle : Due → Nat
  | .err e => e.due
  | .flight x => x.due

/-- What is due first on a port, error results before instructions of the same cycle. -/
def State.firstDue (s : State) (port : Nat) : Option Due :=
  ((s.search.errs.filter fun e => e.port = port).map Due.err ++
    (s.search.flight.filter fun x => x.port = port).map Due.flight).foldl (fun m d =>
      match m with
      | none => some d
      | some a => if d.cycle < a.cycle then some d else some a) none

/-- The RESULT of an instruction at its due cycle: its last stages, an owner's close, its frame (R43, R306). -/
def State.sendDue (s : State) (x : Inflight) : State :=
  let s := s.finish x.id 4
  let s := match x.cas with | some c => if decide (c.part = Part.owner) && !c.closed then s.closeMerge x c else s | none => s
  let y := (s.flight? x.id).getD x
  let s := s.retire y
  if y.noResult then s
  else
    let up := decide ((s.port y.port).st = .up)
    let s := s.sendResult y.port y.due y.result
    if up && (List.range 16).any fun i => (y.out i).incomplete then s.bump .casIncomplete else s

/-- RESULT (R43): what a port has due first leaves at its due cycle and its tag is freed; an instruction that sends no
result only gives up its tag (R289). -/
def execResult (port : Fin 32) (s : State) : Host.Outcome State Fault Refusal :=
  match s.firstDue port with
  | none => .next s
  | some (.err e) =>
    let s := (s.at e.due).sendResult port e.due ⟨e.hdr, []⟩
    .next { s with search := { s.search with errs := eraseFirst (fun x => x = e) s.search.errs } }
  | some (.flight x) => done ((s.at x.due).sendDue x)

/-- CAS_ORPHAN (R304, R305): frames without a match for 10,240 cycles leave the pending store. -/
def execCasOrphan (s : State) : Host.Outcome State Fault Refusal :=
  match s.cas.pend with
  | [] => .next s
  | p :: _ =>
    let s := s.at (p.arrived + 10240)
    let old := s.cas.pend.filter fun q => decide (q.arrived + 10240 ≤ s.now)
    .next ({ s with cas := { s.cas with pend := s.cas.pend.filter fun q => !decide (q.arrived + 10240 ≤ s.now) } }.bumpBy
      old.length .casOrphan)

/-! ### What comes before a change (R125, R153, R168, R230, R234; log 84) -/

/-- The cycle of what an instruction does next in a stage: its compare, then the end of it. -/
def Inflight.nextAt (x : Inflight) : Nat := if x.front.isSome then x.compareAt + compareLen else x.compareAt

/-- The instruction whose next cycle of a stage comes first, among those whose next one is not after now. -/
def State.dueStage (s : State) : Option Inflight :=
  (s.search.flight.filter fun x =>
    decide (x.nextStage < (x.view.prog x.prog).stages ∧ x.nextAt ≤ s.now)).foldl (fun m x =>
      match m with
      | none => some x
      | some y => if x.nextAt < y.nextAt then some x else some y) none

/-- Runs up to `n` parts of stages whose cycles have come, in the order of those cycles. -/
def State.runDue (s : State) : Nat → State
  | 0 => s
  | n + 1 => match s.dueStage with
    | some x =>
      (if x.front.isSome || x.ended then s.runStage { x with ahead := x.ahead + 1 } [] []
        else (s.compareStage x [] []).1).runDue n
    | none => s

/-- The owners' merges whose close cycle has come close. -/
def State.closeDue (s : State) : State :=
  s.search.flight.foldl (fun s x => match x.cas with
    | some c => if decide (c.part = Part.owner) && !c.closed && decide (x.closeAt c ≤ s.now) then s.closeMerge x c else s
    | none => s) s

/-- Every lookup, tally and close of this cycle and those before it is made. -/
def State.searchesDone (s : State) : State := (s.runDue (8 * s.search.flight.length)).closeDue

/-- The machine before a change in the present cycle: every lookup, tally and owner's close of this cycle and those before it
has been made, every stamp write that is due, and the commands whose last update has come are complete, so that the change is
seen by later ones alone. -/
def State.catchUp (s : State) : State := (s.searchesDone.stampHits s.now).completeDue

/-- The same before a maintenance slot, in which a CLEAR comes before the stamp writes of its cycle (R168). -/
def State.catchUpSlot (s : State) : State := (s.searchesDone.stampHits (s.now - 1)).completeDue

end Sys2Proof.Machine
end

