-- ==== Sys2Proof/Machine/Boot.lean ====
section
/-! DEFINITION. The outcome of a start attempt (R400, R410 to R416): the start record with its mirror, success, failure
and minimal mode. The commands of a start stand in `Start.lean`. -/

namespace Sys2Proof.Machine

/-! ### Vault words -/

/-- A 32-bit vault word; unlisted words hold 0 (R422). -/
def State.vaultWord (s : State) (a : Nat) : Nat := sget (fun _ => 0) s.vault.words a

/-- An enabled tamper cause is present, or the vault domain is off (R435, R438). -/
def State.tamperActive (s : State) : Bool :=
  !s.dev.vaon || decide (s.vault.cause.toNat &&& s.vault.cfg.toNat % 32 ≠ 0)

/-- Writes a 32-bit vault word: nothing is held with VAON absent (R422), and only the start record while an enabled
tamper cause is present (R435). -/
def State.setVaultWord (s : State) (a v : Nat) : State :=
  if s.dev.vaon && (decide (a < 16) || !s.tamperActive) then
    { s with vault := { s.vault with words := sput (fun _ => 0) s.vault.words a (v % 4294967296),
                                     uncorr := s.vault.uncorr.filter (· ≠ a) } }
  else s

/-- VCLOCK: ACLK cycles of 32.768 kHz since it was last set (R421, R475). -/
def State.vclockNow (s : State) : BitVec 48 :=
  s.vault.vclock + BitVec.ofNat 48 ((s.now - s.vault.vclockAt) * 32768 / Config.sec)

/-- The life-cycle state by the fuses: 0 Blank to 4 Scrapped (R429). -/
def State.lcState (s : State) : Nat :=
  let f := s.boot.otp.fuses.toNat
  if nbit f 3 then 4 else if nbit f 2 then 3 else if nbit f 1 then 2 else if nbit f 0 then 1 else 0

/-! ### Start-record slots (R411) -/

/-- The 32 bytes of slot `n`, byte 0 in bits 31:24 of its first word (R411, R424); without VAON the slots that the mirror gave
(R413). -/
def State.slotBytes (s : State) (n : Nat) : List Byte :=
  if !s.dev.vaon then s.boot.attempt.slots.getD n (List.replicate 32 0)
  else (List.range 8).flatMap fun i => bytesBE 4 (s.vaultWord (8 * n + i))

/-- A slot image is valid: its CRC matches and its STATE is 1 to 4 (R411). -/
def slotOk (b : List Byte) : Bool :=
  decide (frameCrc (b.take 28) = ofBytesBE (b.drop 28)) && decide (b.length = 32) &&
    decide (1 ≤ (b.getD 2 0).toNat ∧ (b.getD 2 0).toNat ≤ 4)

/-- The fields of a slot that a later attempt reads (R412). -/
structure SlotView where
  seq : BitVec 16
  state : Nat
  fails : Nat
  preferred : Bool
  deriving DecidableEq, Repr

def slotView (b : List Byte) : SlotView :=
  ⟨BitVec.ofNat 16 (ofBytesBE (b.take 2)), (b.getD 2 0).toNat, (b.getD 3 0).toNat, nbit (b.getD 7 0).toNat 6⟩

/-- Milliseconds since the attempt began, saturating (R411). -/
def State.elapsed (s : State) : Nat := satTo 16 ((s.now - s.boot.attempt.begun) / Config.msec)

/-- The 32 bytes of a slot with the fields of the present attempt (R411). -/
def State.slotImage (s : State) (state fails reason detail : Nat) (image pref minimal : Bool) (tag : List Byte) : List Byte :=
  let a := s.boot.attempt
  let b := bytesBE 28 (pack [(16, a.seq.toNat), (8, state), (8, fails), (8, reason), (16, detail), (1, b2n image),
    (1, b2n pref), (1, b2n a.policy), (1, b2n minimal), (1, b2n a.fromMirror), (3, a.cause),
    (16, if state = 1 then 0 else s.elapsed), (64, ofBytesBE ((tag ++ List.replicate 8 0).take 8)), (8, a.prevReason), (72, 0)])
  b ++ bytesBE 4 (frameCrc b)

/-- Changes the attempt. -/
def State.setAttempt (s : State) (f : Attempt → Attempt) : State :=
  { s with boot := { s.boot with attempt := f s.boot.attempt } }

/-- Writes the 8 words of a slot. -/
def State.putWords (s : State) (n : Nat) (b : List Byte) : State :=
  (List.range 8).foldl (fun s i => s.setVaultWord (8 * n + i) (ofBytesBE ((b.drop (4 * i)).take 4))) s

/-- Writes a slot; what a power loss in this cycle may do to it is kept (R412, R420). -/
def State.putSlot (s : State) (n : Nat) (b : List Byte) (late : Bool := false) : State :=
  let w : SlotWrite := ⟨n, s.now, s.slotBytes n, late⟩
  let s := (s.putWords n b).setAttempt fun a => { a with slots := a.slots.set n b }
  { s with boot := { s.boot with writing := some w } }

/-- Appends a slot to the flash mirror (R413): a full sector is erased and takes both current slots. -/
def State.mirrorSlot (s : State) (b : List Byte) : State :=
  let m := s.boot.flash.mirror
  let full := decide (128 ≤ m.length)
  if s.boot.attempt.mirrorFail then
    s.record .mirrorFail none srcFw [(8, if full then 2 else 1), (16, (slotView b).seq.toNat)]
  else
    let m' := if full then [s.slotBytes 0, s.slotBytes 1] else m ++ [b]
    { s with boot := { s.boot with flash := { s.boot.flash with mirror := m' } } }

/-- A slot write: to the vault, then to the mirror (R412, R413). -/
def State.writeSlot (s : State) (b : List Byte) : State := (s.putSlot s.boot.attempt.slot b).mirrorSlot b

/-! ### Minimal mode and restart (R412, R415) -/

/-- The search dies stand in reset and the ports in electrical idle (R279, R415). -/
def State.diesDown (s : State) : State :=
  { s with ports := [], search := { Search.reset with nextId := s.search.nextId }, arb := Arbiter.reset, em := Em.reset,
           mem := { s.mem with releasing := [], clearing := [] }, dev := { s.dev with diesUp := false },
           health := { s.health with regions := s.health.regions.filter fun e => e.1 = 4 } }

/-- Minimal mode begins (R415). -/
def State.enterMinimal (s : State) : State :=
  { s.diesDown with dev := { s.diesDown.dev with phase := .minimal, started := false } }

/-- The attempt fails (R410, R412): its slot, its records, and minimal mode or an internal restart within 10 ms. -/
def State.failStart (s : State) (reason detail : Nat) : State :=
  let a := s.boot.attempt
  if !a.active then s
  else
    let fails := min 255 (a.fails + 1)
    let minimal := decide (s.boot.otp.bootLimit ≤ fails)
    let s := s.writeSlot (s.slotImage 3 fails reason detail a.image a.preferred minimal a.imgTag)
    let s := s.record .startFail none srcFw [(8, reason), (16, detail), (16, s.elapsed)]
    let s := s.setAttempt fun a => { a with active := false, ended := true, fails := fails, waiting := none,
                                            readyAt := if a.step < 7 then s.now else a.readyAt }
    if minimal then (s.record .minimalEnter none srcFw [(8, fails), (8, reason), (16, detail)]).enterMinimal
    else (s.setAttempt fun a => { a with restartDue := some (s.now + 1 + s.drawn % (10 * Config.msec)) }).draw

/-- Every REQUIRED port is UP (R261, R400). -/
def State.linksReady (s : State) : Bool := !s.linkMissing

/-- Success at the later of start-complete and the last REQUIRED port reaching UP (R400). -/
def State.trySucceed (s : State) : State :=
  let a := s.boot.attempt
  if a.active && a.complete && s.linksReady then
    let s := s.writeSlot (s.slotImage 2 0 0 0 a.image a.image false a.imgTag)
    let s := s.setAttempt fun a => { a with active := false, ended := true, fails := 0 }
    let s := { s with dev := { s.dev with phase := .running, started := true } }
    s.record .startDone none srcFw [(16, s.elapsed), (8, b2n a.image)]
  else s

end Sys2Proof.Machine
end

