-- ==== Sys2Proof/Machine/Pdus.lean ====
section
/-! DEFINITION. Plovier PDUs and CAT frames (R332, R333, R340, R341), sending them, and the end of a session (R326). -/

namespace Sys2Proof.Machine

/-! ### Identifiers and frames -/

/-- The 29-bit identifier of a PDU (R332). -/
def pduIdent (p : Pdu) : Nat :=
  pack [(3, p.prio.toNat), (5, p.service.toNat), (8, p.src.toNat), (8, p.dst.toNat), (5, p.seq.toNat)]

/-- The CAT frame that carries a PDU (R340). -/
def catFrame (p : Pdu) : Frame :=
  let n := p.bytes.length
  linkFrame 10 1 ⟨granule [(16, 0), (3, p.prio.toNat), (5, p.service.toNat), (8, p.src.toNat), (8, p.dst.toNat),
    (5, p.seq.toNat), (7, n), (76, 0)], granulesOf (cdiv n 16) p.bytes⟩

/-- The PDU that a CAT frame from a port carries; none when its shape fails R340. -/
def pduOf (port : Fin 32) (f : Frame) : Option Pdu :=
  let h := f.hdr
  let n := fld h 82 76
  if 64 < n ∨ f.body.length ≠ cdiv n 16 then none
  else some ⟨.port port, BitVec.ofNat 3 (fld h 111 109), BitVec.ofNat 5 (fld h 108 104), BitVec.ofNat 8 (fld h 103 96),
    BitVec.ofNat 8 (fld h 95 88), BitVec.ofNat 5 (fld h 87 83), (f.body.flatMap granuleBytes).take n⟩

/-- The CAN FD data length that holds `n` bytes (R333). -/
def canLength (n : Nat) : Nat := ([0, 1, 2, 3, 4, 5, 6, 7, 8, 12, 16, 20, 24, 32, 48].find? fun k => n ≤ k).getD 64

/-- BRS of the frames sent: the data rate in force exceeds the nominal rate (R327, R329). -/
def Bus.brs (b : Bus) : Bool := decide (bits b.rateForce.toNat 6 4 ≠ 0)

/-- The frame that carries a PDU on the dictionary bus (R327, R333). -/
def Bus.frame (b : Bus) (p : Pdu) : CanFrame :=
  ⟨p, b.brs, p.bytes ++ List.replicate (canLength p.bytes.length - p.bytes.length) 0⟩

/-- Error counts, and error-passive from 128 on (R327). -/
def Bus.counts (b : Bus) (tec rec : BitVec 16) : Bus :=
  { b with tec := tec, recv := rec, passive := decide (128 ≤ tec.toNat ∨ 128 ≤ rec.toNat) }

/-- A frame sent without error takes 1 from the transmit error count (R327; log 93). -/
def Bus.sentGood (b : Bus) : Bus := if b.busOff ∨ b.tec = 0 then b else b.counts (b.tec - 1) b.recv

/-- A frame received without error lowers the receive error count: by 1, and from above 127 to a value from 119 to 127
(R327; log 93). -/
def Bus.heardGood (b : Bus) (free : Nat) : Bus :=
  if b.recv = 0 then b
  else b.counts b.tec (if b.recv.toNat ≤ 127 then b.recv - 1 else BitVec.ofNat 16 (119 + free % 9))

/-- Sends a PDU to a master: on the dictionary bus, or as a CAT frame on its port (R341). -/
def State.sendPdu (s : State) (p : Pdu) : State :=
  match p.master with
  | .bus _ => { s with bus := { s.bus.sentGood with out := s.bus.out ++ [s.bus.frame p] } }
  | .port n => s.send1 n (catFrame p)

/-- The response to a request: its PRIO and SEQ, its SRC as DST, from the device's node ID (R333, R340). -/
def State.respond (s : State) (q : Pdu) (service : Nat) (bytes : List Byte) : Pdu :=
  ⟨q.master, q.prio, BitVec.ofNat 5 service, BitVec.ofNat 8 s.nodeId, q.src, q.seq, bytes⟩

/-- The 2 bytes of an index, least significant first, and a sub-index. -/
def naming (index sub : Nat) : List Byte := bytesLE 2 index ++ [BitVec.ofNat 8 sub]

/-- A byte of a number. -/
def byte (n : Nat) : Byte := BitVec.ofNat 8 n

/-- An ABORT in answer to a request (R333). -/
def State.abortPdu (s : State) (q : Pdu) (index sub code : Nat) : Pdu := s.respond q 0x0B (naming index sub ++ [byte code])

/-! ### Sessions (R321, R324 to R326) -/

/-- State of session `n`: 0 to 15 on the bus, 16 + p on port p (R346). -/
def State.session (s : State) (n : Nat) : Session := sget (fun _ => Session.none) s.cat.sessions n

/-- Writes a session. -/
def State.setSession (s : State) (n : Nat) (x : Session) : State :=
  { s with cat := { s.cat with sessions := sput (fun _ => Session.none) s.cat.sessions n x } }

/-- The session of a master, if it has one (R321). -/
def State.sessionOf (s : State) (m : Master) : Option Nat :=
  match m with
  | .bus node => (List.range 16).find? fun n => (s.session n).isOpen && (s.session n).node = node
  | .port p => if (s.session (16 + p)).isOpen then some (16 + p) else none

/-- The master of a session. -/
def State.masterOf (s : State) (n : Nat) : Master :=
  if n < 16 then .bus (s.session n).node else .port (Fin.ofNat 32 (n - 16))

/-- MID of a master (R324). -/
def mid (m : Master) : Nat := match m with | .bus n => n.toNat | .port p => 0x100 + p.val

/-- The transfer that a master has open (R335). -/
def State.transferOf (s : State) (m : Master) : Option Transfer := s.cat.transfers.find? fun t => t.master = m

/-- Removes a master's transfer; a firmware image that ends early needs a new erase (R417). -/
def State.dropTransfer (s : State) (m : Master) : State :=
  let img := s.cat.transfers.any fun t => t.master = m && t.download && t.index = 0xF000 && t.sub = 0x21
  let s := { s with cat := { s.cat with transfers := s.cat.transfers.filter fun t => t.master ≠ m } }
  if img then { s with boot := { s.boot with upd := { s.boot.upd with busy := false, ready := false, received := 0 } } } else s

/-- Ends a master's transfer with an ABORT to it (R326, R335). -/
def State.abortTransfer (s : State) (m : Master) (code : Nat) : State :=
  match s.transferOf m with
  | none => s
  | some t =>
    (s.dropTransfer m).sendPdu (s.abortPdu t.req t.index t.sub code)

/-- A session ends (R326): recorded, its transfer aborted, its master Public again. The closed session keeps the level that it
had and the cycle of its end plus 1, for the writes of that cycle (R345). -/
def State.endSession (s : State) (n cause : Nat) : State :=
  if !(s.session n).isOpen then s
  else
    let m := s.masterOf n
    let x := s.session n
    let s := s.abortTransfer m Ab.noSession
    (s.setSession n { Session.none with node := x.node, proved := x.proved, askLevel := x.askLevel, askRoom := x.askRoom,
                                        lastUse := s.now + 1 }).record .sesEnd none hubArbiter [(16, mid m), (8, n), (8, cause)]

/-- Ends every session but one. -/
def State.endSessions (s : State) (cause : Nat) (keep : Option Nat := none) : State :=
  (List.range 48).foldl (fun s n => if some n = keep then s else s.endSession n cause) s

end Sys2Proof.Machine
end

