-- ==== Sys2Proof/Machine/Links.lean ====
section
/-! DEFINITION. Search links (R254 to R280): bring-up, HELLO and credits, link events, the transmitter and the record of
dropped frames. -/

namespace Sys2Proof.Machine

/-! ### Frames in the receive buffers (R274, R275) -/

/-- Removes the first frame equal to `f` from a list, with its place. -/
def pull (f : Frame) : List Frame → Option (Nat × List Frame)
  | [] => none
  | x :: t => if x = f then some (0, t) else (pull f t).map fun r => (r.1 + 1, x :: r.2)

/-- A frame of class 1 or 3 goes to its consumer: it leaves the receive buffer, or counts as received and freed at once
when it was not in it (R274, R275). A frame from before the last exchange of HELLO is not counted again. -/
def Port.takeRx (q : Port) (cls : Nat) (f : Frame) : Port :=
  let n := BitVec.ofNat 16 (frameLen f)
  if cls = 1 then
    match pull f q.rx1 with
    | some (i, l) =>
      if i < q.old1 then { q with rx1 := l, old1 := q.old1 - 1 } else { q with rx1 := l, rxfreed1 := q.rxfreed1 + n }
    | none => { q with rxcount1 := q.rxcount1 + n, rxfreed1 := q.rxfreed1 + n }
  else
    match pull f q.rx3 with
    | some (i, l) =>
      if i < q.old3 then { q with rx3 := l, old3 := q.old3 - 1 } else { q with rx3 := l, rxfreed3 := q.rxfreed3 + n }
    | none => { q with rxcount3 := q.rxcount3 + n, rxfreed3 := q.rxfreed3 + n }

def State.takeRx (s : State) (p cls : Nat) (f : Frame) : State := s.setPort p ((s.port p).takeRx cls f)

/-- A frame that arrives on a held die is dropped and counted (R30); one that its receive buffer holds came before the hold
and goes to its consumer (log 79). -/
def State.heldFrame (s : State) (p cls : Nat) (f : Frame) : Bool :=
  s.dieHeld (dieOfPort p) && (pull f (if cls = 1 then (s.port p).rx1 else (s.port p).rx3)).isNone

/-- The consumers of a port take no class-1 frame while its outbound class-1 queue is full (R276). -/
def State.outFull (s : State) (p : Nat) : Bool := decide (64 ≤ (s.port p).tx1.length)

/-! ### What the sending of a frame completes (R183) -/

/-- A command whose last TCOMP is sent or discarded is complete and leaves its queue (R181, R183). -/
def State.txDone (s : State) (d : TxDone) : State :=
  match d with
  | .cmd room id => s.dequeue room id
  | _ => s

/-- A candidate begins to leave, its last granule in cycle `last` (R214). -/
def State.candSent (s : State) (d : TxDone) (last : Nat) : State :=
  match d with
  | .cand id => { s with search := { s.search with cands := (s.search.cands.filter fun e => decide (s.now < e.2)) ++ [(id, last)] } }
  | _ => s

/-! ### Leaving UP (R262) -/

/-- Discards what waits to be sent on a port: counted and recorded by class (R262). -/
def State.discardTx (s : State) (p : Nat) : State :=
  let q := s.port p
  let n1 := q.tx1.length
  let n2 := q.txc.length
  let n3 := q.tx3.length + q.push.length
  let q' := q.push.foldl (fun q x => q.loseRec x.ring) { q with tx1 := [], tx3 := [], txc := [] }
  let s := s.setPort p { q' with push := [] }
  let s := (q.tx1 ++ q.tx3).foldl (fun s f => s.txDone f.done) s
  if n1 + n2 + n3 = 0 then s
  else (s.bumpBy (n1 + n2 + n3) .portTxDiscard p).record .linkDiscard none (srcPort p)
    [(16, 0), (16, satTo 16 n1), (16, satTo 16 n2), (16, satTo 16 n3)]

/-- A port begins R260 at step 1, or goes to electrical idle when its role is OFF (R255, R260). -/
def State.train (s : State) (p : Nat) : State :=
  s.setPort p { s.port p with st := if s.role p = 0 then .off else .training, step := 1, begun := s.now,
                              helloValid := false, helloSent := false, helloErr := false }

/-- The port was UP, held or back in HELLO and starts again: LINK_DOWN from UP, frames discarded, its session ended (R262,
R326); it is down before the records are written, so none is pushed on it, and an ABORT of its open transfer is discarded
too. -/
def State.leaveUp (s : State) (p cause lane : Nat) : State :=
  let s := s.padTo p (5 * s.now)
  let q := s.port p
  let s := s.setPort p { q with st := .training, downAt := if q.st = .up then s.now else q.downAt }
  let s := if q.st = .up then s.record .linkDown none (srcPort p) [(8, cause), (8, lane)] else s
  (s.discardTx p).endSession (16 + p) 4

/-- Up, held, or exchanging HELLO again after it was up. -/
def Port.wasUp (q : Port) : Bool := q.keeps

/-- A retrain (R262): PORT_RETRAIN counts those from UP. -/
def State.retrainFrom (s : State) (p cause lane : Nat) : State :=
  ((if (s.port p).st = .up then s.bump .portRetrain p else s).leaveUp p cause lane).train p

/-- A port whose role changed at an accession (R262; log 25): from UP it leaves, and every port starts again. -/
def State.roleChange (s : State) (p : Nat) : State :=
  let s := if (s.port p).wasUp then
      (if s.role p = 0 ∨ (s.port p).st ≠ .up then s else s.bump .portRetrain p).leaveUp p 4 0xFF else s
  s.train p

/-! ### Bring-up (R260) -/

/-- LINK_BRING_UP: a port that is OFF with a role starts training (R260). -/
def execLinkBringUp (port : Fin 32) (s : State) : Host.Outcome State Fault Refusal :=
  if (s.port port).st ≠ .off ∨ s.role port = 0 ∨ !s.dev.diesUp then .next s else done (s.train port)

/-- A port that the start waits for is not UP 200 ms after step 1: the start fails with the lowest such port (R261). -/
def State.portLate (s : State) (p : Nat) : State :=
  if s.required p && s.boot.attempt.active then
    s.failStart 0x40 (((List.range 32).find? fun p => s.required p && (s.port p).st != .up).getD p)
  else s

/-- A port enters FAILED: the last step that it reached is recorded, as LINK_ALIGNED has it (R260), and a start that requires the
port fails (R261). -/
def State.linkFail (s : State) (p : Nat) : State :=
  let q := s.port p
  ((s.setPort p { q with st := .failed, failedAt := s.now }).record .linkFail none (srcPort p) [(8, q.step)]).portLate p

/-- LINK_FAIL: a port is not UP 200 ms after step 1 (R260); a required one fails the start, also when it is OFF or held
(R261). -/
def execLinkFail (port : Fin 32) (s : State) : Host.Outcome State Fault Refusal :=
  let q := s.port port
  let late := s.at (q.begun + 200 * Config.msec)
  match q.st with
  | .training | .aligning | .hello => done (late.linkFail port)
  | .off | .held => if s.required port && s.boot.attempt.active then done (late.portLate port) else .next s
  | _ => .next s

/-- LINK_RESTART: a FAILED port starts again after 1 s (R260). -/
def execLinkRestart (port : Fin 32) (s : State) : Host.Outcome State Fault Refusal :=
  let q := s.port port
  if q.st ≠ .failed then .next s else done ((s.at (q.failedAt + Config.sec)).train port)

/-- The lanes come in order (R258). -/
def lanesInOrder (a : Alignment) : Bool := decide (a.laneOf.map Fin.val = List.range 8)

/-- The lanes come in reverse order (R258). -/
def lanesReversed (a : Alignment) : Bool := decide (a.laneOf.map Fin.val = (List.range 8).reverse)

/-- The step a port has come to: step 3 fails on any other mapping of lanes (R258), step 4 on more skew than 4.0 ns
(R259). -/
def alignStep (a : Alignment) : Nat :=
  if !lanesInOrder a && !lanesReversed a then min 3 a.reached.val
  else if 4000 < a.skew then min 4 a.reached.val
  else a.reached.val

/-- PORT_LANES of an alignment (R280). -/
def alignLanes (a : Alignment) : Nat := a.precoding.toNat * 65536 + b2n (lanesReversed a) * 256 + a.inverted.toNat

/-- PORT_LAT: the latencies, 100 ± 1 and 60 ± 1 cycles, are `rx` and `tx` above the least (R278, R280). -/
def alignLat (rx tx : Nat) : Nat := (99 + rx) * 65536 + 59 + tx

/-- LINK_ALIGNED: a port comes to a step of R260. Once step 4 is done its lanes and fixed latencies are shown and HELLO
begins (R258, R260, R278, R280); a port of a held die stays held with its lanes trained (R279). -/
def execLinkAligned (port : Fin 32) (lanes : Alignment) (rxLat txLat : Fin 3) (s : State) :
    Host.Outcome State Fault Refusal :=
  let q := s.port port
  let k := alignStep lanes
  match q.st with
  | .training | .aligning =>
    if k < 5 then
      .next (s.setPort port { q with step := max q.step k, st := if 3 ≤ max q.step k then .aligning else .training })
    else
      let s := s.setReg .portLanes port 0 0 (alignLanes lanes)
      let s := s.setReg .portLat port 0 0 (alignLat rxLat txLat)
      let q := q.enterHello s.now
      done (s.setPort port (if s.dieHeld (dieOfPort port) then { q with st := .held } else q))
  | _ => .next s

/-! ### HELLO and IDLE (R271 to R274) -/

/-- The checks of R272 on a HELLO, in their order: 0 valid, 1 version, 2 role, 3 limits. -/
def helloCheck (role : Nat) (c : Credit) : Nat :=
  if c.version ≠ 1 then 1
  else if c.role ≠ role then 2
  else if role = 1 ∧ (c.limit1 < 16 ∨ c.limit3 < 16) then 3
  else 0

/-- A HELLO that fails is recorded, the first time in an exchange (R272). -/
def State.helloBad (s : State) (p : Nat) (c : Credit) (why : Nat) : State :=
  let q := s.port p
  if q.helloErr then s
  else
    let s := s.setPort p { q with helloErr := true }
    if why = 1 then s.record .linkVersion none (srcPort p) [(8, c.version)]
    else if why = 2 then s.record .linkRole none (srcPort p) [(8, c.role), (8, s.role p)]
    else s.record .linkLimit none (srcPort p) [(8, c.limit1), (8, c.limit3)]

/-- A HELLO on a port in HELLO (R272). -/
def State.takeHello (s : State) (p : Nat) (c : Credit) : State :=
  let why := helloCheck (s.role p) c
  if why ≠ 0 then s.helloBad p c why
  else
    let s := s.setReg .portPeer p 0 0 (pack [(12, c.device), (5, c.port), (2, c.role), (4, c.version), (9, 0)])
    let s := (s.setReg .portPeerLimit p 0 0 (c.limit1 * 256 + c.limit3)).padTo p (5 * s.now)
    let q := s.port p
    s.setPort p { q with helloValid := true, peerFreed1 := c.rxfreed1, peerFreed3 := c.rxfreed3 }

/-- A HELLO arrives: on an UP port the link starts its exchange again (R262, R272). -/
def State.helloFrame (s : State) (p : Nat) (f : Frame) : State :=
  let c := credit f.hdr
  match (s.port p).st with
  | .hello => s.takeHello p c
  | .up =>
    let s := s.padTo p (5 * s.now)
    ((s.setPort p ((s.port p).enterHello s.now)).record .linkReset none (srcPort p) []).takeHello p c
  | _ => s

/-- Credit recovered by an IDLE for frames that never arrived, with the granules (R274). -/
def lostCredit (sent count : BitVec 16) : Nat := if (sent - count).toNat < 32768 then (sent - count).toNat else 0

/-- An IDLE's counts reach a port (R273, R274). -/
def State.takeCredit (s : State) (p : Nat) (c : Credit) : State :=
  let q := s.port p
  let l1 := lostCredit c.txsent1 q.rxcount1
  let l3 := lostCredit c.txsent3 q.rxcount3
  let q := { q with rxcount1 := q.rxcount1 + BitVec.ofNat 16 l1, rxfreed1 := q.rxfreed1 + BitVec.ofNat 16 l1,
                    rxcount3 := q.rxcount3 + BitVec.ofNat 16 l3, rxfreed3 := q.rxfreed3 + BitVec.ofNat 16 l3,
                    peerFreed1 := c.rxfreed1, peerFreed3 := c.rxfreed3 }
  let s := s.setPort p q
  if l1 + l3 = 0 then s else s.bumpBy (l1 + l3) .portCreditLost p

/-- The limit of 200 ms for the bring-up has passed (R260). -/
def State.bringUpLate (s : State) (q : Port) : Bool := decide (q.begun + 200 * Config.msec < s.now)

/-- The port is UP (R262, R272), and a start that waits for it may succeed (R400); beyond its 200 ms it enters FAILED instead
(R260). -/
def State.goUp (s : State) (p : Nat) : State :=
  if s.bringUpLate (s.port p) then s.linkFail p
  else
    let s := s.padTo p (5 * s.now)
    let q := s.port p
    let t := if q.everUp then (s.now - q.downAt) / Config.usec else 0
    let lat := s.reg .portLat p
    let s := s.setPort p { q with st := .up, step := 6, everUp := true }
    (s.record .linkUp none (srcPort p) [(32, satTo 32 t), (16, lat / 65536), (16, lat % 65536)]).trySucceed

/-- An IDLE arrives (R272, R274). -/
def State.idleFrame (s : State) (p : Nat) (f : Frame) : State :=
  let c := credit f.hdr
  match (s.port p).st with
  | .hello => if (s.port p).helloValid then (s.goUp p).takeCredit p c else s
  | .up => s.takeCredit p c
  | _ => s

/-- The port receives slots, and the receiver of its held die drops every frame after counting it (R30, R267, R279). -/
def State.heldDrop (s : State) (p : Nat) : Bool :=
  match (s.port p).st with
  | .held => true
  | .up | .hello => s.dieHeld (dieOfPort p)
  | _ => false

/-- A frame reaches a port: the receiver of a held die counts and drops it (R30), else `run` takes it. -/
def State.receive (s : State) (p : Nat) (run : State → State) : State :=
  if s.heldDrop p then s.bump .portHeldDrop p else run s

/-- HELLO (R272): a HELLO frame is received. -/
def execHello (port : Fin 32) (frame : Frame) (s : State) : Host.Outcome State Fault Refusal :=
  done (s.receive port fun s => s.helloFrame port frame)

/-- IDLE (R274): an IDLE/CREDIT frame is received. -/
def execIdle (port : Fin 32) (frame : Frame) (s : State) : Host.Outcome State Fault Refusal :=
  done (s.receive port fun s => s.idleFrame port frame)

/-! ### Link events (R262) -/

/-- LINK_DOWN: synchronisation is lost on a lane (R262). A port still on its way up starts again at step 1. -/
def execLinkDown (port : Fin 32) (lane : Fin 8) (s : State) : Host.Outcome State Fault Refusal :=
  if (s.port port).wasUp then done (s.retrainFrom port 1 lane) else .next s

/-- Number of a symbol in its codeword: symbol i is on lane i mod 8 (R257). -/
def symbolIndex (e : SymbolError) : Nat := 8 * e.place + e.lane

/-- Symbols of a codeword in error. -/
def symbolsBad (w : List SymbolError) : Nat := (w.map symbolIndex).eraseDups.length

/-- The decoder corrects up to 15 symbols of a codeword (R257). -/
def uncorrectable (w : List SymbolError) : Bool := decide (15 < symbolsBad w)

/-- Symbols that the decoder corrected in some codewords (R257, R280). -/
def correctedIn (l : List (List SymbolError)) : Nat := ((l.filter fun w => !uncorrectable w).map symbolsBad).sum

/-- UNCORR_WINDOW: the codewords with errors in a window of 1 ms are counted; with more uncorrectable ones than a limit
that is not 0 the port retrains (R262, R280). -/
def execUncorrWindow (port : Fin 32) (codewords : List (List SymbolError)) (s : State) : Host.Outcome State Fault Refusal :=
  let bad := (codewords.filter uncorrectable).length
  let s := (s.bumpBy bad .portFecUncorr port).bumpBy (correctedIn codewords) .portFecCorr port
  let limit := s.reg .portUncorrLimit port
  if (s.port port).st = .up ∧ limit ≠ 0 ∧ limit < bad then done (s.retrainFrom port 2 0xFF) else .next s

/-- A RETRAIN action on a port (R262, R280): it acts on a port that is UP. -/
def State.retrainHost (s : State) (p : Nat) : State :=
  if (s.port p).wasUp then s.retrainFrom p 3 0xFF else s

/-! ### The record of dropped frames (R269) -/

/-- Counts a dropped frame: 0 uncorrectable, 1 CRC or FIRST, 2 length, 3 type, class, direction or role, 4 overrun
(R267, R269). -/
def State.dropFrame (s : State) (p cause : Nat) : State :=
  let q := s.port p
  let first := if q.drops.all (· = 0) then s.now else q.dropFirst
  let s := s.setPort p { q with drops := q.drops.modify cause (· + 1), dropFirst := first }
  s.bump (if cause = 0 then .portFrameDrop else if cause = 1 then .portCrcErr else if cause = 2 then .portLenErr
    else if cause = 3 then .portTypeErr else .portCreditOvr) p

/-- LINK_DROP (R269): the frames dropped since the last record are recorded, at most once in a microsecond. -/
def execLinkDrop (port : Fin 32) (s : State) : Host.Outcome State Fault Refusal :=
  let q := s.port port
  if q.drops.all (· = 0) then .next s
  else
    let s := if q.dropLast = 0 then s else s.at (q.dropLast - 1 + Config.usec)
    let s := s.setPort port { q with drops := [0, 0, 0, 0, 0], dropLast := s.now + 1 }
    .next (s.record .linkDrop none (srcPort port) ((q.drops.map fun n => (15, satTo 15 n)) ++ [(64, q.dropFirst)]))

/-! ### The receiver (R267) -/

/-- The class of a type that a port of the role takes from its peer; none for a type it does not take (R255, R265). -/
def rxClass (role ty : Nat) : Option Nat :=
  if ty = 0 then some 0
  else if ty = 3 then some 2
  else if role ≠ 1 then none
  else if ty = 1 then some 0
  else if ty = 4 ∨ ty = 6 ∨ ty = 0xA then some 1
  else if ty = 7 then some 3
  else none

/-- FIRST of a link block (R266). -/
def blockFirst (b : LinkBlock) : Nat := b.trailer.toNat / 2 ^ 32

/-- The CRC of a link block differs from its trailer, or its FIRST is neither a slot 0 to 15 nor FILL (R266, R267). -/
def blockBad (b : LinkBlock) : Bool :=
  (decide (15 < blockFirst b) && decide (blockFirst b ≠ 0xFE)) ||
    decide (frameCrc (b.slots.flatMap fun g => bytesBE 16 g.toNat) ≠ b.trailer.toNat % 2 ^ 32)

/-- Slots that FIRST marks, counted from the first slot of the first block of an arrival. -/
def marksOf (a : Arrival) : List Nat := (List.range a.blocks.length).filterMap fun i =>
  match a.blocks[i]? with
  | some b => if blockFirst b = 0xFE then none else some (80 * i + blockFirst b)
  | none => none

/-- The header of an arrival is one that FIRST marks (R268). -/
def headMarked (a : Arrival) : Bool := a.blocks.isEmpty || (marksOf a).contains a.slot.val

/-- The row of R267 that a frame on an UP port meets first: a cause of `dropFrame`, or none when it is passed on. -/
def rxCheck (role : Nat) (q : Port) (f : Frame) (a : Arrival) : Option Nat :=
  let h := f.hdr
  let n := fld h 121 117
  let ty := fld h 127 124
  if a.blocks.any fun b => b.codewords.any uncorrectable then some 0
  else if a.blocks.any blockBad then some 1
  else if q.resync && !headMarked a then some 2
  else if n = 0 ∨ 16 < n ∨ frameLen f ≠ n then some 2
  else if (marksOf a).any fun m => decide (a.slot.val < m ∧ m < a.slot.val + n) then some 2
  else if rxClass role ty ≠ some (fld h 123 122) ∨ (ty = 0 ∧ 2 ≤ fld h 111 108) then some 3
  else if fld h 123 122 = 1 ∧ 128 < (q.rxcount1 - q.rxfreed1).toNat + n then some 4
  else if fld h 123 122 = 3 ∧ 64 < (q.rxcount3 - q.rxfreed3).toNat + n then some 4
  else none

/-- Slots of a FILL block carry no frame (R266, R268). -/
def inFill (a : Arrival) : Bool :=
  a.blocks.any (fun b => blockFirst b = 0xFE) && a.blocks.all fun b => !blockBad b && !b.codewords.any uncorrectable

/-- Services of R333 that the device alone sends. -/
def deviceService (service : Nat) : Bool := [0x02, 0x04, 0x06, 0x0A, 0x0C, 0x0D, 0x0F, 0x12].contains service

/-- A CAT frame that is discarded and counted: of a bad shape (R340), or of a device-to-host service (R333). -/
def catDropped (port : Fin 32) (f : Frame) : Bool :=
  fld f.hdr 127 124 = 0xA && (match pduOf port f with | some q => deviceService q.service.toNat | none => true)

/-- A frame that passed the receiver (R267): SEARCH and CANDIDATE frames are on their way to intake and to the merge unit,
which take them some cycles later (R41, R300; log 75), IDLE/CREDIT frames act at once, and classes 1 and 3 enter the receive
buffer (R274). -/
def State.passFrame (s : State) (p : Nat) (f : Frame) : State :=
  let h := f.hdr
  let q := s.port p
  let n := BitVec.ofNat 16 (frameLen f)
  let cls := fld h 123 122
  if catDropped (Fin.ofNat 32 p) f then
    (s.setPort p { q with rxcount1 := q.rxcount1 + n, rxfreed1 := q.rxfreed1 + n }).bump .catDrop
  else if cls = 1 then s.setPort p { q with rxcount1 := q.rxcount1 + n, rx1 := q.rx1 ++ [f] }
  else if cls = 3 then s.setPort p { q with rxcount3 := q.rxcount3 + n, rx3 := q.rx3 ++ [f] }
  else if fld h 127 124 = 1 ∨ fld h 127 124 = 3 then s.setPort p { q with inbound := q.inbound ++ [(s.now, f)] }
  else if fld h 111 108 = 1 then s.helloFrame p f
  else s.idleFrame p f

/-- A frame of a credited class that passes the block checks and is discarded keeps the counts in step (R274, R275). -/
def Port.passed (q : Port) (f : Frame) : Port :=
  let n := BitVec.ofNat 16 (frameLen f)
  if fld f.hdr 123 122 = 1 then { q with rxcount1 := q.rxcount1 + n, rxfreed1 := q.rxfreed1 + n }
  else if fld f.hdr 123 122 = 3 then { q with rxcount3 := q.rxcount3 + n, rxfreed3 := q.rxfreed3 + n }
  else q

/-- After a damaged block, and after a length error, the receiver waits for a slot that FIRST marks (R268). -/
def State.resyncs (s : State) (p : Nat) (b : Bool) : State := s.setPort p { s.port p with resync := b }

/-- A frame is judged on an UP port (R267, R268): passed on, or discarded under one row. -/
def State.judge (s : State) (p : Nat) (f : Frame) (a : Arrival) : State :=
  if inFill a then s.resyncs p true
  else
    match rxCheck (s.role p) (s.port p) f a with
    | some c =>
      let s := (s.dropFrame p c).resyncs p (decide (c ≤ 2))
      if 3 ≤ c then s.setPort p ((s.port p).passed f) else s
    | none => (s.resyncs p false).passFrame p f

/-- FRAME_RECEIVE (R267): a frame is judged, and passed whole to its consumer or discarded. In HELLO only HELLO and
IDLE frames have a meaning (R272); in other states nothing is received. -/
def execFrameReceive (port : Fin 32) (frame : Frame) (place : Arrival) (s : State) : Host.Outcome State Fault Refusal :=
  let q := s.port port
  match q.st with
  | .held => .next (s.bump .portHeldDrop port)
  | .up => done (s.receive port fun s => s.judge port frame place)
  | .hello =>
    done (s.receive port fun s =>
      if !inFill place && (rxCheck (s.role port) q frame place).isNone && decide (fld frame.hdr 127 124 = 0) then
        s.passFrame port frame
      else s)
  | _ => .next s

/-! ### The transmitter (R47, R262, R273, R277) -/

/-- May a frame of `n` granules start (R273). -/
def maySend (sent freed : BitVec 16) (limit n : Nat) : Bool := decide ((sent - freed).toNat + n ≤ limit)

/-- Result windows of a port as slots: their first slots, 10 slots each (R44, R45). -/
def State.windows (s : State) (p : Nat) : List Nat :=
  ((s.search.flight.filter fun x => x.port = p && !x.noResult).map fun x => 5 * x.due) ++
    (s.search.errs.filter fun e => e.port = p).map fun e => 5 * e.due

/-- Slots free of result windows from slot `k` on, up to 16 (R277). -/
def State.roomAt (s : State) (p k : Nat) : Nat :=
  (s.windows p).foldl (fun n w => if k < w + 10 then min n (w - k) else n) 16

/-- The first frame in the order of R277 that may start in `room` slots. -/
inductive TxPick where
  | none | cand | idle | one | three
  deriving DecidableEq, Repr

/-- An RXFREED count has changed and no IDLE/CREDIT frame was sent in the last 64 slots (R277). -/
def Port.creditDue (q : Port) (k : Nat) : Bool :=
  (q.rxfreed1 != q.freedSent1 || q.rxfreed3 != q.freedSent3) && decide (q.lastIdle + 64 < k)

def Port.pick (q : Port) (role limits room k : Nat) : TxPick :=
  let fits := fun (f : Frame) => decide (frameLen f ≤ room)
  if (q.txc.head?.map fun f => fits f.frame) = some true then .cand
  else if role = 1 ∧ q.creditDue k ∧ 0 < room then .idle
  else if role = 1 ∧ (q.tx1.head?.map fun f => fits f.frame && maySend q.txsent1 q.peerFreed1 (limits / 256) (frameLen f.frame)) =
      some true then .one
  else if role = 1 ∧ (q.tx3.head?.map fun f => fits f.frame && maySend q.txsent3 q.peerFreed3 (limits % 256) (frameLen f.frame)) =
      some true then .three
  else if 0 < room then .idle
  else .none

/-- Sends an IDLE/CREDIT frame from slot `k`. -/
def State.putIdle (s : State) (p k : Nat) : State :=
  let q := s.port p
  (s.setPort p (q.noteIdle (k + 1))).putOn p k (creditFrame q.ownIdle)

/-- Sends a HELLO from slot `k` (R272). -/
def State.putHello (s : State) (p k : Nat) : State :=
  let q := s.port p
  (s.setPort p { q.noteIdle (k + 1) with helloSent := q.helloValid }).putOn p k (creditFrame (s.ownHello p))

/-- Sends what was picked. -/
def State.putPick (s : State) (p k : Nat) (t : TxPick) : State :=
  let q := s.port p
  match t with
  | .none => s
  | .idle => s.putIdle p k
  | .cand =>
    match q.txc with
    | [] => s
    | f :: l => ((s.setPort p { q with txc := l }).putOn p k f.frame).candSent f.done ((k + frameLen f.frame - 1) / 5)
  | .one =>
    match q.tx1 with
    | [] => s
    | f :: l =>
      ((s.setPort p { q with tx1 := l, txsent1 := q.txsent1 + BitVec.ofNat 16 (frameLen f.frame) }).putOn p k f.frame).txDone
        f.done
  | .three =>
    match q.tx3 with
    | [] => s
    | f :: l =>
      ((s.setPort p { q with tx3 := l, txsent3 := q.txsent3 + BitVec.ofNat 16 (frameLen f.frame) }).putOn p k f.frame).txDone
        f.done

/-- Sends a slot of zeros (R279). -/
def State.putZero (s : State) (p k : Nat) : State :=
  let s := { s with wire := ⟨k, p, .zero⟩ :: s.wire }
  (s.setPort p { s.port p with txSlot := k + 1 }).putGranule p 0 false

/-- While the device is quarantined or quiet no CANDIDATE frame leaves: those that wait are discarded (R312; log 80). -/
def State.muzzle (s : State) (p : Nat) : State :=
  if s.cas.quarantined || s.quiet then s.setPort p { s.port p with txc := [] } else s

/-- SLOT_FILL (R277): the transmitter fills its next slot; the slots passed over since the last one went with filler. In HELLO
it sends HELLO in every slot until a valid one has come and one has left after it, then IDLE (R272). A port of a held die
sends slots of zeros (R30, R279), and so does the rest of a block in which no frame can begin any more (R266; log 79). -/
def execSlotFill (port : Fin 32) (s : State) : Host.Outcome State Fault Refusal :=
  let k := max (5 * s.now) (s.port port).txSlot
  let u := (s.at (k / 5)).completeDue.padTo port k
  let zero := s.dieHeld (dieOfPort port) || !(u.port port).mayBegin
  match (s.port port).st with
  | .held => .next (u.putZero port k)
  | .up =>
    let u := u.muzzle port
    let q := u.port port
    let room := u.roomAt port k
    if zero then .next (u.putZero port k)
    else if q.owesHello && decide (0 < room) then .next (u.putHello port k)
    else .next (u.putPick port k (q.pick (u.role port) (u.reg .portPeerLimit port) room k))
  | .hello =>
    let q := u.port port
    if zero then .next (u.putZero port k)
    else if q.helloValid && q.helloSent then .next (u.putIdle port k)
    else .next (u.putHello port k)
  | _ => .next s

end Sys2Proof.Machine
end

