-- ==== Sys2Proof/Machine/PfxWords.lean ====
section
/-! DEFINITION. The words of prefix images: entries (R116, R117), the editions in which an answer changes (R121 to
R124), charges (R115), cells (R127, R129) and the selectors (R491). -/

namespace Sys2Proof.Machine

/-! ### Entries -/

/-- The entry that two granules carry (R116); its record is chosen later. -/
def pfxEntryOf (gs : List Granule) : PfxEntry :=
  let x := ofBytesBE ((gs.take 2).flatMap granuleBytes)
  let len := bits x 127 120
  ⟨0, [], BitVec.ofNat 128 (clip len (x / 2 ^ 128)), len, nbit x 119, nbit x 118, BitVec.ofNat 16 (bits x 117 102),
    BitVec.ofNat 16 (bits x 101 86), bits x 85 64, bits x 63 61⟩

/-- Reserved bits of the entry image are set (R116). -/
def pfxEntryBad (gs : List Granule) : Bool := fld (gs.getD 1 0) 60 0 ≠ 0

/-- The two granules of an entry (R116). -/
def PfxEntry.image (e : PfxEntry) : List Granule :=
  [e.prefix_, granule [(8, e.len), (1, b2n e.valid), (1, b2n e.rset), (16, e.first.toNat), (16, e.retiring.toNat),
    (22, e.ptr), (3, e.plen), (61, 0)]]

/-- The same PREFIX and LEN. -/
def PfxEntry.same (a b : PfxEntry) : Bool := a.len = b.len && a.prefix_ = b.prefix_

/-- A lifetime that no edition lies in (R117). -/
def PfxEntry.never (e : PfxEntry) : Bool := e.rset && edLe e.retiring e.first

/-- Two lifetimes overlap (R117). -/
def PfxEntry.overlaps (a b : PfxEntry) : Bool :=
  !a.never && !b.never && !(a.rset && edLe a.retiring b.first) && !(b.rset && edLe b.retiring a.first)

/-- First and last key of an entry, as 128-bit numbers. -/
def PfxEntry.lo (e : PfxEntry) : Nat := e.prefix_.toNat
def PfxEntry.past (e : PfxEntry) : Nat := e.lo + 2 ^ (128 - e.len)

/-- The lowest number that no entry of a table has. -/
def freeRec (es : List PfxEntry) : Nat :=
  ((List.range (es.length + 1)).find? fun i => es.all fun e => e.record ≠ i).getD 0

/-! ### Change editions (R121 to R124) -/

/-- The editions after `b` at which the longest live entry that covers a key changes. -/
def changes (es : List PfxEntry) (b : Edition) (k : Nat) : List Edition :=
  let cov := es.filter (·.covers k)
  let cands := cov.foldl (fun l e => if e.rset then insertNew e.retiring (insertNew e.first l) else insertNew e.first l) []
  cands.filter fun c => edLe (b + 1) c && longestLive false cov k (c - 1) ≠ longestLive false cov k c

/-- The first of some editions after one. -/
def firstChange : List Edition → Option Edition
  | [] => none
  | c :: t => match firstChange t with
    | some x => some (if edLe c x then c else x)
    | none => some c

/-- The edition up to which an answer word's answer is settled: the one before its SW when that has come, else the room's current
one, so that every change to come counts (R121, R123). -/
def AnsWord.base (w : AnsWord) (cur : Edition) : Edition := if w.swset && edLe w.sw cur then w.sw - 1 else cur

/-- The index of an entry's record on a slice. -/
def PfxEntry.recIdx (e : PfxEntry) (slice : Nat) : Nat := sget (fun _ => 0) e.recs slice - 1

/-- The answer word of a key whose answer up to edition `b` is that of `b`, on a slice, over the entries of an image or
group (R119, R121). With more than one change it carries the first (log 87). -/
def answerOf (direct : Bool) (es : List PfxEntry) (slice : Nat) (b : Edition) (k : Nat) : AnsWord :=
  let half := fun (o : Option PfxEntry) => match o with | some e => (true, e.recIdx slice) | none => (false, 0)
  if direct then let n := half (longestLive true es k 0); ⟨false, 0, false, 0, n.1, n.2⟩
  else match firstChange (changes es b k) with
    | none => let n := half (longestLive false es k b); ⟨false, 0, false, 0, n.1, n.2⟩
    | some c =>
      let o := half (longestLive false es k b)
      let n := half (longestLive false es k c)
      ⟨true, c, o.1, o.2, n.1, n.2⟩

/-- An answer word that has settled when its SW is at or before the floor (R124). -/
def AnsWord.settle (w : AnsWord) (f : Edition) : AnsWord :=
  if w.swset && edLe w.sw f then { w with swset := false, sw := 0, ohit := w.nhit, orec := w.nrec } else w

/-- An entry answers at some edition. -/
def AnsWord.answers (w : AnsWord) : Bool := w.nhit || (w.swset && w.ohit)

/-- A key of each range under an entry in which one list of entries covers every key. -/
def points (es : List PfxEntry) (e : PfxEntry) : List Nat :=
  (es.filter fun q => decide (e.len < q.len) && e.covers q.lo).foldl (fun l q =>
    if q.past < e.past then insertNew q.past (insertNew q.lo l) else insertNew q.lo l) [e.lo]

/-- Group of a prefix length (R112). -/
def Pfx.groupOf (d : Pfx) (len : Nat) : Nat :=
  ((List.range d.groups.length).find? fun i => decide (len ≤ (d.groups.getD i (0, 0)).1)).getD 0

/-- The keys of the cells that an entry expands to (controlled prefix expansion, "The hash-per-length image"). -/
def Pfx.cellKeys (d : Pfx) (e : PfxEntry) : List Nat :=
  let g := d.glen (d.groupOf e.len)
  (List.range (2 ^ (g - e.len))).map fun j => e.lo + j * 2 ^ (128 - g)

/-- The entries of one group. -/
def Pfx.inGroup (d : Pfx) (es : List PfxEntry) (i : Nat) : List PfxEntry := es.filter fun e => d.groupOf e.len = i

/-- The trie image is kept current: in force, READY, or under build (R134, R135). -/
def Table.trieKept (tb : Table) : Bool :=
  tb.trieReady || tb.buildingTrie || (match tb.switch with | .unsettled _ _ => true | _ => !tb.hash)

/-- The hash image is kept current (R134, R135). -/
def Table.hashKept (tb : Table) (keep : Bool) : Bool :=
  tb.hashInForce || tb.buildingHash || (tb.hashReady && (keep || tb.switch != .none))

/-- A leaf or cell would change at more than one edition, or at another than the one it holds for another write
(R123). `others` are the changes without those that the write withdraws. -/
def clashAt (after others : List Edition) : Bool :=
  match after with
  | [] => false
  | [c] => !others.isEmpty && !others.contains c
  | _ => true

/-- The answer word that a key has in the trie image, on the slice of copy 0 that owns it. -/
def Table.trieWord (tb : Table) (d : Pfx) (k : Nat) : AnsWord :=
  ((tb.leavesAt (d.owner 0 (k / 2 ^ (128 - d.w))) k).map Leaves.answer).getD AnsWord.blank

/-- The answer word of a cell. -/
def Table.cellWord (tb : Table) (i k : Nat) : AnsWord :=
  ((tb.cells.find? fun c => c.group = i && c.key.toNat = k).map Cell.answer).getD AnsWord.blank

/-- R123 for a write that concerns one entry: `after` and `others` are the entries after it and those whose pending
changes are not its own. -/
def State.pfxPending (s : State) (t : Nat) (e : PfxEntry) (after others : List PfxEntry) : Bool :=
  let tb := s.table t
  let d := s.view.pfx t
  let cur := s.current (s.view.tbl t).room
  let i := d.groupOf e.len
  (tb.trieKept && (points (after ++ others) e).any fun k =>
    let b := (tb.trieWord d k).base cur
    clashAt (changes after b k) (changes others b k)) ||
  (tb.hashKept d.keep && (d.cellKeys e).any fun k =>
    let b := (tb.cellWord i k).base cur
    clashAt (changes (d.inGroup after i) b k) (changes (d.inGroup others i) b k))

/-- The SW of every answer word of a table that holds a change, with the number of words (R119, R124, R134). -/
def Table.pendingSw (tb : Table) : List (Edition × Nat) :=
  ((tb.leaves.filter fun r => r.answer.swset).map fun r => (r.answer.sw, r.count)) ++
    (tb.cells.filter fun c => c.answer.swset).map fun c => (c.answer.sw, 1)

/-! ### Charges (R115) -/

/-- Units of an entry in one copy. -/
def pfxCharge (len : Nat) : Nat := if len ≤ 32 then 1 else if len ≤ 64 then 2 else 8

/-- Slices of a copy that hold an entry (R114). -/
def Pfx.holders (d : Pfx) (c : Nat) (e : PfxEntry) : List Nat :=
  if e.len < d.span then d.copySlices c else [d.owner c (e.lo / 2 ^ (128 - d.w))]

/-- Units of an entry on a slice, in every copy. -/
def Pfx.entryUnits (d : Pfx) (e : PfxEntry) (slice : Nat) : Nat :=
  (((List.range d.ncopy).filter fun c => (d.holders c e).contains slice).length) * pfxCharge e.len

/-- Units of a hash image on a slice. -/
def Pfx.hashUnits (d : Pfx) (slice : Nat) : Nat :=
  (((List.range d.groups.length).filter fun i => i % 4 = slice).map fun i =>
    4 * 2 ^ d.nblog i * (if d.w = 32 then 1 else if d.w = 64 then 2 else 4)).sum

/-- Units that a table takes on a slice. -/
def pfxUnits (d : Pfx) (tb : Table) (slice : Nat) : Nat :=
  (tb.entries.map fun e => d.entryUnits e slice).sum + (if tb.hashHeld then d.hashUnits slice else 0)

/-- Free units of a slice. -/
def State.pfxFree (s : State) (slice : Nat) : Nat :=
  2097152 - ((s.view.tablesOf 1).map fun t => pfxUnits (s.view.pfx t) (s.table t) slice).sum

/-- An insert takes more units than remain on some slice (R115). -/
def State.pfxFull (s : State) (d : Pfx) (e : PfxEntry) : Bool :=
  [0, 1, 2, 3].any fun sl => decide (s.pfxFree sl < d.entryUnits e sl)

/-! ### Cells (R127 to R129) -/

/-- Adds a cell where the first free place of its buckets is; none when both are full (R129). -/
def Pfx.addCell (d : Pfx) (cells : List Cell) (i k : Nat) : Option (List Cell) :=
  if cells.any fun c => c.group = i && c.key.toNat = k then some cells
  else
    let places := (d.buckets i k).flatMap fun b => [0, 1, 2, 3].map fun sl => (b, sl)
    match places.find? fun p => !cells.any fun c => c.group = i && c.bucket = p.1 && c.slot = p.2 with
    | some p => some (cells ++ [⟨i, p.1, p.2, BitVec.ofNat 128 k, AnsWord.blank⟩])
    | none => none

/-- Adds the cells of a list of keys; none when one finds no place. -/
def Pfx.addCells (d : Pfx) (i : Nat) : List Nat → List Cell → Option (List Cell)
  | [], cells => some cells
  | k :: t, cells => match d.addCell cells i k with
    | some cells => d.addCells i t cells
    | none => none

/-- The cells after an entry is added (R129). -/
def Pfx.cellsWith (d : Pfx) (cells : List Cell) (e : PfxEntry) : Option (List Cell) :=
  d.addCells (d.groupOf e.len) (d.cellKeys e) cells

/-- The cells that entries still expand to. -/
def Pfx.cellsOf (d : Pfx) (cells : List Cell) (es : List PfxEntry) : List Cell :=
  cells.filter fun c => es.any fun e => d.groupOf e.len = c.group && e.covers c.key.toNat

/-- The counts behind the filter bits (R130). -/
def Pfx.filterOf (d : Pfx) (cells : List Cell) : Store Nat :=
  if d.filtlen = 0 then []
  else cells.foldl (fun m c =>
    let i := 16 * d.filterIndex c.key.toNat + c.group
    sput (fun _ => 0) m i (sget (fun _ => 0) m i + 1)) []

/-- Cells with the answer words that the entries of their groups give them; `b` is the edition from which a word that
holds no change is to be right. -/
def Pfx.answerCells (d : Pfx) (es : List PfxEntry) (b : Edition) (cells : List Cell) : List Cell :=
  cells.map fun c =>
    let w := answerOf d.direct (d.inGroup es c.group) (groupSlice c.group) (c.answer.base b) c.key.toNat
    { c with answer := w }

/-! ### Records (R119) -/

/-- Slices that hold an entry's record: those of every copy that hold the entry, and with a hash image that of its group. -/
def Pfx.recSlices (d : Pfx) (hash : Bool) (e : PfxEntry) : List Nat :=
  (if hash then [groupSlice (d.groupOf e.len)] else []).foldl (fun l x => insertNew x l)
    ((List.range d.ncopy).flatMap fun c => d.holders c e)

/-- The lowest number that a list does not have. -/
def lowest (l : List Nat) : Nat := ((List.range (l.length + 1)).find? fun i => !l.contains i).getD 0

/-- Record indices in use on a slice, of the entries listed. -/
def recsOn (es : List PfxEntry) (slice : Nat) : List Nat :=
  (es.filter fun e => sget (fun _ => 0) e.recs slice ≠ 0).map fun e => e.recIdx slice

/-- Gives every entry a record on each slice that holds it, at the lowest index free there (log 9). -/
def placeRecs (others : List PfxEntry) (d : Pfx) (hash : Bool) (es : List PfxEntry) : List PfxEntry :=
  es.foldl (fun done e =>
    let need := d.recSlices hash e
    let kept := e.recs.filter fun x => need.contains x.1
    let recs := (need.filter fun sl => sget (fun _ => 0) kept sl = 0).foldl (fun m sl =>
      sput (fun _ => 0) m sl (1 + lowest (recsOn (others ++ es ++ done) sl))) kept
    done ++ [{ e with recs := recs }]) []

/-! ### The trie image (R118 to R121) -/

/-- Every slice of every copy. -/
def Pfx.allSlices (d : Pfx) : List Nat := (List.range d.ncopy).flatMap d.copySlices

/-- First key that a slice owns and the key past its last (R114). -/
def Pfx.keyRange (d : Pfx) (slice : Nat) : Nat × Nat :=
  let j := slice % d.g
  (j * 2 ^ (128 - d.span), (j + 1) * 2 ^ (128 - d.span))

/-- Entries that a slice holds. -/
def Pfx.heldOn (d : Pfx) (es : List PfxEntry) (slice : Nat) : List PfxEntry :=
  es.filter fun e => (List.range d.ncopy).any fun c => (d.holders c e).contains slice

/-- Places of the nodes of a slice as level and first key: the root, and a node under each slot that an entry lies deeper
than. -/
def Pfx.nodeSpots (d : Pfx) (held : List PfxEntry) : List (Nat × Nat) :=
  held.foldl (fun l e => ((List.range 10).filter fun i => d.stride i ≠ 0 && decide (d.pos i < e.len)).foldl (fun l i =>
    insertNew (i, clip (d.pos i) e.lo) l) l) [(0, 0)]

/-- The lowest run of `n` words that touches no run in use. -/
def freeWords (taken : List (Nat × Nat)) (n : Nat) : Nat :=
  ((0 :: taken.map fun x => x.1 + x.2).filter fun i => taken.all fun x => decide (x.1 + x.2 ≤ i ∨ i + n ≤ x.1)).foldl
    (fun m i => match m with | none => some i | some a => some (min a i)) none |>.getD 0

/-- Runs of words that nodes take in a level of a slice. -/
def nodeRuns (ds : List (Pfx × Table)) (slice l : Nat) : List (Nat × Nat) :=
  ds.flatMap fun x => (x.2.nodes.filter fun n => n.slice = slice && n.level = l).map fun n => (n.index, 2 ^ x.1.stride l)

/-- Nodes of a slice at their spots: an old one stays where it is, a new one takes the lowest free words (log 9). -/
def placeNodes (others : List (Pfx × Table)) (d : Pfx) (tb : Table) (slice : Nat) (spots : List (Nat × Nat)) : List TrieNode :=
  spots.foldl (fun done x =>
    match tb.nodes.find? fun n => n.slice = slice && n.level = x.1 && n.lo = x.2 with
    | some n => done ++ [n]
    | none => done ++ [⟨slice, x.1, x.2,
        freeWords (nodeRuns (others ++ [(d, tb), (d, { Table.none with nodes := done })]) slice x.1) (2 ^ d.stride x.1)⟩]) []

/-- `l` with `x` in its place among rising numbers. -/
def insertRising (x : Nat) : List Nat → List Nat
  | [] => [x]
  | y :: t => if x < y then x :: y :: t else if x = y then y :: t else y :: insertRising x t

/-- The keys at which leaves of a slice may begin or end. -/
def Pfx.cuts (d : Pfx) (held : List PfxEntry) (spots : List (Nat × Nat)) (slice : Nat) : List Nat :=
  let r := d.keyRange slice
  let inside := fun (k : Nat) => decide (r.1 < k ∧ k < r.2)
  ((held.flatMap fun e => [e.lo, e.past]) ++ spots.flatMap fun x => [x.2, x.2 + 2 ^ (128 - d.pos x.1)]).foldl (fun l k =>
    if inside k then insertRising k l else l) [r.1, r.2]

/-- Keys under one slot of the deepest node that a key lies in. -/
def Pfx.leafSize (d : Pfx) (spots : List (Nat × Nat)) (k : Nat) : Nat :=
  let l := spots.foldl (fun m x => if x.2 ≤ k ∧ k < x.2 + 2 ^ (128 - d.pos x.1) then max m x.1 else m) 0
  2 ^ (128 - d.pos (l + 1))

/-- Runs of words that leaves take in level 10 of a slice. -/
def leafRuns (tbs : List Table) (slice : Nat) : List (Nat × Nat) :=
  tbs.flatMap fun tb => (tb.leaves.filter fun r => r.slice = slice).map fun r => (r.index, r.count)

/-- The answer word from which a new one of a key goes on: that of the slice, else that of copy 0. -/
def Table.oldWord (tb : Table) (d : Pfx) (slice k : Nat) : Option AnsWord :=
  ((tb.leavesAt slice k).or (tb.leavesAt (d.owner 0 (k / 2 ^ (128 - d.w))) k)).map Leaves.answer

/-- Leaves of a slice, from one cut to the next; keys that no entry answers for have none. -/
def placeLeaves (others : List Table) (d : Pfx) (tb : Table) (held : List PfxEntry) (spots : List (Nat × Nat)) (b : Edition)
    (slice : Nat) : List Leaves :=
  let cs := d.cuts held spots slice
  (cs.zip (cs.drop 1)).foldl (fun done x =>
    let w := answerOf d.direct held slice (((tb.oldWord d slice x.1).getD AnsWord.blank).base b) x.1
    let n := (x.2 - x.1) / d.leafSize spots x.1
    if !w.answers then done
    else match tb.leaves.find? fun r => r.slice = slice && r.lo = x.1 && r.past = x.2 && r.count = n with
      | some r => done ++ [{ r with answer := w }]
      | none => done ++ [⟨slice, x.1, x.2, n,
          freeWords (leafRuns (others ++ [tb, { Table.none with leaves := done }]) slice) n, w⟩]) []

/-- The trie image of some entries in every copy, over the image that a table has. -/
def trieImage (others : List (Pfx × Table)) (d : Pfx) (tb : Table) (es : List PfxEntry) (b : Edition) :
    List TrieNode × List Leaves :=
  let parts := d.allSlices.map fun sl =>
    let held := d.heldOn es sl
    let spots := d.nodeSpots held
    (placeNodes others d tb sl spots, placeLeaves (others.map Prod.snd) d tb held spots b sl)
  (parts.flatMap Prod.fst, parts.flatMap Prod.snd)

/-- The other prefix tables of the device with their descriptors. -/
def State.otherPfx (s : State) (t : Nat) : List (Pfx × Table) :=
  ((s.view.tablesOf 1).filter (· ≠ t)).map fun u => (s.view.pfx u, s.table u)

/-- A word of a prefix image was written: its contents are not what they were. -/
def pfxWritten (d : Pfx) (old new : Table) (w : MemWord) : Bool :=
  let a := pfxWord w
  let at_ := fun (tb : Table) => tb.cells.find? fun c => groupSlice c.group = w.unit && cellAddr 0 c.group c.bucket c.slot = pfxAddr 0 12 a.2.2
  match w.kind with
  | .trieNode => old.slotWord d w.unit a.2.1 a.2.2 ≠ new.slotWord d w.unit a.2.1 a.2.2
  | .trieAnswer => old.answerWord w.unit a.2.2 ≠ new.answerWord w.unit a.2.2
  | .pfxRecord => recordAt old.entries w.unit a.2.2 ≠ recordAt new.entries w.unit a.2.2
  | .hashCell => if a.2.1 = 12 then at_ old ≠ at_ new
      else (List.range 16).any fun i => sget (fun _ => 0) old.filter (16 * a.2.2 + i) ≠ sget (fun _ => 0) new.filter (16 * a.2.2 + i)
  | _ => false

/-- Replaces a prefix table's images and entries; the words that are written lose their marks (R444). -/
def State.setImages (s : State) (t : Nat) (tb : Table) : State :=
  let old := s.table t
  let d := s.view.pfx t
  let s := s.setTable t tb
  { s with health := { s.health with poison := s.health.poison.filter fun w =>
      !((pfxWord w).1 = t && pfxWritten d old tb w) } }

/-- The entries and images of a table after a write: an image that is kept current follows, a hash image that is not is
released (R134; log 27). `b` is the edition from which a word that holds no change is to be right. -/
def State.pfxImages (s : State) (t : Nat) (es : List PfxEntry) (cells : List Cell) (b : Edition) : Table :=
  let tb := s.table t
  let d := s.view.pfx t
  let others := s.otherPfx t
  let hash := tb.hashKept d.keep
  let es := placeRecs (others.flatMap fun x => x.2.entries) d hash es
  let trie := if tb.trieKept then trieImage others d tb es b else ([], [])
  let cells := if hash then d.answerCells es b cells else []
  { tb with entries := es, nodes := trie.1, leaves := trie.2, cells := cells, filter := d.filterOf cells,
            hashReady := hash && tb.hashReady, hashHeld := hash && tb.hashHeld }

/-! ### The words that a write changes (R125, R126) -/

/-- What stands in one list and not in the other. -/
def differ {α : Type} [DecidableEq α] (a b : List α) : List α := (a.filter fun x => !b.contains x) ++ b.filter fun x => !a.contains x

/-- The slot words of a standing node that a write changes: between two cuts every slot changes or none does (R118). -/
def nodeChanged (d : Pfx) (old new : Table) (n : TrieNode) : Nat :=
  let size := 2 ^ (128 - d.pos (n.level + 1))
  let past := n.lo + size * 2 ^ d.stride n.level
  let ks := ((differ old.leaves new.leaves).filter fun r => r.slice = n.slice).flatMap (fun r => [r.lo, r.past]) ++
    ((differ old.nodes new.nodes).filter fun m => m.slice = n.slice && m.level = n.level + 1).flatMap fun m => [m.lo, m.lo + size]
  let cs := (ks.filter fun k => decide (n.lo < k ∧ k < past ∧ (k - n.lo) % size = 0)).foldl (fun l k => insertRising k l) [n.lo, past]
  ((cs.zip (cs.drop 1)).map fun x =>
    let i := n.index + (x.1 - n.lo) / size
    if old.slotWord d n.slice n.level i = new.slotWord d n.slice n.level i then 0 else (x.2 - x.1) / size).sum

/-- The slot words and records of a slice that a write changes: those of new nodes, the changed ones of nodes that stand, and the
records written or emptied (R118, R119). -/
def pfxLinks (d : Pfx) (old new : Table) (slice : Nat) : Nat :=
  ((new.nodes.filter fun n => n.slice = slice && !old.nodes.contains n).map fun n => 2 ^ d.stride n.level).sum +
  ((new.nodes.filter fun n => n.slice = slice && old.nodes.contains n).map (nodeChanged d old new)).sum +
  (new.entries.filter fun e => sget (fun _ => 0) e.recs slice ≠ 0 && !old.entries.contains e).length +
  (old.entries.filter fun e => sget (fun _ => 0) e.recs slice ≠ 0 && !new.entries.any fun x => x.record = e.record).length

/-- The filter words that a write changes; they stand on slice 0 (R130; log 9). -/
def filterChanged (old new : Table) : Nat :=
  (((old.filter ++ new.filter).filter fun e => sget (fun _ => 0) old.filter e.1 ≠ sget (fun _ => 0) new.filter e.1).foldl
    (fun l e => insertNew (e.1 / 16) l) []).length

/-- The cells of a slice that a write fills, changes or empties. -/
def cellsChanged (old new : Table) (slice : Nat) : List Cell :=
  (new.cells.filter fun c => groupSlice c.group = slice && !old.cells.contains c) ++
    old.cells.filter fun c => groupSlice c.group = slice && !new.cells.any fun x => x.group = c.group && x.key = c.key

/-- The words that a write of a table changes on a slice (R126). -/
def pfxChanged (d : Pfx) (old new : Table) (slice : Nat) : Nat :=
  pfxLinks d old new slice + ((new.leaves.filter fun r => r.slice = slice && !old.leaves.contains r).map Leaves.count).sum +
    (cellsChanged old new slice).length + (if slice = 0 then filterChanged old new else 0)

/-- The ranges of keys of a direct table whose answers a write changes on a slice, in the order in which it reaches their words:
the trie image's by key after its records and subtrees, then the cells (R125; log 101). -/
def lateRanges (d : Pfx) (old new : Table) (slice start : Nat) : List LateRange :=
  let ks := ((differ old.leaves new.leaves).filter fun r => r.slice = slice).flatMap fun r => [r.lo, r.past]
  let cs := ks.foldl (fun l k => insertRising k l) []
  let spots := (new.nodes.filter fun n => n.slice = slice).map fun n => (n.level, n.lo)
  let trie := (cs.zip (cs.drop 1)).foldl (fun (r : List LateRange × Nat) x =>
    let size := d.leafSize spots x.1
    (r.1 ++ [⟨slice, none, x.1, x.2, size, r.2, start⟩], r.2 + (x.2 - x.1) / size)) ([], pfxLinks d old new slice)
  ((cellsChanged old new slice).foldl (fun (r : List LateRange × Nat) c =>
    let size := 2 ^ (128 - d.glen c.group)
    (r.1 ++ [⟨slice, some c.group, c.key.toNat, c.key.toNat + size, size, r.2, start⟩], r.2 + 1)) trie).1

/-! ### Settling (R124) -/

/-- A table's words after those at or before the floor have settled. -/
def Table.settleWords (tb : Table) (f : Edition) : Table :=
  { tb with leaves := (tb.leaves.map fun r => { r with answer := r.answer.settle f }).filter fun r => r.answer.answers,
            cells := tb.cells.map fun c => { c with answer := c.answer.settle f } }

/-- The later of two editions in the window. -/
def edMax (a b : Edition) : Edition := if edLe a b then b else a

/-- The words and the mode switch of a table whose editions have come to the floor settle, and PFX_SETTLED is written when
the last pending word or a switch settles; a switch from HASH without HASH_KEEP releases the hash image (R124, R137). -/
def State.pfxSettle (s : State) (t : Nat) : State :=
  let d := s.view.pfx t
  let tb := s.table t
  let room := (s.view.tbl t).room
  let f := s.floor room
  let sws := tb.pendingSw.map Prod.fst
  let done := sws.filter fun c => edLe c f
  let sw : Option (Bool × Edition) := match tb.switch with
    | .unsettled h e => if edLe e f then some (h, e) else none
    | _ => none
  if (s.view.tbl t).kind ≠ 1 ∨ (done.isEmpty ∧ sw.isNone) then s
  else
    let words := !done.isEmpty && decide (done.length = sws.length)
    let last := match (if words then done else []) with | [] => (sw.map Prod.snd).getD 0 | e :: l => l.foldl edMax e
    let tb := tb.settleWords f
    let tb := match sw with
      | none => tb
      | some (h, _) =>
        let tb := { tb with switch := .none }
        if !h && !d.keep then { tb with cells := [], filter := [], hashReady := false, hashHeld := false } else tb
    let s := s.setImages t tb
    if words || sw.isSome then
      s.record .pfxSettled (some room) hubMaint [(8, t), (16, last.toNat), (8, b2n words + 2 * b2n sw.isSome)]
    else s

/-! ### Selectors (R491) -/

/-- The entries that a selector names: AT the one whose lifetime holds the edition, DEAD those dead at the floor. -/
def State.pfxNamed (s : State) (t room : Nat) (e : PfxEntry) (sel : Nat) (at_ : Edition) : List PfxEntry :=
  let direct := (s.view.pfx t).direct
  (s.table t).entries.filter fun x => x.same e &&
    (if direct then sel = 0
     else if sel = 0 then liveAt false true x.rset x.first x.retiring at_
     else x.rset && edLe x.retiring (s.floor room))

/-- A DELETE that names an entry dead at the floor waits until every word with SW at or before it has settled
(R122). -/
def State.deleteWaits (s : State) (t room : Nat) (e : PfxEntry) (sel : Nat) (at_ : Edition) : Bool :=
  let f := s.floor room
  !(s.view.pfx t).direct && ((s.pfxNamed t room e sel at_).any fun x => x.rset && edLe x.retiring f) &&
    (s.table t).pendingSw.any fun c => edLe c.1 f

end Sys2Proof.Machine
end

