-- ==== Sys2Proof/Machine/Placement.lean ====
section
/-! DEFINITION. Ternary entries as table commands carry them, and the rows that they take (R89 to R92, R173 to R175). -/

namespace Sys2Proof.Machine

/-! ### Images (R173 to R175) -/

/-- An entry word (R173). -/
structure EntryWord where
  prio : Nat
  first : Edition
  retiring : Edition
  rset : Bool
  valid : Bool
  ptr : Nat
  plen : Nat
  deriving DecidableEq, Repr

def entryWord (g : Granule) : EntryWord :=
  ⟨fld g 127 104, BitVec.ofNat 16 (fld g 103 88), BitVec.ofNat 16 (fld g 87 72), nbit g.toNat 71, nbit g.toNat 70,
    fld g 69 48, fld g 47 45⟩

def EntryWord.image (e : EntryWord) (handle : Nat) : Granule :=
  granule [(24, e.prio), (16, e.first.toNat), (16, e.retiring.toNat), (1, b2n e.rset), (1, b2n e.valid), (22, e.ptr),
    (3, e.plen), (23, 0), (22, handle)]

/-- Key granules of an entry of `k` atoms (R171). -/
def keyGranules (k : Nat) : Nat := cdiv (160 * k) 128

/-- VALUE and MASK of an entry as numbers of 80k bits, position 0 the most significant (R174). -/
def keyOf (k : Nat) (gs : List Granule) : Nat × Nat :=
  let x := ofBytesBE ((gs.take (keyGranules k)).flatMap granuleBytes) / 2 ^ (128 * keyGranules k - 160 * k)
  (x / 2 ^ (80 * k), x % 2 ^ (80 * k))

/-- The key granules of VALUE and MASK (R174). -/
def keyImage (k value mask : Nat) : List Granule :=
  granulesOf (keyGranules k)
    (bytesBE (16 * keyGranules k) ((value * 2 ^ (80 * k) + mask) * 2 ^ (128 * keyGranules k - 160 * k)))

/-- Atom `a` of an entry (R71, R72). -/
def atomOf (k value mask a : Nat) : BitVec 160 :=
  BitVec.ofNat 160 (sliceAt value (80 * k) (80 * a) 80 * 2 ^ 80 + sliceAt mask (80 * k) (80 * a) 80)

/-- A replica descriptor (R175). -/
structure RepDesc where
  use : Bool
  isOpen : Bool
  index : Nat
  bay : Nat
  row : Nat
  reserved : Nat
  deriving DecidableEq, Repr

/-- The eight replica descriptors of two placement granules (R175). -/
def repDescs (gs : List Granule) : List RepDesc :=
  (List.range 8).map fun n =>
    let w := fld (gs.getD (n / 4) 0) (127 - 32 * (n % 4)) (96 - 32 * (n % 4))
    ⟨nbit w 31, nbit w 30, bits w 29 24, bits w 23 18, bits w 17 8, bits w 7 0⟩

/-! ### Placement (R89 to R92) -/

/-- A selector position of an entry: don't-care, or the care value (R89). -/
def selBit (d : Trn) (value mask i : Nat) : Option Bool :=
  let p := d.selpos.getD i 0
  let v := sliceAt value (80 * d.k) p 1
  let m := sliceAt mask (80 * d.k) p 1
  if m = 1 then some (v = 1) else if v = 1 then some false else none

/-- Selector values that agree with an entry outside its don't-care positions (R89). -/
def selectors (d : Trn) (value mask : Nat) : List Nat :=
  (List.range d.selpos.length).foldl (fun l i =>
    match selBit d value mask i with
    | some b => l.map (· + b2n b * 2 ^ i)
    | none => l ++ l.map (· + 2 ^ i)) [0]

/-- B(x): the buckets of an entry, ascending (R89). -/
def bucketsOf (d : Trn) (value mask : Nat) : List Nat :=
  let bs := (selectors d value mask).map (bucketOf d)
  (List.range d.nbkt).filter bs.contains

/-- A row is free: its side word is empty in every copy that has a bay there (R91; a copy without one counts as free, log 107). -/
def State.rowFree (s : State) (d : Trn) (r : Replica) : Bool :=
  (List.range d.ncopy).all fun c =>
    match s.view.phys (d.copies.getD c 0 + r.bay) with
    | some b => fld (s.sideWord (rowKey b (d.mat r.index) r.row)) 95 94 = 0
    | none => true

/-- The lowest free bay and row of a bucket or open set (R91). -/
def State.freePlace (s : State) (d : Trn) (index : Nat) : Option Replica :=
  (List.range d.g).findSome? fun j =>
    ((List.range 1024).find? fun r => s.rowFree d ⟨index, j, r⟩).map fun r => ⟨index, j, r⟩

/-- The lowest free place of the open sets (R91). -/
def State.freeOpen (s : State) (d : Trn) : Option Replica :=
  (List.range d.nopen).findSome? fun o => s.freePlace d (d.nbkt + o)

/-- The rows that the device chooses for an entry, or the status of R92 (R91). -/
def State.choose (s : State) (d : Trn) (value mask : Nat) : Except Nat (List Replica) :=
  let bs := bucketsOf d value mask
  if bs.length ≤ d.rmax then
    let rs := bs.filterMap (s.freePlace d)
    if rs.length = bs.length then .ok rs else .error 0x20
  else if 0 < d.nopen then
    match s.freeOpen d with
    | some r => .ok [r]
    | none => .error 0x21
  else .error 0x22

/-- The replicas that descriptors in use name, with OPEN as bucket numbers from NBKT on. -/
def namedReps (d : Trn) (ds : List RepDesc) : List Replica :=
  (ds.filter (·.use)).map fun r => ⟨if r.isOpen then d.nbkt + r.index else r.index, r.bay, r.row⟩

/-- The handle of a replica of copy 0 (R169). -/
def handleOf (d : Trn) (r : Replica) : Nat := pack [(6, d.copies.getD 0 0 + r.bay), (6, d.mat r.index), (10, r.row)]

end Sys2Proof.Machine
end

