-- ==== Sys2Proof/Machine/TableCmd.lean ====
section
/-! DEFINITION. Table commands: the maintenance queues and the start of a command (R181 to R183, R199, R242), TABLE_FRAME,
ALLOC and FREE. -/

namespace Sys2Proof.Machine

/-! ### The start of a command (R183, R242) -/

/-- The head of a queue, with the commands before it: the first that has not started and does not wait for a rebuild
(R183, R200). -/
def headOf (waits : MqCmd → Bool) : List MqCmd → List MqCmd → Option (List MqCmd × MqCmd)
  | _, [] => none
  | before, c :: t => if c.started || waits c then headOf waits (before ++ [c]) t else some (before, c)

/-- A command waits for the remap of a bay of its table (R200). -/
def State.rebuildHolds (s : State) (c : MqCmd) : Bool :=
  let h := c.hdr
  h.onTable && (s.view.tbl h.table).kind = 0 && (s.table h.table).rebuildWait

/-- The head of a room's queue. -/
def State.head (s : State) (room : Nat) : Option (List MqCmd × MqCmd) := headOf s.rebuildHolds [] (s.queue room)

/-- A prefix DELETE of an entry dead at the floor starts only once the words concerned have settled (R122). -/
def State.settledFor (s : State) (c : MqCmd) : Bool :=
  let h := c.hdr
  !((s.view.tbl h.table).kind = 1 && h.op = opDelete &&
    s.deleteWaits h.table h.room (pfxEntryOf c.body) (bits h.addr 31 30) (BitVec.ofNat 16 h.addr))

/-! #### The limits of R199 -/

/-- Cycles from one operation to the next that the limits of a kind leave on one die, and on the device: 125 M, 25 M and
125 M a second on a die, 500 M, 100 M and 500 M on the device (R126, R153, R199; log 83). -/
def dieSpacing (kind : Nat) : Nat := if kind = 1 then 100 else 20
def deviceSpacing (kind : Nat) : Nat := if kind = 1 then 25 else 5

/-- The first cycle in which a limit admits an operation: of a die, or with 7 of the device. -/
def State.limitAt (s : State) (kind die : Nat) : Nat := sget (fun _ => 0) s.arb.limits (8 * kind + die)

/-- The limits of a kind admit an operation on a die now. -/
def State.admits (s : State) (kind die : Nat) : Bool :=
  decide (s.limitAt kind die ≤ s.now ∧ s.limitAt kind 7 ≤ s.now)

/-- The first cycle, not before now, in which the limits of a kind admit an operation on a die. -/
def State.portTime (s : State) (kind die : Nat) : Nat := max s.now (max (s.limitAt kind die) (s.limitAt kind 7))

/-- `n` operations of a kind on a die count against its limits from the first cycle on in which these admit one. -/
def State.spend (s : State) (kind die n : Nat) : State :=
  if n = 0 then s
  else
    let t := s.portTime kind die
    let m := sput (fun _ => 0) s.arb.limits (8 * kind + die) (t + n * dieSpacing kind)
    { s with arb := { s.arb with limits := sput (fun _ => 0) m (8 * kind + 7) (t + n * deviceSpacing kind) } }

/-- The logical bay of the row that a ternary command writes first: a new entry's replica 0, or the row that its handle names
(R184, R199). -/
def State.firstBay (s : State) (c : MqCmd) (d : Trn) : Nat :=
  let h := c.hdr
  let bay := fun (rs : List Replica) => match rs with | r :: _ => d.copies.getD 0 0 + r.bay | [] => d.copies.headD 0
  if h.op = opInsert then
    let kv := keyOf d.k (c.body.drop 1)
    match s.choose d kv.1 kv.2 with
    | .ok rs => bay rs
    | .error _ => d.copies.headD 0
  else if h.op = opWrite ∧ h.placed then bay (namedReps d (repDescs (c.body.drop (1 + keyGranules d.k))))
  else if h.op = opMove ∧ !d.direct then bay (namedReps d (repDescs c.body))
  else h.addr / 65536 % 64

/-- Kind and die of the first operation of a command that writes a table: it writes copy 0 first (R184, R199). -/
def State.firstDie (s : State) (c : MqCmd) : Option (Nat × Nat) :=
  let h := c.hdr
  let v := s.view
  if !(v.tbl h.table).present || !h.onTable || h.op = opRead || h.op = opScan then none
  else match (v.tbl h.table).kind with
    | 0 => some (0, dieOfUnit (s.firstBay c (v.trn h.table)))
    | 1 => some (1, ((v.pfx h.table).holders 0 (pfxEntryOf c.body)).headD 0)
    | 2 => some (2, if h.byaddr then bits h.addr 22 21 else (v.em h.table).owner 0 ((v.em h.table).bodyKey c.body))
    | _ => none

/-- The limits admit the first operation of a command (R199). -/
def State.limitsAdmit (s : State) (c : MqCmd) : Bool :=
  match s.firstDie c with
  | some x => s.admits x.1 x.2
  | none => true

/-! #### Start slots -/

/-- The head command of a room can start (R183, R199, R200). -/
def State.canStart (s : State) (room : Nat) : Bool :=
  match s.head room with
  | none => false
  | some (before, c) =>
    let h := c.hdr
    if h.onTable then
      before.all (fun b => b.hdr.onTable && b.hdr.table ≠ h.table) && s.settledFor c && s.limitsAdmit c
    else before.isEmpty

/-- The arbiter after an arbitration point that grants room `r` (R242). -/
def Arbiter.granted (a : Arbiter) (r burst : Nat) (can : Nat → Bool) : Arbiter :=
  { a with holder := some r, started := 1, burst := burst, lastHolder := some r,
           passed := (List.range 16).foldl (fun m x =>
             if x = r then sput (fun _ => 0) m x 0
             else if can x then sput (fun _ => 0) m x (sget (fun _ => 0) m x + 1) else m) a.passed }

/-- MQ_PRIO of a room at an arbitration point now: a write in this cycle does not yet count (R243). -/
def State.prioNow (s : State) (r : Nat) : Nat :=
  let was := sget (fun _ => 0) s.arb.prioWas r
  if s.arb.prioAt = s.now ∧ was ≠ 0 then was - 1 else s.reg .mqPrio r

/-- The room that the present start slot grants, with the state after the grant: the holder's burst goes on only in the slot that
follows its previous start (R242). -/
def State.grant (s : State) : Option (State × Nat) :=
  let a := s.arb
  let cont := match a.holder with
    | some h => if decide (a.started < a.burst ∧ s.now = a.nextAt) && s.canStart h then some h else none
    | none => none
  match cont with
  | some h => some ({ s with arb := { a with started := a.started + 1 } }, h)
  | none =>
    match arbitrate a s.prioNow s.canStart with
    | none => none
    | some (r, passed) =>
      let s' := { s with arb := a.granted r (s.reg .mqBurst r) s.canStart }
      some (if passed then s'.bump .mqPassed r else s', r)

/-- The machine at its next start slot, with what has come to its end by then complete; there is a slot every 2 cycles
("Maintenance turns", R242). -/
def State.atSlot (s : State) : State := (s.at (s.arb.nextAt + 2 * cdiv (s.now - s.arb.nextAt) 2)).catchUp

/-- A start slot: when the head that is granted has one of the operations `ops`, it starts and `run` gives its effect; with
no head that can start, no room holds the grant any longer; otherwise this slot starts nothing of them (R183, R242). -/
def State.startSlot (s : State) (ops : List Nat) (run : MqCmd → State → State) : State :=
  match s.atSlot.grant with
  | none => { s with arb := { s.arb with holder := none } }
  | some (s', room) =>
    match s'.head room with
    | none => s
    | some (_, c) =>
      if ops.contains c.hdr.op then
        let c := { c with started := true }
        run c (({ s' with arb := { s'.arb with nextAt := s'.now + 2 } }).setCmd c)
      else s

/-- A started READ or SCAN waits for a maintenance slot in which it reads at a place (R166, R178). -/
def State.readNext (s : State) (c : MqCmd) (cursor : Nat) (found : List (Nat × List Granule)) : State :=
  s.setCmd { c with cursor := some cursor, found := found }

/-! ### Queueing (R181, R323) -/

/-- LEVEL of a port (R322): 0 Public to 3 Keeper. -/
def State.portLevel (s : State) (p : Nat) : Nat := bits (s.view.obj .portAuth p) 31 30

/-- A port acts for a room (R323). -/
def State.portActs (s : State) (p room : Nat) : Bool :=
  let l := s.portLevel p
  decide (2 ≤ l) || (l = 1 && nbit (s.view.obj .portAuth p) room)

/-- PORT_AUTH_REJECT (R323). -/
def State.authReject (s : State) (p room ty ctag : Nat) : State :=
  s.record .portAuthReject (some room) (srcPort p) [(8, ty), (8, s.portLevel p), (16, ctag)]

/-- A room's maintenance queue is full (R181). -/
def State.queueFull (s : State) (room : Nat) : Bool := decide (512 ≤ (s.queue room).length)

/-- The place of a source among the commands of one cycle (R181). -/
def CmdSrc.order : CmdSrc → Nat
  | .port p => p
  | _ => 32

/-- A command joins a queue behind every command but those of its own cycle that come after it (R181). -/
def joinQueue (c : MqCmd) : List MqCmd → List MqCmd
  | [] => [c]
  | x :: t => if x.came = c.came && !x.started && decide (c.src.order < x.src.order) then c :: x :: t else x :: joinQueue c t

/-- Queues a command (R181). -/
def State.enqueue (s : State) (room : Nat) (f : Frame) (src : CmdSrc) : State :=
  let c : MqCmd := ⟨s.arb.nextId, room, f, src, s.now, false, none, [], [], [], [], [], [], none⟩
  let s := { s with arb := { s.arb with nextId := s.arb.nextId + 1 } }
  s.setQueue room (joinQueue c (s.queue room))

/-- A command that finds its queue full is answered QUEUE_FULL on its path and counted (R180, R181). -/
def State.turnAway (s : State) (room : Nat) (f : Frame) (src : CmdSrc) : State :=
  let s := s.bump .mqFull room
  let t := tcomp (tabHdr f.hdr) 0x55 true false 0 0 0 []
  match src with
  | .port p => s.send1 p t
  | _ => s.replyReg room 0x55 t

/-- The command that a full queue gives up for one of the same cycle that goes before it: the last of those behind it (R181). A
write of ED_ADVANCE, whose response has gone, is not given up (log 99). -/
def State.displaced (s : State) (room : Nat) (src : CmdSrc) : Option MqCmd :=
  ((s.queue room).filter fun x =>
    x.came = s.now && !x.started && decide (src.order < x.src.order) && !decide (x.src = .catalogue)).getLast?

/-- A command arrives at its room's queue (R181). -/
def State.submit (s : State) (room : Nat) (f : Frame) (src : CmdSrc) : State :=
  if !s.queueFull room then s.enqueue room f src
  else match s.displaced room src with
    | some x => ((s.dequeue room x.id).turnAway room x.frame x.src).enqueue room f src
    | none => s.turnAway room f src

/-- TABLE_FRAME (R181, R323): the frame is taken into its room's queue, or refused with PORT_ROOM or QUEUE_FULL. It
waits in the receive buffer while the port's outbound queue is full (R276). -/
def execTableFrame (port : Fin 32) (frame : Frame) (s : State) : Host.Outcome State Fault Refusal :=
  let h := tabHdr frame.hdr
  if s.heldFrame port 1 frame then .next (s.bump .portHeldDrop port)
  else if s.outFull port then .next s
  else
    let s := (s.takeRx port 1 frame).completeDue
    if !s.portActs port h.room then
      .next ((s.authReject port h.room 4 h.ctag).send1 port (tcomp h 0x5C true false 0 0 0 []))
    else .next (s.submit h.room frame (.port port))

/-! ### Checks 1 to 4 of pool operations and ADVANCE (R182) -/

/-- R493's bits that the operation does not use are zero. -/
def TabHdr.plain (h : TabHdr) : Bool := !h.reserved && !h.byaddr && !h.placed && h.addr = 0

/-- Checks 1 to 3 of ALLOC and FREE (R182, R211, R493). A command-register image of another room is not owned by
ROOM. -/
def State.poolStatusOf (s : State) (c : MqCmd) : Option Nat :=
  let h := c.hdr
  let w := (c.body.headD 0)
  let n := h.table % 64
  let resv := fld w 122 122 ≠ 0 ∨ fld w 83 0 ≠ 0
  if !h.plain ∨ h.aux ≠ 0 ∨ 64 ≤ h.table ∨ c.body.length ≠ 1 ∨ resv ∨
      (h.op = opFree ∧ (fld w 125 124 ≠ 0 ∨ nbit w.toNat 123)) then some 0x53
  else if !(s.view.pool n).present then some 0x51
  else if (s.view.pool n).room ≠ h.room ∨ c.room ≠ h.room then some 0x52
  else none

/-- Runs a pool operation (R206, R212, R213). -/
def runPool (op : State → Nat → PoolWord → State × Nat × Nat) (c : MqCmd) (s : State) : State :=
  match s.poolStatusOf c with
  | some st => s.refuse c st 0
  | none =>
    let r := op s (c.hdr.table % 64) (poolWord (c.body.headD 0))
    if r.2.1 = 0 then r.1.answer c (reply 0 r.2.2) else r.1.refuse c r.2.1 r.2.2

/-- ALLOC (R212) at a start slot. -/
def execAlloc (s : State) : Host.Outcome State Fault Refusal := .next (s.startSlot [opAlloc] (runPool State.doAlloc))

/-- FREE (R213) at a start slot; it ends its cycle, so that nothing of that cycle comes after it (R234; log 84). -/
def execFree (s : State) : Host.Outcome State Fault Refusal :=
  .next (s.startSlot [opFree] fun c s => let s := runPool State.doFree c s; s.at (s.now + 1))

/-! ### Checks 1 to 5 of commands on tables -/

/-- The generic part of check 1: reserved header bits, and the bits of R493 that an operation without a form in the
kind leaves unused. -/
def TabHdr.noForm (h : TabHdr) : Bool := h.plain && h.aux = 0

/-- Dies of a table's copies and images (R182 check 5): every one for a write, copy 0 for READ and SCAN. -/
def State.tableDies (s : State) (t : Nat) (writes : Bool) : List Nat :=
  let v := s.view
  let tb := s.table t
  match (v.tbl t).kind with
  | 0 => (if writes then (v.trn t).allBays else (v.trn t).bays 0).map dieOfUnit
  | 1 =>
    let d := v.pfx t
    (if writes then (List.range d.ncopy).flatMap d.copySlices else d.copySlices 0) ++
      (if writes && tb.hashHeld then
        (List.range d.groups.length).map (· % 4) else [])
  | 2 =>
    let d := v.em t
    if writes then (List.range d.ncopy).flatMap d.copySlices else d.copySlices 0
  | _ => []

/-- Operations of R169 that a kind has. -/
def kindHas (kind op : Nat) : Bool :=
  decide (1 ≤ op ∧ op ≤ 6) && !(kind = 1 && op = opMove) && decide (kind ≤ 2)

/-- Checks 1 to 5 of R182 for a command on a table; `bad` is the kind's own frame check. An image whose ROOM is not that of its
register set fails check 3 (log 111). -/
def State.tableStatus (s : State) (c : MqCmd) (bad : Bool) : Option Nat :=
  let h := c.hdr
  let t := s.view.tbl h.table
  if h.reserved || bad then some 0x53
  else if !t.present then some 0x51
  else if t.room ≠ h.room ∨ c.room ≠ h.room then some 0x52
  else if !kindHas t.kind h.op then some 0x50
  else if (s.tableDies h.table (!(h.op = opRead || h.op = opScan))).any s.dieHeld then some 0x59
  else none

end Sys2Proof.Machine
end

