-- ==== Sys2Proof/Machine/Ternary.lean ====
section
/-! DEFINITION. Table commands on ternary tables (R89 to R93, R169 to R178, R184 to R189) and the row operations that
carry them out. -/

namespace Sys2Proof.Machine

/-! ### Images (R173 to R176) -/

/-- Placement granules of the replicas of an entry (R175, R178). -/
def placementImage (d : Trn) (rs : List Replica) : List Granule :=
  let ws := rs.map fun r =>
    pack [(1, 1), (1, b2n (d.nbkt ≤ r.index)), (6, if d.nbkt ≤ r.index then r.index - d.nbkt else r.index), (6, r.bay),
      (10, r.row), (8, 0)]
  [granule ((List.range 4).map fun i => (32, ws.getD i 0)), granule ((List.range 4).map fun i => (32, ws.getD (i + 4) 0))]

/-- A ternary or prefix SCAN parameter word (R176). -/
structure ScanWord where
  by_ : Nat
  start : Nat
  maxrec : Nat
  reserved : Nat
  deriving DecidableEq, Repr

def scanWord (g : Granule) : ScanWord := ⟨fld g 127 126, fld g 125 94, fld g 93 82, fld g 81 64⟩

/-- The SCAN word has a reserved encoding (R176). -/
def ScanWord.bad (w : ScanWord) : Bool := w.by_ = 3 || w.maxrec = 0 || w.reserved ≠ 0

/-- Reserved bits of an entry word are set (R173). -/
def entryBad (g : Granule) : Bool := fld g 44 22 ≠ 0

/-- The frame breaks R171, R172, R173, R175, R176 or R493 for a ternary table. -/
def trnBad (d : Trn) (h : TabHdr) (body : List Granule) : Bool :=
  let n := 1 + body.length
  let nk := keyGranules d.k
  let resvRep := fun (gs : List Granule) => (repDescs gs).any fun r => r.reserved ≠ 0
  if h.op = opInsert then !h.noForm || n ≠ 2 + nk || entryBad (body.headD 0)
  else if h.op = opWrite then
    h.byaddr == h.placed || h.aux ≠ 0 || entryBad (body.headD 0) ||
      (if h.byaddr then n ≠ 2 + nk || decide (2 ^ 22 ≤ h.addr) else n ≠ 4 + nk || h.addr ≠ 0 || resvRep (body.drop (1 + nk)))
  else if h.op = opRead ∨ h.op = opDelete then n ≠ 1 || h.placed || decide (2 ^ 22 ≤ h.addr) || h.aux ≠ 0
  else if h.op = opMove then !h.placed || n ≠ 3 || decide (2 ^ 22 ≤ h.addr) || h.aux ≠ 0 || resvRep body
  else if h.op = opScan then !h.noForm || n ≠ 2 || (scanWord (body.headD 0)).bad
  else !h.noForm

/-! ### Placement (R89 to R92) -/

/-- The status of host-named rows (R92, R175), with `own` the rows that the entry moved already holds. -/
def State.namedStatus (s : State) (d : Trn) (value mask : Nat) (ds : List RepDesc) (own : List Replica) : Option Nat :=
  let used := ds.filter (·.use)
  let bs := bucketsOf d value mask
  let rs := namedReps d ds
  let outside := used.any fun r =>
    decide (d.g ≤ r.bay) || (if r.isOpen then decide (d.nopen ≤ r.index) else !bs.contains r.index)
  let opens := used.filter (·.isOpen)
  let setOk :=
    (ds.map (·.use)) = (List.replicate used.length true ++ List.replicate (8 - used.length) false) &&
      (if opens.isEmpty then used.map (·.index) = bs && decide (bs.length ≤ 8) else used.length = 1 && opens.length = 1)
  if outside then some 0x23
  else if !setOk then some 0x24
  else if rs.any fun r => !own.contains r && !s.rowFree d r then some 0x25
  else none

/-! ### Entries -/

/-- The entry at a handle (R169). -/
def State.entryAt (s : State) (t : Nat) (d : Trn) (handle : Nat) : Option (List Replica) :=
  (s.table t).placed.find? fun rs => (rs.head?.map fun r => handleOf d r) = some handle

/-- Side word of a replica as a copy holds it. -/
def State.repSide (s : State) (d : Trn) (c : Nat) (r : Replica) : Side :=
  match s.view.phys (d.copies.getD c 0 + r.bay) with
  | some b => sideOf (s.sideWord (rowKey b (d.mat r.index) r.row))
  | none => sideOf 0

/-- The copy that READ and SCAN read: the first whose bay for a replica is mapped (R178; log 109). -/
def State.readCopy (s : State) (d : Trn) (r : Replica) : Nat :=
  ((List.range d.ncopy).find? fun c => (s.view.phys (d.copies.getD c 0 + r.bay)).isSome).getD 0

/-- VALUE and MASK of an entry, from the shadow store (R178). -/
def State.shadowKey (s : State) (d : Trn) (r : Replica) : Nat × Nat :=
  let l := d.copies.getD (s.readCopy d r) 0 + r.bay
  (List.range d.k).foldl (fun acc a =>
    let x := (sget (fun _ => (0 : BitVec 160)) s.bays.shadow (rowKey l (d.mat r.index + a) r.row)).toNat
    (acc.1 * 2 ^ 80 + x / 2 ^ 80, acc.2 * 2 ^ 80 + x % 2 ^ 80)) (0, 0)

/-- The entry word that a side word stands for (R173). -/
def Side.entry (x : Side) : EntryWord := ⟨x.prio, x.first, x.retiring, x.rset, x.valid, x.ptr, x.plen⟩

/-- A head side word of replica `n` (R74). -/
def EntryWord.side (e : EntryWord) (k n : Nat) : BitVec 96 :=
  Side.image ⟨1, widthCode k, e.valid, e.rset, e.prio, e.first, e.retiring, e.ptr, e.plen, n⟩

/-- The continuation side word (R74). -/
abbrev contSide : BitVec 96 := BitVec.ofNat 96 (2 * 2 ^ 94)

/-! ### Row operations (R184) -/

/-- Carries out a maintenance operation on a row: atom and shadow together, and the side word (R93, R184). A logical bay
without a physical bay takes the shadow alone (log 26). -/
def State.rowOp (s : State) (o : RowOp) : State :=
  let sk := rowKey o.lbay o.mat o.row
  let i := o.mat * 1024 + o.row
  let s := match o.atom with
    | some a =>
      let s := ({ s with bays := { s.bays with shadow := sput (fun _ => 0) s.bays.shadow sk a } }).cleanse .shadow o.lbay i
      match s.view.phys o.lbay with
      | some b => { s with bays := { s.bays with atoms := sput (fun _ => 0) s.bays.atoms (rowKey b o.mat o.row) a } }
      | none => s
    | none => s
  match o.side, s.view.phys o.lbay with
  | some w, some b =>
    ({ s with bays := { s.bays with sides := sput (fun _ => 0) s.bays.sides (rowKey b o.mat o.row) w } }).cleanse .side b i
  | _, _ => s

/-- One step of an entry's operations in every copy: copies in order, replicas in order (R184). -/
def stepOps (d : Trn) (c : Nat) (rs : List Replica) (f : Nat → Replica → Option (BitVec 160) × Option (BitVec 96))
    (a : Nat) : List RowOp :=
  (rs.zip (List.range rs.length)).map fun e =>
    let x := f e.2 e.1
    ⟨d.copies.getD c 0 + e.1.bay, d.mat e.1.index + a, e.1.row, x.1, x.2⟩

/-- Continuation atoms 1 to k − 1 from the highest, as `f` gives them. -/
def contOps (d : Trn) (c : Nat) (rs : List Replica)
    (f : Nat → Option (BitVec 160) × Option (BitVec 96)) : List RowOp :=
  (List.range (d.k - 1)).flatMap fun i => stepOps d c rs (fun _ _ => f (i + 1)) (i + 1)

/-- New rows: continuations, then the heads (R184). -/
def newOps (d : Trn) (rs : List Replica) (e : EntryWord) (value mask c : Nat) : List RowOp :=
  contOps d c rs (fun a => (some (atomOf d.k value mask a), some contSide)) ++
    stepOps d c rs (fun n _ => (some (atomOf d.k value mask 0), some (e.side d.k n))) 0

/-- Heads emptied (R184). -/
def emptyHeads (d : Trn) (rs : List Replica) (c : Nat) : List RowOp := stepOps d c rs (fun _ _ => (none, some 0)) 0

/-- Continuation side words emptied (R184). -/
def emptyConts (d : Trn) (rs : List Replica) (c : Nat) : List RowOp := contOps d c rs (fun _ => (none, some 0))

/-- Head side words rewritten (R184). -/
def sideOps (d : Trn) (rs : List Replica) (e : EntryWord) (c : Nat) : List RowOp :=
  stepOps d c rs (fun n _ => (none, some (e.side d.k n))) 0

/-- The copies one after another (R184). -/
def inCopies (d : Trn) (f : Nat → List RowOp) : List RowOp := (List.range d.ncopy).flatMap f

/-! ### The checks of the kind (R186 to R189, R490) -/

/-- Later than current (R186). -/
def State.later (s : State) (room : Nat) (e : Edition) : Bool := edLe (s.current room + 1) e

/-- The edition rules of a new entry (R186). -/
def State.newEdition (s : State) (room : Nat) (rset : Bool) (first retiring : Edition) : Option Nat :=
  let cur := s.current room
  if !s.later room first then some 0x33
  else if 4096 < (first - cur).toNat then some 0x56
  else if rset && (!edLe (first + 1) retiring || decide (4096 < (retiring - cur).toNat)) then some 0x5A
  else none

/-- The edition rules of a rewrite that may change only RSET and RETIRING (R187). -/
def State.rewriteEdition (s : State) (room : Nat) (oldSet : Bool) (oldRet : Edition) (newSet : Bool) (newRet : Edition) :
    Option Nat :=
  if oldSet && !(newSet && newRet = oldRet) && !s.later room oldRet then some 0x27
  else if newSet && !(oldSet && newRet = oldRet) && !s.later room newRet then some 0x33
  else none

/-- An entry may be deleted (R189). -/
def State.deletable (s : State) (room : Nat) (direct rset : Bool) (first retiring : Edition) : Bool :=
  direct || s.later room first || (rset && edLe retiring (s.floor room))

/-- The pointer check of a rewrite: the limit on COUNT binds only a new reference (R217, R219). -/
def State.pointerStatus (s : State) (room : Nat) (old : Option (Nat × Nat)) (ptr plen : Nat) : Option Nat :=
  match s.ptrCheck s.view room ptr (plen + 1) with
  | some 0x64 => if (old.map (·.1)) = some ptr then none else some 0x64
  | r => r

/-! ### The commands -/

/-- A ternary command that passed its checks: its operations wait for maintenance slots. -/
def State.beginOps (s : State) (c : MqCmd) (ops : List RowOp) (drops : List Nat) (adds dels : List (List Replica))
    (result : Nat) : State :=
  let c := { c with ops := ops, drops := drops, adds := adds, dels := dels,
                    reply := (reply 0 result).tcomps c.hdr }
  if ops.isEmpty then s.complete c (reply 0 result) else s.setCmd c

/-- A failed ternary write: PLACE_FAIL when R92 names the status, and its reply (R92, R182). -/
def State.failTrn (s : State) (c : MqCmd) (status result : Nat) : State :=
  let h := c.hdr
  let s := if 0x20 ≤ status ∧ status ≤ 0x26 then
      s.record .placeFail (some h.room) hubMaint [(8, h.table), (8, status), (8, h.op), (16, h.ctag)] else s
  s.refuse c status result

/-- INSERT of a ternary entry (R91, R184, R186). -/
def trnInsert (c : MqCmd) (s : State) (d : Trn) : State :=
  let h := c.hdr
  let e := entryWord (c.body.headD 0)
  let kv := keyOf d.k (c.body.drop 1)
  let st := if !d.direct then s.newEdition h.room e.rset e.first e.retiring else none
  match st, s.ptrCheck s.view h.room e.ptr (e.plen + 1) with
  | some x, _ => s.failTrn c x 0
  | none, some x => s.failTrn c x 0
  | none, none =>
    match s.choose d kv.1 kv.2 with
    | .error x => s.failTrn c x 0
    | .ok rs =>
      (s.addRef e.ptr).beginOps c (inCopies d (newOps d rs e kv.1 kv.2)) [] [rs] []
        (match rs with | r :: _ => handleOf d r | [] => 0)

/-- WRITE of a new entry at host-named rows (R92, R172, R186). -/
def trnPlace (c : MqCmd) (s : State) (d : Trn) : State :=
  let h := c.hdr
  let e := entryWord (c.body.headD 0)
  let kv := keyOf d.k (c.body.drop 1)
  let ds := repDescs (c.body.drop (1 + keyGranules d.k))
  let st := if !d.direct then s.newEdition h.room e.rset e.first e.retiring else none
  let rs := namedReps d ds
  match st, s.namedStatus d kv.1 kv.2 ds [], s.ptrCheck s.view h.room e.ptr (e.plen + 1) with
  | some x, _, _ => s.failTrn c x 0
  | none, some x, _ => s.failTrn c x 0
  | none, none, some x => s.failTrn c x 0
  | none, none, none =>
    (s.addRef e.ptr).beginOps c (inCopies d (newOps d rs e kv.1 kv.2)) [] [rs] []
      (match rs with | r :: _ => handleOf d r | [] => 0)

/-- The positions of new atoms at an entry's own rows (R92). -/
def rewriteStatus (d : Trn) (rs : List Replica) (value mask : Nat) : Option Nat :=
  let bs := bucketsOf d value mask
  let held := rs.map (·.index)
  if held.any fun i => decide (d.nbkt ≤ i) then none
  else if held.any fun i => !bs.contains i then some 0x23
  else if bs.any fun b => !held.contains b then some 0x24
  else none

/-- WRITE at the handle (R92, R184, R187, R216). -/
def trnRewrite (c : MqCmd) (s : State) (d : Trn) (rs : List Replica) (r0 : Replica) : State :=
  let h := c.hdr
  let e := entryWord (c.body.headD 0)
  let kv := keyOf d.k (c.body.drop 1)
  let old := (s.repSide d (s.readCopy d r0) r0).entry
  let okv := s.shadowKey d r0
  let same := kv = okv
  let handle := h.addr
  if !d.direct then
    let fixed := same && e.prio = old.prio && e.first = old.first && e.ptr = old.ptr && e.plen = old.plen
    let st := if !fixed then some 0x27 else s.rewriteEdition h.room old.rset old.retiring e.rset e.retiring
    match st, s.pointerStatus h.room (some (old.ptr, old.plen)) e.ptr e.plen with
    | some x, _ => s.failTrn c x handle
    | none, some x => s.failTrn c x handle
    | none, none => s.beginOps c (inCopies d (sideOps d rs { e with valid := old.valid })) [] [] [] handle
  else
    let pos := if same then none else rewriteStatus d rs kv.1 kv.2
    match pos, s.pointerStatus h.room (some (old.ptr, old.plen)) e.ptr e.plen with
    | some x, _ => s.failTrn c x handle
    | none, some x => s.failTrn c x handle
    | none, none =>
      let moved := decide (e.ptr ≠ old.ptr ∨ classOf (e.plen + 1) ≠ classOf (old.plen + 1))
      let s := if moved then s.addRef e.ptr else s
      let ops := if same then inCopies d (sideOps d rs e)
        else if d.k = 1 then inCopies d (newOps d rs e kv.1 kv.2)
        else inCopies d fun i => emptyHeads d rs i ++ newOps d rs e kv.1 kv.2 i
      s.beginOps c ops (if moved then [old.ptr] else []) [] [] handle

/-- DELETE of a ternary entry (R184, R189). -/
def trnDelete (c : MqCmd) (s : State) (d : Trn) (rs : List Replica) (r0 : Replica) : State :=
  let h := c.hdr
  let old := (s.repSide d (s.readCopy d r0) r0).entry
  if !s.deletable h.room d.direct old.rset old.first old.retiring then s.failTrn c 0x54 h.addr
  else s.beginOps c (inCopies d fun i => emptyHeads d rs i ++ emptyConts d rs i) [old.ptr] [] [rs] 0

/-- MOVE of a ternary entry dest host-named rows (R92, R184, R188, R216). -/
def trnMove (c : MqCmd) (s : State) (d : Trn) (rs : List Replica) (r0 : Replica) : State :=
  let h := c.hdr
  let old := (s.repSide d (s.readCopy d r0) r0).entry
  let kv := s.shadowKey d r0
  let ds := repDescs c.body
  let new := namedReps d ds
  let dest := match new with | r :: _ => handleOf d r | [] => 0
  if !d.direct && old.rset then s.failTrn c 0x27 h.addr
  else
    match s.namedStatus d kv.1 kv.2 ds (if d.direct then rs else []) with
    | some x => s.failTrn c x h.addr
    | none =>
      if d.direct then
        let gone := rs.filter fun r => !new.contains r
        s.beginOps c (inCopies d fun i => emptyHeads d rs i ++ newOps d new old kv.1 kv.2 i ++ emptyConts d gone i) []
          [new] [rs] dest
      else if s.ptrCheck s.view h.room old.ptr (old.plen + 1) = some 0x64 then s.failTrn c 0x64 h.addr
      else
        let cur := s.current h.room
        (s.addRef old.ptr).beginOps c (inCopies d fun i =>
          newOps d new { old with first := cur + 1 } kv.1 kv.2 i ++
            sideOps d rs { old with rset := true, retiring := cur + 1 } i) [] [new] [] dest

/-- READ of a ternary entry: what a write of it would carry, and where it lies (R178). -/
def trnRead (c : MqCmd) (s : State) (d : Trn) (rs : List Replica) (r0 : Replica) : State :=
  let e := (s.repSide d (s.readCopy d r0) r0).entry
  let kv := s.shadowKey d r0
  s.answer c ⟨0, 0, false,
    [(0, e.image c.hdr.addr :: (keyImage d.k kv.1 kv.2 ++ placementImage d rs))]⟩

/-! ### SCAN (R166, R176, R178) -/

/-- An entry is reported (R176); in a direct table DEAD and PENDING report nothing. -/
def State.scanMatch (s : State) (room by_ : Nat) (direct rset : Bool) (first retiring : Edition) : Bool :=
  if by_ = 0 then true
  else if direct then false
  else if by_ = 1 then rset && edLe retiring (s.floor room)
  else s.later room first || (rset && s.later room retiring)

/-- Entries of a ternary table by handle, ascending. -/
def State.byHandle (s : State) (t : Nat) (d : Trn) : List (Nat × List Replica) :=
  ((s.table t).placed.filterMap fun rs => rs.head?.map fun r => (handleOf d r, rs)).insertionSort fun a b => a.1 ≤ b.1

/-- Cuts records into frames of at most `per` records each, at least one frame (R178). -/
def cutFrames (per : Nat) : Nat → List (List Granule) → List (Nat × List Granule)
  | 0, rs => [(rs.length, rs.flatten)]
  | n + 1, rs =>
    if rs.length ≤ per then [(rs.length, rs.flatten)]
    else (per, (rs.take per).flatten) :: cutFrames per n (rs.drop per)

/-- The records that a walk returns at most: MAXREC, on the command-register path cut to those that fit in one image of `per`
(R180). -/
def walkMax (reg : Bool) (maxrec per : Nat) : Nat := if reg then min maxrec per else maxrec

/-- The reply of a walk that found some records, each with its cursor. `next` is the cursor after the last one, none at the
end of the table (R166, R178). -/
def walkReply (per : Nat) (next : Option Nat) (found : List (Nat × List Granule)) : Reply :=
  ⟨0, next.getD 0, next.isNone, cutFrames per found.length (found.map Prod.snd)⟩

/-- A walk goes on: it is at an end when nothing is left in the table or it has `n` records; else its next read is at the
cursor that `next` gives (R166). -/
def State.walkOn (s : State) (c : MqCmd) (n per : Nat) (next : Option Nat) (found : List (Nat × List Granule)) : State :=
  match next with
  | none => s.answer c (walkReply per none found)
  | some x => if n ≤ found.length then s.answer c (walkReply per (some x) found) else s.readNext c x found

/-- Records of a ternary SCAN that fit in one frame (R178). -/
def trnPer (d : Trn) : Nat := 15 / (1 + keyGranules d.k)

/-- The first head of a ternary table at or after a handle (R166, R176). -/
def State.headFrom (s : State) (t : Nat) (d : Trn) (cur : Nat) : Option (Nat × List Replica) :=
  (s.byHandle t d).find? fun x => decide (cur ≤ x.1)

/-- Where a walk of a ternary table goes on: after the heads before `cur`. -/
def State.trnFrom (s : State) (t : Nat) (d : Trn) (cur : Nat) : Option Nat := (s.headFrom t d cur).map fun _ => cur

/-- SCAN of a ternary table starts (R176). -/
def trnScan (c : MqCmd) (s : State) (d : Trn) : State :=
  let w := scanWord (c.body.headD 0)
  s.walkOn c (walkMax (c.src = .reg) w.maxrec (trnPer d)) (trnPer d) (s.trnFrom c.hdr.table d w.start) []

/-- The record of an entry, when the SCAN reports it (R176, R178). -/
def State.trnRecord (s : State) (d : Trn) (room by_ : Nat) (x : Nat × List Replica) : Option (List Granule) :=
  match x.2 with
  | [] => none
  | r0 :: _ =>
    let e := (s.repSide d (s.readCopy d r0) r0).entry
    if s.scanMatch room by_ d.direct e.rset e.first e.retiring then
      let kv := s.shadowKey d r0
      some (e.image x.1 :: keyImage d.k kv.1 kv.2)
    else none

/-- A READ or SCAN of a ternary table reads one head in a maintenance slot of its bay (R166, R178). -/
def trnVisit (c : MqCmd) (cur : Nat) (s : State) (d : Trn) : State :=
  let h := c.hdr
  if h.op = opRead then
    match s.entryAt h.table d h.addr with
    | some (r0 :: t) => trnRead c s d (r0 :: t) r0
    | _ => s.refuse c 0x5B h.addr
  else
    let w := scanWord (c.body.headD 0)
    match s.headFrom h.table d cur with
    | none => s.answer c (walkReply (trnPer d) none c.found)
    | some x =>
      let found := match s.trnRecord d h.room w.by_ x with | some r => c.found ++ [(x.1, r)] | none => c.found
      s.walkOn c (walkMax (c.src = .reg) w.maxrec (trnPer d)) (trnPer d) (s.trnFrom h.table d (x.1 + 1)) found

/-- The logical bay in which a READ or SCAN of a ternary table reads next: that of the head in copy 0. -/
def State.trnUnits (s : State) (c : MqCmd) (cur : Nat) (d : Trn) : List Nat :=
  if c.hdr.op = opRead then [c.hdr.addr / 65536]
  else match s.headFrom c.hdr.table d cur with
    | some x => [x.1 / 65536]
    | none => [d.copies.headD 0]

/-- A command on a ternary table (R169, R182, R490). -/
def trnCommand (c : MqCmd) (s : State) : State :=
  let h := c.hdr
  let d := s.view.trn h.table
  match s.tableStatus c (trnBad d h c.body) with
  | some st => s.refuse c st 0
  | none =>
    let writes := !(h.op = opRead || h.op = opScan)
    if writes ∧ !(s.table h.table).filling.isEmpty then s.failTrn c 0x26 0
    else if h.op = opInsert then trnInsert c s d
    else if h.op = opWrite ∧ h.placed then trnPlace c s d
    else if h.op = opScan then trnScan c s d
    else
      match s.entryAt h.table d h.addr with
      | some (r0 :: t) =>
        if h.op = opWrite then trnRewrite c s d (r0 :: t) r0
        else if h.op = opRead then s.readNext c 0 []
        else if h.op = opDelete then trnDelete c s d (r0 :: t) r0
        else trnMove c s d (r0 :: t) r0
      | _ => s.refuse c 0x5B h.addr

/-! ### Carrying out the operations (R184, R198) -/

/-- The running ternary command whose next operation lies on a logical bay, when the limits of R199 admit one there. -/
def State.opOn (s : State) (bay : Nat) : Option (MqCmd × RowOp × List RowOp) :=
  if !s.admits 0 (dieOfUnit bay) then none
  else (List.range 16).findSome? fun room => (s.queue room).findSome? fun c =>
    match c.ops with
    | o :: t => if c.started && o.lbay = bay then some (c, o, t) else none
    | [] => none

/-- A side word that a command writes into the head of an edition entry keeps a clamp that came since the command began: it reads
the word that the clamp wrote (R193, R200). -/
def Side.after (x cur : Side) : Side :=
  if cur.role = 1 ∧ x.role = 1 ∧ cur.first ≠ x.first then
    { x with first := cur.first, retiring := if x.rset && edLe x.retiring cur.first then cur.first else x.retiring }
  else x

/-- The operation that a command on a table makes now (R200). -/
def State.freshOp (s : State) (t : Nat) (o : RowOp) : RowOp :=
  match o.atom, o.side, s.view.phys o.lbay with
  | none, some w, some b =>
    if (s.view.trn t).direct then o
    else { o with side := some ((sideOf w).after (sideOf (s.sideWord (rowKey b o.mat o.row)))).image }
  | _, _, _ => o

/-- A running command carries out its next operation; after the last it completes (R183, R184). -/
def State.runOp (s : State) (c : MqCmd) (o : RowOp) (rest : List RowOp) : State :=
  let s := (s.rowOp (s.freshOp c.hdr.table o)).spend 0 (dieOfUnit o.lbay) 1
  let c := { c with ops := rest }
  let s := s.setCmd c
  if rest.isEmpty then s.complete c c.held else s

/-! ### Filling appended copies (R82) -/

/-- Row operations that fill a bay of a copy from copy 0: every row of an entry there, with its place in the order of the fill, which
writes the continuations of a bay before its heads (R76, R82); the atom comes from the shadow store and the side word from the
first copy whose bay is mapped. -/
def State.fillRows (s : State) (d : Trn) (copy : Nat) (rs : List Replica) : List (Nat × RowOp) :=
  rs.flatMap fun r => (List.range d.k).map fun a =>
    let m := d.mat r.index + a
    let c := s.readCopy d r
    let side := match s.view.phys (d.copies.getD c 0 + r.bay) with
      | some b => s.sideWord (rowKey b m r.row)
      | none => 0
    let atom := sget (fun _ => 0) s.bays.shadow (rowKey (d.copies.getD 0 0 + r.bay) m r.row)
    ((if a = 0 then 36864 else 0) + m * 1024 + r.row, ⟨d.copies.getD copy 0 + r.bay, m, r.row, some atom, some side⟩)

/-- Rows that a table's fill has still to write on a logical bay. -/
def State.fillLeft (s : State) (t l : Nat) : List (Nat × RowOp) :=
  let d := s.view.trn t
  let tb := s.table t
  let from_ := sget (fun _ => 0) tb.fillPos l
  (tb.filling.filter fun c => (d.bays c).contains l).flatMap fun c =>
    tb.placed.flatMap fun rs => (s.fillRows d c rs).filter fun x => x.2.lbay = l && decide (from_ ≤ x.1)

/-- A fill waits while a bay of the table is being rebuilt or an earlier command still writes. -/
def State.fillHeld (s : State) (t : Nat) : Bool :=
  (s.table t).rebuildWait || (s.queue (s.view.tbl t).room).any fun c => c.started && !c.ops.isEmpty && c.hdr.table = t

/-- The table being filled on a logical bay with the next row in the order of the bay. -/
def State.fillOn (s : State) (l : Nat) : Option (Nat × Nat × RowOp) :=
  (s.view.tablesOf 0).findSome? fun t =>
    if s.fillHeld t then none
    else ((s.fillLeft t l).foldl (fun m x =>
      match m with | none => some x | some y => if x.1 < y.1 then some x else some y) none).map fun x => (t, x.1, x.2)

/-- One row of a fill (R82). -/
def State.runFill (s : State) (t p : Nat) (o : RowOp) : State :=
  let s := s.rowOp o
  s.setTable t { s.table t with fillPos := sput (fun _ => 0) (s.table t).fillPos o.lbay (p + 1) }

end Sys2Proof.Machine
end

