-- ==== Sys2Proof/Machine/Prefix.lean ====
section
/-! DEFINITION. The prefix engine's commands: INSERT, WRITE, READ, DELETE and SCAN on prefix tables (R115 to R123, R186,
R187, R189, R490, R491), settling (R124, R137), mode requests and builds (R134 to R138). -/

namespace Sys2Proof.Machine

/-- The frame breaks R116, R171, R176, R491 or R493 for a prefix table. -/
def pfxBad (d : Pfx) (h : TabHdr) (body : List Granule) : Bool :=
  let entry := body.length ≠ 2 || pfxEntryBad body
  let sel := bits h.addr 31 30
  if h.op = opInsert then !h.noForm || entry
  else if h.op = opWrite ∨ h.op = opRead ∨ h.op = opDelete then
    entry || h.byaddr || h.placed || h.aux ≠ 0 || bits h.addr 29 16 ≠ 0 || decide (2 ≤ sel) ||
      (sel = 1 && h.op ≠ opDelete) || ((d.direct || sel = 1) && bits h.addr 15 0 ≠ 0)
  else if h.op = opScan then !h.noForm || body.length ≠ 1 || (scanWord (body.headD 0)).bad
  else !h.noForm

/-- Stores the entries and cells of a table after a write of `e`, in every copy and image that is kept current. Each slice, that of
copy 0 which owns `e` first, makes an update for each started group of 64 words, the owner at least one, when the limits admit
it; with the state goes the cycle of the last one, and what lookups in a direct table read until then (R125, R126, R134). -/
def State.pfxStore (s : State) (t : Nat) (e : PfxEntry) (es : List PfxEntry) (cells : List Cell) : State × Nat :=
  let d := s.view.pfx t
  let old := s.table t
  let tb := s.pfxImages t es cells (s.current (s.view.tbl t).room)
  let own := (d.holders 0 e).headD 0
  let r := (own :: [0, 1, 2, 3].filter (· ≠ own)).foldl (fun (r : State × List LateRange × Nat) sl =>
    let n := cdiv (pfxChanged d old tb sl) 64
    let n := if sl = own then max 1 n else n
    if n = 0 then r
    else
      let t0 := r.1.portTime 1 sl
      (r.1.spend 1 sl n, r.2.1 ++ (if d.direct then lateRanges d old tb sl t0 else []), max r.2.2 (t0 + (n - 1) * dieSpacing 1)))
    (s, [], s.now)
  let late := old.late.filter fun m => decide (s.now ≤ m.last + compareLen)
  let late := if r.2.1.isEmpty then late
    else late ++ [⟨r.2.1, r.2.2, old.entries, old.nodes, old.leaves, old.cells, old.filter⟩]
  (r.1.setImages t { tb with late := late }, r.2.2)

/-- The cells after entries are added or changed, or none when a bucket pair is full (R129). -/
def State.cellsFor (s : State) (t : Nat) (e : PfxEntry) : Option (List Cell) :=
  let tb := s.table t
  let d := s.view.pfx t
  if tb.hashKept d.keep then d.cellsWith tb.cells e else some tb.cells

/-- Replaces the entry with the record of `e`. -/
def putEntry (e : PfxEntry) (es : List PfxEntry) : List PfxEntry := es.map fun x => if x.record = e.record then e else x

/-- The edition rules of a new prefix entry (R122, R186). -/
def State.pfxNewEdition (s : State) (room : Nat) (e : PfxEntry) : Option Nat :=
  if e.rset && !s.later room e.retiring then some 0x33 else s.newEdition room e.rset e.first e.retiring

/-- The marks of an entry's records go when the host writes it again (R138). -/
def State.cleanseRec (s : State) (t : Nat) (e : PfxEntry) : State :=
  e.recs.foldl (fun s x => s.cleanse .pfxRecord x.1 (pfxAddr t 11 (x.2 - 1))) s

/-- A new entry is stored and takes its reference (R125, R216). -/
def State.pfxAdd (s : State) (c : MqCmd) (e : PfxEntry) (es : List PfxEntry) (cells : List Cell) : State :=
  let r := (s.addRef e.ptr).pfxStore c.hdr.table e es cells
  r.1.finishAt c r.2 [] 0

/-- INSERT of a prefix entry. -/
def pfxInsert (c : MqCmd) (s : State) (d : Pfx) : State :=
  let h := c.hdr
  let t := h.table
  let es := (s.table t).entries
  let e := { pfxEntryOf c.body with record := freeRec es }
  if d.w < e.len then s.refuse c 0x34 0
  else if d.direct then
    match es.find? e.same with
    | some old =>
      match s.pointerStatus h.room (some (old.ptr, old.plen)) e.ptr e.plen with
      | some x => s.refuse c x 0
      | none =>
        let moved := decide (e.ptr ≠ old.ptr)
        let s := if moved then s.addRef e.ptr else s
        let r := s.pfxStore t e (putEntry { e with record := old.record, recs := old.recs } es) (s.table t).cells
        (r.1.cleanseRec t old).finishAt c r.2 (if moved then [old.ptr] else []) 0
    | none =>
      match s.ptrCheck s.view h.room e.ptr (e.plen + 1), s.cellsFor t e with
      | some x, _ => s.refuse c x 0
      | none, cells =>
        if s.pfxFull d e then s.refuse c 0x30 0
        else match cells with
          | none => s.refuse c 0x31 0
          | some cells => s.pfxAdd c e (es ++ [e]) cells
  else
    match s.pfxNewEdition h.room e with
    | some x => s.refuse c x 0
    | none =>
      if es.any fun x => e.same x && e.overlaps x then s.refuse c 0x35 0
      else match s.ptrCheck s.view h.room e.ptr (e.plen + 1) with
        | some x => s.refuse c x 0
        | none =>
          if s.pfxPending t e (es ++ [e]) es then s.refuse c 0x32 0
          else if s.pfxFull d e then s.refuse c 0x30 0
          else match s.cellsFor t e with
            | none => s.refuse c 0x31 0
            | some cells => s.pfxAdd c e (es ++ [e]) cells

/-- The edition rules of a WRITE in an edition table (R122, R187), in the order of R490. -/
def State.pfxRewrite (s : State) (room : Nat) (old e : PfxEntry) : Option Nat :=
  let changed := decide (e.rset ≠ old.rset) || (e.rset && decide (e.retiring ≠ old.retiring))
  if changed && ((old.rset && !s.later room old.retiring) || (e.rset && !s.later room e.retiring)) then some 0x33
  else if e.first ≠ old.first ∨ e.ptr ≠ old.ptr ∨ e.plen ≠ old.plen then some 0x27
  else none

/-- The record that READ and SCAN read: on the first slice of copy 0 that holds the entry. -/
def Pfx.slot (d : Pfx) (e : PfxEntry) : Nat × Nat := let sl := (d.holders 0 e).headD 0; (sl, e.recIdx sl)

/-- The record of an entry is uncorrectable (R138). -/
def State.recLost (s : State) (t : Nat) (d : Pfx) (e : PfxEntry) : Bool :=
  s.poisoned .pfxRecord (d.slot e).1 (pfxAddr t 11 (d.slot e).2)

/-- WRITE of the prefix entry that AT names. -/
def pfxWrite (c : MqCmd) (s : State) (d : Pfx) : State :=
  let h := c.hdr
  let t := h.table
  let es := (s.table t).entries
  let w := pfxEntryOf c.body
  match s.pfxNamed t h.room w 0 (BitVec.ofNat 16 h.addr) with
  | [] => s.refuse c 0x5B 0
  | old :: _ =>
    let e := { w with record := old.record, recs := old.recs, valid := if d.direct then w.valid else old.valid }
    if d.w < w.len then s.refuse c 0x34 0
    else
      let st := if d.direct then none
        else match s.pfxRewrite h.room old e with
          | some x => some x
          | none => if es.any fun x => x.record ≠ e.record && e.same x && e.overlaps x then some 0x35 else none
      match st, s.pointerStatus h.room (some (old.ptr, old.plen)) e.ptr e.plen with
      | some x, _ => s.refuse c x 0
      | none, some x => s.refuse c x 0
      | none, none =>
        let after := putEntry e es
        let others := if old.rset then putEntry { old with rset := false } es else es
        if !d.direct && s.pfxPending t e after others then s.refuse c 0x32 0
        else
          let moved := decide (e.ptr ≠ old.ptr)
          let s := if moved then s.addRef e.ptr else s
          let r := s.pfxStore t e after (s.table t).cells
          (r.1.cleanseRec t e).finishAt c r.2 (if moved then [old.ptr] else []) 0

/-- READ of the prefix entry that AT names starts (R178). -/
def pfxRead (c : MqCmd) (s : State) (d : Pfx) : State :=
  let h := c.hdr
  let w := pfxEntryOf c.body
  match s.pfxNamed h.table h.room w 0 (BitVec.ofNat 16 h.addr) with
  | [] => s.refuse c 0x5B 0
  | _ :: _ => if d.w < w.len then s.refuse c 0x34 0 else s.readNext c 0 []

/-- DELETE of the prefix entries that a selector names (R189, R491). -/
def pfxDelete (c : MqCmd) (s : State) (d : Pfx) : State :=
  let h := c.hdr
  let t := h.table
  let sel := bits h.addr 31 30
  let es := (s.table t).entries
  let w := pfxEntryOf c.body
  let gone := s.pfxNamed t h.room w sel (BitVec.ofNat 16 h.addr)
  if sel = 0 && gone.isEmpty then s.refuse c 0x5B 0
  else if d.w < w.len then s.refuse c 0x34 0
  else if gone.any fun x => !s.deletable h.room d.direct x.rset x.first x.retiring then s.refuse c 0x54 0
  else
    let after := es.filter fun x => !gone.contains x
    let ahead := gone.any fun x => s.later h.room x.first
    if !d.direct && ahead && s.pfxPending t w after after then s.refuse c 0x32 0
    else
      let r := s.pfxStore t w after (d.cellsOf (s.table t).cells after)
      r.1.finishAt c r.2 (gone.map (·.ptr)) (if sel = 1 then gone.length else 0)

/-- The cursor of an entry in a walk of the records of copy 0 (R176; log 9). -/
def Pfx.cursor (d : Pfx) (e : PfxEntry) : Nat := (d.slot e).1 * 2 ^ 22 + (d.slot e).2

/-- The entry whose record comes first at or after a cursor. -/
def State.recFrom (s : State) (t : Nat) (d : Pfx) (cur : Nat) : Option PfxEntry :=
  ((s.table t).entries.filter fun e => decide (cur ≤ d.cursor e)).foldl (fun m e =>
    match m with
    | none => some e
    | some x => if d.cursor e < d.cursor x then some e else some x) none

/-- Where a walk of a prefix table goes on: after the records before `cur`. -/
def State.pfxFrom (s : State) (t : Nat) (d : Pfx) (cur : Nat) : Option Nat := (s.recFrom t d cur).map fun _ => cur

/-- SCAN of a prefix table starts (R176). -/
def pfxScan (c : MqCmd) (s : State) (d : Pfx) : State :=
  let w := scanWord (c.body.headD 0)
  s.walkOn c (walkMax (c.src = .reg) w.maxrec 7) 7 (s.pfxFrom c.hdr.table d w.start) []

/-- A READ or SCAN of a prefix table reads one record in a maintenance slot of its slice (R138, R166, R178): a SCAN passes
an uncorrectable record by (log 54). -/
def pfxVisit (c : MqCmd) (cur : Nat) (s : State) (d : Pfx) : State :=
  let h := c.hdr
  let t := h.table
  if h.op = opRead then
    match s.pfxNamed t h.room (pfxEntryOf c.body) 0 (BitVec.ofNat 16 h.addr) with
    | [] => s.refuse c 0x5B 0
    | e :: _ => if s.recLost t d e then s.refuse c 0x36 0 else s.answer c ⟨0, 0, false, [(0, e.image)]⟩
  else
    let w := scanWord (c.body.headD 0)
    match s.recFrom t d cur with
    | none => s.answer c (walkReply 7 none c.found)
    | some e =>
      let hit := !s.recLost t d e && s.scanMatch h.room w.by_ d.direct e.rset e.first e.retiring
      let found := if hit then c.found ++ [(d.cursor e, e.image)] else c.found
      s.walkOn c (walkMax (c.src = .reg) w.maxrec 7) 7 (s.pfxFrom t d (d.cursor e + 1)) found

/-- The unit of the slice in which a READ or SCAN of a prefix table reads next (R125). -/
def State.pfxReads (s : State) (c : MqCmd) (cur : Nat) (d : Pfx) : List Nat :=
  let h := c.hdr
  let e := if h.op = opRead then (s.pfxNamed h.table h.room (pfxEntryOf c.body) 0 (BitVec.ofNat 16 h.addr)).head?
    else s.recFrom h.table d cur
  [64 + (match e with | some e => (d.slot e).1 | none => d.slices.headD 0)]

/-- A command on a prefix table (R169, R182, R490); what has come to the floor settles before it (R124). -/
def pfxCommand (c : MqCmd) (s : State) : State :=
  let h := c.hdr
  let d := s.view.pfx h.table
  match s.tableStatus c (pfxBad d h c.body) with
  | some st => s.refuse c st 0
  | none =>
    let s := s.pfxSettle h.table
    if h.op = opInsert then pfxInsert c s d
    else if h.op = opWrite then pfxWrite c s d
    else if h.op = opRead then pfxRead c s d
    else if h.op = opDelete then pfxDelete c s d
    else pfxScan c s d

/-! ### Settling (R124, R137) -/

/-- PFX_SETTLE (R124, R137). -/
def execPfxSettle (table : Fin 256) (s : State) : Host.Outcome State Fault Refusal := .next (s.catchUp.pfxSettle table)

/-! ### Mode requests and builds (R135, R136, R138) -/

/-- Both modes of a table are served for every enabled program that names it (R138). -/
def State.bothServed (s : State) (t : Nat) : Bool :=
  let v := s.view
  let tb := { s.table t with switch := .requested true }
  (v.enabledSlots s.guar.shed).all fun p => (v.lkps p).all fun i => (v.lkp p i).table ≠ t ||
    (lanePorts v s.heldDies p).all fun n => (reached v.phases n).all fun phi =>
      served v.rotaFn v tb s.guar.lost t n i phi

/-- The trie image is complete in every copy (R134). -/
def Table.trieComplete (tb : Table) : Bool := tb.trieReady && tb.filling.isEmpty

/-- A build runs: of an image, or of an appended copy (R113, R134). -/
def Table.isBuilding (tb : Table) : Bool := tb.buildingTrie || tb.buildingHash || !tb.filling.isEmpty

/-- The image of a mode is complete, and it is being built (R134, R135). -/
def Table.ready (tb : Table) (hash : Bool) : Bool := if hash then tb.hashReady else tb.trieComplete
def Table.building (tb : Table) (hash : Bool) : Bool :=
  if hash then tb.buildingHash else tb.buildingTrie || !tb.filling.isEmpty

/-- The abort code of a write to PFX_MODE_REQ (R135, R138, R387); a request for the mode in force is answered 0, READY or not
(log 108). -/
def State.pfxModeCode (s : State) (t v : Nat) : Nat :=
  let tb := s.table t
  let hash := decide (v % 2 = 0)
  if v = 0 ∨ 4 < v ∨ !(s.view.tbl t).present ∨ (s.view.tbl t).kind ≠ 1 then Ab.range
  else if tb.switch ≠ .none then Ab.modeBusy
  else if v ≤ 2 then (if tb.ready hash || tb.building hash then Ab.modeBusy else 0)
  else if tb.hash = hash then 0
  else if !tb.ready hash then Ab.modeNotReady
  else if !s.bothServed t then Ab.modeRota
  else 0

/-- The cells of a hash image under build, as far as they find a place (R129, R135; log 28). -/
def Pfx.buildCells (d : Pfx) (es : List PfxEntry) : List Cell :=
  es.foldl (fun cells e => (d.cellsWith cells e).getD cells) []

/-- The images of a table with the one under build written from its entries: words that hold no change are right from
the floor on (R135). -/
def State.buildImage (s : State) (t : Nat) (hash : Bool) : Table :=
  let tb := s.table t
  let d := s.view.pfx t
  let f := s.floor (s.view.tbl t).room
  let others := s.otherPfx t
  let es := placeRecs (others.flatMap fun x => x.2.entries) d (hash || tb.hashKept d.keep) tb.entries
  if hash then
    let cells := d.answerCells es f (d.buildCells es)
    { tb with entries := es, cells := cells, filter := d.filterOf cells, buildingHash := true, hashHeld := true }
  else
    let im := trieImage others d { tb with leaves := tb.leaves.map fun r => { r with answer := AnsWord.blank } } es f
    { tb with entries := es, nodes := im.1, leaves := im.2, buildingTrie := true }

/-- The effect of an accepted write to PFX_MODE_REQ. -/
def State.pfxModeApply (s : State) (t v : Nat) : State :=
  let tb := s.table t
  let hash := decide (v % 2 = 0)
  if v ≤ 2 then s.setImages t (s.buildImage t hash)
  else if tb.hash = hash then s
  else s.setTable t { tb with switch := .requested hash }

/-- Slices whose units the present charges exceed (R115, R138). -/
def State.overSlices (s : State) : List Nat :=
  [0, 1, 2, 3].filter fun sl =>
    decide (2097152 < ((s.view.tablesOf 1).map fun t => pfxUnits (s.view.pfx t) (s.table t) sl).sum)

/-- Slices of the groups with a cell that found no place in the build (log 28). -/
def State.unplaced (s : State) (t : Nat) : List Nat :=
  let d := s.view.pfx t
  let tb := s.table t
  (List.range d.groups.length).filterMap fun i =>
    if (d.inGroup tb.entries i).all fun e => (d.cellKeys e).all fun k =>
        tb.cells.any fun c => c.group = i && c.key.toNat = k then none else some (i % 4)

/-- Trie banks that an image of a table needs: its slices and used levels (R452). -/
def Pfx.banks (d : Pfx) : List (Nat × Nat) :=
  let levels := ((List.range 10).filter fun l => d.strides.getD l 0 ≠ 0) ++ [10, 11]
  ((List.range d.ncopy).flatMap d.copySlices).flatMap fun sl => levels.map fun l => (sl, l)

/-- Slices on which the image under build cannot be held: its units are exceeded, or its cells find no place. -/
def State.buildOver (s : State) (t : Nat) (hash : Bool) : List Nat :=
  let d := s.view.pfx t
  let mine := if hash then (List.range d.groups.length).map (· % 4) else (List.range d.ncopy).flatMap d.copySlices
  (s.overSlices.filter mine.contains) ++ (if hash then s.unplaced t else [])

/-- Slices on which the trie image under build needs a bank beyond repair, or one under test. -/
def State.buildDead (s : State) (t : Nat) (hash : Bool) : List Nat :=
  if hash then [] else ((s.view.pfx t).banks.filter fun b => s.pfx.dead.contains b).map Prod.fst

def State.buildWaits (s : State) (t : Nat) (hash : Bool) : Bool :=
  !hash && (s.view.pfx t).banks.any fun b => s.pfx.testing.contains b

/-- Clears the marks of the words of a table's image that a build has written anew (R444). -/
def State.cleanseImage (s : State) (t : Nat) (hash : Bool) : State :=
  { s with health := { s.health with poison := s.health.poison.filter fun w =>
      !((if hash then w.kind == .hashCell else w.kind == .trieNode || w.kind == .trieAnswer) && (pfxWord w).1 = t) } }

/-- Some leaf or cell of an image under build would have to change at more than one edition, so that the build goes on until
one of them has settled (log 87). -/
def State.buildTwice (s : State) (t : Nat) (hash : Bool) : Bool :=
  let d := s.view.pfx t
  let tb := s.table t
  let f := s.floor (s.view.tbl t).room
  let many := fun (es : List PfxEntry) (k : Nat) => decide (1 < (changes es f k).length)
  !d.direct && (if hash then tb.cells.any fun c => many (d.inGroup tb.entries c.group) c.key.toNat
    else tb.leaves.any fun r => many tb.entries r.lo)

/-- PFX_BUILD_DONE (R135): the image under build is complete. TRIE_FAULT clears when the trie has been built again (log 88). -/
def execPfxBuildDone (image : PfxImage) (s : State) : Host.Outcome State Fault Refusal :=
  let t := image.table.val
  let hash := image.hash
  if !(if hash then (s.table t).buildingHash else (s.table t).buildingTrie) then .next s
  else
    let s := s.catchUp.pfxSettle t
    if !(s.buildOver t hash).isEmpty || !(s.buildDead t hash).isEmpty || s.buildWaits t hash || s.buildTwice t hash then .next s
    else
      let tb := s.pfxImages t (s.table t).entries (s.table t).cells (s.floor (s.view.tbl t).room)
      let s := s.setImages t (if hash then { tb with buildingHash := false, hashReady := true }
        else { tb with buildingTrie := false, trieReady := true, trieFault := false })
      .next ((s.cleanseImage t hash).record .pfxBuildDone (some (s.view.tbl t).room) hubMaint [(8, t), (8, b2n hash)])

/-- PFX_BUILD_FAIL (R138, R452): the build stops and its partial image is released. -/
def execPfxBuildFail (image : PfxImage) (bank : Bool) (slice : Fin 4) (s : State) : Host.Outcome State Fault Refusal :=
  let t := image.table.val
  let hash := image.hash
  let tb := s.table t
  let due := if bank then (s.buildDead t hash).contains slice.val else (s.buildOver t hash).contains slice.val
  if !(if hash then tb.buildingHash else tb.buildingTrie) || !due then .next s
  else
    let s := s.setImages t
      (if hash then { tb with buildingHash := false, cells := [], filter := [], hashHeld := false }
       else { tb with buildingTrie := false, nodes := [], leaves := [] })
    .next (s.record .pfxBuildFail (some (s.view.tbl t).room) hubMaint
      [(8, t), (8, b2n hash), (8, if bank then 2 else 1), (8, slice.val)])

/-- A requested switch takes its edition at the advance of a table's room (R136). -/
def State.pfxAdvance (s : State) (room : Nat) (e : Edition) : State :=
  (s.view.tablesOf 1).foldl (fun s t =>
    if (s.view.tbl t).room ≠ room then s
    else match (s.table t).switch with
      | .requested h =>
        (s.setTable t { s.table t with switch := .unsettled h e, hash := h }).record .pfxMode (some room) hubMaint
          [(8, t), (8, b2n h), (16, e.toNat)]
      | _ => s) s

/-- PENDING of PFX_STATE: the words with SWSET = 1 (R134). -/
def State.pfxPendingCount (s : State) (t : Nat) : Nat := satTo 24 ((s.table t).pendingSw.map Prod.snd).sum

/-- PFX_STATE (R134). -/
def State.pfxState (s : State) (t : Nat) : Nat :=
  let tb := s.table t
  pack [(1, b2n tb.hash), (1, b2n tb.trieComplete), (1, b2n tb.hashReady), (1, b2n (decide (tb.switch ≠ .none))),
    (1, b2n tb.isBuilding), (1, b2n tb.trieFault), (2, 0), (24, s.pfxPendingCount t)]

end Sys2Proof.Machine
end

