-- ==== Sys2Proof/Machine/Exact.lean ====
section
/-! DEFINITION. The exact-match engine: table commands (R155, R165 to R167), learning, weeding and notices (R156 to
R161), the stamp clock and the stamp sweeper (R162, R163). -/

namespace Sys2Proof.Machine

/-! ### Words (R143 to R145) -/

/-- A head slot (R143). -/
def EmDesc.head (d : EmDesc) (valid static learnt : Bool) (data k : Nat) : BitVec 128 :=
  BitVec.ofNat 128 (pack [(1, b2n valid), (1, b2n static), (1, b2n learnt), (5, 0), (24, data), (96, sliceAt k d.w 0 96)])

/-- A tail slot (R144). -/
def EmDesc.tail (d : EmDesc) (k : Nat) : BitVec 128 := BitVec.ofNat 128 (sliceAt k d.w 96 128)

/-! ### The update ports (R153, R154) -/

/-- One update on the owner slice of each copy, in copy order and each when the limits admit it: the slices with their cycles
(R153, R154). -/
def State.emTimes (s : State) (d : EmDesc) (k : Nat) : State × List (Nat × Nat) :=
  (List.range d.ncopy).foldl (fun (r : State × List (Nat × Nat)) c =>
    let sl := d.owner c k
    (r.1.spend 2 sl 1, r.2 ++ [(sl, r.1.portTime 2 sl)])) (s, [])

/-- The cycle of the last of some updates. -/
def State.lastOf (s : State) (w : List (Nat × Nat)) : Nat := (w.map Prod.snd).foldl max s.now

/-- A slot is written in cycle `t`; reads up to then find what it held (R153). -/
def State.putEmSlot (s : State) (j t : Nat) (x : BitVec 128) : State :=
  let sl := j / 2097152
  let late := (s.em.late.filter fun w => decide (s.now ≤ w.due)) ++ [⟨j, t, s.emSlot j, s.poisoned .emSlot sl j⟩]
  ({ s with em := { s.em with slots := sput (fun _ => 0) s.em.slots j x, late := late } }).cleanse .emSlot sl j

/-- Writes the head, and with `tail` the tail, of a position on the slices and in the cycles of some updates (R147, R154). -/
def State.emPut (s : State) (d : EmDesc) (w : List (Nat × Nat)) (i : Nat) (head : BitVec 128) (tail : Option (BitVec 128)) :
    State :=
  w.foldl (fun s x =>
    let j := moveSlice i x.1
    let s := s.putEmSlot j x.2 head
    match tail with
    | some t => if d.wide then s.putEmSlot (j + 1) x.2 t else s
    | none => s) s

/-- Stamp writes of hits that still wait are discarded when the head of their entry is rewritten (R151, R168). -/
def State.dropHits (s : State) (i : Nat) : State := { s with em := { s.em with hits := s.em.hits.filter fun h => h.slot ≠ i } }

/-- Writes a stamp word (R145). -/
def State.setStamp (s : State) (i : Nat) (hit : Bool) (ins last : Nat) : State := (s.soundStamp i).putStamp i hit ins last

def stampIns (w : BitVec 33) : Nat := fld w 31 16
def stampLast (w : BitVec 33) : Nat := fld w 15 0
def wasHit (w : BitVec 33) : Bool := nbit w.toNat 32

/-- An age in ticks, saturated at 16,384 (R162). -/
def State.emAge (s : State) (x : Nat) : Nat := min 16384 ((s.emNow + 65536 - x) % 65536)

/-- A position may take an entry: not live, and not uncorrectable (R148, R158). -/
def State.emFree (s : State) (d : EmDesc) (i : Nat) : Bool := !s.slotBad d i && !slotValid (s.emSlot i)

/-- `place()` of R158. -/
def State.emPlace (s : State) (d : EmDesc) (k : Nat) : Option Nat :=
  ([0, 1, 2, 3].foldl (fun (b : Nat × Option Nat) j =>
    let fr := (d.wayHeads (d.owner 0 k) k j).filter (s.emFree d)
    if b.1 < fr.length then (fr.length, fr.head?) else b) (0, none)).2

/-- Some copy is being filled (R142). -/
def State.copyFilling (s : State) (t : Nat) : Bool := !(s.table t).filling.isEmpty

/-- The pointer check of DATA in a POINTER table, `old` being the DATA held (R155, R217, R219). -/
def State.dataStatus (s : State) (d : EmDesc) (room : Nat) (old : Option Nat) (data : Nat) : Option Nat :=
  if d.inline then none
  else s.pointerStatus room (old.map fun x => (x / 4, 0)) (data / 4) (codeBlocks (data % 4) - 1)

/-- References of DATA that changes (R216): the new one before the write, the old one after it. -/
def State.gainData (s : State) (d : EmDesc) (data : Nat) : State := if d.inline then s else s.addRef (data / 4)
def State.loseData (s : State) (d : EmDesc) (data : Nat) : State := if d.inline then s else s.dropRef (data / 4)

/-- Writes a new entry at a position, with fresh stamps; with it the cycle of its last update (R154, R155, R158). -/
def State.emNew (s : State) (d : EmDesc) (k i data : Nat) (static learnt : Bool) : State × Nat :=
  let w := (s.gainData d data).emTimes d k
  (((w.1.emPut d w.2 i (d.head true static learnt data k) (some (d.tail k))).dropHits i).setStamp i false s.emNow s.emNow,
    s.lastOf w.2)

/-- Rewrites DATA, STATIC and LEARNT of a present entry by one head write, with the cycle of its last update and the DATA whose
reference then goes (R154, R155, R158). -/
def State.emRewrite (s : State) (d : EmDesc) (k i data : Nat) (static learnt : Bool) : State × Nat × List Nat :=
  let old := slotData (s.emSlot i)
  let moved := decide (data / 4 ≠ old / 4)
  let w := (if moved then s.gainData d data else s).emTimes d k
  ((w.1.emPut d w.2 i (d.head true static learnt data k) none).dropHits i, s.lastOf w.2,
    if moved && !d.inline then [old / 4] else [])

/-! ### The table and its walk (R166) -/

/-- The age that AGE_GUARD is held against (R155, R162): exact below 16,384 ticks. -/
def State.guardAge (s : State) (x : Nat) : Nat := (s.emNow + 65536 - x) % 65536

/-- A slot index is an entry position of the table on copy 0 (R140, R166). -/
def EmDesc.inTable (d : EmDesc) (i : Nat) : Bool :=
  (d.copySlices 0).contains (bits i 22 21) && decide (d.base ≤ bits i 18 3 ∧ bits i 18 3 < d.base + 2 ^ d.nblog) &&
    d.heads.contains (bits i 2 0)

/-- The position after one in the walk of a table: in its bucket, its way, its slice, its copy. -/
def EmDesc.after (d : EmDesc) (i : Nat) : Option Nat :=
  let sl := bits i 22 21
  let way := bits i 20 19
  let b := bits i 18 3
  let step := if d.wide then 2 else 1
  if bits i 2 0 + step < 8 then some (i + step)
  else if b + 1 < d.base + 2 ^ d.nblog then some (slotIndex sl way (b + 1) 0)
  else if way < 3 then some (slotIndex sl (way + 1) d.base 0)
  else if (d.copySlices 0).contains (sl + 1) then some (slotIndex (sl + 1) 0 d.base 0)
  else none

/-- The first position of a table at or after a slot index, of copy 0, ascending: where a walk reads next (R166). -/
def EmDesc.from_ (d : EmDesc) (cur : Nat) : Option Nat :=
  let c := if d.wide then cur + cur % 2 else cur
  (d.copySlices 0).findSome? fun sl => (List.range 4).findSome? fun way =>
    let lo := slotIndex sl way d.base 0
    if lo + 8 * 2 ^ d.nblog ≤ c then none else some (max lo c)

/-- Live entries of a table on copy 0, ascending. -/
def State.emEntries (s : State) (d : EmDesc) : List (Nat × BitVec 128) :=
  s.em.slots.filter fun e => d.inTable e.1 && slotValid e.2

/-! ### Frame check -/

/-- A SCAN parameter word (R165). -/
structure EmScan where
  thresh : Nat
  by_ : Nat
  clear : Bool
  learntOnly : Bool
  skipStatic : Bool
  start : Nat
  maxrec : Nat
  deriving DecidableEq, Repr

def emScan (g : Granule) : EmScan :=
  ⟨fld g 127 112, fld g 111 110, nbit g.toNat 109, nbit g.toNat 108, nbit g.toNat 107, fld g 106 84, fld g 83 72⟩

/-- The SCAN word has a reserved encoding (R165). -/
def emScanBad (g : Granule) : Bool :=
  let w := emScan g
  decide (16384 < w.thresh) || w.by_ = 3 || w.maxrec = 0 || fld g 71 64 ≠ 0

/-- The frame breaks R143, R165, R171 or R493 for an exact-match table. -/
def emBad (d : EmDesc) (h : TabHdr) (body : List Granule) : Bool :=
  let slots := body.length ≠ d.nslots || fld (body.headD 0) 124 120 ≠ 0
  let index := decide (2 ^ 23 ≤ h.addr)
  if h.op = opInsert then !h.noForm || slots
  else if h.op = opWrite then h.placed || h.aux ≠ 0 || slots || (if h.byaddr then index else h.addr ≠ 0)
  else if h.op = opRead ∨ h.op = opDelete then
    h.placed || (h.op = opRead && h.aux ≠ 0) ||
      (if h.byaddr then index || !body.isEmpty else h.addr ≠ 0 || slots)
  else if h.op = opMove then h.byaddr || h.placed || h.aux ≠ 0 || index || slots
  else if h.op = opScan then !h.noForm || body.length ≠ 1 || emScanBad (body.headD 0)
  else !h.noForm

/-! ### Table commands (R155) -/

/-- A new entry of the host (R155). -/
def State.emInserted (s : State) (c : MqCmd) (d : EmDesc) (k i : Nat) (hd : BitVec 128) : State :=
  let r := s.emNew d k i (slotData hd) (slotStatic hd) false
  r.1.finishAt c r.2 [] i

/-- INSERT, and WRITE by key of an absent key; an uncorrectable candidate does not refuse it (log 110). -/
def emInsert (c : MqCmd) (s : State) (d : EmDesc) (k : Nat) : State :=
  let h := c.hdr
  let hd := c.body.headD 0
  match s.emFind d (d.owner 0 k) k with
  | some i => s.refuse c 0x41 i
  | none =>
    match s.dataStatus d h.room none (slotData hd) with
    | some x => s.refuse c x 0
    | none =>
      match s.emPlace d k with
      | none => s.refuse c 0x40 0
      | some i => s.emInserted c d k i hd

/-- WRITE of a present key at its own position. -/
def emWriteAt (c : MqCmd) (s : State) (d : EmDesc) (k i : Nat) : State :=
  let hd := c.body.headD 0
  match s.dataStatus d c.hdr.room (some (slotData (s.emSlot i))) (slotData hd) with
  | some x => s.refuse c x i
  | none =>
    let r := s.emRewrite d k i (slotData hd) (slotStatic hd) false
    r.1.finishAt c r.2.1 r.2.2 i

/-- WRITE at a slot index. -/
def emWriteSlot (c : MqCmd) (s : State) (d : EmDesc) (k : Nat) : State :=
  let h := c.hdr
  let hd := c.body.headD 0
  let i := h.addr
  match s.emFind d (d.owner 0 k) k with
  | some j => if j = i then emWriteAt c s d k i else s.refuse c 0x41 j
  | none =>
    if !(d.candidates (d.owner 0 k) k).contains i then s.refuse c 0x42 i
    else if slotValid (s.emSlot i) then s.refuse c 0x43 i
    else match s.dataStatus d h.room none (slotData hd) with
      | some x => s.refuse c x i
      | none => s.emInserted c d k i hd

/-- WRITE by key or at a slot index. -/
def emWrite (c : MqCmd) (s : State) (d : EmDesc) : State :=
  let k := d.bodyKey c.body
  if c.hdr.byaddr then emWriteSlot c s d k
  else match s.emFind d (d.owner 0 k) k with
    | some i => emWriteAt c s d k i
    | none => emInsert c s d k

/-- The position that a READ or DELETE names, or its status (R155). -/
def State.emNamed (s : State) (c : MqCmd) (d : EmDesc) : Except (Nat × Nat) Nat :=
  if c.hdr.byaddr then
    let i := c.hdr.addr
    if !d.inTable i then .error (0x47, i)
    else if s.slotBad d i then .error (0x46, i)
    else if slotValid (s.emSlot i) then .ok i
    else .error (0x47, i)
  else
    let k := d.bodyKey c.body
    match s.emFind d (d.owner 0 k) k with
    | some i => .ok i
    | none => .error (if s.emBad d (d.owner 0 k) k then 0x46 else 0x47, 0)

/-- READ (R178). -/
def emRead (c : MqCmd) (s : State) (d : EmDesc) : State :=
  match s.emNamed c d with
  | .error e => s.refuse c e.1 e.2
  | .ok i => s.answer c ⟨0, 0, false, [(0, s.emSlot i :: (if d.wide then [s.emSlot (i + 1)] else []))]⟩

/-- DELETE, with its age guard. -/
def emDelete (c : MqCmd) (s : State) (d : EmDesc) : State :=
  match s.emNamed c d with
  | .error e => s.refuse c e.1 e.2
  | .ok i =>
    let s := s.soundStamp i
    if s.guardAge (stampLast (s.stamp i)) < c.hdr.aux then s.refuse c 0x45 i
    else
      let data := slotData (s.emSlot i)
      let w := s.emTimes d (s.slotKey d i)
      ((w.1.emPut d w.2 i 0 (some 0)).dropHits i).finishAt c (s.lastOf w.2) (if d.inline then [] else [data / 4]) 0

/-- MOVE to a candidate position: the old head goes in the update-port cycle after the write of the new one (R154, R155). Without a
clean match it answers 0x47, also where a candidate is uncorrectable (log 110). -/
def emMove (c : MqCmd) (s : State) (d : EmDesc) : State :=
  let k := d.bodyKey c.body
  let j := c.hdr.addr
  match s.emFind d (d.owner 0 k) k with
  | none => s.refuse c 0x47 j
  | some i =>
    if !(d.candidates (d.owner 0 k) k).contains j then s.refuse c 0x42 j
    else if slotValid (s.emSlot j) then s.refuse c 0x43 j
    else
      let s := s.soundStamp i
      let x := s.stamp i
      let w := s.emTimes d k
      let u := (w.1.emPut d w.2 j (s.emSlot i) (some (s.emSlot (i + 1)))).emPut d (w.2.map fun y => (y.1, y.2 + 1)) i 0 (some 0)
      let u := ((u.dropHits i).dropHits j).setStamp j (wasHit x) (stampIns x) (stampLast x)
      u.finishAt c (s.lastOf w.2 + 1) [] j

/-- A SCAN record (R167). -/
def State.emRecord (s : State) (d : EmDesc) (by_ i : Nat) : List Granule :=
  let hd := s.emSlot i
  let w := s.stamp i
  let age := if by_ = 0 then s.emAge (stampLast w) else if by_ = 1 then s.emAge (stampIns w) else 0
  granule [(23, i), (1, b2n (wasHit w)), (1, b2n (slotStatic hd)), (1, b2n (slotLearnt hd)), (16, stampIns w),
    (16, stampLast w), (24, slotData hd), (16, age), (30, 0)] ::
  granulesOf d.nslots (bytesBE (16 * d.nslots) (s.slotKey d i * 2 ^ (128 * d.nslots - d.w)))

/-- An entry is reported (R165). -/
def State.emReported (s : State) (w : EmScan) (i : Nat) : Bool :=
  let hd := s.emSlot i
  let x := s.stamp i
  (if w.by_ = 0 then decide (w.thresh ≤ s.emAge (stampLast x))
   else if w.by_ = 1 then decide (w.thresh ≤ s.emAge (stampIns x)) else !wasHit x) &&
    !(w.learntOnly && !slotLearnt hd) && !(w.skipStatic && slotStatic hd)

/-- Records of an exact-match SCAN that fit in one frame (R167, R178). -/
def EmDesc.per (d : EmDesc) : Nat := if d.wide then 5 else 7

/-- Live entries of a bucket at or after a slot index that a walk examines: it passes uncorrectable positions by (log 90). -/
def State.bucketFrom (s : State) (d : EmDesc) (cur i : Nat) : List Nat :=
  ((s.emEntries d).filter fun e => decide (e.1 / 8 = i / 8 ∧ cur ≤ e.1) && !s.slotBad d e.1).map Prod.fst

/-- One examined entry (R165): reported until the walk has `n` records; CLEAR clears its HIT. The last slot examined goes
with the records. -/
def emExamine (d : EmDesc) (w : EmScan) (n : Nat) (r : State × List (Nat × List Granule) × Nat) (i : Nat) :
    State × List (Nat × List Granule) × Nat :=
  if n ≤ r.2.1.length then r
  else
    let s := r.1.soundStamp i
    let found := if s.emReported w i then r.2.1 ++ [(i, s.emRecord d w.by_ i)] else r.2.1
    (if w.clear then s.setStamp i false (stampIns (s.stamp i)) (stampLast (s.stamp i)) else s, found, i)

/-- SCAN of an exact-match table starts (R165, R166); it reads every bucket of the table from START on, empty or not. -/
def emScanRun (c : MqCmd) (s : State) (d : EmDesc) : State :=
  let w := emScan (c.body.headD 0)
  match d.from_ w.start with
  | some _ => s.readNext c w.start []
  | none => s.answer c (walkReply d.per none [])

/-- A READ or SCAN of an exact-match table reads one bucket, with its stamps, in a maintenance slot (R166, R178). -/
def emVisit (c : MqCmd) (cur : Nat) (s : State) (d : EmDesc) : State :=
  if c.hdr.op = opRead then emRead c s d
  else
    let w := emScan (c.body.headD 0)
    let n := walkMax (c.src = .reg) w.maxrec d.per
    match d.from_ cur with
    | none => s.answer c (walkReply d.per none c.found)
    | some i =>
      let r := (s.bucketFrom d cur i).foldl (emExamine d w n) (s, c.found, i)
      if n ≤ r.2.1.length then r.1.answer c (walkReply d.per (d.after r.2.2) r.2.1)
      else match d.from_ (8 * (i / 8) + 8) with
        | some _ => r.1.readNext c (8 * (i / 8) + 8) r.2.1
        | none => r.1.answer c (walkReply d.per none r.2.1)

/-- The units of the slice in which a READ or SCAN of an exact-match table reads next: either of the slice (R166). -/
def emReads (c : MqCmd) (cur : Nat) (d : EmDesc) : List Nat :=
  let h := c.hdr
  emUnits (if h.op = opRead then (if h.byaddr then bits h.addr 22 21 else d.owner 0 (d.bodyKey c.body))
    else match d.from_ cur with | some i => bits i 22 21 | none => d.slices.headD 0)

/-- A command on an exact-match table (R155, R169, R182, R490). -/
def emCommand (c : MqCmd) (s : State) : State :=
  let h := c.hdr
  let d := s.view.em h.table
  match s.tableStatus c (emBad d h c.body) with
  | some st => s.refuse c st 0
  | none =>
    if !(h.op = opRead || h.op = opScan) && s.copyFilling h.table then s.refuse c 0x26 0
    else if h.op = opInsert then emInsert c s d (d.bodyKey c.body)
    else if h.op = opWrite then emWrite c s d
    else if h.op = opRead then s.readNext c 0 []
    else if h.op = opDelete then emDelete c s d
    else if h.op = opMove then emMove c s d
    else emScanRun c s d

/-! ### READ and SCAN in maintenance slots (R166, R178, R198) -/

/-- A started READ or SCAN makes its next read; once answered, it makes no other while its TCOMP frames wait. -/
def State.visit (s : State) (c : MqCmd) (cur : Nat) : State :=
  let t := c.hdr.table
  let s := s.setCmd { c with cursor := none }
  match (s.view.tbl t).kind with
  | 0 => trnVisit c cur s (s.view.trn t)
  | 1 => pfxVisit c cur s (s.view.pfx t)
  | _ => emVisit c cur s (s.view.em t)

/-- Units that can make the next read of a started READ or SCAN. -/
def State.visitUnits (s : State) (c : MqCmd) (cur : Nat) : List Nat :=
  let t := c.hdr.table
  match (s.view.tbl t).kind with
  | 0 => s.trnUnits c cur (s.view.trn t)
  | 1 => s.pfxReads c cur (s.view.pfx t)
  | _ => emReads c cur (s.view.em t)

/-- The first started READ or SCAN whose next read a unit can make, with its place. -/
def State.visitOn (s : State) (u : Nat) : Option (MqCmd × Nat) :=
  (List.range 16).findSome? fun room => (s.queue room).findSome? fun c =>
    match c.cursor with
    | some cur => if (s.visitUnits c cur).contains u then some (c, cur) else none
    | none => none

/-! ### The six operations of R169 at a start slot -/

/-- A command on a table of any kind. A table that does not exist fails check 2, and one of the reserved kind check 4
(R77, R182). -/
def tableCommand (c : MqCmd) (s : State) : State :=
  let h := c.hdr
  match (s.view.tbl h.table).kind with
  | 0 => trnCommand c s
  | 1 => pfxCommand c s
  | 2 => emCommand c s
  | _ => s.refuse c ((s.tableStatus c (!h.noForm)).getD 0x50) 0

/-- INSERT at a start slot; a command with a reserved OP is checked and refused in its place (R182; log 6). -/
def execInsert (s : State) : Host.Outcome State Fault Refusal :=
  .next (s.startSlot [opInsert, 0, 10, 11, 12, 13, 14, 15] tableCommand)

/-- WRITE at a start slot. -/
def execWrite (s : State) : Host.Outcome State Fault Refusal := .next (s.startSlot [opWrite] tableCommand)

/-- READ at a start slot. -/
def execRead (s : State) : Host.Outcome State Fault Refusal := .next (s.startSlot [opRead] tableCommand)

/-- DELETE at a start slot. -/
def execDelete (s : State) : Host.Outcome State Fault Refusal := .next (s.startSlot [opDelete] tableCommand)

/-- MOVE at a start slot. -/
def execMove (s : State) : Host.Outcome State Fault Refusal := .next (s.startSlot [opMove] tableCommand)

/-- SCAN at a start slot. -/
def execScan (s : State) : Host.Outcome State Fault Refusal := .next (s.startSlot [opScan] tableCommand)

/-! ### Learning (R156 to R161) -/

/-- A slice's learn queue. -/
def State.learnQueue (s : State) (slice : Nat) : List Learn := sget (fun _ => []) s.em.queues slice

def State.setLearnQueue (s : State) (slice : Nat) (l : List Learn) : State :=
  { s with em := { s.em with queues := sput (fun _ => []) s.em.queues slice l } }

/-- LEARN_BACKLOG of a slice crosses (R161). -/
def State.backlogCross (s : State) (slice : Nat) (rise : Bool) : State :=
  let s := { s with em := { s.em with backlog := if rise then insertNew slice s.em.backlog
                                                 else s.em.backlog.filter (· ≠ slice) } }
  let s := s.bump .emBacklogXing 0 slice
  s.record .emBacklog none hubMaint [(8, slice), (32, s.reg .emBacklogXing 0 slice)] (if rise then 1 else 2)

/-- LEARN_BACKLOG follows the queue: it rises when the queue is full and falls with 1,024 places free (R161). -/
def State.updateBacklog (s : State) (slice : Nat) : State :=
  let n := (s.learnQueue slice).length
  let on := s.em.backlog.contains slice
  if !on && decide (4096 ≤ n) then s.backlogCross slice true
  else if on && decide (n ≤ 3072) then s.backlogCross slice false
  else s

/-- The first check of R157 that fails, as its cause (R489), `shape` being the granule count of the frame. -/
def State.learnCause (s : State) (t room shape : Nat) : Option Nat :=
  let h := s.view.tbl t
  let d := s.view.em t
  if !h.present ∨ h.kind ≠ 2 then some 1
  else if h.room ≠ room then some 2
  else if !d.learn then some 3
  else if s.copyFilling t then some 4
  else if shape ≠ 1 + d.nslots then some 5
  else none

/-- A learn is dropped (R157). -/
def State.learnReject (s : State) (t room cause port : Nat) : State :=
  (s.bump .emLearnRej t).record .learnReject (some room) (srcPort port) [(8, t), (8, cause), (8, port)]

/-- Key of a LEARN frame (R156). -/
def EmDesc.learnKey (d : EmDesc) (gs : List Granule) : Nat :=
  sliceAt (ofBytesBE ((gs.take d.nslots).flatMap granuleBytes)) (128 * d.nslots) 0 d.w

/-- A checked LEARN enters the queue of its key's owner slice, or is dropped there (R157, R161). -/
def State.learnEnter (s : State) (x : Learn) : State :=
  let d := s.view.em x.table
  let sl := d.owner 0 (d.learnKey x.key)
  let q := s.learnQueue sl
  if 4096 ≤ q.length then s.bump .emLearnDrop 0 sl
  else (s.setLearnQueue sl (q ++ [x])).updateBacklog sl

/-- LEARN (R157, R323). -/
def execLearn (port : Fin 32) (frame : Frame) (s : State) : Host.Outcome State Fault Refusal :=
  let h := frame.hdr
  let room := fld h 111 108
  let t := fld h 107 100
  if s.heldFrame port 3 frame then .next (s.bump .portHeldDrop port)
  else
    let s := s.takeRx port 3 frame
    if !s.portActs port room then .next ((s.authReject port room 7 0).learnReject t room 6 port)
    else match s.learnCause t room (frameLen frame) with
      | some cause => .next (s.learnReject t room cause port)
      | none => .next (s.learnEnter ⟨room, t, fld h 99 76, fld h 75 60, frame.body, port⟩)

/-- Notices that wait on all ports (R161). -/
def State.noticesHeld (s : State) : Nat :=
  (s.ports.map fun e => (e.2.tx3.filter fun f => fld f.frame.hdr 127 124 = 7).length).sum

/-- A notice frame (R160); `stamps` are INS and LAST for WEED, 0 otherwise. -/
def noticeFrame (d : EmDesc) (room t kind data old lctx slot k stamps : Nat) : Frame :=
  linkFrame 7 3 ⟨granule [(16, 0), (4, room), (8, t), (4, kind), (24, data), (24, old), (16, lctx), (23, slot), (9, 0)],
    granulesOf d.nslots (bytesBE (16 * d.nslots) (k * 2 ^ (128 * d.nslots - d.w) + stamps))⟩

/-- Sends a notice when NMASK enables its kind; WEED always (R158, R160). Kinds: 1 NEW, 2 MOVE, 3 WEED, 4 REFUSED. -/
def State.notice (s : State) (d : EmDesc) (x : Learn) (kind data old slot k stamps : Nat) : State :=
  let on := if kind = 1 then nbit d.nmask 2 else if kind = 2 then nbit d.nmask 1 else if kind = 4 then nbit d.nmask 0 else true
  if on then s.send3 d.nport (noticeFrame d x.room x.table kind data old x.lctx slot k stamps) else s

/-- A refused learn (R158). -/
def State.learnRefuse (s : State) (d : EmDesc) (x : Learn) (k status : Nat) : State :=
  (s.bump .emLearnRefused x.table).notice d x 4 x.data status 0 k 0

/-- The weeding LFSR of a slice, and its step (R159). -/
def State.lfsr (s : State) (slice : Nat) : BitVec 32 := sget (fun _ => 1) s.em.lfsr slice

def lfsrStep (x : BitVec 32) : BitVec 32 := (x >>> 1) ^^^ (if x.getLsbD 0 then 0x80200003 else 0)

/-- Live candidates of a key with STATIC = 0, ascending (R159). -/
def State.weedable (s : State) (d : EmDesc) (k : Nat) : List Nat :=
  (d.candidates (d.owner 0 k) k).filter fun i =>
    !s.slotBad d i && slotValid (s.emSlot i) && !slotStatic (s.emSlot i)

/-- The victim of OLDEST among candidates with sound stamps: the largest INS age, the lowest slot on ties (R159). -/
def State.oldest (s : State) (l : List Nat) : Option Nat :=
  l.foldl (fun b i =>
    let a := fun (j : Nat) => (s.emNow + 65536 - stampIns (s.stamp j)) % 65536
    match b with
    | none => some i
    | some j => if a j < a i then some i else some j) none

/-- `victim()` of R159, with the slice's LFSR stepped by RANDOM. -/
def State.victim (s : State) (d : EmDesc) (k : Nat) : State × Option Nat :=
  let l := s.weedable d k
  if d.weed = 0 ∨ l.isEmpty then (s, none)
  else if d.weed = 1 then
    let sl := d.owner 0 k
    let x := lfsrStep (s.lfsr sl)
    ({ s with em := { s.em with lfsr := sput (fun _ => 1) s.em.lfsr sl x } }, l[x.toNat * l.length / 2 ^ 32]?)
  else let s := l.foldl State.soundStamp s; (s, s.oldest l)

/-- A victim is noticed, counted and recorded before it is overwritten (R158, R159). -/
def State.weed (s : State) (d : EmDesc) (x : Learn) (v : Nat) : State :=
  let s := s.soundStamp v
  let hd := s.emSlot v
  let vk := s.slotKey d v
  let w := s.stamp v
  let s := s.notice d x 3 (slotData hd) 0 v vk (stampIns w * 65536 + stampLast w)
  (s.bump .emWeedCnt x.table).record .emWeed (some x.room) (srcOpen .emWeed)
    [(8, x.table), (32, v), (64, sliceAt vk d.w 0 64)]

/-- A learn of an absent key (R158). -/
def State.learnNew (s : State) (d : EmDesc) (x : Learn) (k : Nat) : State :=
  match s.dataStatus d x.room none x.data with
  | some st => s.learnRefuse d x k st
  | none =>
    match s.emPlace d k with
    | some i =>
      let r := s.emNew d k i x.data false true
      (r.1.at r.2).notice d x 1 x.data 0 i k 0
    | none =>
      match s.victim d k with
      | (s, none) => s.learnRefuse d x k 0x40
      | (s, some v) =>
        let old := slotData (s.emSlot v)
        let r := (s.weed d x v).emNew d k v x.data false true
        ((r.1.at r.2).loseData d old).notice d x 1 x.data 0 v k 0

/-- `learn()` of R158. -/
def State.learn (s : State) (d : EmDesc) (x : Learn) : State :=
  let k := d.learnKey x.key
  let sl := d.owner 0 k
  match s.emFind d sl k with
  | none => if s.emBad d sl k then s.learnRefuse d x k 0x46 else s.learnNew d x k
  | some i =>
    let old := slotData (s.emSlot i)
    let fresh := s.soundStamp i
    if old = x.data then fresh.putStamp i true (stampIns (fresh.stamp i)) s.emNow
    else if slotStatic (s.emSlot i) then s.learnRefuse d x k 0x44
    else match s.dataStatus d x.room (some old) x.data with
      | some st => s.learnRefuse d x k st
      | none =>
        let r := fresh.emRewrite d k i x.data false true
        let s := (r.1.putStamp i true (stampIns (fresh.stamp i)) s.emNow).at r.2.1
        (r.2.2.foldl State.dropRef s).notice d x 2 x.data old i k 0

/-- A copy of the learn's table lies on a held die, and the learn waits (log 29). -/
def State.learnHeld (s : State) (d : EmDesc) : Bool :=
  ((List.range d.ncopy).flatMap d.copySlices).any s.dieHeld

/-- LEARN_APPLY: a slice applies its oldest learn, when its update port admits one, or drops it when its table no longer takes
it (R153, R158, R161, R168). Its change is complete when its notice is sent (R154). It ends its cycle, so that a host command of one cycle with it comes first (R168; log 84). -/
def execLearnApply (slice : Fin 4) (s : State) : Host.Outcome State Fault Refusal :=
  match s.learnQueue slice with
  | [] => .next s
  | x :: t =>
    let d := s.view.em x.table
    if 8188 < s.noticesHeld then .next s
    else
      match s.learnCause x.table x.room (1 + x.key.length) with
      | some cause => .next (((s.setLearnQueue slice t).learnReject x.table x.room cause x.port).updateBacklog slice)
      | none =>
        if s.learnHeld d then .next s
        else
          let s := (s.at (max (s.limitAt 2 slice) (s.limitAt 2 7))).catchUp
          let s := ((s.setLearnQueue slice t).learn d x).updateBacklog slice
          .next (s.at (s.now + 1))

/-! ### Stamps (R162, R163) -/

/-- EM_NOW_TICK: the stamp clock advances when its tick ends. -/
def execEmNowTick (s : State) : Host.Outcome State Fault Refusal :=
  let s := (s.at s.em.nextTick).catchUp
  let s := s.setReg .emNow 0 0 0 (wrapAdd 16 s.emNow 1)
  .next { s with em := { s.em with nextTick := s.em.nextTick + s.reg .emTick * Config.msec } }

/-- A stamp whose age is 16,384 or more is moved forward (R163). -/
def State.clampStamp (s : State) (x : Nat) : Nat :=
  if 16384 ≤ (s.emNow + 65536 - x) % 65536 then (s.emNow + 65536 - 16384) % 65536 else x

/-- STAMP_SWEEP: the sweeper visits one stamp word. -/
def execStampSweep (slot : BitVec 23) (uncorr : Bool) (s : State) : Host.Outcome State Fault Refusal :=
  let i := slot.toNat
  let sl := i / 2097152
  let s := s.catchUp
  if uncorr then done ((s.foundUncorr ⟨.stamp, sl, i⟩).fixStamp i)
  else if s.poisoned .stamp sl i then done (s.fixStamp i)
  else
    let w := s.stamp i
    done (s.putStamp i (wasHit w) (s.clampStamp (stampIns w)) (s.clampStamp (stampLast w)))

end Sys2Proof.Machine
end

