-- ==== Sys2Proof/Machine/Editions.lean ====
section
/-! DEFINITION. Advancing editions and their notices (R34, R190 to R192), and the clamp sweep (R193, R194). -/

namespace Sys2Proof.Machine

/-! ### EDITION frames (R192) -/

/-- An EDITION frame: KIND 1 ADVANCE, 2 FLOOR. -/
def State.editionFrame (s : State) (room kind ctag : Nat) : Frame :=
  linkFrame 8 3 ⟨granule [(16, 0), (4, room), (4, kind), (16, (s.current room).toNat), (16, (s.floor room).toNat),
    (16, (s.drain room).toNat), (12, s.device), (16, ctag), (28, 0)], [granule [(64, s.now), (64, 0)]]⟩

/-- Sends an EDITION frame on every port of ED_NOTIFY (R191, R192). -/
def State.notifyEdition (s : State) (room kind ctag : Nat) : State :=
  let f := s.editionFrame room kind ctag
  (setBits 32 (s.reg .edNotify room)).foldl (fun s p => s.send3 p f) s

/-! ### ADVANCE (R34, R190) -/

/-- The path of a command in ED_ADVANCED and ED_WINDOW (R489). -/
def CmdSrc.path (x : CmdSrc) : Nat := match x with | .catalogue => 1 | _ => 0

/-- The advance of a room (R34, R190): the edition, requested mode switches, the record and the notice. It takes effect in
the next intake cycle, so that what was accepted in this one keeps the old edition (log 78). -/
def State.advance (s : State) (room ctag path : Nat) : State :=
  let e := s.current room + 1
  let s := s.at (s.now + 1)
  let s := (s.setReg .edCurrent room 0 0 e.toNat).pfxAdvance room e
  let s := s.record .edAdvanced (some room) hubMaint [(16, e.toNat), (64, s.now), (16, ctag), (8, path)]
  s.notifyEdition room 1 ctag

/-- The first failing check of an ADVANCE (R182, R190). -/
def State.advanceStatus (s : State) (c : MqCmd) : Option Nat :=
  let h := c.hdr
  let cur := s.current h.room
  if !h.plain ∨ c.body ≠ [] then some 0x53
  else if c.room ≠ h.room then some 0x52
  else if h.aux ≠ cur.toNat then some 0x57
  else if 12288 ≤ (cur + 1 - BitVec.ofNat 16 (s.reg .edMark h.room)).toNat then some 0x58
  else none

/-- Runs an ADVANCE: the advance, or its refusal. -/
def runAdvance (c : MqCmd) (s : State) : State :=
  let h := c.hdr
  match s.advanceStatus c with
  | none => let s := s.advance h.room h.ctag c.src.path; s.answer c (reply 0 (s.current h.room).toNat)
  | some st =>
    let s := if st = 0x58 then s.record .edWindow (some h.room) hubMaint
        [(16, (s.current h.room).toNat), (16, s.reg .edMark h.room), (16, h.ctag), (8, c.src.path)] else s
    s.refuse c st (if st = 0x57 then (s.current h.room).toNat else 0)

/-- ADVANCE at a start slot (R190). -/
def execAdvance (s : State) : Host.Outcome State Fault Refusal := .next (s.startSlot [opAdvance] runAdvance)

/-- The image that a write of EXPECT to ED_ADVANCE queues (R190). -/
def advanceImage (room expect : Nat) : Frame :=
  ⟨granule [(16, 0), (4, room), (8, 0), (4, opAdvance), (16, 0), (4, 0), (32, 0), (16, expect), (28, 0)], []⟩

/-- ED_ADV_STATUS BUSY (R191). -/
def State.advBusy (s : State) (room : Nat) : Bool := nbit (s.reg .edAdvStatus room) 31

/-- A write of ED_ADVANCE enters the queue and sets BUSY; full or busy it queues nothing (R190). The answer is its
abort code. -/
def State.queueAdvance (s : State) (room expect : Nat) : State × Nat :=
  let u := s.completeDue
  if u.queueFull room then (u.bump .mqFull room, Ab.cmdBusy)
  else if u.advBusy room then (s, Ab.cmdBusy)
  else
    let st := u.reg .edAdvStatus room
    ((u.setReg .edAdvStatus room 0 0 (2 ^ 31 + st % 2 ^ 31)).enqueue room (advanceImage room expect) .catalogue, 0)

/-! ### FLOOR notices (R192) -/

/-- EDITION_FLOOR: when the floor of a room has moved since its last FLOOR notice, and 1 µs after that notice, an
EDITION frame of KIND FLOOR is sent. -/
def execEditionFloor (room : Fin 16) (s : State) : Host.Outcome State Fault Refusal :=
  let f := s.floor room
  if f = sget (fun _ => (0 : BitVec 16)) s.ed.notified room then .next s
  else
    let last := sget (fun _ => 0) s.ed.lastFloor room
    let s := s.at (if last = 0 then 0 else last - 1 + Config.usec)
    let ed := { s.ed with notified := sput (fun _ => 0) s.ed.notified room f,
                          lastFloor := sput (fun _ => 0) s.ed.lastFloor room (s.now + 1) }
    .next (({ s with ed := ed }).notifyEdition room 2 0)

/-! ### The clamp sweep (R193, R194) -/

/-- FIRST and RETIRING after a visit with floor `f` (R193). -/
def clampStamps (f : Edition) (rset : Bool) (first retiring : Edition) : Edition × Edition :=
  if edLe first f && decide (4096 ≤ (f - first).toNat) then (f, if rset && edLe retiring f then f else retiring)
  else (first, retiring)

/-- A visit of a head side word of an edition table on a physical bay (R193). -/
def State.clampRow (s : State) (room bay mat row : Nat) : State :=
  let k := rowKey bay mat row
  let x := sideOf (s.sideWord k)
  if x.role ≠ 1 || s.poisoned .side bay (mat * 1024 + row) then s
  else
    let y := clampStamps (s.floor room) x.rset x.first x.retiring
    if y = (x.first, x.retiring) then s
    else
      let w := Side.image { x with first := y.1, retiring := y.2 }
      { s with bays := { s.bays with sides := sput (fun _ => 0) s.bays.sides k w } }

/-- A head of an edition ternary table, on a physical bay, that the pass has not been to (R194). -/
def State.headsLeft (s : State) (t : Nat) : Bool :=
  let d := s.view.trn t
  !d.direct && (List.range d.ncopy).any fun c => (s.table t).placed.any fun rs => rs.any fun r =>
    let l := d.copies.getD c 0 + r.bay
    (s.view.phys l).isSome && decide (sget (fun _ => 0) s.ed.clampPos l ≤ d.mat r.index * 1024 + r.row)

/-- The room of the edition table whose head stands at a row of a logical bay. -/
def State.headRoom (s : State) (l mat row : Nat) : Option Nat :=
  ((s.view.tablesOf 0).find? fun t =>
    let d := s.view.trn t
    !d.direct && (List.range d.ncopy).any fun c => (s.table t).placed.any fun rs => rs.any fun r =>
      d.copies.getD c 0 + r.bay = l && d.mat r.index = mat && r.row = row).map fun t => (s.view.tbl t).room

/-- The visits of a pass to a prefix table's entry records. -/
def State.clampPfx (s : State) (t : Nat) : State :=
  if (s.view.pfx t).direct then s
  else
    let f := s.floor (s.view.tbl t).room
    let tb := s.table t
    let es := tb.entries.map fun e =>
      let y := clampStamps f e.rset e.first e.retiring
      { e with first := y.1, retiring := y.2 }
    s.setTable t { tb with entries := es }

/-- Records of an edition prefix table lie on a held die, and the pass waits for them (log 30). -/
def State.recsHeld (s : State) (t : Nat) : Bool :=
  !(s.view.pfx t).direct && (s.table t).entries.any fun e => e.recs.any fun x => s.dieHeld x.1

/-- The pass has been to every head side word of the edition ternary tables and can be to the records of the prefix tables
(R193, R194). -/
def State.passDone (s : State) : Bool := !(s.view.tablesOf 0).any s.headsLeft && !(s.view.tablesOf 1).any s.recsHeld

/-- The end of a pass (R194): the records of the prefix tables, whose sweep has no slots of its own, are visited (log 30),
ED_MARK of every room takes the floor it had when the pass began, and the next pass begins. -/
def State.endPass (s : State) : State :=
  let s := (s.view.tablesOf 1).foldl State.clampPfx s
  let s := (List.range 16).foldl (fun s r =>
    s.setReg .edMark r 0 0 (sget (fun _ => (0 : BitVec 16)) s.ed.passFloors r).toNat) s
  let floors := (List.range 16).foldl (fun m r => sput (fun _ => 0) m r (s.floor r)) s.ed.passFloors
  { s with ed := { s.ed with passFloors := floors, clampPos := [] } }

/-- CLAMP_PASS_END (R194): the pass ends once it has been everywhere; before that this changes nothing. -/
def execClampPassEnd (s : State) : Host.Outcome State Fault Refusal := .next (if s.passDone then s.endPass else s)

end Sys2Proof.Machine
end

