-- ==== Sys2Proof/Machine/Carrel.lean ====
section
/-! DEFINITION. MEM requests (R226 to R232, R234, R235) and the words and clears of carrels (R223, R233). -/

namespace Sys2Proof.Machine

/-! ### MEM frames (R226 to R228) -/

/-- A MEM request header (R226). -/
structure MemHdr where
  room : Nat
  space : Nat
  op : Nat
  ctag : Nat
  len : Nat
  addr : Nat
  deriving DecidableEq, Repr

def memHdr (h : Granule) : MemHdr :=
  ⟨fld h 111 108, fld h 107 106, fld h 105 104, fld h 103 88, fld h 87 80, fld h 79 48⟩

/-- A MEM completion (R228). -/
def memDone (h : MemHdr) (status super : Nat) (data : List Granule) : Frame :=
  linkFrame 6 1 ⟨granule [(16, 0), (4, h.room), (2, h.space), (2, h.op), (16, h.ctag), (8, h.len), (8, status), (9, super),
    (63, 0)], data⟩

/-- Size of a space in bytes (R226). -/
def memSize (space : Nat) : Nat := if space = 0 then 524288 else if space = 1 then 67108864 else 131072

/-- Bytes of a word of a space (R227). -/
def memWidth (space : Nat) : Nat := if space = 1 then 32 else 8

/-- Blocks of the associated-data store that a request touches. -/
def MemHdr.blocks (h : MemHdr) : List Nat :=
  (List.range ((h.addr + h.len - 1) / 16 + 1 - h.addr / 16)).map (h.addr / 16 + ·)

/-- Words of its space that a request touches. -/
def MemHdr.words (h : MemHdr) : List Nat :=
  let w := memWidth h.space
  (List.range ((h.addr + h.len - 1) / w + 1 - h.addr / w)).map (h.addr / w + ·)

/-- The first failing check of R229. -/
def State.memStatus (s : State) (port : Nat) (f : Frame) : Option Nat :=
  let h := memHdr f.hdr
  let v := s.view
  if !s.portActs port h.room then some 0x78
  else if h.len = 0 ∨ 64 < h.len ∨ h.space = 3 ∨ 2 ≤ h.op then some 0x70
  else if frameLen f ≠ (if h.op = 0 then 1 else 1 + cdiv h.len 16) then some 0x77
  else if memSize h.space < h.addr + h.len then some 0x71
  else if h.space = 2 ∧ h.op = 1 ∧ s.portLevel port < 3 then some 0x74
  else if h.space = 1 && h.blocks.any fun b =>
      match v.poolOf b 1 with | some n => (v.pool n).room ≠ h.room | none => true then some 0x72
  else if h.space = 1 && h.blocks.any fun b =>
      !s.mem.allocs.any fun e => e.2.allocated && decide (e.1 ≤ b ∧ b < e.1 + e.2.blocks) then some 0x73
  else if (h.space = 0 && h.words.any fun w => s.dieHeld (dieOfWord w)) ||
      (h.space = 1 && h.blocks.any fun b => s.dieHeld (dieOfBlock b)) then some 0x76
  else none

/-! ### Words -/

/-- A carrel word of a room (R223). -/
def State.carWord (s : State) (room w : Nat) : BitVec 64 := sget (fun _ => 0) s.mem.carrel (room * 65536 + w)

def State.setCarWord (s : State) (room w : Nat) (x : BitVec 64) : State :=
  { s with mem := { s.mem with carrel := sput (fun _ => 0) s.mem.carrel (room * 65536 + w) x } }

/-- A word of the secure carrel (R235). -/
def State.secWord (s : State) (w : Nat) : BitVec 64 := sget (fun _ => 0) s.mem.secure w

def State.setSecWord (s : State) (w : Nat) (x : BitVec 64) : State :=
  { s with mem := { s.mem with secure := sput (fun _ => 0) s.mem.secure w x } }

/-- The bytes of a word of a space, lane 0 first (R223, R227). -/
def State.memWord (s : State) (space room w : Nat) : List Byte :=
  if space = 0 then bytesBE 8 (s.carWord room w).toNat
  else if space = 1 then bytesBE 16 (s.adsBlock (2 * w)).toNat ++ bytesBE 16 (s.adsBlock (2 * w + 1)).toNat
  else bytesBE 8 (s.secWord w).toNat

/-- Writes the bytes of a word of a space. -/
def State.setMemWord (s : State) (space room w : Nat) (l : List Byte) : State :=
  if space = 0 then s.setCarWord room w (BitVec.ofNat 64 (ofBytesBE l))
  else if space = 1 then
    let m := sput (fun _ => 0) s.mem.ads (2 * w) (BitVec.ofNat 128 (ofBytesBE (l.take 16)))
    { s with mem := { s.mem with ads := sput (fun _ => 0) m (2 * w + 1) (BitVec.ofNat 128 (ofBytesBE (l.drop 16))) } }
  else s.setSecWord w (BitVec.ofNat 64 (ofBytesBE l))

/-- The name of a word of a space among the memory words (R443). -/
def memName (space room w : Nat) : MemWord :=
  if space = 0 then ⟨.carrel, room, w⟩ else if space = 1 then ⟨.ads, dieOfBlock (2 * w), w⟩ else ⟨.secure, 4, w⟩

/-- A carrel word was tallied in the present cycle (R234). -/
def State.tallyWon (s : State) (room w : Nat) : Bool :=
  decide (s.mem.talliedAt = s.now) && s.mem.tallied.any fun e => e.1 = room * 65536 + w

/-- What a read of a word of a space gives: a carrel word as it was before the tallies of this cycle (R234). -/
def State.wordBefore (s : State) (space room w : Nat) : List Byte :=
  match s.mem.tallied.find? fun e => e.1 = room * 65536 + w with
  | some e => if space = 0 ∧ s.mem.talliedAt = s.now then bytesBE 8 e.2.toNat else s.memWord space room w
  | none => s.memWord space room w

/-! ### Reads and writes (R227, R229, R234) -/

/-- The payload bytes of a request that fall in word `w`, as lane and byte. -/
def MemHdr.lanes (h : MemHdr) (payload : List Byte) (w : Nat) : List (Nat × Byte) :=
  let n := memWidth h.space
  (List.range h.len).filterMap fun i =>
    if (h.addr + i) / n = w then some ((h.addr + i) % n, payload.getD i 0) else none

/-- Writes the bytes of a request that fall in one word; a tally of the same cycle wins, and a whole word clears a mark
(R229, R234). -/
def State.memWriteWord (s : State) (h : MemHdr) (payload : List Byte) (w : Nat) : State :=
  if h.space = 0 && s.tallyWon h.room w then s.bump .carSuper h.room
  else
    let ls := h.lanes payload w
    let old := s.memWord h.space h.room w
    let s := s.setMemWord h.space h.room w (ls.foldl (fun l e => l.set e.1 e.2) old)
    let n := memName h.space h.room w
    if ls.length = memWidth h.space then s.cleanse n.kind n.unit n.index else s

/-- SUPER of a write: the touched carrel words that a tally superseded (R228). -/
def State.superMask (s : State) (h : MemHdr) : Nat :=
  if h.space ≠ 0 then 0
  else maskOf ((List.range h.words.length).filter fun i => s.tallyWon h.room (h.words.getD i 0))

/-- A MEM WRITE: words in ascending address order (R230, R231). -/
def State.memWrite (s : State) (port : Nat) (h : MemHdr) (f : Frame) : State :=
  let payload := f.body.flatMap granuleBytes
  let mask := s.superMask h
  (h.words.foldl (fun s w => s.memWriteWord h payload w) s).send1 port (memDone h 0 mask [])

/-- The payload of a READ: bad words, and the secure carrel for a port below Keeper, read zeros (R229). -/
def State.memBytes (s : State) (h : MemHdr) (zero : Nat → Bool) : List Byte :=
  let n := memWidth h.space
  (List.range h.len).map fun i =>
    let w := (h.addr + i) / n
    if zero w then 0 else (s.wordBefore h.space h.room w).getD ((h.addr + i) % n) 0

/-- A MEM READ (R229). -/
def State.memRead (s : State) (port : Nat) (h : MemHdr) (uncorr : List MemWord) : State :=
  let hidden := decide (h.space = 2 ∧ s.portLevel port < 3)
  let names := h.words.map (memName h.space h.room)
  let s := if hidden then s else s.foundAll (uncorr.filter names.contains)
  let bad := if hidden then [] else h.words.filter fun w => s.health.poison.contains (memName h.space h.room w)
  let data := granulesOf (cdiv h.len 16) (s.memBytes h fun w => hidden || bad.contains w)
  match bad with
  | [] => s.send1 port (memDone h 0 0 data)
  | w :: _ =>
    (s.record .memUncorr (some h.room) (srcPort port) [(8, h.space), (32, w * memWidth h.space), (8, bad.length),
      (16, h.ctag), (8, port)]).send1 port (memDone h 0x75 0 data)

/-- A request that fails a check (R229). -/
def State.memReject (s : State) (port : Nat) (h : MemHdr) (status : Nat) : State :=
  let s := if status = 0x78 then s.authReject port h.room 6 h.ctag
    else s.record .memReject (some h.room) (srcPort port)
      [(8, status), (8, h.space), (8, h.op), (16, h.ctag), (32, h.addr), (8, port)]
  s.send1 port (memDone h status 0 [])

/-- MEM (R229): it waits in the receive buffer while the port's outbound queue is full (R276). -/
def execMem (port : Fin 32) (frame : Frame) (uncorr : List MemWord) (s : State) : Host.Outcome State Fault Refusal :=
  let h := memHdr frame.hdr
  if s.heldFrame port 1 frame then .next (s.bump .portHeldDrop port)
  else if s.outFull port then .next s
  else
    let s := (s.takeRx port 1 frame).catchUp
    let s := s.clearTo s.now
    match s.memStatus port frame with
    | some st => done (s.memReject port h st)
    | none => done (if h.op = 0 then s.memRead port h uncorr else s.memWrite port h frame)

/-! ### Clearing a carrel (R233) -/

/-- A block of posted writes by its index (R347). -/
def State.block (s : State) (idx : Nat) : Block := sget (fun _ => Block.none) s.cat.blocks idx

def State.setBlock (s : State) (idx : Nat) (b : Block) : State :=
  { s with cat := { s.cat with blocks := sput (fun _ => Block.none) s.cat.blocks idx b } }

/-- Index of a room's objects (R384). -/
def roomIdx (room : Nat) : Nat := 0x3000 + 0x100 * room

/-- A clear of a room's carrel begins (R233). -/
def State.startClear (s : State) (room : Nat) : State :=
  let s := s.setBlock (roomIdx room) { s.block (roomIdx room) with busy := true, sub := 0x26 }
  { s with mem := { s.mem with clearing := s.mem.clearing ++ [⟨room, s.now, 0, []⟩] } }

/-- A die that becomes held leaves its lines out of the clears under way (R233). -/
def State.holdClears (s : State) (die : Nat) : State :=
  let s := s.catchUp
  let s := s.clearTo s.now
  { s with mem := { s.mem with clearing := s.mem.clearing.map fun c => { c with held := insertNew die c.held } } }

/-- A clear ends 8,192 cycles after its write: every line on the dies not held is zero and BUSY clears (R233). -/
def State.endClear (s : State) (room : Nat) : State :=
  match s.mem.clearing.find? fun c => c.room = room with
  | none => s
  | some c =>
    let s := (s.at (c.start + 8192)).catchUp
    let s := s.clearTo (max s.now (c.start + 8192))
    let s := { s with mem := { s.mem with clearing := s.mem.clearing.filter fun x => x.room ≠ room } }
    s.setBlock (roomIdx room) { s.block (roomIdx room) with
      busy := false, code := if c.held.isEmpty then 0 else Ab.dieHeld }

/-- CAR_CLEAR_DONE (R233). -/
def execCarClearDone (room : Fin 16) (s : State) : Host.Outcome State Fault Refusal := .next (s.endClear room)

end Sys2Proof.Machine
end

