-- ==== Sys2Proof/Machine/Guard.lean ====
section
/-! DEFINITION. The catalogue arbiter's guard: levels and room scope (R319, R321, R380), mailbox contexts (R360, R381),
the reduced catalogue (R415) and rows 1 to 8 of R320. -/

namespace Sys2Proof.Machine

/-! ### Levels and scope (R319, R321, R380) -/

/-- The level of a master and, at Room level, its room. -/
structure Who where
  level : Nat
  room : Nat
  deriving DecidableEq, Repr

/-- A master is Public without a proved session (R321, R324). -/
def State.who (s : State) (m : Master) : Who :=
  match s.sessionOf m with
  | some n => if (s.session n).proved then ⟨(s.session n).askLevel, (s.session n).askRoom⟩ else ⟨0, 0⟩
  | none => ⟨0, 0⟩

/-- A session of the master ended in this cycle (R345). -/
def State.endedNow (s : State) (m : Master) : Option Nat :=
  (List.range 48).find? fun n => !(s.session n).isOpen && (s.session n).lastUse = s.now + 1 && s.masterOf n = m

/-- The level of a master for a write: that of its session when it ends in the same cycle (R345). -/
def State.writer (s : State) (m : Master) : Who :=
  match s.endedNow m with
  | some n => if (s.session n).proved then ⟨(s.session n).askLevel, (s.session n).askRoom⟩ else ⟨0, 0⟩
  | none => s.who m

/-- The room that instance `i` of an object is scoped to in force, if it is room-scoped (R319, R368, R380). -/
def View.scope (v : View) (o : Obj) (i : Nat) : Option Nat :=
  let b := o.row.base
  if b = 0x3000 ∨ b = 0x4F00 then some i
  else if b = 0x4100 then some (v.prog i).room
  else if b = 0x4200 then some (v.tbl i).room
  else if b = 0x6100 then some (bits (v.obj .casSet i) 127 124)
  else if b = 0x7100 then some (v.pool i).room
  else if b = 0x9100 ∧ i < 16 then some i
  else none

/-- Read level of an instance: that of ring 16 is Steward (R368). -/
def rdLevel (o : Obj) (i : Nat) : Nat :=
  if o.row.base = 0x9100 ∧ i = 16 ∧ o.row.rd < 4 then 2 else o.row.rd

/-- Write level of an instance (R368). -/
def wrLevel (o : Obj) (i : Nat) : Nat :=
  if o.row.base = 0x9100 ∧ i = 16 ∧ o.row.wr < 4 then max 2 o.row.wr else o.row.wr

/-- The master acts for the scope of an object (R319). -/
def Who.acts (w : Who) (scope : Option Nat) : Bool :=
  decide (2 ≤ w.level) || (match scope with | none => true | some r => decide (w.level = 1) && decide (w.room = r))

/-- The master may write instance `i` of an object (R319, R353). -/
def Who.mayWrite (w : Who) (v : View) (o : Obj) (i : Nat) : Bool :=
  decide (wrLevel o i ≤ w.level) && decide (wrLevel o i < 4) && w.acts (v.scope o i)

/-! ### Mailbox contexts (R360, R381) -/

/-- Objects held once for each mailbox context (R381). -/
def Obj.perContext (o : Obj) : Bool :=
  [Obj.rotaSel, .bayMapSel, .dbCodeSel, .casSetClSel, .casMemberSel, .poolProbeSel, .poolProbe, .poolProbeOwner, .dbSel,
    .carAddr, .scarAddr, .vaultAddr, .provNonce, .provState, .provReport].contains o

/-- Objects whose access is a context access (R360). -/
def Obj.contextual (o : Obj) : Bool := o.perContext || o = .mbxSel || o = .mbxValid || o = .mbxData

def State.mailbox (s : State) (c : Nat) : Mailbox := sget (fun _ => Mailbox.none) s.cat.mailboxes c

def State.setMailbox (s : State) (c : Nat) (x : Mailbox) : State :=
  { s with cat := { s.cat with mailboxes := sput (fun _ => Mailbox.none) s.cat.mailboxes c x } }

/-- The context of a master: ports 0 to 31 have their own, bus nodes share 32 to 47 (R360). `holder` is the node ID
plus 1. -/
def State.ctxOf (s : State) (m : Master) : Option Nat :=
  match m with
  | .port p => some p.val
  | .bus n => ((List.range 16).map (32 + ·)).find? fun c => (s.mailbox c).holder = n.toNat + 1

/-- The first write of a context object by a bus node without a context takes a free one; none when all are taken
(R360). -/
def State.takeCtx (s : State) (m : Master) : Option (State × Nat) :=
  match s.ctxOf m, m with
  | some c, _ => some (s.setMailbox c { s.mailbox c with lastUse := s.now }, c)
  | none, .port p => some (s, p.val)
  | none, .bus n =>
    match ((List.range 16).map (32 + ·)).find? fun c => (s.mailbox c).holder = 0 with
    | some c => some (s.setMailbox c { Mailbox.none with holder := n.toNat + 1, lastUse := s.now }, c)
    | none => none

/-- A read renews a context that the master holds (R360). -/
def State.touchCtx (s : State) (m : Master) : State :=
  match s.ctxOf m with
  | some c => s.setMailbox c { s.mailbox c with lastUse := s.now }
  | none => s

/-- Key of a register in a context. -/
def ctxKey (c k : Nat) : Nat := c * 2 ^ 48 + k

/-- A register of a context (R381). -/
def State.ctxReg (s : State) (c k : Nat) : Nat := sget (fun a => regDefault (a % 2 ^ 48)) s.cat.ctx (ctxKey c k)

def State.setCtxReg (s : State) (c k v : Nat) : State :=
  { s with cat := { s.cat with ctx := sput (fun a => regDefault (a % 2 ^ 48)) s.cat.ctx (ctxKey c k) v } }

/-- A master's value of a context object: its own context's, else the default (R360). -/
def State.ownReg (s : State) (m : Master) (o : Obj) (i : Nat := 0) : Nat :=
  match s.ctxOf m with
  | some c => s.ctxReg c (o.key i)
  | none => regDefault (o.key i)

/-- Provenance state of a context (R381). -/
def State.prov (s : State) (c : Nat) : Prov := sget (fun _ => Prov.none) s.cat.provs c

def State.setProv (s : State) (c : Nat) (x : Prov) : State :=
  { s with cat := { s.cat with provs := sput (fun _ => Prov.none) s.cat.provs c x } }

/-- The build at the head of the queue starts when another was there before (R409). -/
def State.nextBuild (s : State) (old : Option Nat) : State :=
  match s.cat.provQueue with
  | [] => s
  | c :: _ => if old = some c then s else s.setProv c { s.prov c with since := s.now }

/-- A context is released: all that it holds returns to its defaults (R360). -/
def State.releaseCtx (s : State) (c : Nat) : State :=
  let old := s.cat.provQueue.head?
  let s := s.setMailbox c Mailbox.none
  let s := { s with cat := { s.cat with ctx := sclear (fun k => k / 2 ^ 48 = c) s.cat.ctx,
                                        provs := sput (fun _ => Prov.none) s.cat.provs c Prov.none,
                                        provQueue := s.cat.provQueue.filter (· ≠ c) } }
  s.nextBuild old

/-! ### The reduced catalogue (R415) -/

/-- An object is served in minimal mode. -/
def minimalServes (o : Obj) (i : Nat) : Bool :=
  let b := o.row.base
  b = 0x1000 || b = 0x1100 || b = 0x2000 || b = 0x2100 || b = 0x8000 || b = 0x9000 || (b = 0x9100 && i = 16) ||
    b = 0xA100 || b = 0xF000 ||
    (i = 4 && [Obj.rgnVcore, .rgnTj, .rgnState].contains o) ||
    [Obj.pwrVin, .pwrIin, .pwrTotal, .lcState, .tamperCause, .tamperCnt, .keyState, .debugState].contains o

/-- Objects that the management core serves (R378, "Fw."). -/
def Obj.byFirmware (o : Obj) : Bool :=
  [Obj.wearLife, .lcReq, .keyLoad, .fwUpdTarget, .fwUpdImage, .fwUpdState].contains o

/-- An object is refused with MINIMAL: in minimal mode every object outside the reduced catalogue, and while no attempt has come to
step 7 those of them that the firmware serves (R401, R415). -/
def State.unserved (s : State) (o : Obj) (i : Nat) : Bool :=
  !minimalServes o i &&
    (s.dev.phase = .minimal || (s.dev.phase == .starting && decide (s.boot.attempt.step < 7) && o.byFirmware))

/-! ### Rows 1 to 8 of R320 -/

/-- Rows 1 to 3: the object that an index and sub-index name. -/
def State.place (s : State) (index sub : Nat) : Except Nat Place :=
  match findObj index sub with
  | some p => if s.unserved p.obj p.inst then .error Ab.minimal else .ok p
  | none =>
    if s.dev.phase = .minimal then .error Ab.minimal
    else .error (if indexKnown index then Ab.noSubindex else Ab.noObject)

/-- What a read meets in rows 4, 6 and 7: refused with a code, answered with zero, or allowed. -/
inductive Grant where
  | refuse (code : Nat)
  | zero
  | ok
  deriving DecidableEq, Repr

def State.readGrant (s : State) (m : Master) (p : Place) : Grant :=
  let w := s.who m
  let scope := s.view.scope p.obj p.inst
  let rd := rdLevel p.obj p.inst
  let low := decide (w.level < rd)
  if rd = 4 then .refuse Ab.writeOnly
  else if (low || !w.acts scope) && (p.obj.row.g || scope.isSome) then .zero
  else if low then .refuse Ab.access
  else .ok

/-- Rows 5 and 8 for a write: the abort code, 0 when they pass. -/
def State.writeGrant (s : State) (m : Master) (p : Place) : Nat :=
  let w := s.writer m
  let wr := wrLevel p.obj p.inst
  if wr = 4 then Ab.readOnly
  else if w.level < wr ∨ !w.acts (s.view.scope p.obj p.inst) then Ab.access
  else 0

/-- The catalogue takes accesses: the hub has power and clocks, no reset holds it, and no boundary test has the balls
(R415, R464, R478, R488). -/
def State.catalogueUp (s : State) : Bool :=
  !s.dev.porn && !s.dev.sysrstn && !s.dev.boundary && s.dev.vin && s.dev.vio

/-! ### Accesses of one cycle (R345) -/

/-- A bus master. -/
def isBus : Master → Bool
  | .bus _ => true
  | .port _ => false

/-- Requests of two masters never reach the arbiter in one cycle: those of one master come one after another, and the
dictionary bus passes its requests on one at a time (R345). -/
def serial (a b : Master) : Bool := a = b || (isBus a && isBus b)

/-- The writes performed in this cycle by masters whose requests a request of `m` may meet (R345). -/
def State.sameCycle (s : State) (m : Master) : List Access :=
  s.cat.writes.filter fun w => w.cycle = s.now && w.code = 0 && !serial m w.master

/-- The object of a key is one for all masters (R381). -/
def sharedKey (k : Nat) : Bool :=
  match findObj (k / 16777216) (k / 65536 % 256) with
  | some p => !p.obj.contextual
  | none => true

/-- The object of a key is shadowed. -/
def shadowedKey (k : Nat) : Bool :=
  match findObj (k / 16777216) (k / 65536 % 256) with
  | some p => p.obj.row.s
  | none => false

/-- The state in which the shadowed objects that others wrote in this cycle are staged as before (R345). -/
def State.before (s : State) (m : Master) : State :=
  let put := fun (l : Store Nat) (w : Access) => match w.old with
    | some v => sput (fun _ => v + 1) l w.key v
    | none => l.filter fun e => e.1 ≠ w.key
  { s with cat := { s.cat with
      staged := ((s.sameCycle m).filter fun w => shadowedKey w.key).reverse.foldl put s.cat.staged } }

/-! ### Objects that the management core serves (R27, R378) -/

/-- A request to an object served by firmware wakes the core (R27); when the core does not answer within 2 ms, which is free,
the access ends with FIRMWARE and changes nothing (R378; log 94). -/
def State.byCore (s : State) (run : State → State × Nat) : State × Nat :=
  let t := s.wakeMgmt.draw
  if Config.freeBool s.free then (t, Ab.firmware) else run t

end Sys2Proof.Machine
end

