-- ==== Sys2Proof/Machine/Images.lean ====
section
/-! DEFINITION. The checks that an accession makes (R354): rotas (R105, R106), program images (R57, R285), table
descriptors (R81, R113, R142), pools (R208), rooms (R237, R239, R252) and shard sets (R284). Each is judged on the images
that would be in force after the accession. -/

namespace Sys2Proof.Machine

/-- What the checks compare: the view in force, the one after the accession, and the tables, shed rooms, lost units and
held dies as they will be. -/
structure After where
  old : View
  new : View
  tables : Nat → Table
  shed : List Nat
  lost : List Nat
  held : List Nat

/-- The first row that fails among numbered tests. -/
def firstRow (l : List (Nat × Bool)) : Option Nat := (l.find? Prod.snd).map Prod.fst

/-! ### The rota (R105) -/

/-- A unit 64 to 75 reads a copy of a table that is not complete: an appended trie copy, while the table needs its trie, or
an appended exact-match copy (R113, R142; log 91 for the row). -/
def View.fillingOn (v : View) (tables : Nat → Table) (t u : Nat) : Bool :=
  let tb := tables t
  match (v.tbl t).kind with
  | 1 => tb.needsTrie && u < 68 && tb.filling.any fun c => ((v.pfx t).copySlices c).contains (u - 64)
  | 2 => decide (68 ≤ u) && tb.filling.any fun c => ((v.em t).copySlices c).contains ((u - 68) / 2)
  | _ => false

/-- The first failing row of R105 with the unit and phase at fault where the rule has one. -/
def rotaFault (a : After) : Option (Nat × Option Nat × Option Nat) :=
  let v := a.new
  let q := v.rotaFn
  let P := v.phases
  let scan := fun (us : List Nat) (bad : Nat → Nat → Bool) =>
    us.findSome? fun u => ((List.range P).find? (bad u)).map fun phi => (u, phi)
  let allUnits := List.range 76
  let bays := List.range 64
  let split := fun (u phi : Nat) =>
    let e := q u phi
    rotaKind e = 2 && (match v.regionTable u (rotaRegion e) with
      | none => false
      | some t =>
        let d := v.trn t
        (List.range d.ncopy).any fun c => (d.bays c).contains u && ((a.tables t).filling.contains c ||
          (d.bays c).any fun b => !bayCarries q phi (rotaPort e) (rotaLkp e) (rotaRegion e) b))
  let early := fun (u phi : Nat) =>
    let e := q u phi
    rotaKind e = 2 && (v.enabledSlots a.shed).any fun p => nbit (v.prog p).portmask (rotaPort e) &&
      (v.lkp p (rotaLkp e)).valid && v.fillingOn a.tables (v.lkp p (rotaLkp e)).table u
  let unserved := (v.enabledSlots a.shed).findSome? fun p => (v.lkps p).findSome? fun i =>
    (lanePorts v a.held p).findSome? fun n => (reached P n).find? fun phi =>
      !served q v (a.tables (v.lkp p i).table) a.lost (v.lkp p i).table n i phi
  if P = 0 ∨ 64 < P then some (1, none, none)
  else match scan allUnits fun u phi => rotaKind (q u phi) = 3 || (decide (64 ≤ u) && rotaRegion (q u phi) ≠ 0) with
  | some (u, phi) => some (1, some u, some phi)
  | none =>
  match allUnits.find? fun u => (List.range P).all fun phi => rotaKind (q u phi) ≠ 1 with
  | some u => some (2, some u, none)
  | none =>
  match scan bays fun u phi => rotaKind (q u phi) = 2 && (v.regionTable u (rotaRegion (q u phi))).isNone with
  | some (u, phi) => some (3, some u, some phi)
  | none =>
  match scan bays split with
  | some (u, phi) => some (4, some u, some phi)
  | none =>
  match scan (List.range' 64 12) early with
  | some (u, phi) => some (4, some u, some phi)
  | none =>
  if (List.range 16).any fun r => !withinShares q P v r then some (5, none, none)
  else match unserved with
  | some phi => some (6, none, some phi)
  | none => (transitionFault a.old.rotaFn a.old.phases q P).map fun f => (7, some f.1, some (f.2 % P))

/-! ### Program images (R57, R285) -/

/-- Width of a segment source (R53); none for zero fill. -/
def sourceWidth (src : Nat) : Option Nat :=
  if src = 0 then some 1280 else if src ≤ 12 then some 256 else if src = 13 then some 64
  else if src = 14 then some 128 else none

/-- The segments of a lookup. -/
def View.segsOf (v : View) (p i : Nat) : List Seg := (List.range (v.lkp p i).segs).map (v.seg p i)

/-- The tallies of a program that are enabled, with their stages. -/
def View.tallies (v : View) (p : Nat) : List (Nat × TallyDesc) :=
  ((List.range 4).map fun st => (st, v.tally p st)).filter fun x => x.2.en

/-- The default actions that a view's image of a slot refers to (R57, R216). -/
def View.defaults (v : View) (p : Nat) : List Nat :=
  ((v.lkps p).filter fun i => (v.lkp p i).miss = 1).map fun i => (v.lkp p i).defptr

/-- References to a block that the new image of a slot adds to those of its old one. -/
def After.newRefs (a : After) (p ptr : Nat) : Nat :=
  ((a.new.defaults p).filter (· = ptr)).length - ((a.old.defaults p).filter (· = ptr)).length

/-- Row 8 of R57: the default action of a lookup fails R219, or with the slots before it takes the COUNT of its blocks above
the limit (R217). -/
def badDefault (s : State) (a : After) (p i : Nat) : Bool :=
  let l := a.new.lkp p i
  l.miss = 1 && (match s.ptrCheck a.new (a.new.prog p).room l.defptr (l.deflen + 1) with
    | some 0x64 | none => decide (0 < a.newRefs p l.defptr) &&
        decide (16777215 < (s.alloc l.defptr).count + ((List.range (p + 1)).map fun q => a.newRefs q l.defptr).sum)
    | some _ => true)

/-- The first failing row of R57 and R285. -/
def progFault (s : State) (a : After) (p : Nat) : Option Nat :=
  let v := a.new
  let h := v.prog p
  let ls := v.lkps p
  let lk := v.lkp p
  let valid := fun j => (lk j).valid
  let sh := fun i => (v.setOfTable (lk i).table).isSome
  let anyL := fun (f : Nat → Bool) => ls.any f
  let anySeg := fun (f : Nat → Seg → Bool) => ls.any fun i => (v.segsOf p i).any (f i)
  let sets := (ls.filterMap fun i => v.setOfTable (lk i).table)
  firstRow [
    (1, decide (160 < h.minlen) || (anyL fun i => (lk i).kind = 3 || decide (4 ≤ (lk i).miss) || (lk i).report = 3) ||
      anySeg fun _ g => g.len = 0),
    (2, (anyL fun i => decide (h.stages ≤ i / 4)) ||
      (h.enable && (List.range h.stages).any fun st => !ls.any fun i => i / 4 = st)),
    (3, anyL fun i => !(v.tbl (lk i).table).present || (v.tbl (lk i).table).room ≠ h.room ||
      (v.tbl (lk i).table).kind ≠ (lk i).kind),
    (4, (anyL fun i => ((v.segsOf p i).map Seg.len).sum ≠ v.keyWidth (lk i).table) ||
      anySeg fun _ g => match sourceWidth g.src with | some w => decide (w < g.offset + g.len) | none => false),
    (5, anySeg fun i g => decide (1 ≤ g.src ∧ g.src ≤ 12) &&
      (decide (i / 4 ≤ (g.src - 1) / 4) || !valid (g.src - 1) || !(lk (g.src - 1)).carry)),
    (6, anyL fun i => (lk i).condEn && (decide (i / 4 ≤ (lk i).condLkp / 4) || !valid (lk i).condLkp)),
    (7, decide (9 < (ls.filter fun i => (lk i).report ≠ 0).length)),
    (8, anyL (badDefault s a p)),
    (9, (v.tallies p).any fun x => decide (h.stages ≤ x.1) || x.2.imode = 3 || decide (240 < x.2.aoff) ||
      (x.2.imode = 2 && decide (1264 < x.2.ioff)) || !valid x.2.alkp || decide (x.1 < x.2.alkp / 4)),
    (10, v.counts a.shed p && !slotFeasible v.rotaFn v.phases v a.tables a.lost a.held p),
    (11, anyL fun i => sh i && ((lk i).carry || (lk i).condEn || (lk i).miss = 3 || (lk i).report = 0)),
    (12, (anyL fun i => (lk i).condEn && sh (lk i).condLkp) || (v.tallies p).any fun x => sh x.2.alkp),
    (13, sets.any fun n => sets.headD n ≠ n)]

/-! ### Table descriptors (R81, R113, R142) -/

/-- The table holds entries (R81, R113, R142), by the kind in force. -/
def State.holdsEntries (s : State) (t : Nat) : Bool :=
  let d := s.view.tbl t
  d.present && (match d.kind with
    | 0 => !(s.table t).placed.isEmpty || s.health.removals.any fun r => r.table = t
    | 1 => !(s.table t).entries.isEmpty
    | _ => !(s.emEntries (s.view.em t)).isEmpty)

/-- The lanes of enabled programs whose lookup names a table: port and lookup index. -/
def View.lanesOf (v : View) (shed : List Nat) (t : Nat) : List (Nat × Nat) :=
  (v.enabledSlots shed).flatMap fun p => ((v.lkps p).filter fun i => (v.lkp p i).table = t).flatMap fun i =>
    (setBits 32 (v.prog p).portmask).map fun n => (n, i)

/-- The rota names a copy: its region on one of its bays, or a unit of it in a lane that looks the table up. -/
def rotaNames (a : After) (t : Nat) (bays units : List Nat) (region : Nat) : Bool :=
  let q := a.new.rotaFn
  let lanes := a.new.lanesOf a.shed t
  (List.range a.new.phases).any fun phi =>
    (bays.any fun l => rotaKind (q l phi) = 2 && rotaRegion (q l phi) = region) ||
    units.any fun u => rotaKind (q u phi) = 2 && lanes.contains (rotaPort (q u phi), rotaLkp (q u phi))

/-- An enabled program names the table, and the rota cannot serve it (rows 9, 7 and 6). -/
def unserved (a : After) (t : Nat) : Bool :=
  let v := a.new
  (v.enabledSlots a.shed).any fun p => (v.lkps p).any fun i => (v.lkp p i).table = t &&
    (lanePorts v a.held p).any fun n => (reached v.phases n).any fun phi =>
      !served v.rotaFn v (a.tables t) a.lost t n i phi

/-- Two of a list of ranges of `g` from their starts meet. -/
def rangesMeet (g : Nat) : List Nat → Bool
  | [] => false
  | x :: t => (t.any fun y => decide (x < y + g ∧ y < x + g)) || rangesMeet g t

/-- Two regions overlap in mats, or share a region number (R81 row 6). -/
def regionsClash (a b : Trn) : Bool :=
  let top := fun (d : Trn) => d.base + d.k * (d.nbkt + d.nopen)
  a.region = b.region || decide (a.base < top b ∧ b.base < top a)

/-- Copies of the old descriptor that the new one no longer has. -/
def goneCopies (old new : List Nat) : List Nat := (List.range old.length).drop new.length

/-- The copies that both have differ somewhere. -/
def copiesMoved (old new : List Nat) : Bool := (old.zip new).any fun x => x.1 ≠ x.2

/-- Row 8 of R81 for a table that holds entries. -/
def trnAltered (a : After) (t : Nat) : Bool :=
  let o := a.old.trn t
  let n := a.new.trn t
  o.k ≠ n.k || o.direct ≠ n.direct || o.selcnt ≠ n.selcnt || o.seed ≠ n.seed ||
    a.old.obj .trnSelword t / 256 ≠ a.new.obj .trnSelword t / 256 || o.base ≠ n.base || o.nbkt ≠ n.nbkt ||
    o.nopen ≠ n.nopen || o.region ≠ n.region || o.gsize ≠ n.gsize || copiesMoved o.copies n.copies ||
    (goneCopies o.copies n.copies).any fun c => rotaNames a t (o.bays c) [] o.region

/-- The first failing row of R81 for a descriptor with EXISTS = 1. -/
def trnFault (a : After) (t : Nat) (holds : Bool) : Option Nat :=
  let v := a.new
  let d := v.trn t
  firstRow [
    (1, decide (12 < d.selcnt) || d.nbkt = 0 || decide (36 < d.nbkt) || d.gsize = 7 || (d.copies.any fun c => decide (64 ≤ c)) ||
      d.selpos.any fun x => decide (80 * d.k ≤ x)),
    (2, d.selcnt = 0 && d.nbkt ≠ 1),
    (3, decide (8 < d.k * (1 + d.nopen))),
    (4, d.base % d.k ≠ 0 || decide (36 < d.base + d.k * (d.nbkt + d.nopen))),
    (5, (d.copies.any fun c => c % d.g ≠ 0) || rangesMeet d.g d.copies),
    (6, (v.tablesOf 0).any fun u => u ≠ t && (d.allBays.any fun l => (v.trn u).allBays.contains l) && regionsClash d (v.trn u)),
    (7, d.allBays.any fun l => !v.allotted (v.tbl t).room l),
    (8, holds && trnAltered a t),
    (9, unserved a t)]

/-- Row 6 of R113 for a table that holds entries. -/
def pfxAltered (a : After) (t : Nat) : Bool :=
  let o := a.old.pfx t
  let n := a.new.pfx t
  o.w ≠ n.w || o.direct ≠ n.direct || o.span ≠ n.span || o.strides ≠ n.strides || o.groups.length ≠ n.groups.length ||
    ((List.range 16).any fun i => a.old.obj .pfxGroup t i ≠ a.new.obj .pfxGroup t i) || o.filtlen ≠ n.filtlen || o.seed ≠ n.seed ||
    copiesMoved o.slices n.slices ||
    (goneCopies o.slices n.slices).any fun c => rotaNames a t [] ((o.copySlices c).map (64 + ·)) 0

/-- The strides occupy levels 0 upward without a gap and sum to W (R113 row 2). -/
def badStrides (d : Pfx) : Bool :=
  let used := d.strides.takeWhile (· ≠ 0)
  (d.strides.drop used.length).any (· ≠ 0) || used.sum ≠ d.w

/-- GLEN rises strictly, by at most 8, from at most 8 to W (R113 row 3). -/
def badGroups (d : Pfx) : Bool :=
  let g := d.groups.map Prod.fst
  (g.zip (g.drop 1)).any (fun x => decide (x.2 ≤ x.1 ∨ x.1 + 8 < x.2)) || g.getLast? ≠ some d.w || decide (8 < g.headD 0)

/-- The charges of a slice that the table takes units on exceed it (R113 row 5, R115). -/
def chargesOver (a : After) (t : Nat) : Bool :=
  let v := a.new
  [0, 1, 2, 3].any fun sl => pfxUnits (v.pfx t) (a.tables t) sl ≠ 0 &&
    decide (2097152 < ((v.tablesOf 1).map fun u => pfxUnits (v.pfx u) (a.tables u) sl).sum)

/-- The first failing row of R113 for a descriptor with EXISTS = 1. -/
def pfxFault (a : After) (t : Nat) (holds : Bool) : Option Nat :=
  let d := a.new.pfx t
  firstRow [
    (1, d.w = 256 || d.span = 3 || decide (16 < d.strides.headD 0) || ((d.strides.drop 1).any fun x => decide (14 < x)) ||
      ((List.range 16).any fun i => decide (20 < bits (a.new.obj .pfxGroup t i) 23 19)) || decide (32 < d.filtlen ∨ d.w < d.filtlen)),
    (2, badStrides d),
    (3, badGroups d),
    (4, (d.slices.any fun c => c % d.g ≠ 0) || rangesMeet d.g d.slices),
    (5, chargesOver a t),
    (6, holds && pfxAltered a t),
    (7, unserved a t)]

/-- Row 5 of R142 for a table that holds entries. -/
def emAltered (a : After) (t : Nat) : Bool :=
  let o := a.old.em t
  let n := a.new.em t
  o.wide ≠ n.wide || o.w ≠ n.w || o.inline ≠ n.inline || o.span ≠ n.span || o.nblog ≠ n.nblog || o.base ≠ n.base || o.seed ≠ n.seed ||
    copiesMoved o.slices n.slices ||
    (goneCopies o.slices n.slices).any fun c => rotaNames a t [] ((o.copySlices c).flatMap emUnits) 0

/-- Every slice of every copy. -/
def EmDesc.allSlices (d : EmDesc) : List Nat := (List.range d.ncopy).flatMap d.copySlices

/-- The first failing row of R142 for a descriptor with EXISTS = 1. -/
def emFault (a : After) (t : Nat) (holds : Bool) : Option Nat :=
  let v := a.new
  let d := v.em t
  firstRow [
    (1, d.span = 3 || d.weed = 3 || decide (16 < d.nblog) || d.w = 0 || decide (224 < d.w) || (!d.wide && decide (96 < d.w)) ||
      (d.wide && decide (d.w < 97))),
    (2, d.base % 2 ^ d.nblog ≠ 0),
    (3, (d.slices.any fun c => c % d.g ≠ 0) || rangesMeet d.g d.slices),
    (4, (v.tablesOf 2).any fun u => u ≠ t && (d.allSlices.any fun sl => (v.em u).allSlices.contains sl) &&
      decide (d.base < (v.em u).base + 2 ^ (v.em u).nblog ∧ (v.em u).base < d.base + 2 ^ d.nblog)),
    (5, holds && emAltered a t),
    (6, unserved a t)]

/-- Row numbers of a kind for "holds entries" and "cannot be served". -/
def holdRow (kind : Nat) : Nat := if kind = 0 then 8 else if kind = 1 then 6 else 5

/-- The first failing row of a table's descriptor with the kind it is judged by (R81, R113, R142; log 33 for a KIND that
changes or is reserved). -/
def tableFault (s : State) (a : After) (t : Nat) : Option (Nat × Nat) :=
  let o := a.old.tbl t
  let n := a.new.tbl t
  let holds := s.holdsEntries t
  let kind := if o.present then o.kind else n.kind
  if !n.present then
    if holds then some (holdRow kind, kind) else if unserved a t then some (holdRow kind + 1, kind) else none
  else if o.present && o.kind ≠ n.kind && holds then some (holdRow o.kind, o.kind)
  else
    let holds := holds && o.kind = n.kind
    match n.kind with
    | 0 => (trnFault a t holds).map fun r => (r, 0)
    | 1 => (pfxFault a t holds).map fun r => (r, 1)
    | 2 => (emFault a t holds).map fun r => (r, 2)
    | k => some (1, k)

/-! ### Pools (R208) -/

/-- A program image after the accession holds a default action inside a pool in force. -/
def defaultInto (a : After) (d : Pool) : Bool :=
  (List.range 256).any fun p => (a.new.lkps p).any fun i =>
    (a.new.lkp p i).miss = 1 && d.holds (a.new.lkp p i).defptr 1

/-- The marks of a pool stand in order (R208 row 2). -/
def marksOk (d : Pool) : Bool :=
  let m := [d.notice, d.restrain, d.stop].filter (· ≠ 0)
  (m.all fun x => decide (x ≤ d.size)) && (m.zip (m.drop 1)).all fun x => decide (x.1 ≤ x.2)

/-- The first failing row of R208. -/
def poolFault (s : State) (a : After) (n : Nat) : Option Nat :=
  let o := a.old.pool n
  let d := a.new.pool n
  let inside := s.extents.filter fun e => o.holds e.1 e.2
  let used := o.present && (!inside.isEmpty || defaultInto a o)
  let row4 := used && (o.room ≠ d.room || o.owner ≠ d.owner || o.base ≠ d.base || !d.present ||
    inside.any fun e => decide (d.base + d.size < e.1 + e.2))
  if !d.present then (if row4 then some 4 else none)
  else firstRow [
    (1, d.base % 8 ≠ 0 || d.size = 0 || d.size % 8 ≠ 0 || decide (4194304 < d.base + d.size)),
    (2, !marksOk d),
    (3, (List.range 64).any fun m => m ≠ n && (a.new.pool m).present &&
      decide (d.base < (a.new.pool m).base + (a.new.pool m).size ∧ (a.new.pool m).base < d.base + d.size)),
    (4, row4)]

/-! ### Rooms (R252) -/

/-- The rota after the accession serves every enabled program of a room (R104, R249, R252). -/
def roomServed (a : After) (room : Nat) : Bool :=
  let v := a.new
  ((v.enabledSlots a.shed).filter fun p => (v.prog p).room = room).all
    (slotFeasible v.rotaFn v.phases v a.tables a.lost a.held)

/-! ### Shard sets (R284) -/

/-- An enabled program names a table. -/
def View.enabledNames (v : View) (t : Nat) : Bool :=
  (List.range 256).any fun p => (v.prog p).enable && (v.lkps p).any fun i => (v.lkp p i).table = t

/-- Positions of the own cluster that a device may have to send to for a set (R284 row 5). -/
def CasSet.sendTo (c : CasSet) (dev : Nat) : List Nat :=
  let own := c.entryOf dev
  let collector := match own with | some e => if c.collection then [e.collector] else [] | none => []
  let l := if c.byCtx then (match own with | some e => setBits 16 e.posmask | none => [])
    else if c.owner / 16 = dev / 16 then [c.owner % 16] else collector
  l.filter (· ≠ dev % 16)

/-- The first failing row of R284 for a set; `dev`, `quiet` and `clvalid` as they will be in force. -/
def setFault (a : After) (dev : Nat) (quiet clvalid : Bool) (n : Nat) : Option Nat :=
  let v := a.new
  let o := a.old.set n
  let c := v.set n
  let clusters := c.entries.map ClEntry.cluster
  let tb := v.tbl c.table
  let fabric := match c.entryOf dev with | some e => c.collection && e.collector = dev % 16 | none => false
  let row7 := (o.present || c.present) &&
    (o.room ≠ c.room || o.kind ≠ c.kind || o.table ≠ c.table || (o.present && !c.present)) &&
    (v.enabledNames c.table || (o.present && v.enabledNames o.table))
  firstRow [
    (1, c.kind = 3 || (!c.collection && c.nclust ≠ 0) || (c.collection && (decide (c.fbudget < 120) || decide (10000 < c.fbudget)))),
    (2, !tb.present || tb.room ≠ c.room || tb.kind ≠ c.kind ||
      (List.range 64).any fun m => m ≠ n && (v.set m).present && (v.set m).table = c.table),
    (3, rangesMeet 1 clusters || (c.entries.any fun e => e.posmask = 0 || !nbit e.posmask e.collector) ||
      (!quiet && (c.entryOf dev).isNone)),
    (4, !c.byCtx && !c.members.contains c.owner),
    (5, !quiet && (((c.sendTo dev).any fun q => v.obj .casRoute 0 q = 0) || (fabric && v.obj .casRouteFabric = 0))),
    (6, !clvalid),
    (7, row7)]

end Sys2Proof.Machine
end

