-- ==== Sys2Proof/Machine/Accession.lean ====
section
/-! DEFINITION. Accession (R350 to R355): the staged values that a master's accession takes, its checks, and the switch
cycle at which they take effect (R33). -/

namespace Sys2Proof.Machine

/-! ### Groups (R351) -/

/-- The accession group of a shadowed object. -/
def Obj.group (o : Obj) : Option Nat :=
  if !o.row.s then none
  else
    let b := o.row.base
    if b = 0x5100 then some 1
    else if b = 0x4000 then some 2
    else if b = 0x4100 then some 3
    else if b = 0x4200 then some 4
    else if b = 0x7100 then some 5
    else if b = 0x3000 ∨ o = .guarRestore then some 6
    else if b = 0x6000 ∨ b = 0x6010 ∨ b = 0x6100 then some 7
    else if b = 0x8300 ∨ b = 0x8600 then some 8
    else some 0

/-- The place and the selected entry that a key stands for. -/
def placeOf (k : Nat) : Option (Place × Nat) := (findObj (k / 16777216) (k / 65536 % 256)).map fun p => (p, k % 65536)

/-- The group of a staged key. -/
def groupOf (k : Nat) : Option Nat := (placeOf k).bind fun p => p.1.obj.group

/-- The staged values: those an accession has taken that has not yet switched, under those written since (R350). -/
def State.allStaged (s : State) : Store Nat :=
  s.cat.acc.staged.filter (fun e => !s.cat.staged.any fun x => x.1 = e.1) ++ s.cat.staged

/-- ACC_PENDING: groups with a staged value that differs from the one in force (R352). -/
def State.accPending (s : State) : Nat :=
  maskOf ((s.allStaged.filter fun e => e.2 ≠ sget regDefault s.cat.force e.1).filterMap fun e => groupOf e.1)

/-! ### What an accession takes (R353, R385, R387) -/

/-- Staged entries of the selected groups that the master may write. -/
def State.selected (s : State) (w : Who) (groups : Nat) : Store Nat :=
  s.cat.staged.filter fun e => match placeOf e.1 with
    | none => false
    | some (p, _) => (match p.obj.group with | some g => nbit groups g | none => false) && w.mayWrite s.view p.obj p.inst

/-- Values over those in force. -/
def View.put (v : View) (vals : Store Nat) : View := { v with force := vals.foldl (fun m e => sput regDefault m e.1 e.2) v.force }

/-- A descriptor object of another KIND than the one put in force is ignored (R387). -/
def ofKind (v : View) (o : Obj) (t : Nat) : Bool :=
  if o = .trnSelword ∨ o = .trnCopyword then (v.tbl t).kind = 0
  else if o = .pfxStride ∨ o = .pfxGroup then (v.tbl t).kind = 1
  else true

/-- The selected entries that an accession takes: no rota entry at or above P (R385), no object of another KIND (R387); those
left out stay staged. -/
def State.chosen (s : State) (w : Who) (groups : Nat) : Store Nat :=
  let sel := s.selected w groups
  let v := s.view.put sel
  sel.filter fun e => match placeOf e.1 with
    | none => false
    | some (p, ext) => if p.obj = .rotaData then decide (ext % 64 < v.phases) else ofKind v p.obj p.inst

/-- The staged values that an accession would bring into force: each that was written, also one that equals the value in force
(R353; log 32); GUAR_RESTORE is taken apart. -/
def State.taken (s : State) (w : Who) (groups : Nat) : Store Nat :=
  (s.chosen w groups).filter fun e => match placeOf e.1 with
    | none => false
    | some (p, _) => p.obj ≠ .guarRestore

/-- The rooms that an accession is to restore (R245, R252). -/
def State.restoreAsked (s : State) (w : Who) (groups : Nat) : List Nat :=
  if nbit groups 6 && w.mayWrite s.view .guarRestore 0 then setBits 16 (s.stagedKey (Obj.guarRestore.key)) else []

/-- Instances of objects of a group among values, ascending. -/
def instancesIn (vals : Store Nat) (group : Nat) : List Nat :=
  (vals.filterMap fun e => match placeOf e.1 with
    | some (p, _) => if p.obj.group = some group then some p.inst else none
    | none => none).foldl (fun l i => insertNew i l) []

/-- A value of an object is among those taken. -/
def takes (vals : Store Nat) (o : Obj) : Bool :=
  vals.any fun e => match placeOf e.1 with | some (p, _) => p.obj = o | none => false

/-- The next generation of a program image (R49). -/
def nextPgen (old new : Nat) : Nat := new - bits new 111 108 * 2 ^ 108 + (bits old 111 108 + 1) % 16 * 2 ^ 108

/-- A value among those an accession takes. -/
def setVal (vals : Store Nat) (k v : Nat) : Store Nat := sput (fun _ => v + 1) vals k v

/-- The values with what the device adds: PGEN of each slot whose image is applied (R49), and QUIET when MGEN or the
effective device number changes (R308). -/
def State.adjusted (s : State) (vals : Store Nat) : Store Nat :=
  let v := s.view
  let w := v.put vals
  let vals := (instancesIn vals 3).foldl (fun m p =>
    setVal m (Obj.progHdr.key p) (nextPgen (v.obj .progHdr p) (w.obj .progHdr p))) vals
  let st := s.dev.straps
  if v.device st ≠ w.device st ∨ bits (v.obj .casSelf) 22 15 ≠ bits (w.obj .casSelf) 22 15 then
    let x := w.obj .casSelf
    setVal vals (Obj.casSelf.key) (if nbit x 14 then x else x + 16384)
  else vals

/-! ### Tables after an accession -/

/-- A table number as it is after a descriptor changes: new when it comes to exist or changes KIND (R110), else with its
appended copies being filled (R82, R113, R142). -/
def tableAfter (s : State) (w : View) (t : Nat) : Table :=
  let o := s.view.tbl t
  let n := w.tbl t
  let tb := s.table t
  if !n.present then Table.none
  else if !o.present ∨ o.kind ≠ n.kind then
    let h := n.kind = 1 && (w.pfx t).initHash
    { Table.none with hash := h, hashReady := h, hashHeld := h, trieReady := n.kind = 1 && !h,
                      rebuildWait := n.kind = 0 && s.rebuilding.any fun r => (w.trn t).allBays.contains r.lbay }
  else
    let copies := fun (v : View) => if n.kind = 0 then (v.trn t).ncopy else if n.kind = 1 then (v.pfx t).ncopy else (v.em t).ncopy
    let c0 := copies s.view
    let c1 := copies w
    let app := (List.range c1).filter fun c => decide (c0 ≤ c)
    { tb with filling := (tb.filling.filter fun c => decide (c < c1)) ++ app.filter fun c => !tb.filling.contains c,
              fillPos := if tb.filling.isEmpty then [] else tb.fillPos }

/-- What the checks compare, for an accession of `vals` that restores rooms. -/
def State.after (s : State) (vals : Store Nat) (restore : List Nat) : After :=
  let w := s.view.put vals
  let changed := instancesIn vals 4
  ⟨s.view, w, fun t => if changed.contains t then tableAfter s w t else s.table t,
    s.guar.shed.filter fun r => !restore.contains r, s.guar.lost, s.heldDies⟩

/-! ### The checks (R354) -/

/-- What stops an accession: its abort code, with the record that the failing rule writes. -/
structure Refused where
  code : Nat
  log : Option (Code × Option Nat × List (Nat × Nat))
  deriving DecidableEq, Repr

/-- A unit or phase field of ROTA_REJECT: the one at fault, or a free value where R105 names none (log 34). -/
def State.atFault (s : State) (x : Option Nat) : Nat := x.getD (s.drawn % 256)

/-- The refusal of R105, with its ROTA_REJECT. -/
def State.badRota (s : State) (row : Nat) (u phi : Option Nat) : Refused :=
  ⟨Ab.badRota, some (.rotaReject, none, [(8, row), (8, s.atFault u), (8, s.atFault phi)])⟩

/-- Checks of groups 1 and 2: PORT_ROLE 0b11 (R255), then the rota (R105). -/
def State.checkRota (s : State) (a : After) (vals : Store Nat) : Option Refused :=
  if (instancesIn vals 1).any fun p => a.new.obj .portRole p % 4 = 3 then some ⟨Ab.range, none⟩
  else if (instancesIn vals 2).isEmpty then none
  else (rotaFault a).map fun f => s.badRota f.1 f.2.1 f.2.2

/-- Checks of group 3: each slot whose image changes (R57, R285). -/
def State.checkProgs (s : State) (a : After) (vals : Store Nat) : Option Refused :=
  (instancesIn vals 3).findSome? fun p => (progFault s a p).map fun row =>
    ⟨Ab.badProgram, some (.progReject, some (a.old.prog p).room, [(8, p), (8, row)])⟩

/-- Checks of group 4: each table whose descriptor changes (R81, R113, R142). -/
def State.checkTables (s : State) (a : After) (vals : Store Nat) : Option Refused :=
  (instancesIn vals 4).findSome? fun t => (tableFault s a t).map fun f =>
    ⟨Ab.badTable, some (.tableReject, some (a.old.tbl t).room, [(8, t), (8, f.1), (8, f.2)])⟩

/-- Checks of group 5: each pool whose descriptor changes (R208). -/
def State.checkPools (s : State) (a : After) (vals : Store Nat) : Option Refused :=
  (instancesIn vals 5).findSome? fun n => (poolFault s a n).map fun row =>
    ⟨Ab.badPool, some (.poolReject, some (a.old.pool n).room, [(8, n), (8, row)])⟩

/-- Checks of group 6 in their fixed order: allotments, shares, restores (R354). -/
def State.checkRooms (s : State) (a : After) (vals : Store Nat) (restore : List Nat) : Option Refused :=
  let rooms := (instancesIn (vals.filter fun e => match placeOf e.1 with
    | some (p, _) => p.obj = .roomBaysLo || p.obj = .roomBaysHi | none => false) 6)
  let shares := takes vals .roomShareBay || takes vals .roomSharePfx || takes vals .roomShareEm
  if rooms.any fun r => !allotOk a.new r then some ⟨Ab.allotInUse, none⟩
  else if shares && !sharesOk a.new then some ⟨Ab.shareOver, none⟩
  else if restore.any fun r => !roomServed a r then some (s.badRota 6 none none)
  else none

/-- Checks of group 7 (R284, R313): every set that the accession applies, and every set that exists after it, for a change of
one part may break another (log 33). -/
def State.checkSets (s : State) (a : After) (vals : Store Nat) (cluster : Bool) : Option Refused :=
  if (instancesIn vals 7).isEmpty then none
  else
    let quiet := nbit (a.new.obj .casSelf) 14
    let clvalid := s.cas.clvalid || cluster
    let applied := instancesIn (vals.filter fun e => match placeOf e.1 with
      | some (p, _) => p.obj = .casSet || p.obj = .casSetCl
      | none => false) 7
    let sets := (List.range 64).filter fun n => applied.contains n || (a.new.set n).present
    if s.cas.quarantined && takes vals .casSelf && !quiet then some ⟨Ab.casFenced, none⟩
    else sets.findSome? fun n => (setFault a (a.new.device s.dev.straps) quiet clvalid n).map fun row =>
      ⟨Ab.badCascade, some (.casReject, none, [(8, n), (8, row)])⟩

/-- Every check in ascending group number (R354); `cluster` says that CLUSTER is applied. -/
def State.checkAll (s : State) (a : After) (vals : Store Nat) (restore : List Nat) (cluster : Bool) : Option Refused :=
  match s.checkRota a vals with
  | some r => some r
  | none => match s.checkProgs a vals with
    | some r => some r
    | none => match s.checkTables a vals with
      | some r => some r
      | none => match s.checkPools a vals with
        | some r => some r
        | none => match s.checkRooms a vals restore with
          | some r => some r
          | none => s.checkSets a vals cluster

/-! ### The write of ACCESSION (R354, R355) -/

/-- A refusal: its record, and its code in ACC_STATUS when the checks made it. -/
def State.refuseAcc (s : State) (r : Refused) : State :=
  let s := match r.log with
    | some (c, room, fs) => (s.record c room (if c = Code.poolReject then srcOpen c else hubArbiter) fs).draw
    | none => s
  { s with cat := { s.cat with acc := { s.cat.acc with code := r.code, groups := 0 } } }

/-- An accession that applies `vals` applies a rota. -/
def appliesRota (vals : Store Nat) : Bool := takes vals .rotaPhases || takes vals .rotaData

/-- Default actions that the image of a slot in `w` refers to beyond those of its image in `v`. -/
def moreRefs (v w : View) (p : Nat) : List Nat := (v.defaults p).foldl (fun l b => eraseFirst (· = b) l) (w.defaults p)

/-- The references that new program images add are taken before the images are written (R216). -/
def State.holdDefaults (s : State) (vals : Store Nat) : State :=
  ((instancesIn vals 3).flatMap (moreRefs s.view (s.view.put vals))).foldl State.addRef s

/-- Fixes the switch cycle of an accession: within 1 µs, after every intake cycle already fixed (R33, R354; log 13). The
values it takes are no longer staged for the next accession; GUAR_RESTORE among them is spent (R245). The default actions of
its images are referred to from now on (R216). -/
def State.fixSwitch (s : State) (w : Who) (m : Nat) (groups : Nat) (vals : Store Nat) (restore : List Nat) (cluster : Bool) :
    State :=
  let sel := s.chosen w groups
  let acc : Accession :=
    { s.cat.acc with busy := true, code := 0, groups := BitVec.ofNat 16 groups, switchAt := s.now + 9 + s.drawn % 2491,
                     mid := m, values := vals, staged := sel, cluster := cluster, restore := restore,
                     rota := appliesRota vals }
  let rest := s.cat.staged.filter fun e => !sel.any fun x => x.1 = e.1
  let s := s.holdDefaults vals
  { s with cat := { s.cat with acc := acc, staged := rest }, free := s.free + 1 }

/-- The write of ACCESSION by a master at a level (R354, R355): the state and the abort code. -/
def State.accede (s : State) (w : Who) (m groups : Nat) : State × Nat :=
  if s.dev.phase = .minimal ∧ 2 ≤ groups then (s, Ab.minimal)
  else if groups = 0 then (s, 0)
  else if s.cat.acc.busy then (s, Ab.postedBusy)
  else if s.guar.active then (s, Ab.reducing)
  else
    let taken := s.taken w groups
    let vals := s.adjusted taken
    let asked := s.restoreAsked w groups
    let restore := if appliesRota vals then asked else []
    match s.checkAll (s.after vals asked) vals asked (takes taken .casSelf) with
    | some r => (s.refuseAcc r, r.code)
    | none => (s.fixSwitch w m groups vals restore (takes taken .casSelf), 0)

/-! ### The switch cycle (R33, R107) -/

/-- The copies that a changed descriptor takes anew: every one of a new table, else those appended. -/
def State.newCopies (s : State) (w : View) (t n0 n1 : Nat) : List Nat :=
  let o := s.view.tbl t
  if !(w.tbl t).present then []
  else if !o.present ∨ o.kind ≠ (w.tbl t).kind then List.range n1
  else (List.range n1).filter fun c => decide (n0 ≤ c)

/-- The rows of a table's region in a physical bay hold no entry (R80). -/
def State.clearRegion (s : State) (d : Trn) (b : Nat) : State :=
  let top := d.base + d.k * (d.nbkt + d.nopen)
  let mine := fun (k : Nat) => decide (rowKey b d.base 0 ≤ k ∧ k < rowKey b top 0)
  { s with bays := { s.bays with sides := sclear mine s.bays.sides },
           health := { s.health with poison := s.health.poison.filter fun w =>
             !(w.kind == .side && w.unit = b && mine (rowKey b (w.index / 1024) (w.index % 1024))) } }

/-- The slots of an exact-match table's buckets in a copy hold no entry. -/
def State.clearBuckets (s : State) (d : EmDesc) (c : Nat) : State :=
  let mine := fun (i : Nat) => (d.copySlices c).contains (i / 2097152) &&
    decide (d.base ≤ bits i 18 3 ∧ bits i 18 3 < d.base + 2 ^ d.nblog)
  { s with em := { s.em with slots := sclear mine s.em.slots },
           health := { s.health with poison := s.health.poison.filter fun w => !(w.kind == .emSlot && mine w.index) } }

/-- The copies that a descriptor takes anew start empty. A copy that goes keeps its rows until then, so that an instruction
with the old view still finds them (R33, R107; log 35). -/
def State.takeCopies (s : State) (w : View) (t : Nat) : State :=
  match (w.tbl t).kind with
  | 0 => ((s.newCopies w t (s.view.trn t).ncopy (w.trn t).ncopy).flatMap (w.trn t).bays).foldl (fun s l =>
      match s.view.phys l with
      | some b => s.clearRegion (w.trn t) b
      | none => s) s
  | 2 => (s.newCopies w t (s.view.em t).ncopy (w.em t).ncopy).foldl (fun s c => s.clearBuckets (w.em t) c) s
  | _ => s

/-- The images of a prefix table follow its descriptor: a table without entries has its roots anew, and appended copies get
their nodes and leaves (R113, R118). -/
def State.retrie (s : State) (t : Nat) : State :=
  if (s.view.tbl t).kind ≠ 1 ∨ !(s.view.tbl t).present then s
  else
    let tb := s.table t
    let s := if tb.entries.isEmpty then s.setTable t { tb with nodes := [], leaves := [] } else s
    s.setImages t (s.pfxImages t tb.entries tb.cells (s.current (s.view.tbl t).room))

/-- A table holds nothing to copy: an appended copy is complete at once. -/
def State.copiesDone (s : State) (t : Nat) : State :=
  if (s.table t).filling.isEmpty ∨ s.holdsEntries t then s else s.setTable t { s.table t with filling := [] }

/-- The references that the images of some slots no longer hold go (R216). -/
def State.dropDefaults (s : State) (o w : View) (ps : List Nat) : State := (ps.flatMap (moreRefs w o)).foldl State.dropRef s

/-- Rooms restored at the switch cycle: SHED falls (R252, R358). -/
def State.restoreRoom (s : State) (room : Nat) : State :=
  if s.guar.shed.contains room then
    ({ s with guar := { s.guar with shed := s.guar.shed.filter (· ≠ room) } }).record .guarRestored (some room)
      (srcOpen .guarRestored) [(64, s.now)] 2
  else s

/-- REDUCED clears when an applied rota serves every enabled program of a room (R249). -/
def State.clearReduced (s : State) : State :=
  let a : After := ⟨s.view, s.view, s.table, s.guar.shed, s.guar.lost, s.heldDies⟩
  (s.guar.reduced.filter (roomServed a)).foldl State.unreduce s

/-- QUARANTINED clears: the record names a cause, a device and generations that the spec leaves open, free values, and the
frames since the last one (R307, R358; log 82). Like every record of this code it is written at most once per microsecond
(R305). -/
def State.unquarantine (s : State) : State :=
  let l := s.cas.quar
  if !s.cas.quarantined then s
  else if (match l.last with | none => false | some c => decide (s.now < c + Config.usec)) then
    { s with cas := { s.cas with quarantined := false } }
  else
    (({ s with cas := { s.cas with quarantined := false, quar := ⟨0, 0, 0, some s.now⟩ } }).record .casQuarantine none hubMerge
      [(40, s.drawn % 2 ^ 40), (32, satTo 32 l.count)] 2).draw

/-- The cascade state that an accession changes (R307, R308, R313). -/
def State.switchCas (s : State) (o : View) (cluster : Bool) : State :=
  let st := s.dev.straps
  let s := { s with cas := { s.cas with clvalid := s.cas.clvalid || cluster } }
  if o.device st ≠ s.view.device st ∨ bits (o.obj .casSelf) 22 15 ≠ s.mgen then s.unquarantine else s

/-- The state of every table whose descriptor changes (R82, R110, R113, R142). -/
def State.switchTables (s : State) (w : View) (ts : List Nat) : State :=
  let next := ts.map fun t => (t, tableAfter s w t)
  let s := ts.foldl (fun s t => s.takeCopies w t) s
  next.foldl (fun s x => s.setTable x.1 x.2) s

/-- Every applied value takes effect at one cycle (R33, R354). -/
def State.applyAccession (s : State) (vals : Store Nat) (restore : List Nat) (rota cluster : Bool) : State :=
  let o := s.view
  let ports := (instancesIn vals 1).filter fun p => o.obj .portRole p % 4 ≠ (o.put vals).obj .portRole p % 4
  let tables := instancesIn vals 4
  let s := (s.switchTables (o.put vals) tables).enforce vals
  let s := tables.foldl State.retrie s
  let s := tables.foldl State.copiesDone s
  let s := s.dropDefaults o s.view (instancesIn vals 3)
  let s := (instancesIn vals 5).foldl State.evalMarks s
  let s := s.switchCas o cluster
  let s := restore.foldl State.restoreRoom s
  let s := if rota then s.clearReduced else s
  let s := ports.foldl State.roleChange s
  let s := if s.guar.active then s.planReduction else s
  s.updateDegraded 0xFF

/-- A new data or nominal rate waits for the first bus idle after the response (R329). -/
def State.newRate (s : State) : State :=
  let x := s.view.obj .dbusCfg
  if x = s.bus.rateForce.toNat then { s with bus := { s.bus with rateNext := none } }
  else { s with bus := { s.bus with rateNext := some (BitVec.ofNat 32 x) } }

/-- ACCESSION_SWITCH (R33, R354): the applied values take effect, unchecked once more (log 113). -/
def execAccessionSwitch (s : State) : Host.Outcome State Fault Refusal :=
  let acc := s.cat.acc
  if !acc.busy then .next s
  else
    let s := (s.at acc.switchAt).catchUp
    let s := s.applyAccession acc.values acc.restore acc.rota acc.cluster
    let acc' : Accession := { acc with busy := false, code := 0, values := [], staged := [], cluster := false,
                                       restore := [], rota := false, lastSwitch := s.now }
    let s := { s with cat := { s.cat with acc := acc' } }
    let s := s.record .accApplied none hubArbiter [(16, acc.groups.toNat), (64, s.now), (16, acc.mid)]
    let s := if acc.rota then s.rotaApplied 0 else s
    done (if nbit acc.groups.toNat 0 then s.newRate else s)

/-! ### ACC_DISCARD and filled copies -/

/-- ACC_DISCARD: staged values of the named groups that the writer may write revert, also those that an accession which has
not yet switched has taken, and still applies (R352). -/
def State.discardStaged (s : State) (m : Master) (v : Nat) : State × Nat :=
  let w := s.who m
  let keep := fun (e : Nat × Nat) => match placeOf e.1 with
    | none => true
    | some (p, _) => !((match p.obj.group with | some g => nbit v g | none => false) && w.mayWrite s.view p.obj p.inst)
  ({ s with cat := { s.cat with staged := s.cat.staged.filter keep,
                                acc := { s.cat.acc with staged := s.cat.acc.staged.filter keep } } }, 0)

/-- Fills an appended copy of an exact-match table, every entry at its way, bucket and slot; an uncorrectable slot of copy 0
is uncorrectable in the new copy too (R142; log 92). -/
def State.fillEm (s : State) (d : EmDesc) (c : Nat) : State :=
  let put := fun (s : State) (i : Nat) =>
    let sl := d.slices.getD c 0 + (i / 2097152 - d.slices.getD 0 0)
    let j := moveSlice i sl
    let s := ({ s with em := { s.em with slots := sput (fun _ => 0) s.em.slots j (s.emSlot i) } }).cleanse .emSlot sl j
    if s.poisoned .emSlot (i / 2097152) i then
      { s with health := { s.health with poison := s.health.poison ++ [⟨.emSlot, sl, j⟩] } } else s
  (s.emEntries d).foldl (fun s e => if d.wide then put (put s e.1) (e.1 + 1) else put s e.1) s

/-- The fill of a table's appended copies has not ended: rows are left to write in maintenance slots, a die is held, a bank is
out of service, or a command on the table still runs. -/
def State.fillWaits (s : State) (t : Nat) : Bool :=
  let v := s.view
  let tb := s.table t
  let dies := match (v.tbl t).kind with
    | 0 => (tb.filling.flatMap (v.trn t).bays).map dieOfUnit
    | 1 => tb.filling.flatMap (v.pfx t).copySlices
    | _ => tb.filling.flatMap (v.em t).copySlices
  dies.any s.dieHeld || s.fillHeld t ||
    ((v.tbl t).kind = 0 && (tb.filling.flatMap (v.trn t).bays).any fun l => !(s.fillLeft t l).isEmpty) ||
    ((v.tbl t).kind = 1 && !tb.hash && (v.pfx t).banks.any fun b =>
      tb.filling.any (fun c => ((v.pfx t).copySlices c).contains b.1) && (s.pfx.testing.contains b || s.pfx.dead.contains b))

/-- COPY_FILL_DONE (R82, R113, R142): every appended copy is complete; in a prefix table that ends a build of the trie
image (R135). -/
def execCopyFillDone (table : Fin 256) (s : State) : Host.Outcome State Fault Refusal :=
  let t := table.val
  let tb := s.table t
  if tb.filling.isEmpty || s.fillWaits t then .next s
  else
    let v := s.view
    let s := s.catchUp
    let s := if (v.tbl t).kind = 2 then tb.filling.foldl (fun s c => s.fillEm (v.em t) c) s else s
    let s := s.setTable t { s.table t with filling := [], fillPos := [] }
    .next (if (v.tbl t).kind = 1 && (s.table t).trieReady then
      s.record .pfxBuildDone (some (v.tbl t).room) hubMaint [(8, t), (8, 0)] else s)

end Sys2Proof.Machine
end

