-- ==== Sys2Proof/Machine/Controls.lean ====
section
/-! DEFINITION. Writes of catalogue objects that act on rooms, tables, ports and rings: command registers, editions,
prefix modes, the exact-match clock, pool probes, carrels, PORT_CTRL and DB_CODE_CFG. Each `wr…` gives the state and
the abort code of row 12 of R320. -/

namespace Sys2Proof.Machine

/-! ### Command registers (R179, R180) -/

/-- BUSY of TBL_STATUS (R179). -/
def State.regBusy (s : State) (room : Nat) : Bool := nbit (s.reg .tblStatus room) 31

/-- The staged command image of a room, `n` granules long (R179, R180). -/
def State.stagedFrame (s : State) (room n : Nat) : Frame :=
  let g := fun (i : Nat) => BitVec.ofNat 128 (s.reg .tblStage room i)
  linkFrame 4 1 ⟨g 0, (List.range (n - 1)).map fun i => g (i + 1)⟩

/-- The staged image arrives at its room's queue, BUSY set (R180, R181). -/
def State.queueImage (s : State) (room : Nat) (f : Frame) : State := (s.setReg .tblStatus room 0 0 (2 ^ 31)).submit room f .reg

/-- TBL_CMD (R179, R180). -/
def State.wrTblCmd (s : State) (room v : Nat) : State × Nat :=
  let u := s.completeDue
  if u.regBusy room then (s, Ab.cmdBusy)
  else
    let s := u.setReg .tblCmd room 0 0 (v % 2 ^ 31)
    (if nbit v 31 then s.queueImage room (s.stagedFrame room (bits v 30 27 + 1)) else s, 0)

/-! ### Prefix modes (R135, R136, R387) -/

/-- PFX_MODE_REQ (R135 to R138). -/
def State.wrMode (s : State) (t v : Nat) : State × Nat :=
  let c := s.pfxModeCode t v
  (if c = 0 then s.pfxModeApply t v else s, c)

/-! ### The exact-match engine (R159, R388) -/

/-- EM_TICK: the new length counts from the write (R388). -/
def State.wrTick (s : State) (v : Nat) : State × Nat :=
  let s := s.setReg .emTick 0 0 0 v
  ({ s with em := { s.em with nextTick := s.now + v * Config.msec } }, 0)

/-- EM_LFSR_SEED: every slice takes the seed, 1 in place of 0 (R159). -/
def State.wrSeed (s : State) (v : Nat) : State × Nat :=
  let x : BitVec 32 := if v = 0 then 1 else BitVec.ofNat 32 v
  let l := [0, 1, 2, 3].foldl (fun m i => sput (fun _ => (1 : BitVec 32)) m i x) s.em.lfsr
  let s := s.setReg .emLfsrSeed 0 0 0 v
  ({ s with em := { s.em with lfsr := l } }, 0)

/-! ### Pool probes and carrels (R209, R210, R233) -/

/-- POOL_PROBE_SEL: both probe objects latch the record of one cycle in the writer's context (R209, R381). -/
def State.wrProbe (s : State) (m : Master) (pool block : Nat) : State × Nat :=
  match s.takeCtx m with
  | none => (s, Ab.cmdBusy)
  | some (s, c) =>
    let x := (s.alloc block).image
    (((s.setCtxReg c (Obj.poolProbeSel.key pool) block).setCtxReg c (Obj.poolProbe.key pool) (x / 65536)).setCtxReg c
      (Obj.poolProbeOwner.key pool) (x % 65536), 0)

/-- A clear of a room's carrel runs (R233). -/
def State.clearing (s : State) (room : Nat) : Bool := s.mem.clearing.any fun c => c.room = room

/-- CAR_DATA: the word at the writer's CAR_ADDR, after the tallies and the lines of a clear of this cycle (R233, R234). -/
def State.wrCarData (s : State) (m : Master) (room : Nat) (x : BitVec 64) : State × Nat :=
  let s := s.catchUp
  let w := s.ownReg m .carAddr room
  if s.clearing room then (s, Ab.cmdBusy)
  else if s.tallyWon room w then (s.bump .carSuper room, Ab.superseded)
  else ((s.setCarWord room w x).cleanse .carrel room w, 0)

/-- CAR_CLEAR (R210, R233). -/
def State.wrCarClear (s : State) (room : Nat) : State × Nat :=
  if s.clearing room then (s, Ab.cmdBusy) else (s.catchUp.startClear room, 0)

/-! ### Masked words (R356) and RETRAIN (R262, R280) -/

/-- The bits that a masked write sets (R356). -/
def maskedBits (v : Nat) : Nat := v % 65536 &&& (v / 65536 % 65536)

/-- A masked write sets a bit outside those that are not reserved (R318, R356). -/
def maskedBad (v defined : Nat) : Bool := decide (maskedBits v &&& (0xFFFF ^^^ defined) ≠ 0)

/-- A masked write (R356) of a word whose bits under `kept` are stored: the word after it, with the bits set. -/
def masked (x v kept : Nat) : Nat × Nat :=
  ((x &&& (0xFFFF ^^^ (v / 65536 % 65536)) ||| maskedBits v) &&& kept, maskedBits v)

/-- PORT_CTRL: REQUIRED is stored, RETRAIN acts (R262, R280). -/
def State.wrPortCtrl (s : State) (p v : Nat) : State × Nat :=
  let x := masked (s.reg .portCtrl p) v 2
  let s := s.setReg .portCtrl p 0 0 x.1
  (if nbit x.2 0 then s.retrainHost p else s, 0)

/-! ### The daybook (R370, R492) -/

/-- DB_CODE_CFG: the class and FW bit of the code that the writer selected (R370, R492). -/
def State.wrCodeCfg (s : State) (m : Master) (v : Nat) : State × Nat :=
  let k := s.ownReg m .dbCodeSel
  if (codeOf k).isNone then (s, Ab.range) else (s.setReg .dbCodeCfg 0 0 k v, 0)

end Sys2Proof.Machine
end

