-- ==== Sys2Proof/Machine/Crypto.lean ====
section
/-! DEFINITION. SHA-384, HMAC-SHA-384 and the verification of ECDSA P-384 signatures, which R324, R325, R404 to R407 and
R427 name (PRESUMED: FIPS 180-4, FIPS 198-1 and FIPS 186-4; log 36). -/

namespace Sys2Proof.Machine

/-! ### SHA-384 -/

/-- The greatest number above `r` by less than `2 ^ n` whose `d`-th power is at most `v` (`r` itself where none is). -/
def rootFrom (d v : Nat) : Nat → Nat → Nat
  | 0, r => r
  | n + 1, r => if v < (r + 2 ^ n) ^ d then rootFrom d v n r else rootFrom d v n (r + 2 ^ n)

/-- The first 64 bits of the fraction of the `d`-th root of `p`, a number below 512. -/
def rootFraction (d p : Nat) : Nat := rootFrom d (p * 2 ^ (64 * d)) 69 0 % 2 ^ 64

/-- The primes from 2 on: the first 80 end with 409. -/
def shaPrimes : List Nat := (List.range 410).filter fun n => 2 ≤ n && (List.range 19).all fun q => n ≤ q + 2 || n % (q + 2) ≠ 0

/-- A 64-bit sum. -/
def w64 (x : Nat) : Nat := x % 2 ^ 64

/-- The exclusive or of a 64-bit word turned right by each of `turns`, and of `x`. -/
def turned (w : Nat) (turns : List Nat) (x : Nat) : Nat :=
  turns.foldl (fun acc n => acc ^^^ (w / 2 ^ n + w % 2 ^ n * 2 ^ (64 - n))) x

/-- What the rounds have made so far, the newest first: `sums` are the words a round puts in front of the first half of the
working variables, `mids` those it puts in front of the second half, and `msg` the words of the message schedule. The working
variables of a round are the first four of `sums` and of `mids`. -/
structure ShaTape where
  sums : List Nat
  mids : List Nat
  msg : List Nat
  deriving DecidableEq, Repr

/-- The message word of round `16 + i`, from the 16 before it, the newest first. -/
def ShaTape.nextWord (t : ShaTape) : Nat :=
  let back := fun i => t.msg.getD (i - 1) 0
  w64 (back 16 + turned (back 15) [1, 8] (back 15 / 2 ^ 7) + back 7 + turned (back 2) [19, 61] (back 2 / 2 ^ 6))

/-- One round with the constant `k` and the message word `w`. -/
def ShaTape.turn (t : ShaTape) (k w : Nat) : ShaTape :=
  let s := fun i => t.sums.getD i 0
  let m := fun i => t.mids.getD i 0
  let picked := m 2 ^^^ (m 0 &&& (m 1 ^^^ m 2))
  let voted := (s 0 &&& s 1) ||| (s 2 &&& (s 0 ||| s 1))
  let first := w64 (k + w + m 3 + picked + turned (m 0) [14, 18, 41] 0)
  { sums := w64 (first + voted + turned (s 0) [28, 34, 39] 0) :: t.sums, mids := w64 (first + s 3) :: t.mids
    msg := w :: t.msg }

/-- The rounds of `ks`, the first of them on the words of the block that are left (`ws`), the others on the schedule's. -/
def ShaTape.turns : List Nat → List Nat → ShaTape → ShaTape
  | [], _, t => t
  | k :: ks, [], t => ShaTape.turns ks [] (t.turn k t.nextWord)
  | k :: ks, w :: ws, t => ShaTape.turns ks ws (t.turn k w)

/-- The block's 16 words. -/
def shaWords (b : List Byte) : List Nat := (List.range 16).map fun i => ofBytesBE ((b.drop (8 * i)).take 8)

/-- One block on the eight words of the hash value, with the round constants `ks`. -/
def shaBlock (ks h : List Nat) (b : List Byte) : List Nat :=
  let t := ShaTape.turns ks (shaWords b) ⟨h.take 4, h.drop 4, []⟩
  List.zipWith (fun x y => w64 (x + y)) h (t.sums.take 4 ++ t.mids.take 4)

/-- `n` blocks, from the message's start. -/
def shaBlocks (ks : List Nat) : Nat → List Byte → List Nat → List Nat
  | 0, _, h => h
  | n + 1, m, h => shaBlocks ks n (m.drop 128) (shaBlock ks h (m.take 128))

/-- What follows a message of `n` bytes: the end mark, zeros to 16 bytes short of a block's end, and its length in bits. -/
def shaTail (n : Nat) : List Byte := 0x80 :: (List.replicate ((239 - n % 128) % 128) 0 ++ bytesBE 16 (8 * n))

/-- SHA-384: 48 bytes. The round constants are the fractions of the cube roots of the first 80 primes, the hash value begins
with those of the square roots of the ninth prime to the sixteenth. -/
def sha384 (m : List Byte) : List Byte :=
  let p := m ++ shaTail m.length
  let first := ((shaPrimes.drop 8).take 8).map (rootFraction 2)
  ((shaBlocks (shaPrimes.map (rootFraction 3)) (p.length / 128) p first).take 6).flatMap (bytesBE 8)

/-- HMAC-SHA-384. -/
def hmac (key m : List Byte) : List Byte :=
  let k := if 128 < key.length then sha384 key else key
  let k := k ++ List.replicate (128 - k.length) 0
  sha384 (k.map (· ^^^ 0x5C) ++ sha384 (k.map (· ^^^ 0x36) ++ m))

/-! ### P-384 -/

/-- The field prime, the group order, the coefficient b and the base point. -/
def p384P : Nat := 2 ^ 384 - 2 ^ 128 - 2 ^ 96 + 2 ^ 32 - 1
def p384N : Nat := 0xffffffffffffffffffffffffffffffffffffffffffffffffc7634d81f4372ddf581a0db248b0a77aecec196accc52973
def p384B : Nat := 0xb3312fa7e23ee7e4988e056be3f82d19181d9c6efe8141120314088f5013875ac656398d8a2ed19d2a85c8edd3ec2aef
def p384Gx : Nat := 0xaa87ca22be8b05378eb1c71ef320ad746e1d3b628ba79b9859f741e082542a385502f25dbf55296c3a545e3872760ab7
def p384Gy : Nat := 0x3617de4a96262c6f5d9e98bf9292dc29f8f41dbd289a147ce9da3113b5f0b8c00a60b1ce1d7e819d7a431d7c90ea0e5f

/-- Powers modulo `m`, over `n` bits of the exponent. -/
def powMod (m b : Nat) : Nat → Nat → Nat
  | 0, _ => 1
  | n + 1, e =>
    let h := powMod m b n (e / 2)
    let h := h * h % m
    if e % 2 = 1 then h * b % m else h

/-- The inverse modulo a 384-bit prime. -/
def invMod (m x : Nat) : Nat := powMod m x 384 (m - 2)

/-- Products and differences in the field. -/
def fmul (x y : Nat) : Nat := x * y % p384P
def fsub (x y : Nat) : Nat := (x + p384P - y % p384P) % p384P

/-- A point in Jacobian coordinates; `z` is 0 at infinity. -/
structure Jac where
  x : Nat
  y : Nat
  z : Nat
  deriving DecidableEq, Repr

/-- Twice a point. -/
def Jac.dbl (q : Jac) : Jac :=
  let d := fmul q.z q.z
  let g := fmul q.y q.y
  let b := fmul q.x g
  let a := fmul 3 (fmul (fsub q.x d) (q.x + d))
  let x := fsub (fmul a a) (8 * b)
  ⟨x, fsub (fmul a (fsub (4 * b) x)) (8 * fmul g g), fmul 2 (fmul q.y q.z)⟩

/-- The sum of two points. -/
def Jac.add (p q : Jac) : Jac :=
  if p.z = 0 then q
  else if q.z = 0 then p
  else
    let z1 := fmul p.z p.z
    let z2 := fmul q.z q.z
    let u1 := fmul p.x z2
    let u2 := fmul q.x z1
    let s1 := fmul p.y (fmul z2 q.z)
    let s2 := fmul q.y (fmul z1 p.z)
    if u1 = u2 then (if s1 = s2 then p.dbl else ⟨1, 1, 0⟩)
    else
      let h := fsub u2 u1
      let r := fsub s2 s1
      let h2 := fmul h h
      let h3 := fmul h2 h
      let v := fmul u1 h2
      let x := fsub (fsub (fmul r r) h3) (2 * v)
      ⟨x, fsub (fmul r (fsub v x)) (fmul s1 h3), fmul h (fmul p.z q.z)⟩

/-- A multiple of a point, over `n` bits of the factor. -/
def Jac.mul (q : Jac) : Nat → Nat → Jac
  | 0, _ => ⟨1, 1, 0⟩
  | n + 1, k =>
    let h := (q.mul n (k / 2)).dbl
    if k % 2 = 1 then h.add q else h

/-- A point lies on the curve. -/
def onCurve (x y : Nat) : Bool :=
  decide (x < p384P ∧ y < p384P) && decide (fmul y y = (fmul (fmul x x) x + p384B + fsub 0 (3 * x)) % p384P)

/-- ECDSA P-384 with SHA-384: `sig` (r then s) verifies over `m` with the public key `key` (x then y) (R404). -/
def ecdsaVerify (key m sig : List Byte) : Bool :=
  let x := ofBytesBE (key.take 48)
  let y := ofBytesBE ((key.drop 48).take 48)
  let r := ofBytesBE (sig.take 48)
  let s := ofBytesBE ((sig.drop 48).take 48)
  let e := ofBytesBE (sha384 m)
  if onCurve x y && decide (1 ≤ r ∧ r < p384N ∧ 1 ≤ s ∧ s < p384N) then
    let w := invMod p384N s
    let q := (Jac.mul ⟨p384Gx, p384Gy, 1⟩ 384 (e * w % p384N)).add (Jac.mul ⟨x, y, 1⟩ 384 (r * w % p384N))
    q.z ≠ 0 && decide (fmul q.x (invMod p384P (fmul q.z q.z)) % p384N = r)
  else false

end Sys2Proof.Machine
end

