-- ==== Sys2Proof/Machine/Vault.lean ====
section
/-! DEFINITION. The vault: its words and keys (R424 to R427), the life cycle (R429 to R432), tamper (R433 to R435), and the
end of posted writes (R347, R348). -/

namespace Sys2Proof.Machine

/-! ### Vault words (R424, R425) -/

/-- Changes the vault. -/
def State.setVault (s : State) (f : Vault → Vault) : State := { s with vault := f s.vault }

/-- The firmware-signing key digest as bytes (R414). -/
def State.fwKeyDigest (s : State) : List Byte := (List.range 12).flatMap fun i => bytesBE 4 (s.vaultWord (0x1F4 + i))

/-- FW_POLICY is VERIFY (R414, R424). -/
def State.verifyPolicy (s : State) : Bool := nbit (s.vaultWord 0x10) 0

/-- A VAULT_DATA write of `v` at word `a` would leave the digest all zero (R425). -/
def State.clearsDigest (s : State) (a v : Nat) : Bool :=
  decide (0x1F4 ≤ a) && v = 0 && (List.range 12).all fun i => 0x1F4 + i = a || s.vaultWord (0x1F4 + i) = 0

/-- Index of the vault's block state (R394). -/
abbrev vaultIdx : Nat := 0xA100

/-- VAULT_DATA: a posted write of the word at the writer's VAULT_ADDR (R348, R425, R435). -/
def State.wrVaultData (s : State) (m : Master) (v : Nat) : State × Nat :=
  let a := s.ownReg m .vaultAddr
  if (s.block vaultIdx).busy then (s, Ab.postedBusy)
  else if 0x10 ≤ a ∧ a ≤ 0xF7 then (s, Ab.access)
  else if s.tamperActive then (s, Ab.tamperActive)
  else if s.verifyPolicy && s.clearsDigest a v then (s, Ab.noFwKey)
  else (s.setBlock vaultIdx { s.block vaultIdx with busy := true, sub := 2, value := v, addr := a }, 0)

/-- The vault's posted write takes effect, or is discarded while a tamper cause is present (R348, R438). -/
def State.endVaultWrite (s : State) : State :=
  let b := s.block vaultIdx
  if !b.busy then s
  else if s.tamperActive then s.setBlock vaultIdx { b with busy := false, code := Ab.tamperActive }
  else (s.setVaultWord b.addr b.value).setBlock vaultIdx { b with busy := false, code := 0 }

/-- POSTED_DONE: the posted write of an index takes effect and BUSY clears (R347, R348). -/
def execPostedDone (index : BitVec 16) (s : State) : Host.Outcome State Fault Refusal :=
  let k := index.toNat
  if k = vaultIdx then .next s.endVaultWrite
  else match (List.range 16).find? fun r => roomIdx r = k with
    | some r => .next (s.endClear r)
    | none => .next s

/-! ### Policy and keys (R414, R426) -/

/-- FW_POLICY (R414, R435). -/
def State.wrPolicy (s : State) (v : Nat) : State × Nat :=
  if s.tamperActive then (s, Ab.tamperActive)
  else if v = 1 && s.fwKeyDigest.all (· = 0) then (s, Ab.noFwKey)
  else (s.setVaultWord 0x10 v, 0)

/-- The 48 bytes of key `k` (R424). -/
def State.keyBytes (s : State) (k : Nat) : List Byte := (List.range 12).flatMap fun i => bytesBE 4 (s.vaultWord (0x20 + 12 * k + i))

/-- KEY_STATE: the keys that are not zero (R426). -/
def State.keyState (s : State) : Nat := maskOf ((List.range 18).filter fun k => !(s.keyBytes k).all (· = 0))

/-- Writes the 12 words of a key (R424). -/
def State.putKey (s : State) (k : Nat) (key : List Byte) : State :=
  (List.range 12).foldl (fun s i => s.setVaultWord (0x20 + 12 * k + i) (ofBytesBE ((key.drop (4 * i)).take 4))) s

/-- Sessions proved with key `k`, and those opened under TK when a Keeper key is loaded, end, but for that of `m` (R426,
R438). -/
def State.endKeySessions (s : State) (m : Master) (k : Nat) (loaded : Bool) : State :=
  (List.range 48).foldl (fun s n =>
    let x := s.session n
    if x.isOpen && ((x.proved && x.keyNo = k) || (k = 17 && loaded && x.keyNo = 18)) && s.sessionOf m ≠ some n then s.endSession n 8 else s) s

/-- KEY_LOAD (R426, R431, R435). -/
def State.wrKeyLoad (s : State) (m : Master) (v : List Byte) : State × Nat :=
  let k := (v.headD 0).toNat
  let key := v.drop 1
  if s.lcState = 0 ∨ s.lcState = 4 then (s, Ab.lcKeys)
  else if s.tamperActive then (s, Ab.tamperActive)
  else
    let erased := key.all (· = 0)
    let s := (s.putKey k key).endKeySessions m k !erased
    (s.record .keyLoaded none srcFw [(8, k), (8, if erased then 2 else 1)], 0)

/-! ### Life cycle (R429, R430) -/

/-- The permitted targets of a life-cycle state (R429). -/
def lcTargets (from_ : Nat) : List Nat :=
  if from_ = 0 then [1, 4] else if from_ = 1 then [2, 3, 4] else if from_ = 2 then [3, 4] else if from_ = 3 then [4] else []

/-- The secure carrel is set to zero (R235). -/
def State.wipeSecure (s : State) : State :=
  { s with mem := { s.mem with secure := [] },
           health := { s.health with poison := s.health.poison.filter fun w => w.kind ≠ .secure } }

/-- LC_REQ, steps 1 to 3 (R430). -/
def State.wrLcReq (s : State) (v : Nat) : State × Nat :=
  if !(lcTargets s.lcState).contains v then (s, Ab.lcTransition)
  else if s.tamperActive then (s, Ab.tamperActive)
  else if s.vault.lcTarget.isSome then (s, Ab.cmdBusy)
  else
    let s := s.setVault fun x => { x with words := sclear (fun a => 16 ≤ a) x.words, uncorr := x.uncorr.filter (· < 16),
                                          debug := x.debug && !(v = 2 || v = 4), lcTarget := some v }
    (s.wipeSecure, 0)

/-- The fuses of the target bit are blown. -/
def State.blow (s : State) (t : Nat) : State :=
  { s with boot := { s.boot with otp := { s.boot.otp with fuses := s.boot.otp.fuses ||| BitVec.ofNat 4 (2 ^ (t - 1)) } } }

/-- LC_FUSE_DONE: steps 4 and 5 of R430; `blown` is what the read-back shows. -/
def execLcFuseDone (blown : Bool) (s : State) : Host.Outcome State Fault Refusal :=
  match s.vault.lcTarget with
  | none => .next s
  | some t =>
    let old := s.lcState
    let s := (if blown then s.blow t else s).setVault fun x => { x with lcTarget := none }
    let s := s.setVaultWord 0x11 s.lcState
    done (if blown then (s.endSessions 6).record .lcChanged none srcFw [(8, old), (8, t)]
      else s.record .lcFail none srcFw [(8, old), (8, t)])

/-! ### Tamper (R433 to R435) -/

/-- The hub core is powered (R434, R464). -/
def State.hubPowered (s : State) : Bool := s.dev.vin && s.dev.vio

/-- A tamper event of a source (R434, R438). -/
def State.tamperEvent (s : State) (source : Nat) : State :=
  let v := s.vault
  let s := s.setVault fun x => { x with words := [], uncorr := [], intact := false, tamperCnt := x.tamperCnt + 1 }
  if s.hubPowered then (s.wipeSecure.endVaultWrite).endSessions 5
  else
    let at_ := s.vclockNow
    s.setVault fun x => { x with latchCount := min 255 (v.latchCount + 1),
                                 latchSource := if v.latchCount = 0 then source else v.latchSource,
                                 latchTime := if v.latchCount = 0 then at_ else v.latchTime }

/-- A source is enabled by TAMPER_CFG. -/
def State.tamperEnabled (s : State) (source : Nat) : Bool := nbit s.vault.cfg.toNat source

/-- A bit of TAMPER_CAUSE changes: recorded, and a tamper event when an enabled one rises (R434). -/
def State.tamperBit (s : State) (source : Nat) (present : Bool) : State :=
  let s := s.setVault fun x => { x with cause := x.cause ^^^ BitVec.ofNat 5 (2 ^ source) }
  let s := if s.catalogueUp then s.record .tamper none (srcOpen .tamper)
      [(8, source), (8, b2n (s.tamperEnabled source)), (48, s.vclockNow.toNat)] (if present then 1 else 2) else s
  if present && s.tamperEnabled source then s.tamperEvent source else s

/-- TAMPER_CAUSE_CHANGE (R433): the monitors run on VAON, and CLOCK is masked until ACLK has qualified (R476). -/
def execTamperCauseChange (source : Fin 5) (present : Bool) (s : State) : Host.Outcome State Fault Refusal :=
  let i := source.val
  if !s.dev.vaon || nbit s.vault.cause.toNat i = present || (i = 1 && present && s.vault.clockMasked) then .next s
  else done (s.tamperBit i present)

/-- TAMPER_CFG: enabling a source whose cause is present is a tamper event (R434). -/
def State.wrTamperCfg (s : State) (v : Nat) : State × Nat :=
  if !s.dev.vaon then (s, Ab.tamperActive)
  else
    let old := s.vault.cause.toNat &&& s.vault.cfg.toNat
    let new := s.vault.cause.toNat &&& v
    let s := s.setVault fun x => { x with cfg := BitVec.ofNat 16 v }
    (((setBits 5 new).filter fun i => !nbit old i).foldl State.tamperEvent s, 0)

/-! ### The VAON supply (R422, R438, R476) -/

/-- The vault SRAM and register file as R422 leaves them. -/
def State.blankVault (s : State) : State :=
  s.setVault fun x => { x with words := [], uncorr := [], intact := false, vclock := 0, vclockAt := s.now, tamperCnt := 0,
                               latchCount := 0, latchSource := 0, latchTime := 0, cfg := 0x001F, lastStep := 0 }

/-- VAON_LOSS: the vault and its register file are lost (R422, R438). -/
def execVaonLoss (s : State) : Host.Outcome State Fault Refusal :=
  if !s.dev.vaon then .next s
  else .next ({ s with dev := { s.dev with vaon := false } }.blankVault).endVaultWrite

/-- VAON_RISE: the vault domain is reset (R422) and CLOCK is masked, so that its cause is not present (R476). -/
def execVaonRise (s : State) : Host.Outcome State Fault Refusal :=
  if s.dev.vaon then .next s
  else
    let s := ({ s with dev := { s.dev with vaon := true } }.blankVault).setVault fun x => { x with clockMasked := true }
    if nbit s.vault.cause.toNat 1 then done (s.tamperBit 1 false) else .next s

end Sys2Proof.Machine
end

