-- ==== Sys2Proof/Machine/Update.lean ====
section
/-! DEFINITION. Firmware images and their checks (R403 to R406), firmware update (R417, R420) and provenance reports
(R407 to R409). -/

namespace Sys2Proof.Machine

/-! ### Images in flash (R403, R404; an erased byte reads 0xFF, log 4) -/

/-- An image region: false is A, true is B. -/
def State.imageMem (s : State) (b : Bool) : Store Byte := if b then s.boot.flash.b else s.boot.flash.a

/-- Writes an image region. -/
def State.setImage (s : State) (b : Bool) (m : Store Byte) : State :=
  let f := s.boot.flash
  { s with boot := { s.boot with flash := if b then { f with b := m } else { f with a := m } } }

/-- What an erased byte of flash reads as. -/
def erased (_ : Nat) : Byte := 0xFF

/-- `n` bytes of an image region from an offset. -/
def flashBytes (m : Store Byte) (at_ n : Nat) : List Byte := sgets erased m at_ n

/-- The 512-byte header of an image region. -/
def imageHeader (m : Store Byte) : List Byte := flashBytes m 0 512

/-- BODY_LEN (R404). -/
def bodyLen (h : List Byte) : Nat := ofBytesLE ((h.drop 8).take 4)

/-- The checks of R404 other than COMMIT. -/
def headerOk (h : List Byte) : Bool :=
  let z := fun (at_ n : Nat) => ((h.drop at_).take n).all (· = 0)
  h.take 4 = [0x4F, 0x5A, 0x46, 0x57] && (h.drop 4).take 2 = [1, 0] && z 6 2 &&
    decide (4 ≤ bodyLen h ∧ bodyLen h ≤ 4193792 ∧ bodyLen h % 4 = 0) && z 12 4 && z 272 236

/-- COMMIT is 0 (R404). -/
def committed (h : List Byte) : Bool := ((h.drop 508).take 4).all (· = 0)

/-- An image is valid (R404). -/
def State.imageValid (s : State) (b : Bool) : Bool :=
  let h := imageHeader (s.imageMem b)
  headerOk h && committed h

/-- The body of an image. -/
def imageBody (m : Store Byte) : List Byte := flashBytes m 512 (bodyLen (imageHeader m))

/-- BODY_DIGEST, SIGNER and SIGNATURE (R404). -/
def bodyDigest (h : List Byte) : List Byte := (h.drop 32).take 48
def signer (h : List Byte) : List Byte := (h.drop 80).take 96
def signature (h : List Byte) : List Byte := (h.drop 176).take 96

/-- The first check of R406 that fails: its order, 0 when all pass. `key` is the firmware-signing key digest. -/
def policyFault (verify : Bool) (key h body : List Byte) : Nat :=
  if sha384 body ≠ bodyDigest h then 1
  else if !verify then 0
  else if key.all (· = 0) then 2
  else if sha384 (signer h) ≠ key then 3
  else if !ecdsaVerify (signer h) (h.take 176) (signature h) then 4
  else 0

/-! ### The current slot of the start record (R412) -/

/-- The current slot and its number; none when no slot is valid. -/
def State.currentSlot (s : State) : Option (Nat × SlotView) :=
  let a := s.slotBytes 0
  let b := s.slotBytes 1
  let d := (slotView b).seq - (slotView a).seq
  if slotOk a && slotOk b then
    (if 1 ≤ d.toNat ∧ d.toNat ≤ 32767 then some (1, slotView b) else some (0, slotView a))
  else if slotOk a then some (0, slotView a)
  else if slotOk b then some (1, slotView b)
  else none

/-- An UPDATED slot for an image (R411, R417; log 38). -/
def State.updatedImage (s : State) (seq : BitVec 16) (b : Bool) : List Byte :=
  let a := s.boot.attempt
  let own := ofBytesBE (((s.slotBytes a.slot).drop 8).take 2)
  let x := bytesBE 28 (pack [(16, seq.toNat), (8, 4), (8, 0), (8, 0), (16, 0), (1, b2n b), (1, b2n b), (1, b2n a.policy),
    (1, 0), (1, 0), (3, a.cause), (16, own), (64, ofBytesBE ((a.imgTag ++ List.replicate 8 0).take 8)), (8, 0), (72, 0)])
  x ++ bytesBE 4 (frameCrc x)

/-- Writes the UPDATED slot into the slot that is not current (R412, R417). -/
def State.writeUpdated (s : State) (b mirrorFail : Bool) : State :=
  let c := s.currentSlot
  let n := match c with | some (n, _) => 1 - n | none => 1
  let seq : BitVec 16 := match c with | some (_, v) => v.seq + 1 | none => 1
  let s := s.setAttempt fun a => { a with mirrorFail := mirrorFail, fails := 0 }
  let x := s.updatedImage seq b
  (s.putSlot n x true).mirrorSlot x

/-! ### Firmware update (R417, R420) -/

/-- Changes the update engine. -/
def State.setUpd (s : State) (f : FwUpd → FwUpd) : State := { s with boot := { s.boot with upd := f s.boot.upd } }

/-- FW_UPD_TARGET (R417, R432): the target is erased from here on (log 37). -/
def State.wrUpdTarget (s : State) (v : Nat) : State × Nat :=
  let b := v = 1
  if s.lcState = 4 then (s, Ab.lcScrapped)
  else if s.boot.upd.busy then (s, Ab.cmdBusy)
  else if s.dev.phase ≠ .minimal ∧ s.boot.active = b then (s, Ab.imageActive)
  else ((s.setImage b []).setUpd fun u => { u with busy := true, erasing := true, ready := false, target := b, received := 0 }, 0)

/-- FW_ERASE_DONE: the erase of the target region ends, or fails (R417, R418). -/
def execFwEraseDone (ok : Bool) (s : State) : Host.Outcome State Fault Refusal :=
  if !s.boot.upd.erasing then .next s
  else .next (s.setUpd fun u => { u with busy := false, erasing := false, ready := ok, code := if ok then 0 else Ab.flashErr })

/-- The download of an image begins (R417). -/
def State.beginImage (s : State) : State := s.setUpd fun u => { u with busy := true, received := 0 }

/-- Programs received bytes in order; bytes 508 to 511 are not programmed, nor any beyond the region (R417). -/
def State.program (s : State) (l : List Byte) : State :=
  let u := s.boot.upd
  let go := fun (m : Store Byte) (e : Byte × Nat) =>
    let k := u.received + e.2
    if (508 ≤ k ∧ k < 512) ∨ 4194304 ≤ k then m else sput erased m k e.1
  (s.setImage u.target ((l.zip (List.range l.length)).foldl go (s.imageMem u.target))).setUpd fun u =>
    { u with received := u.received + l.length }

/-- The outcome of a download: step 4 of R417, and the length of the object. -/
def State.imageCode (s : State) (flashOk : Bool) : Nat :=
  let m := s.imageMem s.boot.upd.target
  let h := imageHeader m
  if s.boot.upd.received ≠ 4194304 then Ab.typeLength
  else if !flashOk then Ab.flashErr
  else if !headerOk h then Ab.imageHeader
  else
    let f := policyFault s.boot.attempt.policy s.fwKeyDigest h (imageBody m)
    if f = 0 then 0 else if f = 1 then Ab.imageDigest else if f = 4 then Ab.imageSig else Ab.imageKey

/-- Steps 4 to 6 of R417: checks, commit, slot, records. -/
def State.endImage (s : State) (flashOk mirrorFail : Bool) : State :=
  let b := s.boot.upd.target
  let c := s.imageCode flashOk
  let s :=
    if c = 0 then
      let m := [508, 509, 510, 511].foldl (fun m k => sput erased m k 0) (s.imageMem b)
      let tag := ofBytesBE ((bodyDigest (imageHeader m)).take 8)
      ((s.setImage b m).writeUpdated b mirrorFail).record .fwUpdateDone none srcFw [(8, b2n b), (64, tag)]
    else s.record .fwUpdateFail none srcFw [(8, b2n b), (8, c)]
  s.setUpd fun u => { u with busy := false, ready := false, code := c }

/-- A SEG_ACK of the device (R333, R335). -/
def State.segAckPdu (s : State) (q : Pdu) (received code : Nat) : Pdu := s.respond q 0x08 (bytesLE 4 received ++ [byte code])

/-- A transfer of a firmware image (R335, R395). -/
def Transfer.image (t : Transfer) : Bool := t.download && t.index = 0xF000 && t.sub = 0x21

/-- FW_UPD_IMAGE: the last segment of a master's image download is programmed, checked and committed (R417). `last` holds
its bytes, or is empty when SEG_DATA brought them. -/
def execFwUpdImage (m : Master) (last : List Byte) (flashOk mirrorFail : Bool) (s : State) :
    Host.Outcome State Fault Refusal :=
  match s.transferOf m with
  | none => .next s
  | some t =>
    if !t.image || (last.isEmpty && t.last ≠ 64) then .next s
    else
      let s := if t.last = 64 then s else s.program last
      let s := s.endImage flashOk mirrorFail
      let s := { s with cat := { s.cat with transfers := s.cat.transfers.filter fun x => x.master ≠ m } }
      done (s.sendPdu (s.segAckPdu t.req s.boot.upd.received s.boot.upd.code))

/-! ### Provenance reports (R407 to R409) -/

/-- ASCII of a label. -/
def ascii (x : String) : List Byte := x.toList.map fun c => BitVec.ofNat 8 c.toNat

/-- `derive` of R407. -/
def deriveKey (key : List Byte) (label : String) : Nat :=
  ofBytesBE (hmac key (ascii "OZM-KEY" ++ ascii label)) % (p384N - 1) + 1

/-- d_alias over PR0 to PR3 (R407). -/
def aliasKey (prs : List (List Byte)) : Nat := deriveKey (hmac Config.uds (prs.take 4).flatten) "ALIAS"

/-- d_id (R407). -/
def idKey : Nat := deriveKey Config.uds "ID"

/-- An OCT[1024] object that holds fewer bytes (R382). -/
def pad1024 (l : List Byte) : List Byte := (l ++ List.replicate 1024 0).take 1024

/-- The provenance report of a build (R408). -/
def State.report (s : State) (x : Prov) : List Byte :=
  let a := s.boot.attempt
  let image : Byte := if s.dev.phase = .minimal && !a.imageRun then 0xFF else byte (b2n s.boot.active)
  let body := [0x4F, 0x5A, 0x50, 0x52] ++ bytesLE 2 1 ++ bytesLE 2 608 ++ bytesBE 16 Config.serial.toNat ++ bytesLE 2 0x6440 ++
    bytesLE 2 Config.stepping.toNat ++ [byte s.lcState, byte (b2n a.policy), image, byte (b2n s.vault.debug), byte a.fails,
    byte s.devState] ++ bytesLE 2 s.device ++ bytesLE 4 0 ++ bytesBE 8 x.since ++ x.nonce ++ s.boot.prs.flatten ++
    sha384 (pad1024 s.boot.aliasCert)
  let sig := Config.reportSignature (aliasKey s.boot.prs) body
  body ++ (sig ++ List.replicate 96 0).take 96

/-- PROV_REQ (R382, R409, R432). -/
def State.wrProvReq (s : State) (m : Master) : State × Nat :=
  if s.lcState = 4 then (s, Ab.lcScrapped)
  else match s.takeCtx m with
    | none => (s, Ab.cmdBusy)
    | some (s, c) =>
      if (s.prov c).busy then (s, Ab.cmdBusy)
      else
        let old := s.cat.provQueue.head?
        let s := s.setProv c { s.prov c with busy := true, nonce := bytesBE 32 (s.ctxReg c (Obj.provNonce.key)) }
        (({ s with cat := { s.cat with provQueue := s.cat.provQueue ++ [c] } }).nextBuild old, 0)

/-- PROV_BUILD_DONE: the build at the head of the queue completes; it started no earlier than step 6 ended (R409). -/
def execProvBuildDone (s : State) : Host.Outcome State Fault Refusal :=
  match s.cat.provQueue with
  | [] => .next s
  | c :: rest =>
    if s.boot.attempt.active && decide (s.boot.attempt.step < 7) then .next s
    else
      let x := { s.prov c with since := max (s.prov c).since s.boot.attempt.readyAt }
      let s := s.setProv c { x with busy := false, code := 0, len := 608, report := s.report x }
      .next (({ s with cat := { s.cat with provQueue := rest } }).nextBuild (some c))

end Sys2Proof.Machine
end

