-- ==== Sys2Proof/Machine/Health.lean ====
section
/-! DEFINITION. Health and repair: maintenance slots with collation and the clamp sweep (R193, R198, R445, R446),
shelf-reading (R439 to R444), bay rebuilds and retests (R448 to R451), trie banks (R139, R452), region limits
(R453 to R456, R481) and wear (R457). -/

namespace Sys2Proof.Machine

/-- Changes the bays. -/
def State.setBays (s : State) (f : Bays → Bays) : State := { s with bays := f s.bays }

/-! ### Side and shadow words beyond correction (R444, R463) -/

/-- The entry that a row of a logical bay belongs to: table, copy, replicas and the replica there. -/
structure RowOwner where
  table : Nat
  copy : Nat
  entry : List Replica
  replica : Replica
  deriving DecidableEq, Repr

def State.rowOwner (s : State) (l mat row : Nat) : Option RowOwner :=
  (s.view.tablesOf 0).findSome? fun t =>
    let d := s.view.trn t
    (List.range d.ncopy).findSome? fun c => (s.table t).placed.findSome? fun rs => rs.findSome? fun r =>
      if d.copies.getD c 0 + r.bay = l ∧ r.row = row ∧ d.mat r.index ≤ mat ∧ mat < d.mat r.index + d.k then
        some ⟨t, c, rs, r⟩
      else none

/-- Logical bays of the same rows in the other copies of the owner's table that are not being filled. -/
def State.twinBays (s : State) (o : RowOwner) : List Nat :=
  let d := s.view.trn o.table
  ((List.range d.ncopy).filter fun c => c ≠ o.copy && !(s.table o.table).filling.contains c).map fun c =>
    d.copies.getD c 0 + o.replica.bay

/-- The end of an entry's removal: its reference goes, and ENTRY_LOST is written (R216, R444). -/
def State.endRemoval (s : State) (r : Removal) : State :=
  (s.dropRef r.ptr).record .entryLost (some (s.view.tbl r.table).room) hubMaint [(8, r.table), (32, r.handle)]

/-- An entry goes because of its row `row` in a logical bay: no command finds it any more, and its other rows are emptied as a
DELETE would, each in a maintenance slot (R86, R102, R184, R444). -/
def State.loseEntry (s : State) (o : RowOwner) (l mat row : Nat) : State :=
  let d := s.view.trn o.table
  let tb := s.table o.table
  let r0 := o.entry.headD o.replica
  let ops := (inCopies d fun c => emptyHeads d o.entry c ++ emptyConts d o.entry c).filter fun x =>
    !(x.lbay = l && x.mat = mat && x.row = row)
  let r : Removal := ⟨o.table, handleOf d r0, (s.repSide d o.copy r0).ptr, ops⟩
  let s := s.setTable o.table { tb with placed := tb.placed.filter (· ≠ o.entry) }
  if ops.isEmpty then s.endRemoval r else s.setHealth fun h => { h with removals := h.removals ++ [r] }

/-- The removal whose next row lies in a logical bay. -/
def State.removalOn (s : State) (l : Nat) : Option (Removal × RowOp × List RowOp) :=
  s.health.removals.findSome? fun r => match r.ops with
    | o :: t => if o.lbay = l then some (r, o, t) else none
    | [] => none

/-- A removal empties its next row. -/
def State.runRemoval (s : State) (r : Removal) (o : RowOp) (rest : List RowOp) : State :=
  let s := s.rowOp o
  let next := fun (x : Removal) => if x = r then (if rest.isEmpty then none else some { r with ops := rest }) else some x
  let s := s.setHealth fun h => { h with removals := h.removals.filterMap next }
  if rest.isEmpty then s.endRemoval r else s

/-- Writes a side word of a physical bay and clears its mark. -/
def State.putSide (s : State) (b i : Nat) (w : BitVec 96) : State :=
  (s.setBays fun x => { x with sides := sput (fun _ => 0) x.sides (rowKey b (i / 1024) (i % 1024)) w }).cleanse .side b i

/-- An uncorrectable side word is rewritten from another copy; with none it is emptied, and its entry goes (R444). -/
def State.repairSide (s : State) (b i : Nat) : State :=
  match (s.logicalOf b).bind fun l => (s.rowOwner l (i / 1024) (i % 1024)).map fun o => (l, o) with
  | none => s.putSide b i 0
  | some (l, o) =>
    match ((s.twinBays o).filterMap s.view.phys).find? fun x => !s.poisoned .side x i with
    | some x => s.putSide b i (s.sideWord (rowKey x (i / 1024) (i % 1024)))
    | none => (s.loseEntry o l (i / 1024) (i % 1024)).putSide b i 0

/-- An uncorrectable shadow word met by the rebuild of a bay is taken from another copy; with none, the entry goes (R463). -/
def State.repairShadow (s : State) (r : Rebuild) (i : Nat) : State :=
  let l := r.lbay
  let put := fun (s : State) (a : BitVec 160) =>
    (s.setBays fun x => { x with shadow := sput (fun _ => 0) x.shadow (rowKey l (i / 1024) (i % 1024)) a }).cleanse .shadow l i
  match s.rowOwner l (i / 1024) (i % 1024) with
  | none => put s 0
  | some o =>
    match (s.twinBays o).find? fun x => !s.poisoned .shadow x i with
    | some x => put s (sget (fun _ => 0) s.bays.shadow (rowKey x (i / 1024) (i % 1024)))
    | none => put ((s.loseEntry o l (i / 1024) (i % 1024)).putSide r.failed i 0) 0

/-- The first poisoned side word of a physical bay. -/
def State.badSide (s : State) (b : Nat) : Option Nat :=
  (s.health.poison.find? fun w => w.kind == .side && w.unit = b).map (·.index)

/-- A started command writes rows of a table with a copy in the logical bay: repairs there wait for its end (log 104). -/
def State.bayWritten (s : State) (l : Nat) : Bool :=
  (List.range 16).any fun room => (s.queue room).any fun c =>
    c.started && !c.ops.isEmpty && (s.view.trn c.hdr.table).allBays.contains l

/-- The side word of a bay that shelf-reading's slot repairs now. -/
def State.sideDue (s : State) (l : Nat) (b : Option Nat) : Option (Nat × Nat) :=
  if s.bayWritten l then none else b.bind fun b => (s.badSide b).map fun i => (b, i)

/-! ### Maintenance slots (R198) -/

/-- Claimants of a slot. -/
inductive Claimant where
  | shelf | table | collation | clamp
  deriving DecidableEq, Repr

/-- The claimants of slot `n` in order (R198). -/
def claimants (n : Nat) : List Claimant :=
  if n % 64 = 0 then [.shelf, .table, .collation, .clamp]
  else if n % 64 = 32 then [.collation, .table, .shelf, .clamp]
  else if n % 8 = 4 then [.clamp, .table, .collation, .shelf]
  else [.table, .collation, .shelf, .clamp]

/-- Rows of a bay in the order of a sweep (R445). -/
abbrev bayRows : Nat := 36864

/-- Where the clamp pass stands in a logical bay (R194). -/
def State.clampAt (s : State) (l : Nat) : Nat := sget (fun _ => 0) s.ed.clampPos l

/-- Where collation stands in a logical bay (R445). -/
def State.colAt (s : State) (l : Nat) : Nat := sget (fun _ => 0) s.health.colPos l

/-- Steps of a region's test that wait for the slots of a unit (R441). -/
def State.srLeft (s : State) (u : Nat) : Nat := sget (fun _ => 0) s.health.srSteps u

/-- The word that a READ or SCAN reads in a unit's slot: the side word of a head, a prefix record, or a slot of an exact-match
table. -/
def State.visitWord (s : State) (u : Nat) (c : MqCmd) (cur : Nat) : Option MemWord :=
  let h := c.hdr
  let t := h.table
  match (s.view.tbl t).kind with
  | 0 =>
    let head := if h.op = opRead then some h.addr else (s.headFrom t (s.view.trn t) cur).map Prod.fst
    (s.view.phys u).bind fun b => head.map fun x => ⟨.side, b, x % 65536⟩
  | 1 =>
    let d := s.view.pfx t
    let e := if h.op = opRead then (s.pfxNamed t h.room (pfxEntryOf c.body) 0 (BitVec.ofNat 16 h.addr)).head? else s.recFrom t d cur
    e.map fun e => ⟨.pfxRecord, (d.slot e).1, pfxAddr t 11 (d.slot e).2⟩
  | _ =>
    let d := s.view.em t
    let i := if h.op = opRead then (match s.emNamed c d with | .ok i => some i | .error _ => none) else d.from_ cur
    i.map fun i => ⟨.emSlot, i / 2097152, i⟩

/-- The READ or SCAN that reads next in a unit's slots; one on a bay waits for the repair of an uncorrectable side word that it
would read (log 104). -/
def State.readOn (s : State) (u : Nat) : Option (MqCmd × Nat) :=
  (s.visitOn u).filter fun x => !(decide (u < 64) && (s.visitWord u x.1 x.2).any s.health.poison.contains)

/-- A READ or SCAN reads in a unit's slot; a word found uncorrectable is marked first, and on a bay the read is made again after
its repair (R138, R155, R443; log 104). -/
def State.readVisit (s : State) (u : Nat) (c : MqCmd) (cur : Nat) (bad : Bool) : State :=
  if bad then
    let s := ((s.visitWord u c cur).map s.foundUncorr).getD s
    if u < 64 then s else s.visit c cur
  else s.visit c cur

/-- A claimant has work in the slots of a unit; `b` is the physical bay of a logical one. Without a physical bay a row
operation of a command still writes the shadow store, and nothing else has work (R198, R444; log 26). -/
def State.hasWork (s : State) (u : Nat) (b : Option Nat) : Claimant → Bool
  | .shelf => (s.removalOn u).isSome || (s.sideDue u b).isSome || decide (0 < s.srLeft u)
  | .table => (s.opOn u).isSome || (s.fillOn u).isSome || (s.readOn u).isSome
  | .collation => b.isSome && !s.health.colDone.contains u
  | .clamp => b.isSome && decide (s.clampAt u < bayRows)

/-- Collation goes on to the next row of a bay. -/
def State.colNext (s : State) (l : Nat) : State :=
  let p := s.colAt l + 1
  let s := s.setHealth fun h => { h with colPos := sput (fun _ => 0) h.colPos l (p % bayRows) }
  if p < bayRows then s else (s.setHealth fun h => { h with colDone := insertNew l h.colDone }).endColPass

/-- Notes what collation does in the bay's next slot (R446). -/
def State.setFix (s : State) (l x : Nat) : State := s.setHealth fun h => { h with colFix := sput (fun _ => 0) h.colFix l x }

/-- The atom that an access finds in a row, with the bits that have flipped since it was written. -/
def State.findAtom (s : State) (k : Nat) (flip : BitVec 160) : State :=
  if flip = 0 then s else s.setBays fun x => { x with atoms := sput (fun _ => 0) x.atoms k (sget (fun _ => 0) x.atoms k ^^^ flip) }

/-- One collation read (R446). -/
def State.collate (s : State) (l b : Nat) (f : RowFinding) : State :=
  let p := s.colAt l
  let mat := p / 1024
  let row := p % 1024
  let s := (s.findAtom (rowKey b mat row) f.flip).colNext l
  let name := [(8, b), (8, mat), (16, row)]
  if f.shadowBad then
    let s := s.foundUncorr ⟨.shadow, l, p⟩
    if s.rebuilding.any fun r => r.lbay = l then s else s.record .colShadow none (srcDie (dieOfBay b)) name
  else if s.atom (rowKey b mat row) = sget (fun _ => 0) s.bays.shadow (rowKey l mat row) then s
  else
    let n := sget (fun _ => 0) s.health.colBad b + 1
    let s := (s.bump .colMismatch).record .colFix none (srcDie (dieOfBay b)) name
    let s := s.setHealth fun h => { h with colBad := sput (fun _ => 0) h.colBad b n }
    if 16 ≤ n then s.failBay b 2 else s.setFix l (2 * p + 1)

/-- The slots after a mismatch: the atom is rewritten, then read again (R446). -/
def State.colRepair (s : State) (l b x : Nat) (f : RowFinding) : State :=
  let p := (x - 1) / 2
  let k := rowKey b (p / 1024) (p % 1024)
  let w := sget (fun _ => 0) s.bays.shadow (rowKey l (p / 1024) (p % 1024))
  if x % 2 = 1 then
    let s := if f.stuck then s else s.setBays fun y => { y with atoms := sput (fun _ => 0) y.atoms k w }
    s.setFix l (x + 1)
  else
    let s := (s.findAtom k f.flip).setFix l 0
    if s.atom k = w then s else s.failBay b 2

/-- One visit of the clamp sweep (R193, R194). -/
def State.clampStep (s : State) (l b : Nat) (f : RowFinding) : State :=
  let p := s.clampAt l
  let s := { s with ed := { s.ed with clampPos := sput (fun _ => 0) s.ed.clampPos l (p + 1) } }
  if f.sideBad then s.foundUncorr ⟨.side, b, p⟩
  else match s.headRoom l (p / 1024) (p % 1024) with
    | some room => s.clampRow room b (p / 1024) (p % 1024)
    | none => s

/-- Shelf-reading's slot: an entry's removal goes on, else a side word beyond correction is repaired, else the test under way
makes a step. -/
def State.shelfSlot (s : State) (u : Nat) (b : Option Nat) : State :=
  match s.removalOn u, s.sideDue u b with
  | some (r, o, rest), _ => s.runRemoval r o rest
  | none, some x => s.repairSide x.1 x.2
  | none, none => s.setHealth fun h => { h with srSteps := sput (fun _ => 0) h.srSteps u (s.srLeft u - 1) }

/-- Table commands' slot: a row operation, a row of a copy fill, or a read (log 105). -/
def State.tableSlot (s : State) (u : Nat) (bad : Bool) : State :=
  match s.opOn u with
  | some (c, o, rest) => s.runOp c o rest
  | none => match s.fillOn u with
    | some (t, p, o) => s.runFill t p o
    | none => match s.readOn u with
      | some (c, cur) => s.readVisit u c cur bad
      | none => s

/-- What a claimant does in its slot. -/
def State.claimSlot (s : State) (u : Nat) (b : Option Nat) (f : RowFinding) : Claimant → State
  | .shelf => s.shelfSlot u b
  | .table => s.tableSlot u f.sideBad
  | .collation => match b with | some b => s.collate u b f | none => s
  | .clamp => match b with | some b => s.clampStep u b f | none => s

/-- The next cycle in which a unit's entry of the rota is MAINT, none before now and none twice (R99, R100, R102). -/
def State.nextSlot (s : State) (u : Nat) : Option Nat :=
  let v := s.view
  let c := max s.now (sget (fun _ => 0) s.bays.slotAt u)
  ((List.range v.phases).map (c + ·)).find? fun c => rotaKind (v.rota u (c % v.phases)) = 1

/-- Lookup `i` of the stage whose compare has begun, or of one that is over, is performed (R56, R60). -/
def Inflight.performs (x : Inflight) (i : Nat) : Bool :=
  (x.out i).performed || (x.front.isSome && decide (x.nextStage = i / 4) && (x.view.lkp x.prog i).valid && x.condOk i)

/-- A lookup of an instruction accepted under the old rota arrives at a unit in a cycle: the slot is lost (R107). -/
def State.slotLost (s : State) (u c : Nat) : Bool :=
  s.search.flight.any fun x =>
    let e := x.view.rota u (c % x.view.phases)
    let n := (c - x.accepted - 24) / 88
    decide (x.accepted + 24 + 88 * n = c) && rotaKind e = 2 && rotaPort e = x.port && rotaLkp e / 4 = n && x.performs (rotaLkp e)

/-- The order of the claimants of a unit's slot: bays as R198's table has it, the units above them shelf-reading at n mod 64 =
0 and READ and SCAN otherwise, each in the other's place when that has no work. -/
def unitClaimants (u n : Nat) : List Claimant :=
  if u < 64 then claimants n else if n % 64 = 0 then [.shelf, .table] else [.table, .shelf]

/-- A maintenance slot of a unit takes its number and goes to collation's repair of the slot before, else to the first claimant
with work (R198, R446). -/
def State.useSlot (s : State) (u : Nat) (f : RowFinding) : State :=
  let b := if u < 64 then s.view.phys u else none
  let n := sget (fun _ => 0) s.bays.slotNo u
  let s := s.setBays fun x => { x with slotNo := sput (fun _ => 0) x.slotNo u ((n + 1) % 64) }
  let x := sget (fun _ => 0) s.health.colFix u
  match b, x with
  | some b, x + 1 => s.colRepair u b (x + 1) f
  | _, _ => match (unitClaimants u n).find? (s.hasWork u b) with
    | some c => s.claimSlot u b f c
    | none => s

/-- MAINT_SLOT (R100, R102, R198): the unit's next maintenance slot, in its cycle; a slot lost to an old lookup takes no number
(R107). `found` is what the access finds in the row that it reads. -/
def execMaintSlot (unit : Fin 76) (found : RowFinding) (s : State) : Host.Outcome State Fault Refusal :=
  let u := unit.val
  if !s.catalogueUp || s.dieHeld (dieOfUnit u) then .next s
  else match s.nextSlot u with
    | none => .next s
    | some c =>
      let s := (s.at c).catchUpSlot
      let s := s.setBays fun x => { x with slotAt := sput (fun _ => 0) x.slotAt u (c + 1) }
      done (if s.slotLost u c then s else s.useSlot u found)

/-! ### Shelf-reading (R439 to R443) -/

/-- Regions of a die; 4 is the hub (R439). -/
def dieRegions (d : Nat) : Nat := if d = 4 then 552 else 25956

/-- The physical bay of a mat region (R439). -/
def regionBay (d r : Nat) : Option Nat := if d < 4 ∧ r < 612 then some (17 * d + r / 36) else none

/-- Shelf-reading skips every region of a die (R440, R442). -/
def State.srDieOff (s : State) (d : Nat) : Bool :=
  (decide (d < 4) && s.dieHeld d) || s.health.pinned.any fun x => x.1 = d

/-- A bay is fenced or being rebuilt (R440). -/
def State.srBayOff (s : State) (b : Nat) : Bool :=
  s.bays.fenced.contains b || s.bays.rebuilds.any fun r => r.failed = b || r.spare = b

/-- A region may be tested (R440). -/
def State.srCan (s : State) (d r : Nat) : Bool :=
  !s.srDieOff d && match regionBay d r with | some b => !s.srBayOff b | none => true

/-- The die after a die in the order of R440. -/
def srNextDie (d : Nat) : Nat := if d = 4 then 0 else if d = 3 then 4 else d + 1

/-- The next region in order that may be tested, with the passes that end on the way; skips whole dies and bays
(R440). -/
def State.srSeek (s : State) : Nat → Nat → Nat → Nat → Option (Nat × Nat × Nat)
  | 0, _, _, _ => none
  | n + 1, d, r, passes =>
    if dieRegions d ≤ r ∨ s.srDieOff d then s.srSeek n (srNextDie d) 0 (if d = 3 then passes + 1 else passes)
    else match regionBay d r with
      | some b => if s.srBayOff b then s.srSeek n d (36 * (r / 36 + 1)) passes else some (d, r, passes)
      | none => some (d, r, passes)

/-- Interval of the pace in cycles (R440). -/
def State.srInterval (s : State) : Nat := s.reg .srPeriod * 3600 * Config.sec / 104376

/-- The region to be tested now: one with an uncorrectable word first, else the next in order at its due cycle
(R440, R443). -/
def State.srPick (s : State) : Option (State × Nat × Nat) :=
  match s.health.srHead.find? fun x => s.srCan x.1 x.2 with
  | some (d, r) => some (s.at s.health.srEnd, d, r)
  | none =>
    match s.srSeek 200 s.health.srDie s.health.srRegion 0 with
    | none => none
    | some (d, r, passes) =>
      let s := if s.health.srAt = 0 then s else s.at (max s.health.srEnd (s.health.srAt - 1 + s.srInterval))
      let s := s.bumpBy passes .srPasses
      some (s.setHealth fun h => { h with srDie := d, srRegion := r + 1, srAt := s.now + 1,
                                          sideBad := if passes = 0 then h.sideBad else [] }, d, r)

/-- A pass ends after the last region of die 3 (R440). -/
def State.srWrap (s : State) : State :=
  if s.health.srDie = 3 ∧ dieRegions 3 ≤ s.health.srRegion then
    (s.setHealth fun h => { h with srDie := 4, srRegion := 0, sideBad := [] }).bump .srPasses
  else s

/-- The unit in whose maintenance slots a region is tested (R198, R439; log 23): a mat's bay, a prefix slice's unit, the lower
unit of an exact-match slice. Other regions are tested through their own ports (R231). -/
def State.regionUnit (s : State) (d r : Nat) : Option Nat :=
  if 4 ≤ d then none
  else match regionBay d r with
    | some b => s.logicalOf b
    | none => if 4196 ≤ r ∧ r < 9316 then some (64 + d) else if 9316 ≤ r ∧ r < 19812 then some (68 + 2 * d) else none

/-- Redundant rows that a region has left (R441): 4 in a mat, 2 in a region of 4 KiB. -/
def State.rowsLeft (s : State) (d r : Nat) : Nat :=
  (if (regionBay d r).isSome then 4 else 2) - (s.health.repairs.filter fun x => x.1 = d && x.2.1 = r).length

/-- What a test comes to: more failing rows than the region has redundant ones are beyond repair (R441, R442). -/
def State.srVerdict (s : State) (d r : Nat) : SrOutcome → SrOutcome
  | .repaired rows => if rows.length ≤ s.rowsLeft d r then .repaired rows else .beyond rows
  | o => o

/-- The test of a region (R441). A mat's 1,024 rows are saved in one slot each, tested in 10 and restored in one; a repair
takes the 10 again, and a mat beyond repair is not restored (R448). A region of another memory has a number of rows that the spec
does not give, and one without a unit is tested through its own port within 50 ms (R231, R440; log 39). -/
def State.srTest (s : State) (d r : Nat) (o : SrOutcome) : State :=
  match s.regionUnit d r with
  | some u =>
    let mat := (regionBay d r).isSome
    let n := if mat then (match o with | .pass => 12288 | .repaired _ => 22528 | .beyond _ => 21504) else s.drawn % 65536
    let save := if mat then n - 1024 else s.drawn / 65536 % (n + 1)
    (s.setHealth fun h => { h with srSteps := sput (fun _ => 0) h.srSteps u n, srSave := save }).draw
  | none =>
    let n := s.drawn % (50 * Config.msec + 1)
    let save := s.drawn / 2 ^ 32 % (n + 1)
    (s.setHealth fun h => { h with srEnd := s.now + n, srSaved := s.now + save }).draw

/-- The test of the last region still waits for slots of its unit: the next region starts as soon as it ends (R440). -/
def State.srBusy (s : State) : Bool := s.health.srSteps.any fun e => decide (0 < e.2) && !s.dieHeld (dieOfUnit e.1)

/-- Source of the records of a die's repair. -/
def srcOf (d : Nat) : Nat := if d = 4 then hubMaint else srcDie d

/-- A region leaves the head of the order; when it passed, UNCORR_REPAIRED is written (R443). -/
def State.srSettle (s : State) (d r : Nat) (passed : Bool) : State :=
  if !s.health.srHead.contains (d, r) then s
  else
    let s := s.setHealth fun h => { h with srHead := h.srHead.filter (· ≠ (d, r)) }
    if passed then s.record .uncorrRepaired none (srcOf d) [(8, d), (32, r)] else s

/-- A redundant row takes the place of a failing one (R441). -/
def State.assignRow (s : State) (d r row : Nat) : State :=
  (s.setHealth fun h => { h with repairs := h.repairs ++ [(d, r, row)] }).record .srRepair none (srcOf d)
    [(8, d), (32, r), (16, row)]

/-- Redundant rows take the place of the failing ones as far as the region has any (R441). -/
def State.srRows (s : State) (d r : Nat) (rows : List Nat) : State :=
  (rows.take (s.rowsLeft d r)).foldl (fun s row => s.assignRow d r row) s

/-- `n` failing rows, which no operand names, are replaced in the `m` regions from `lo` on: the rows are free values (R451, R452;
log 39). -/
def State.freeRows (s : State) (d lo m : Nat) : Nat → State
  | 0 => s
  | n + 1 => ((s.srRows d (lo + s.drawn / 1024 % m) [s.drawn % 1024]).draw).freeRows d lo m n

/-- A region is beyond repair (R442). -/
def State.srBeyond (s : State) (d r : Nat) : State :=
  let s := (s.bump .srFails).record .srFail none (srcOf d) [(8, d), (32, r)]
  match regionBay d r with
  | some b => s.failBay b 1
  | none =>
    let s := s.setHealth fun h => { h with pinned := insertNew (d, r) h.pinned }
    (s.record .srPinned none (srcOf d) [(8, d), (32, r)]).srSettle d r false

/-- SR_REGION_START (R440 to R443): the next region is saved, tested, repaired and restored; `uncorr` are the words that
the save finds uncorrectable, those of another region not counted. -/
def execSrRegionStart (outcome : SrOutcome) (uncorr : List MemWord) (s : State) : Host.Outcome State Fault Refusal :=
  if !s.catalogueUp || s.dev.phase == .starting || s.srBusy then .next s
  else match s.srPick with
    | none => .next s
    | some (s, d, r) =>
      let s := s.catchUp.setReg .srPos 0 0 0 (d * 2 ^ 28 + r)
      let o := s.srVerdict d r outcome
      let s := s.srTest d r o
      let s := (s.foundAll (uncorr.filter fun w => dieOfMem w = d && regionOf w = r)).settleFaults
      let s := match o with
        | .pass => s.srSettle d r true
        | .repaired rows => (s.srRows d r rows).srSettle d r true
        | .beyond rows => (s.srRows d r rows).srBeyond d r
      done s.srWrap

/-! ### Bay rebuilds and retests (R448 to R451) -/

/-- Entries of a bay's array moved to another bay's key range. -/
def moveRows {α : Type} (m : Store α) (a b : Nat) : Store α :=
  m.filterMap fun e =>
    if rowKey a 0 0 ≤ e.1 ∧ e.1 < rowKey (a + 1) 0 0 then some (e.1 - rowKey a 0 0 + rowKey b 0 0, e.2) else none

/-- An array with a bay's rows taken from elsewhere. -/
def withRows {α : Type} [DecidableEq α] (z : α) (m : Store α) (b : Nat) (rows : Store α) : Store α :=
  rows.foldl (fun m e => sput (fun _ => z) m e.1 e.2) (sclear (fun k => rowKey b 0 0 ≤ k && k < rowKey (b + 1) 0 0) m)

/-- Every bad side word of a bay is made good, or its entry removed (R444, R448). -/
def State.goodSides (s : State) (b : Nat) : Nat → State
  | 0 => s
  | n + 1 => match s.badSide b with
    | some i => (s.repairSide b i).goodSides b n
    | none => s

/-- Step 2 of R448: the spare is written from the shadow and the failed bay's side words. -/
def State.fillSpare (s : State) (r : Rebuild) : State :=
  let n := s.health.poison.length
  let s := s.goodSides r.failed n
  let bad := (s.health.poison.filter fun w => w.kind == .shadow && w.unit = r.lbay).map (·.index)
  let s := bad.foldl (fun s i => s.repairShadow r i) s
  let s := s.setHealth fun h => { h with poison := h.poison.filter fun w => !(w.kind == .side && w.unit = r.spare) }
  s.setBays fun x => { x with atoms := withRows 0 x.atoms r.spare (moveRows x.shadow r.lbay r.spare),
                              sides := withRows 0 x.sides r.spare (moveRows x.sides r.failed r.spare) }

/-- Replaces or removes the rebuild of a failed bay. -/
def State.putRebuild (s : State) (failed : Nat) (r : Option Rebuild) : State :=
  s.setBays fun x => { x with rebuilds := x.rebuilds.filterMap fun y => if y.failed = failed then r else some y }

/-- The rebuild that switches first. -/
def State.firstRebuild (s : State) : Option Rebuild :=
  s.rebuilding.foldl (fun m r => match m with | none => some r | some q => if r.switchAt < q.switchAt then some r else some q)
    none

/-- BAY_REBUILT (R448): the spare takes over at the switch cycle, or fails its collation and the failure is a loss. -/
def execBayRebuilt (spareFails : Bool) (s : State) : Host.Outcome State Fault Refusal :=
  match s.firstRebuild with
  | none => .next s
  | some r =>
    if spareFails then
      let s := (s.at (r.detected + 37888)).putRebuild r.failed none
      done ((s.failBay r.spare 2).loseBay r.lbay r.failed 2)
    else
      let s := (s.at r.switchAt).catchUp.fillSpare r
      let s := (s.mapBay r.lbay r.spare).setBays fun x => { x with spareUsed := insertNew (dieOfBay r.failed) x.spareUsed }
      let s := s.putRebuild r.failed (if r.fenceAfter then some { r with switched := true, switchAt := s.now } else none)
      let s := (s.setFix r.lbay 0).updateWaits
      done (s.record .bayRebuilt none (srcDie (dieOfBay r.failed)) [(8, r.failed), (8, r.spare), (8, r.lbay), (64, s.now)])

/-- BAY_FENCE (R448 step 5): 264 cycles after the switch the failed bay is fenced, and its save buffer, if any, is released. -/
def execBayFence (s : State) : Host.Outcome State Fault Refusal :=
  match s.bays.rebuilds.find? fun r => r.switched with
  | none => .next s
  | some r => .next ((((s.at (r.switchAt + 264)).catchUp.putRebuild r.failed none).fence r.failed).dropTest r.lbay)

/-- A bay comes back as its die's spare, empty (R451). -/
def State.returnBay (s : State) (b : Nat) : State :=
  let s := s.setBays fun x => { x with
    atoms := withRows 0 x.atoms b [], sides := withRows 0 x.sides b [], fenced := x.fenced.filter (· ≠ b),
    spareUsed := x.spareUsed.filter (· ≠ dieOfBay b) }
  let s := s.setHealth fun h => { h with
    poison := h.poison.filter fun w => !(w.kind == .side && w.unit = b), sideBad := sput (fun _ => 0) h.sideBad b 0,
    colBad := sput (fun _ => 0) h.colBad b 0 }
  let s := (s.health.srHead.filter fun x => regionBay x.1 x.2 = some b).foldl (fun s x => s.srSettle x.1 x.2 true) s
  s.record .bayReturned none (srcDie (dieOfBay b)) [(8, b)]

/-- BAY_RETEST (R451): a second after it was fenced, a bay is tested once, with repair as in R441. -/
def execBayRetest (bay : Fin 68) (pass : Bool) (s : State) : Host.Outcome State Fault Refusal :=
  match s.bays.retests.find? fun x => x.1 = bay.val with
  | none => .next s
  | some x =>
    let s := (s.at x.2).setBays fun y => { y with retests := y.retests.filter fun z => z.1 ≠ bay.val }
    let s := s.draw.freeRows (dieOfBay bay.val) (36 * (bay.val % 17)) 36 (s.drawn % 145)
    done (if pass && (s.logicalOf bay.val).isNone then s.returnBay bay.val else s)

/-! ### Trie banks (R139, R452) -/

/-- A trie word's bank: its slice and level. -/
def bankOf (w : MemWord) : Option (Nat × Nat) :=
  if w.kind = .trieNode ∨ w.kind = .trieAnswer then some (w.unit, (pfxWord w).2.1) else none

/-- The rota in force gives a slice's unit a lane that looks up a table (R139). -/
def State.sliceNamed (s : State) (t slice : Nat) : Bool :=
  let v := s.view
  (List.range v.phases).any fun phi =>
    let e := v.rota (64 + slice) phi
    rotaKind e = 2 && (v.enabledSlots s.guar.shed).any fun p =>
      nbit (v.prog p).portmask (rotaPort e) && (v.lkp p (rotaLkp e)).valid && (v.lkp p (rotaLkp e)).table = t

/-- A table has nodes in a bank: a level of its trie image on a slice, its answer words in level 10, its records in level 11
(R118, R119, R139). -/
def Table.nodesIn (tb : Table) (b : Nat × Nat) : Bool :=
  if b.2 < 10 then tb.nodes.any fun n => n.slice = b.1 && n.level = b.2
  else if b.2 = 10 then tb.leaves.any fun r => r.slice = b.1
  else tb.entries.any fun e => sget (fun _ => 0) e.recs b.1 ≠ 0

/-- Tables with nodes in a bank. -/
def State.inBank (s : State) (b : Nat × Nat) : List Nat :=
  (s.view.tablesOf 1).filter fun t => (s.table t).nodesIn b

/-- The first table that can still be served from a bank (R139). -/
def State.bankUser (s : State) (b : Nat × Nat) : Option Nat :=
  (s.inBank b).find? fun t => !((s.table t).hash && (s.table t).switch = .none) && s.sliceNamed t b.1

/-- A table's trie image is READY no more: its nodes and leaves on the slice of a bank under test go, and all of them when the
image is no longer kept (R139, R452; log 40). -/
def State.bankGone (s : State) (t slice : Nat) : State :=
  let tb := { s.table t with trieReady := false }
  s.setTable t (if tb.trieKept then { tb with nodes := tb.nodes.filter fun n => n.slice ≠ slice,
                                              leaves := tb.leaves.filter fun r => r.slice ≠ slice }
    else { tb with nodes := [], leaves := [] })

/-- BANK_TEST_REQUEST (R452): the controller asks for a bank with an uncorrectable word, a second after a refusal. The
accepted test takes the bank out of service, and a trie image that has nodes in it is READY no more (log 40). -/
def execBankTestRequest (slice : Fin 4) (level : Fin 12) (s : State) : Host.Outcome State Fault Refusal :=
  let b := (slice.val, level.val)
  if !(s.health.poison.any fun w => bankOf w = some b) || s.pfx.testing.contains b || s.pfx.dead.contains b then .next s
  else
    let s := match s.pfx.asked.find? fun x => (x.1, x.2.1) = b with
      | some x => s.at (x.2.2 + Config.sec)
      | none => s
    let rest := s.pfx.asked.filter fun x => (x.1, x.2.1) ≠ b
    match s.bankUser b with
    | some t =>
      .next (({ s with pfx := { s.pfx with asked := rest ++ [(b.1, b.2, s.now)] } }).record .bankRefused none hubMaint
        [(8, b.1), (8, b.2), (8, t), (8, Ab.bankInUse)])
    | none =>
      let s := (s.inBank b).foldl (fun s t => s.bankGone t b.1) s
      .next { s with pfx := { s.pfx with asked := rest, testing := s.pfx.testing ++ [b] } }

/-- BANK_TEST (R452): 0 passed, 1 repaired, 2 beyond repair. A bank that passed returns, every word of it zero. -/
def execBankTest (slice : Fin 4) (level : Fin 12) (result : Fin 3) (s : State) : Host.Outcome State Fault Refusal :=
  let b := (slice.val, level.val)
  if !s.pfx.testing.contains b then .next s
  else
    let s := s.record .bankTest none (srcDie b.1) [(8, b.1), (8, b.2), (8, result.val)]
    let s := { s with pfx := { s.pfx with testing := s.pfx.testing.filter (· ≠ b) } }
    let s := if result.val = 0 then s else s.draw.freeRows b.1 4196 5120 (1 + s.drawn % 10240)
    if result.val = 2 then .next { s with pfx := { s.pfx with dead := s.pfx.dead ++ [b] } }
    else .next ((s.setHealth fun h => { h with poison := h.poison.filter fun w => bankOf w ≠ some b }).record .bankReturned
      none (srcDie b.1) [(8, b.1), (8, b.2)])

/-! ### Holding a die (R30, R279, R455, R481) -/

/-- The ports of a die that is held keep their lanes and send nothing; their instructions send no result (R30, R279). -/
def State.holdPort (s : State) (p : Nat) : State :=
  let fl := s.search.flight.map fun (x : Inflight) => if x.port = p then { x with noResult := true } else x
  let s := { s with search := { s.search with flight := fl, errs := s.search.errs.filter fun e => e.port ≠ p } }
  match (s.port p).st with
  | .up => (s.setPort p { s.port p with st := .held, downAt := s.now }).endSession (16 + p) 4
  | .hello => s.setPort p { s.port p with st := .held }
  | _ => s

/-- Ports of a die (R16). -/
def diePorts (d : Nat) : List Nat := (List.range 8).map (8 * d + ·)

/-- A rebuild on a die that is held stops: the failed bay is a loss with the die (R463). -/
def State.stopRebuilds (s : State) (d : Nat) : State :=
  let rs := s.rebuilding.filter fun r => dieOfBay r.failed = d
  let s := rs.foldl (fun s r => (((s.putRebuild r.failed none).mapBay r.lbay 0xFF).fence r.failed).dropTest r.lbay) s
  if rs.isEmpty then s else s.updateWaits

/-- Intake on one die is held. -/
def State.holdDie (s : State) (heat : Bool) (d : Nat) : State :=
  let s := (diePorts d).foldl (fun s p => s.padTo p (5 * s.now)) s
  let s := (s.setRegion d { s.region d with held := true, releasing := false, byHeat := heat }).bump .rgnXing d
  (((diePorts d).foldl State.holdPort (s.holdClears d)).stopRebuilds d).endColPass

/-- A HOLD condition on some dies (R455): those not yet held are, with REGION_HOLD, and a reduction starts (R244). Heat marks a
die that another limit holds as well, with a record of its own (R481). -/
def State.holdDies (s : State) (ds : List Nat) (heat : Bool) (quantity a b : Nat) (ra rb : Int) : State :=
  let new := ds.filter fun d => !(s.region d).held
  let also := ds.filter fun d => heat && (s.region d).held && !(s.region d).byHeat
  if new.isEmpty && also.isEmpty then s
  else
    let s := new.foldl (fun s d => s.holdDie heat d) s
    let s := also.foldl (fun s d => s.setRegion d { s.region d with byHeat := true, releasing := false }) s
    let s := s.record .regionHold none hubPower
      [(8, quantity), (8, a), (8, b), (32, ofI32 ra), (32, ofI32 rb), (8, maskOf (ds.filter fun d => new.contains d || also.contains d))] 1
    match new with
    | [] => s
    | d :: t =>
      (s.loseUnits (new.flatMap dieUnits) (if heat then 4 else 3) (if t.isEmpty then d else 0xFF)).updateDegraded d

/-! ### Region limits (R453 to R455) -/

/-- A reading of region `d`. -/
def reading (l : List Int) (d : Nat) : Int := l.getD d 0

/-- The regions other than the vault. -/
abbrev regions : List Nat := [0, 1, 2, 3, 4]

/-- The region whose reading differs most from that of `d`. -/
def farFrom (l : List Int) (d : Nat) : Nat :=
  regions.foldl (fun m x => if (reading l m - reading l d).natAbs < (reading l x - reading l d).natAbs then x else m) d

/-- Largest difference of region `d` from another. -/
def spread (l : List Int) (d : Nat) : Nat := (reading l (farFrom l d) - reading l d).natAbs

/-- The median of the five readings. -/
def median (l : List Int) : Int :=
  ((regions.map (reading l)).find? fun x =>
    decide ((regions.filter fun d => reading l d < x).length ≤ 2 ∧ (regions.filter fun d => x < reading l d).length ≤ 2)).getD 0

/-- The dies held for a difference: the search die farthest from the median, the higher one on a tie; all four when the
hub is farther still (R455). -/
def farthest (l : List Int) : List Nat :=
  let off := fun d => (reading l d - median l).natAbs
  let d := [1, 2, 3].foldl (fun m x => if off m ≤ off x then x else m) 0
  if off d < off 4 then [0, 1, 2, 3] else [d]

/-- The crossings of a region whose drift passes a limit in 1/256 cycle. -/
def drifting (r : RegionReading) (limit : Nat) (d : Nat) : Option (Nat × Nat × Int) :=
  r.drift.find? fun x => (x.1 = d || x.2.1 = d) && decide (limit < x.2.2.natAbs)

/-- The Permitted column holds for every quantity that involves region `d` (R453). -/
def permitted (r : RegionReading) (d : Nat) : Bool :=
  decide (spread r.rails d ≤ 60) && decide (spread r.tj d ≤ 20000) && (drifting r 512 d).isNone &&
    decide (650 ≤ reading r.rails d ∧ reading r.rails d ≤ 800)

/-- The pairs of regions. -/
def regionPairs : List (Nat × Nat) := (List.range 5).flatMap fun b => (List.range b).map fun a => (a, b)

/-- The limits of R453 that count a time, by column and quantity: 0 and 1 a rail difference above 60 and 90 mV, 2 and 3 a
temperature difference above 20 and 30 °C, of two regions; 4 and 5 a region's own rail, past ALARM and HOLD. -/
def limitKey (lim a b : Nat) : Nat := 64 * lim + 8 * min a b + max a b

/-- A sample finds a limit passed or not: the cycle since which it has been passed is kept (R453). -/
def State.track (s : State) (k : Nat) (past : Bool) : State :=
  let t := sget (fun _ => 0) s.health.exceeded k
  s.setHealth fun h => { h with exceeded := sput (fun _ => 0) h.exceeded k (if !past then 0 else if t = 0 then s.now + 1 else t) }

/-- A limit has been passed for `n` cycles. -/
def State.lasting (s : State) (k n : Nat) : Bool :=
  let t := sget (fun _ => 0) s.health.exceeded k
  t ≠ 0 && decide (t + n ≤ s.now + 1)

/-- A sample of the regions against the limits that count a time (R453). -/
def State.trackAll (s : State) (r : RegionReading) : State :=
  let s := regionPairs.foldl (fun s x =>
    let v := (reading r.rails x.1 - reading r.rails x.2).natAbs
    let t := (reading r.tj x.1 - reading r.tj x.2).natAbs
    (((s.track (limitKey 0 x.1 x.2) (decide (60 < v))).track (limitKey 1 x.1 x.2) (decide (90 < v))).track
      (limitKey 2 x.1 x.2) (decide (20000 < t))).track (limitKey 3 x.1 x.2) (decide (30000 < t))) s
  regions.foldl (fun s d =>
    let v := reading r.rails d
    (s.track (limitKey 4 d d) (decide (v < 640 ∨ 810 < v))).track (limitKey 5 d d) (decide (v < 620 ∨ 830 < v))) s

/-- The region whose difference from region `d` has passed a limit for `n` cycles, the farthest of several. -/
def State.lastingFrom (s : State) (l : List Int) (lim n d : Nat) : Option Nat :=
  (regions.filter fun x => x ≠ d && s.lasting (limitKey lim d x) n).foldl (fun m x =>
    match m with
    | none => some x
    | some y => if (reading l y - reading l d).natAbs < (reading l x - reading l d).natAbs then some x else some y) none

/-- The quantity for which region `d` is in ALARM: its code, the other region and both readings (R453, R454, R494). -/
def State.alarmOf (s : State) (r : RegionReading) (d : Nat) : Option (Nat × Nat × Int × Int) :=
  match s.lastingFrom r.rails 0 (10 * Config.usec) d, s.lastingFrom r.tj 2 Config.sec d, drifting r 512 d with
  | some b, _, _ => some (1, b, reading r.rails d, reading r.rails b)
  | none, some b, _ => some (2, b, reading r.tj d, reading r.tj b)
  | none, none, some x => some (3, if x.1 = d then x.2.1 else x.1, x.2.2, x.2.2)
  | none, none, none =>
    if s.lasting (limitKey 4 d d) (10 * Config.usec) then some (4, 0xFF, reading r.rails d, 0) else none

/-- The rail target of a region; the spec states no first values, only that they lie within 40 mV of each other (R453; log 41). -/
def State.railTarget (s : State) (d : Nat) : Nat :=
  if (s.region d).targetMv = 0 then 650 + Config.freeNat 0 % 111 + Config.freeNat (1 + d) % 41 else (s.region d).targetMv

/-- A rail target moves toward another value by a free part of the way (R454). -/
def toward (t m x : Nat) : Nat :=
  if t < m then t + 1 + x % (m - t) else if m < t then t - 1 - x % (t - m) else t

/-- The power controller moves the rail targets toward each other: each one toward their median (R454; log 41). -/
def State.drawTogether (s : State) : State :=
  let m := (median (regions.map fun d => (s.railTarget d : Int))).toNat
  regions.foldl (fun s d =>
    (s.setRegion d { s.region d with targetMv := toward (s.railTarget d) m s.drawn }).draw) s

/-- ALARM of a region follows its quantities (R454); the quantity of the falling record is a free value (log 42). -/
def State.alarmRegion (s : State) (r : RegionReading) (d : Nat) : State :=
  let ok := permitted r d
  let s := if ok then s else s.setRegion d { s.region d with badAt := s.now + 1 }
  let g := s.region d
  match s.alarmOf r d with
  | some (q, b, ra, rb) =>
    if g.alarm then s
    else
      let s := ((s.setRegion d { g with alarm := true }).bump .rgnXing d).drawTogether
      s.record .regionAlarm none hubPower [(8, q), (8, d), (8, b), (32, ofI32 ra), (32, ofI32 rb), (8, 0)] 1
  | none =>
    if g.alarm && ok && decide (g.badAt + 100 * Config.msec ≤ s.now + 1) then
      let q := 1 + s.drawn % 4
      let l := if q = 2 then r.tj else r.rails
      let v := fun (x : Nat) => if q = 3 then 0 else ofI32 (reading l x)
      (((s.setRegion d { g with alarm := false }).bump .rgnXing d).draw).record .regionAlarm none hubPower
        [(8, q), (8, d), (8, if q = 4 then 0xFF else farFrom l d), (32, v d), (32, if q = 4 then 0 else v (farFrom l d)), (8, 0)] 2
    else s

/-- The HOLD conditions of R453 in its order, with the dies that R455 holds. -/
def State.holdsOf (s : State) (r : RegionReading) : List (List Nat × Nat × Nat × Nat × Int × Int) :=
  let diff := fun (l : List Int) (q : Nat) =>
    let ds := farthest l
    let a := if ds.length = 1 then ds.headD 0 else 4
    (ds, q, a, farFrom l a, reading l a, reading l (farFrom l a))
  let anyPair := fun (lim n : Nat) => regionPairs.any fun x => s.lasting (limitKey lim x.1 x.2) n
  (if anyPair 1 (10 * Config.usec) || anyPair 0 (10 * Config.msec) then [diff r.rails 1] else []) ++
  (if anyPair 3 Config.sec then [diff r.tj 2] else []) ++
  (r.drift.filter fun x => decide (768 < x.2.2.natAbs)).map (fun x =>
    ([if x.1 = 4 then x.2.1 else if x.2.1 = 4 then x.1 else max x.1 x.2.1], 3, x.1, x.2.1, x.2.2, x.2.2)) ++
  (regions.filter fun d => s.lasting (limitKey 5 d d) (10 * Config.usec)).map fun d =>
    (if d = 4 then [0, 1, 2, 3] else [d], 4, d, 0xFF, reading r.rails d, 0)

/-- The measured rails and temperatures (R392). -/
def State.measure (s : State) (r : RegionReading) : State :=
  let s := regions.foldl (fun s d => s.setReg .rgnVcore d 0 0 ((reading r.rails d).toNat % 65536)) s
  regions.foldl (fun s d => s.setReg .rgnTj d 0 0 (ofI32 (reading r.tj d))) s

/-- The time of a sample: samples are at least 1 µs apart (R453). -/
def State.sampleTime (s : State) : State :=
  let s := if s.health.sampledAt = 0 then s else s.at (s.health.sampledAt - 1 + Config.usec)
  s.setHealth fun h => { h with sampledAt := s.now + 1 }

/-- REGION_SAMPLE (R453 to R455): the regions are measured against their limits. -/
def execRegionSample (r : RegionReading) (s : State) : Host.Outcome State Fault Refusal :=
  if !s.catalogueUp || !s.dev.diesUp then .next s
  else
    let s := (s.sampleTime.trackAll r).measure r
    let s := regions.foldl (fun s d => s.alarmRegion r d) s
    done ((s.holdsOf r).foldl (fun s x => s.holdDies x.1 false x.2.1 x.2.2.1 x.2.2.2.1 x.2.2.2.2.1 x.2.2.2.2.2) s)

/-- THERMAL_SAMPLE (R481): cause THERMAL, and the hold above 112 °C at two consecutive samples. -/
def execThermalSample (tj : List Int) (s : State) : Host.Outcome State Fault Refusal :=
  if !s.catalogueUp then .next s
  else
    let s := regions.foldl (fun s d => s.setReg .rgnTj d 0 0 (ofI32 (reading tj d))) s
    let s := s.setHealth fun h => { h with thermal := decide (toI32 (s.view.obj .thermLimit) < s.tjMax) }
    let hot := regions.filter fun d => (s.region d).hotOnce && decide (112000 < reading tj d)
    let s := regions.foldl (fun s d =>
      let g := s.region d
      s.setRegion d { g with hotOnce := decide (112000 < reading tj d), hotAt := if 100000 < reading tj d then s.now + 1 else g.hotAt }) s
    if !s.dev.diesUp then done s
    else done (hot.foldl (fun s d => s.holdDies (if d = 4 then [0, 1, 2, 3] else [d]) true 5 d 0xFF (reading tj d) 0) s)

/-! ### Release (R456) -/

/-- A cycle kept plus 1 lies 100 ms back, or never was. -/
def calm (at_ now : Nat) : Bool := at_ = 0 || decide (at_ + 100 * Config.msec ≤ now + 1)

/-- Every quantity that involves the die has been within its limits for 100 ms (R456, R481). -/
def State.releasable (s : State) (d : Nat) : Bool :=
  calm (s.region d).badAt s.now && (!(s.region d).byHeat || (calm (s.region d).hotAt s.now && calm (s.region 4).hotAt s.now))

/-- RGN_CTRL (R356, R392, R456). -/
def State.wrRgnCtrl (s : State) (d v : Nat) : State × Nat :=
  if !nbit (maskedBits v) 0 then (s, 0)
  else if d = 4 then (s, Ab.range)
  else if !(s.region d).held then (s, Ab.notHeld)
  else if !s.releasable d then (s, Ab.regionLimit)
  else (s.setRegion d { s.region d with releasing := true }, 0)

/-- Rows of a bay whose atom differs from its shadow. -/
def State.mismatches (s : State) (l b : Nat) : List Nat :=
  let keys := (moveRows s.bays.atoms b 0).map (·.1) ++ (moveRows s.bays.shadow l 0).map (·.1)
  (keys.foldl (fun ks k => insertNew k ks) []).filter fun k =>
    s.atom (rowKey b 0 0 + k) ≠ sget (fun _ => 0) s.bays.shadow (rowKey l 0 0 + k)

/-- One mismatch met by the collation of a die that is released: the atom is rewritten and read again (R446, R456). -/
def State.fixRow (stuck : List Nat) (b l : Nat) (s : State) (k : Nat) : State :=
  if s.bays.fenced.contains b then s
  else
    let w := sget (fun _ => 0) s.bays.shadow (rowKey l 0 0 + k)
    let n := sget (fun _ => 0) s.health.colBad b + 1
    let s := (s.bump .colMismatch).record .colFix none (srcDie (dieOfBay b)) [(8, b), (8, k / 1024), (16, k % 1024)]
    let s := s.setHealth fun h => { h with colBad := sput (fun _ => 0) h.colBad b n }
    if stuck.contains (rowKey b 0 0 + k) then s.failBay b 2
    else
      let s := s.setBays fun x => { x with atoms := sput (fun _ => 0) x.atoms (rowKey b 0 0 + k) w }
      if 16 ≤ n then s.failBay b 2 else s

/-- A bay of a die that is released is collated (R446, R456): an uncorrectable shadow word is rewritten from its atom, and each
atom that differs is rewritten from its shadow. -/
def State.collateBay (f : DieFinding) (s : State) (l b : Nat) : State :=
  let mine := fun (k : Nat) => decide (rowKey b 0 0 ≤ k ∧ k < rowKey (b + 1) 0 0)
  let s := (f.flips.filter fun x => mine x.1).foldl (fun s x => s.findAtom x.1 x.2) s
  let s := (f.uncorr.filter fun w => w.kind == .shadow && w.unit = l).foldl (fun s w =>
    (s.foundUncorr w).record .colShadow none (srcDie (dieOfBay b)) [(8, b), (8, w.index / 1024), (16, w.index % 1024)]) s
  (s.mismatches l b).foldl (State.fixRow f.stuck b l) s

/-- The units of a released die are usable again, but for those of logical bays without a physical one (R253). -/
def State.regainUnits (s : State) (d : Nat) : State :=
  let still := fun (u : Nat) => !(dieUnits d).contains u || (decide (u < 64) && (s.view.phys u).isNone)
  { s with guar := { s.guar with lost := s.guar.lost.filter still } }

/-- The ports of a released die re-enter HELLO (R279). -/
def State.freePort (s : State) (p : Nat) : State :=
  let s := s.padTo p (5 * s.now)
  if (s.port p).st = .held then s.setPort p ((s.port p).enterHello s.now) else s

/-- REGION_RELEASE (R456): the die is collated and read through, and intake resumes; a reduction under way completes
first (R463). -/
def execRegionRelease (die : Fin 4) (found : DieFinding) (s : State) : Host.Outcome State Fault Refusal :=
  let d := die.val
  let g := s.region d
  if !g.releasing || !g.held || s.guar.active then .next s
  else
    let s := ((List.range 16).map (16 * d + ·)).foldl (fun s l => match s.view.phys l with
      | some b => s.collateBay found l b
      | none => s) s
    let s := s.foundAll (found.uncorr.filter fun w => dieOfMem w = d && w.kind != .shadow)
    let s := (s.setRegion d { s.region d with held := false, releasing := false, byHeat := false }).bump .rgnXing d
    let s := s.record .regionRelease none hubPower [(8, d)] 2
    done (((diePorts d).foldl State.freePort (s.regainUnits d)).updateDegraded d)

/-! ### Wear (R457) -/

/-- WEAR_SAMPLE (R457): a region's shift, its rail target, and a record for each whole 1.00 % crossed. -/
def execWearSample (region : Fin 5) (shift : BitVec 16) (s : State) : Host.Outcome State Fault Refusal :=
  let d := region.val
  if !s.catalogueUp then .next s
  else
    let old := s.reg .wearShift 0 d
    let new := shift.toNat
    let s := s.setReg .wearShift 0 d 0 new
    let g := s.region d
    let mv := min 800 (s.railTarget d + (new / 10 - g.wearSteps))
    let s := s.setRegion d { g with targetMv := mv, wearSteps := max g.wearSteps (new / 10) }
    .next ((List.range (new / 100 - old / 100)).foldl (fun s _ =>
      s.record .wear none hubPower [(8, d), (16, new), (16, mv)]) s)

end Sys2Proof.Machine
end

