-- ==== Sys2Proof/Machine/Read.lean ====
section
/-! DEFINITION. What a read of each catalogue object gives (R318, R357, R360, R379, R381 and the chapters' object tables):
values as numbers, their images in PDUs, and the values of MBX objects. -/

namespace Sys2Proof.Machine

/-! ### Images (R318) -/

/-- OCT and STR images carry byte 0 first; the other types carry the least significant byte first. -/
def OType.bigEndian : OType → Bool
  | .oct _ => true
  | .str _ => true
  | _ => false

/-- The bytes of a value of a type. -/
def OType.bytes (t : OType) (v : Nat) : List Byte := if t.bigEndian then bytesBE t.size v else bytesLE t.size v

/-- The value that the bytes of a type carry. -/
def OType.value (t : OType) (l : List Byte) : Nat := if t.bigEndian then ofBytesBE l else ofBytesLE l

/-- A text padded with zeros to `n` bytes, as a number. -/
def textNat (n : Nat) (l : List Byte) : Nat := ofBytesBE ((l ++ List.replicate n 0).take n)

/-! ### Selections of a master (R381) -/

/-- The entry of the object that the master's own selector names. -/
def State.entryOf (s : State) (m : Master) (p : Place) : Nat :=
  match p.obj with
  | .rotaData => bits (s.ownReg m .rotaSel) 15 9 * 64 + s.ownReg m .rotaSel % 64
  | .rotaLive => bits (s.ownReg m .rotaSel) 15 9 * 64 + s.ownReg m .rotaSel % 64
  | .casSetCl => s.ownReg m .casSetClSel p.inst
  | .casMember => s.ownReg m .casMemberSel
  | _ => 0

/-- Key of the register or the shadowed value that an access of a master reaches. -/
def State.keyAt (s : State) (m : Master) (p : Place) : Nat := p.obj.key p.inst p.off (s.entryOf m p)

/-! ### Values by chapter -/

/-- ROOM_CHARGE under the rota in force (R236, R238). -/
def State.roomCharge (s : State) (room : Nat) : Nat :=
  let c := charges s.view.rotaFn s.view.phases s.view room
  pack [(12, c.1), (9, c.2.2), (8, c.2.1), (3, 0)]

/-- ROOM_GSTATE (R236). -/
def State.roomGstate (s : State) (room : Nat) : Nat :=
  b2n (s.guar.shed.contains room) + 2 * b2n (s.guar.degraded.contains room) + 4 * b2n (s.guar.reduced.contains room)

/-- TBL_STATE (R387); COPY_FILL is a ternary or exact-match table's, a prefix copy is built (R82, R113, R142). -/
def State.tblState (s : State) (t : Nat) : Nat :=
  b2n ((s.view.tbl t).kind != 1 && !(s.table t).filling.isEmpty) + 2 * b2n (s.table t).rebuildWait + 4 * b2n (s.view.tbl t).present

/-- TBL_ENTRIES (R387). -/
def State.tblEntries (s : State) (t : Nat) : Nat :=
  let h := s.view.tbl t
  if !h.present then 0
  else if h.kind = 0 then (s.table t).placed.length
  else if h.kind = 1 then (s.table t).entries.length
  else (s.emEntries (s.view.em t)).length

/-- CAS_STATE (R316). -/
def State.casState (s : State) : Nat :=
  b2n s.cas.quarantined + 2 * b2n s.quiet + 4 * b2n (nbit (s.view.obj .casAdopt) 15) + 8 * b2n s.cas.clvalid +
    16 * b2n (decide (4096 ≤ s.cas.pend.length))

/-- CAS_SELF: the staged fields with CLVALID, QUARANTINED and DEVNUM as in force (R307, R379). -/
def State.casSelfRead (s : State) : Nat :=
  let x := s.stagedKey Obj.casSelf.key
  pack [(1, b2n s.cas.clvalid), (8, bits x 30 23), (8, bits x 22 15), (1, bits x 14 14), (1, b2n s.cas.quarantined),
    (1, 0), (12, s.device)]

/-- PROG_HDR: the staged image with PGEN as in force (R379, R386). -/
def State.progHdrRead (s : State) (p : Nat) : Nat :=
  let x := s.stagedKey (Obj.progHdr.key p)
  x - bits x 111 108 * 2 ^ 108 + bits (s.view.obj .progHdr p) 111 108 * 2 ^ 108

/-- SES_ACTIVE: bit s of byte ⌊s / 8⌋ (R346). -/
def State.sesActive (s : State) : Nat :=
  ofBytesBE (bytesLE 8 (maskOf ((List.range 48).filter fun n => (s.session n).isOpen)))

/-- SR_STATE: a region is under test while the device runs, and regions are redirected to their save buffers: from the end
of the save to the end of the test, and for good when pinned (R391, R441, R442). -/
def State.srState (s : State) : Nat :=
  let h := s.health
  b2n (s.dev.phase != .starting && h.srAt ≠ 0 && (s.srSeek 200 h.srDie h.srRegion 0).isSome) +
    2 * b2n (!h.pinned.isEmpty || (h.srSteps.any fun e => decide (0 < e.2 ∧ e.2 ≤ h.srSave)) ||
      decide (h.srSaved ≤ s.now ∧ s.now < h.srEnd) || s.bays.rebuilds.any fun r => r.cause = 1)

/-- A word of the carrel, as it was before the tallies of this cycle (R233, R234): one marked uncorrectable reads a value
that the spec does not state (R444). -/
def State.carRead (s : State) (room w : Nat) : Nat :=
  if s.health.poison.contains ⟨.carrel, room, w⟩ then s.drawn % 2 ^ 64 else ofBytesBE (s.wordBefore 0 room w)

/-- A word of the secure carrel, likewise (R235). -/
def State.secRead (s : State) (w : Nat) : Nat :=
  if s.health.poison.contains ⟨.secure, 4, w⟩ then s.drawn % 2 ^ 64 else (s.secWord w).toNat

/-- A vault word as VAULT_DATA reads it (R424, R425). -/
def State.vaultRead (s : State) (a : Nat) : Except Nat Nat :=
  if s.vault.uncorr.contains a then .error Ab.vaultUncorr
  else .ok (if 0x20 ≤ a ∧ a ≤ 0xF7 then 0 else s.vaultWord a)

/-- The mailbox context that a master reads (R360). -/
def State.ownMailbox (s : State) (m : Master) : Mailbox := match s.ctxOf m with | some c => s.mailbox c | none => Mailbox.none

/-- MBX_VALID (R360). -/
def State.mbxValid (s : State) (m : Master) : Nat :=
  let x := s.ownMailbox m
  pack [(1, b2n x.valid), (7, 0), (8, x.code), (12, 0), (4, x.words.length)]

/-- MBX_DATA word `i` (R361). -/
def State.mbxData (s : State) (m : Master) (i : Nat) : Except Nat Nat :=
  match s.ctxOf m with
  | none => .ok 0
  | some c => if (s.mailbox c).valid then .ok ((s.mailbox c).words.getD i 0).toNat else .error Ab.cmdBusy

/-- The provenance objects of a master's context (R381, R382, R409). -/
def State.ownProv (s : State) (m : Master) : Prov := match s.ctxOf m with | some c => s.prov c | none => Prov.none

/-- PROV_STATE (R382). -/
def State.provState (s : State) (m : Master) : Nat :=
  let x := s.ownProv m
  pack [(1, b2n x.busy), (7, 0), (8, x.code), (16, x.len)]

/-- ACC_STATUS (R352). -/
def State.accStatus (s : State) : Nat :=
  let a := s.cat.acc
  pack [(1, b2n a.busy), (7, 0), (8, a.code), (16, a.groups.toNat)]

/-- BLK_STATE of an index (R347). -/
def State.blkState (s : State) (idx : Nat) : Nat :=
  let b := s.block idx
  pack [(1, b2n b.busy), (7, 0), (8, b.code), (8, 0), (8, b.sub)]

/-- Objects whose value the device computes, chapters 4 to 8; none for the others. -/
def State.readRooms (s : State) (p : Place) : Option Nat :=
  let i := p.inst
  match p.obj with
  | .edFloor => some (s.floor i).toNat
  | .edDrain => some (s.drain i).toNat
  | .poolLevel => some (s.poolLevel i)
  | .poolStatus => some (s.poolStatus i)
  | .roomLevel => some (s.roomLevel i)
  | .roomCharge => some (s.roomCharge i)
  | .mqDepth => some (s.queue i).length
  | .roomGstate => some (s.roomGstate i)
  | .roomBlk => some (s.blkState (roomIdx i))
  | .carClear => some (if s.clearing i then 2 ^ 31 else 0)
  | .guarShed => some (maskOf s.guar.shed)
  | .pfxState => some (s.pfxState i)
  | .tblState => some (s.tblState i)
  | .tblEntries => some (s.tblEntries i)
  | .progHdr => some (s.progHdrRead i)
  | _ => none

/-- Objects whose value the device computes, chapters 9 to 13. -/
def State.readDevice (s : State) (m : Master) (p : Place) : Option Nat :=
  let i := p.inst
  match p.obj with
  | .rotaLive => some (s.view.obj .rotaData 0 0 (s.entryOf m p))
  | .portState => some (s.port i).st.code
  | .casSetN => some (if (s.view.set i).present then (s.view.set i).members.length else 0)
  | .casSelf => some s.casSelfRead
  | .casState => some s.casState
  | .dbusNodeEff => some s.nodeId
  | .dbusState => some s.dbusState
  | .dbusErrcnt => some (s.bus.tec.toNat * 65536 + s.bus.recv.toNat)
  | .sesActive => some s.sesActive
  | .accPending => some s.accPending
  | .accStatus => some s.accStatus
  | .accSwitch => some s.cat.acc.lastSwitch
  | .mbxValid => some (s.mbxValid m)
  | .dbWseq => some ((s.ring i).wseq s.now).toNat
  | .dbRseq => some (s.ring i).rseq.toNat
  | .dbUnread => some ((s.ring i).recs.length - (s.ring i).waiting s.now)
  | .faultCause => some s.dev.causes.toNat
  | .faultMask => some (s.reg .faultMask ||| 0x40)
  | .devState => some s.devState
  | .devTime => some (s.now % 2 ^ 64)
  | .devStraps => some (s.dev.straps.nodeId.toNat * 256 + s.dev.straps.clusterPos.toNat)
  | .idVendor => some (textNat 16 (ascii "Ozath"))
  | .idPart => some (textNat 16 (ascii "OZM-6440"))
  | .idStepping => some Config.stepping.toNat
  | .idSerial => some Config.serial.toNat
  | .provReg => some (ofBytesBE (s.boot.prs.getD p.off []))
  | .provState => some (s.provState m)
  | .idCertDevice => some (textNat 1024 Config.deviceCert)
  | .idCertAlias => some (textNat 1024 s.boot.aliasCert)
  | .rgnState => some (s.rgnState i)
  | .rgnCtrl => some 0
  | .srState => some s.srState
  | .bayMap => some ((s.view.phys (s.ownReg m .bayMapSel)).getD 0xFF)
  | .spareUsed => some (maskOf s.bays.spareUsed)
  | .wearLife => some (Config.wearLife ((List.range 5).map fun d => s.reg .wearShift 0 d) % 65536)
  | .pwrVin => some (s.drawn % 2 ^ 16)
  | .pwrIin => some (s.drawn % 2 ^ 32)
  | .pwrTotal => some (s.drawn % 2 ^ 32)
  | .thermTjMax => some (ofI32 s.tjMax)
  | .scarData => some (s.secRead (s.ownReg m .scarAddr))
  | .lcState => some s.lcState
  | .tamperCause => some s.vault.cause.toNat
  | .tamperCnt => some s.vault.tamperCnt.toNat
  | .tamperCfg => some s.vault.cfg.toNat
  | .keyState => some s.keyState
  | .debugState => some (b2n s.vault.debug)
  | .vaultBlk => some (s.blkState vaultIdx)
  | .dbDropped => some ((s.reg .dbDropped p.inst + 2 ^ 32 - (s.ring p.inst).lateWaiting s.now % 2 ^ 32) % 2 ^ 32)
  | .bootFails => some s.boot.attempt.fails
  | .bootLimit => some s.boot.otp.bootLimit
  | .fwActive => some (b2n s.boot.active)
  | .fwVersion => some (textNat 16 s.boot.version)
  | .fwPolicy => some (b2n s.verifyPolicy)
  | .startRec => some (ofBytesBE (s.slotBytes p.off))
  | .fwUpdTarget => some (b2n s.boot.upd.target)
  | .fwUpdState => some (pack [(1, b2n s.boot.upd.busy), (7, 0), (8, s.boot.upd.code), (16, 0)])
  | _ => none

/-- The object's value is held in the vault domain (R421, R424; log 97). -/
def Obj.inVault (o : Obj) : Bool :=
  [Obj.tamperCause, .tamperCnt, .tamperCfg, .keyState, .vaultBlk, .vaultAddr, .vaultData, .startRec, .fwPolicy].contains o

/-- Objects with a read that may be refused: by their own rule, because they lie on a held die (R30; log 102 says which do), or
because the vault domain has no supply (R438, R465). -/
def State.readOwn (s : State) (m : Master) (p : Place) : Option (Except Nat Nat) :=
  if !s.dev.vaon && p.obj.inVault then some (.error Ab.tamperActive)
  else match p.obj with
  | .carData =>
    let w := s.ownReg m .carAddr p.inst
    some (if s.dieHeld (dieOfWord w) then .error Ab.dieHeld else .ok (s.carRead p.inst w))
  | .pfxFree => some (if s.dieHeld p.off then .error Ab.dieHeld else .ok (s.pfxFree p.off))
  | .emSliceState => some (if s.dieHeld p.off then .error Ab.dieHeld else .ok (b2n (s.em.backlog.contains p.off)))
  | .emLearnDrop | .emBacklogXing => some (if s.dieHeld p.off then .error Ab.dieHeld else .ok (s.reg p.obj 0 p.off))
  | .mbxData => some (s.mbxData m p.off)
  | .provReport => some (if (s.ownProv m).busy then .error Ab.cmdBusy else .ok (textNat 1024 (s.ownProv m).report))
  | .vaultData => some (s.vaultRead (s.ownReg m .vaultAddr))
  | .dbCodeCfg =>
    let k := s.ownReg m .dbCodeSel
    some (.ok (if (codeOf k).isSome then s.reg .dbCodeCfg 0 0 k else 0))
  | _ => none

/-- The value of an object, MBX objects apart: what its own rule gives, else what the device computes, else the staged
value of a shadowed object (R350), the value in the master's context (R381), or the register. -/
def State.readObj (s : State) (m : Master) (p : Place) : Except Nat Nat :=
  match s.readOwn m p with
  | some r => r
  | none => match s.readRooms p with
    | some v => .ok v
    | none => match s.readDevice m p with
      | some v => .ok v
      | none =>
        if p.obj.row.s then .ok (s.stagedKey (s.keyAt m p))
        else if p.obj.perContext then .ok (s.ownReg m p.obj p.inst)
        else .ok (s.reg p.obj p.inst p.off)

/-- The value that a read by `m` gives: that before a write of the same cycle (R345). -/
def State.readNow (s : State) (m : Master) (p : Place) : Except Nat Nat :=
  let k := s.keyAt m p
  if p.obj.row.s then (s.before m).readObj m p
  else match s.readObj m p with
    | .error c => .error c
    | .ok v => match (s.sameCycle m).find? fun w => w.key = k && sharedKey k with
      | some w => .ok (w.old.getD v)
      | none => .ok v

/-! ### MBX objects (R318, R360, R369) -/

/-- Bytes of an MBX object. -/
def Obj.mbxSize (o : Obj) : Nat :=
  match o with
  | .colophon => 48
  | .dbRec => 32
  | .guarLost => 10
  | .bayFenced => 9
  | _ => 0

/-- COLOPHON (R382). -/
def State.colophon (s : State) : Nat :=
  pack [(128, textNat 16 (ascii "OZM-6440")), (128, Config.serial.toNat), (16, 0x6440), (16, Config.stepping.toNat),
    (12, s.device), (8, s.nodeId), (4, s.dev.straps.clusterPos.toNat), (8, s.lcState), (64, 0)]

/-- DB_REC: the record that DB_SEL names; RANGE outside RSEQ to WSEQ − 1 (R368, R369). -/
def State.dbRecord (s : State) (m : Master) (r : Nat) : Except Nat Nat :=
  let g := s.ring r
  let seq := BitVec.ofNat 16 (s.ownReg m .dbSel r)
  if (g.wseq s.now - g.rseq).toNat ≤ (seq - g.rseq).toNat then .error Ab.range
  else match g.find seq with
    | some x => .ok (x.image seq).toNat
    | none => .error Ab.range

/-- The value of an MBX object. -/
def State.mbxValue (s : State) (m : Master) (p : Place) : Except Nat Nat :=
  match p.obj with
  | .colophon => .ok s.colophon
  | .guarLost => .ok (maskOf s.guar.lost)
  | .bayFenced => .ok (maskOf s.bays.fenced)
  | .dbRec => s.dbRecord m p.inst
  | _ => .error Ab.typeLength

/-! ### A read by a master (R320, R359) -/

/-- An access ends with an abort code; a read that succeeds gives bytes. -/
structure Answer where
  code : Nat
  bytes : List Byte
  deriving DecidableEq, Repr

/-- Bytes that a read of an object gives. -/
def Obj.readSize (o : Obj) : Nat := if o.row.ty = .mbx then o.mbxSize else o.row.ty.size

/-- What a read does besides giving a value: it renews the master's context (R360), wakes the management core for an object
that it serves (R27), and uses up a free value. -/
def State.afterRead (s : State) (m : Master) (p : Place) : State :=
  let s := if p.obj.contextual then s.touchCtx m else s
  (if p.obj.byFirmware then s.wakeMgmt else s).draw

/-- A read of an index and sub-index, expedited (at most 32 bytes) or by a segmented upload (rows 1 to 12 of R320). -/
def State.readAt (s : State) (m : Master) (expedited : Bool) (index sub : Nat) : Answer × Option Place :=
  match s.place index sub with
  | .error c => (⟨c, []⟩, none)
  | .ok p =>
    match s.readGrant m p with
    | .refuse c => (⟨c, []⟩, none)
    | .zero =>
      if expedited && decide (32 < p.obj.readSize) then (⟨Ab.typeLength, []⟩, none)
      else (⟨0, List.replicate p.obj.readSize 0⟩, none)
    | .ok =>
      if p.obj.row.ty = .mbx then (⟨Ab.mbxOnly, []⟩, none)
      else if expedited && decide (32 < p.obj.row.ty.size) then (⟨Ab.typeLength, []⟩, none)
      else match s.readNow m p with
        | .ok v => (⟨0, p.obj.row.ty.bytes v⟩, some p)
        | .error c => (⟨c, if c = Ab.vaultUncorr then p.obj.row.ty.bytes 0 else []⟩, some p)

/-- The commands whose last update has been made are complete before a read, and the carrel stands as the searches and the clears
of earlier cycles leave it before a read of CAR_DATA (R183, R233, R234). -/
def State.settled (s : State) (index sub : Nat) : State :=
  match findObj index sub with
  | some p => if p.obj = .carData then s.catchUp.clearTo s.now else s.completeDue
  | none => s

/-- A read with its effects; one that the core does not answer in time ends with FIRMWARE (R378; log 94). -/
def State.readAccess (s : State) (m : Master) (expedited : Bool) (index sub : Nat) : State × Answer :=
  let s := s.settled index sub
  let r := s.readAt m expedited index sub
  match r.2 with
  | none => (s, r.1)
  | some p => (s.afterRead m p, if p.obj.byFirmware && Config.freeBool s.free then ⟨Ab.firmware, []⟩ else r.1)

/-! ### A snapshot of an MBX object (R336, R359, R361, R362) -/

/-- What the checks of a snapshot find: an abort code, zero words, or the object to copy. -/
inductive MbxPick where
  | refuse (code : Nat)
  | zeros (bytes : Nat)
  | take (p : Place)
  deriving DecidableEq, Repr

/-- Rows 1 to 8 of R320 and the type, for an MBX object that a master names. -/
def State.mbxPick (s : State) (m : Master) (index sub : Nat) : MbxPick :=
  match s.place index sub with
  | .error c => .refuse c
  | .ok p =>
    match s.readGrant m p with
    | .refuse c => .refuse c
    | .zero => if p.obj.row.ty = .mbx then .zeros p.obj.mbxSize else .refuse Ab.typeLength
    | .ok => if p.obj.row.ty = .mbx then .take p else .refuse Ab.typeLength

/-- The bytes of a snapshot taken in one cycle. -/
def State.mbxBytes (s : State) (m : Master) (p : Place) : Answer :=
  match s.mbxValue m p with
  | .ok v => ⟨0, bytesLE p.obj.mbxSize v⟩
  | .error c => ⟨c, []⟩

end Sys2Proof.Machine
end

