-- ==== Sys2Proof/Machine/Mailbox.lean ====
section
/-! DEFINITION. Mailboxes (R359 to R362, R369, R381): selecting, taking and losing a snapshot. -/

namespace Sys2Proof.Machine

/-- The 32-bit words of a value, word 0 holding bits 31:0 (R360). -/
def wordsOf : Nat → List Byte → List (BitVec 32)
  | 0, _ => []
  | n + 1, l => BitVec.ofNat 32 (ofBytesLE (l.take 4)) :: wordsOf n (l.drop 4)

/-- A snapshot completes: VALID with its words or its abort code (R361). -/
def State.fillMailbox (s : State) (c : Nat) (a : Answer) : State :=
  s.setMailbox c { s.mailbox c with
    busy := false, valid := true, code := a.code, words := wordsOf (cdiv a.bytes.length 4) a.bytes }

/-- MBX_SEL: VALID clears and a snapshot starts; a failing check completes it at once, and an object that the master may
not see gives zero words (R359, R361, R362). -/
def State.wrMbxSel (s : State) (m : Master) (v : Nat) : State × Nat :=
  match s.takeCtx m with
  | none => (s, Ab.cmdBusy)
  | some (s, c) =>
    match s.mbxPick m (v / 65536) (v / 256 % 256) with
    | .refuse k => ((s.setMailbox c { s.mailbox c with sel := v }).fillMailbox c ⟨k, []⟩, 0)
    | .zeros n => ((s.setMailbox c { s.mailbox c with sel := v }).fillMailbox c ⟨0, List.replicate n 0⟩, 0)
    | .take _ => (s.setMailbox c { s.mailbox c with busy := true, sel := v, valid := false, code := 0, words := [] }, 0)

/-- MBX_SNAPSHOT: the selected object is copied in one cycle and VALID is set (R361). -/
def execMbxSnapshot (m : Master) (s : State) : Host.Outcome State Fault Refusal :=
  match s.ctxOf m with
  | none => .next s
  | some c =>
    let x := s.mailbox c
    if !x.busy || !s.catalogueUp then .next s
    else match findObj (x.sel / 65536) (x.sel / 256 % 256) with
      | some p => .next (s.fillMailbox c (s.mbxBytes m p))
      | none => .next s

/-- MBX_CONTEXT_RELEASE: a bus context without an access for 60 s returns to its defaults (R360). -/
def execMbxContextRelease (ctx : Fin 16) (s : State) : Host.Outcome State Fault Refusal :=
  let x := s.mailbox (32 + ctx)
  if x.holder = 0 then .next s else .next ((s.at (x.lastUse + 60 * Config.sec)).releaseCtx (32 + ctx))

end Sys2Proof.Machine
end

