-- ==== Sys2Proof/Machine/Contest.lean ====
section
/-! DEFINITION. What comes before a write: how a PDU reaches the device (R330, R340, R342), its TAG (R325, R334), rows 9 to
11 of R320, and which of the writes that reach the arbiter in one cycle is performed (R343, R345, R376). -/

namespace Sys2Proof.Machine

/-! ### Reaching the device (R330, R340, R342) -/

/-- A frame received on the bus lowers the receive error count (R327), and after SLEEP_RSP cancels the sleep (R342). -/
def State.busHeard (s : State) (ident : Nat) : State :=
  let s := { s with bus := s.bus.heardGood s.drawn }.draw
  match s.bus.sleep with
  | .waiting _ =>
    let b := s.bus
    ({ s with bus := { b with sleep := .awake, wakeDue := false, wakeRec := none } }).record .dbusSleepCancel none hubDbus
      [(32, ident)]
  | _ => s

/-- The controller receives frames: not bus-off, in no exception state, not asleep or waking (R327, R342). -/
def Bus.hears (b : Bus) : Bool := b.isActive

/-- The CAT frame of a PDU leaves the port's receive buffer (R275). -/
def State.takeCat (s : State) (p : Fin 32) (q : Pdu) : State :=
  match (s.port p).rx1.find? fun f => fld f.hdr 127 124 = 0xA && pduOf p f = some q with
  | some f => s.takeRx p 1 f
  | none => s.takeRx p 1 (catFrame q)

/-- A PDU of a service reaches the device: on the bus addressed to its node ID or to every node (R330), in band on an UP
HOST port whose outbound queue has room (R276). The flag says whether the device serves it. -/
def State.reach (s : State) (q : Pdu) (service : Nat) : State × Bool :=
  if !s.catalogueUp || q.service.toNat ≠ service then (s, false)
  else match q.master with
    | .bus n =>
      if !s.bus.hears || q.src ≠ n || n = 0 || n = 0xFF || n.toNat = s.nodeId then (s, false)
      else
        let s := s.busHeard (pduIdent q)
        if q.dst.toNat = s.nodeId ∨ q.dst = 0 then (s.wakeMgmt, true) else (s, false)
    | .port p =>
      if (s.port p).st ≠ .up || s.role p ≠ 1 || s.outFull p then (s, false) else ((s.takeCat p q).wakeMgmt, true)

/-! ### TAG and requests outstanding (R325, R334) -/

/-- The session of a master that holds a level above Public. -/
def State.provedOf (s : State) (m : Master) : Option Nat :=
  match s.sessionOf m with
  | some n => if (s.session n).proved then some n else none
  | none => none

/-- The TAG of a body under a session (R325). -/
def Session.tag (x : Session) (ident : Nat) (body : List Byte) : List Byte :=
  (hmac x.sk (bytesLE 4 x.cnt.toNat ++ bytesLE 4 ident ++ body)).take 4

/-- Requests of a master whose responses are not queued yet (R334). -/
def State.outstanding (s : State) (m : Master) : Nat :=
  (s.cat.outstanding.filter fun o => o.1 = m && decide (s.now < o.2)).length

/-- Byte `i` of a PDU. -/
def byteOf (q : Pdu) (i : Nat) : Nat := (q.bytes.getD i 0).toNat

/-- The index at bytes `i` and `i + 1` of a PDU. -/
def indexOf (q : Pdu) (i : Nat) : Nat := byteOf q i + 256 * byteOf q (i + 1)

/-! ### The content of a value (R14, R318, row 10 of R320) -/

/-- The reserved bits of a TBL_HDR of a KIND (R77, R110, R141, R387). -/
def tblReserved (v : Nat) : Bool :=
  let kind := bits v 122 121
  if kind = 0 then decide (bits v 73 0 ≠ 0) else if kind = 1 then decide (bits v 60 0 ≠ 0)
  else if kind = 2 then decide (bits v 34 0 ≠ 0) else false

/-- DBUS_CFG outside its range: a reserved rate or bit, or above 4 Mbit/s in WIRED mode (R328, R346). -/
def State.badRates (s : State) (v : Nat) : Bool :=
  let d := bits v 6 4
  decide (2 ≤ v % 4 ∨ bits v 3 2 ≠ 0 ∨ 5 ≤ d ∨ 128 ≤ v) || (s.boot.otp.wired && decide (3 ≤ d))

/-- A reserved field of an image or a field map is not zero. -/
def Obj.reservedSet (o : Obj) (v : Nat) : Bool :=
  match o with
  | .progHdr => decide (bits v 107 96 ≠ 0 ∨ bits v 63 0 ≠ 0)
  | .progLkp => decide (bits v 12 0 ≠ 0)
  | .progSeg => decide (bits v 6 0 ≠ 0)
  | .progTally => decide (bits v 21 0 ≠ 0)
  | .tblHdr => tblReserved v
  | .trnSelword => decide (bits v 7 0 ≠ 0)
  | .pfxStride => decide (bits v 13 0 ≠ 0)
  | .pfxGroup => decide (bits v 18 0 ≠ 0)
  | .rotaSel => decide (bits v 8 6 ≠ 0)
  | .rotaData => decide (bits v 1 0 ≠ 0)
  | .portRole => decide (4 ≤ v)
  | .portAuth => decide (bits v 29 16 ≠ 0)
  | .casSet => decide (bits v 76 0 ≠ 0)
  | .casSetCl => decide (bits v 3 0 ≠ 0)
  | .casSelf => nbit v 12
  | .casAdopt => decide (bits v 14 12 ≠ 0)
  | .casMember => decide (bits v 14 8 ≠ 0)
  | .dbCfg => decide (bits v 30 29 ≠ 0 ∨ bits v 23 22 ≠ 0 ∨ bits v 11 0 ≠ 0) || nbit v 18 || nbit v 14
  | .faultMask => decide (1024 ≤ v)
  | _ => false

/-- The value lies outside the range that the object states. -/
def State.outOfRange (s : State) (o : Obj) (v : Nat) : Bool :=
  match o with
  | .roomRank => decide (15 < v)
  | .roomShareBay => decide (4032 < v)
  | .roomSharePfx => decide (252 < v)
  | .roomShareEm => decide (504 < v)
  | .mqPrio => decide (7 < v)
  | .mqBurst => decide (v = 0 ∨ 16 < v)
  | .carAddr => decide (65535 < v)
  | .casMemberSel => decide (4095 < v)
  | .dbusCfg => s.badRates v
  | .dbusNode => decide (v = 255)
  | .dbusEvPrio => decide (7 < v)
  | .rotaPhases => decide (v = 0 ∨ 64 < v)
  | .rotaSel => decide (75 < bits v 15 9 ∨ bits v 8 6 ≠ 0)
  | .scarAddr => decide (16383 < v)
  | .srPeriod => decide (v = 0 ∨ 720 < v)
  | .colPeriod => decide (v < 60 ∨ 3600 < v)
  | .bayMapSel => decide (63 < v)
  | .thermLimit => decide (v < 60000 ∨ 105000 < v)
  | .vaultAddr => decide (511 < v)
  | .tblCmd => decide (v % 2 ^ 27 ≠ 0)
  | .emTick => decide (v = 0)
  | .poolProbeSel => decide (4194304 ≤ v)
  | .carClear => decide (v ≠ 1)
  | .portCtrl => maskedBad v 3
  | .rgnCtrl => maskedBad v 1
  | .dbCodeCfg => decide (8 ≤ v)
  | .mbxSel => decide (v % 256 ≠ 0)
  | .accession => decide (512 ≤ v)
  | .accDiscard => decide (512 ≤ v)
  | .provReq => decide (v ≠ 1)
  | .fwUpdTarget => decide (2 ≤ v)
  | .fwPolicy => decide (2 ≤ v)
  | .lcReq => decide (5 ≤ v)
  | .tamperCfg => decide (32 ≤ v)
  | .keyLoad => decide (18 ≤ v / 2 ^ 384)
  | _ => o.reservedSet v

/-- Rows 9 and 10 of R320. -/
def State.valueCode (s : State) (p : Place) (l : List Byte) : Nat :=
  let ty := p.obj.row.ty
  if ty = .mbx then Ab.mbxOnly
  else if l.length ≠ ty.size ∨ p.obj = .fwUpdImage then Ab.typeLength
  else if s.outOfRange p.obj (ty.value l) then Ab.range
  else 0

/-! ### Fields with a level of their own (R379) -/

/-- A Room-level write changes a Steward field of a table header. -/
def tblStewardDiffers (x v : Nat) : Bool :=
  let kind := bits v 122 121
  decide (bits x 127 121 ≠ bits v 127 121) ||
    (if kind = 0 then decide (bits x 83 77 ≠ bits v 83 77)
     else if kind = 1 then decide (bits x 117 106 ≠ bits v 117 106)
     else if kind = 2 then decide (bits x 110 78 ≠ bits v 110 78 ∨ bits x 74 70 ≠ bits v 74 70)
     else false)

/-- A write by a master at a level changes a field above that level, or asks for a LEVEL that only a Keeper gives (R322,
R379). -/
def fieldDenied (o : Obj) (level x v : Nat) : Bool :=
  match o with
  | .progHdr => decide (level < 2) && decide (bits x 127 124 ≠ bits v 127 124 ∨ bits x 95 64 ≠ bits v 95 64)
  | .tblHdr => decide (level < 2) && tblStewardDiffers x v
  | .portAuth => decide (level < 3) && bits v 31 30 = 3
  | _ => false

/-- Row 11 of R320: what the value goes to lies on a held die (R209, R233). -/
def State.onHeldDie (s : State) (m : Master) (p : Place) (v : Nat) : Bool :=
  match p.obj with
  | .carData => s.dieHeld (dieOfWord (s.ownReg m .carAddr p.inst))
  | .carClear => s.anyHeld
  | .poolProbeSel => s.dieHeld (dieOfBlock v)
  | _ => false

/-- Rows 1 to 11 of R320 for the bytes of a value: the abort code, 0 when they pass. -/
def State.writeCode (s : State) (m : Master) (p : Place) (l : List Byte) : Nat :=
  let v := p.obj.row.ty.value l
  if s.unserved p.obj p.inst then Ab.minimal
  else if s.writeGrant m p ≠ 0 then s.writeGrant m p
  else if s.valueCode p l ≠ 0 then s.valueCode p l
  else if fieldDenied p.obj (s.writer m).level (s.stagedKey (s.keyAt m p)) v then Ab.access
  else if s.onHeldDie m p v then Ab.dieHeld
  else 0

/-! ### Writes that reach the arbiter in one cycle (R345) -/

/-- A write on its way to the catalogue arbiter: its master, the index and sub-index it names and the bytes of its value. -/
structure Request where
  m : Master
  index : Nat
  sub : Nat
  bytes : List Byte
  deriving DecidableEq, Repr

/-- The write of a value to instance `i` of an object. -/
def Request.of (m : Master) (o : Obj) (i v : Nat) : Request := ⟨m, o.index i, o.row.sub, o.row.ty.bytes v⟩

/-- The write that a command brings to the arbiter. -/
def requestOf (c : Instr) : Option Request :=
  match c with
  | .tblCmd m room v => some (.of m .tblCmd room v.toNat)
  | .edAdvance m room v => some (.of m .edAdvance room v.toNat)
  | .buildTrie m t => some (.of m .pfxModeReq t 1)
  | .buildHash m t => some (.of m .pfxModeReq t 2)
  | .trie m t => some (.of m .pfxModeReq t 3)
  | .hash m t => some (.of m .pfxModeReq t 4)
  | .emTick m v => some (.of m .emTick 0 v.toNat)
  | .emLfsrSeed m v => some (.of m .emLfsrSeed 0 v.toNat)
  | .poolProbeSel m pool v => some (.of m .poolProbeSel pool v.toNat)
  | .carData m room v => some (.of m .carData room v.toNat)
  | .carClear m room v => some (.of m .carClear room v.toNat)
  | .accession m v => some (.of m .accession 0 v.toNat)
  | .accDiscard m v => some (.of m .accDiscard 0 v.toNat)
  | .registerWrite m i b l => some ⟨m, i.toNat, b.toNat, l⟩
  | .retrain m p v => some (.of m .portCtrl p v.toNat)
  | .writeReq q => some ⟨q.master, indexOf q 0, byteOf q 2, (q.bytes.drop 4).take (byteOf q 3)⟩
  | .mbxSel m v => some (.of m .mbxSel 0 v.toNat)
  | .dbAck m ring v => some (.of m .dbAck ring v.toNat)
  | .dbCodeCfg m v => some (.of m .dbCodeCfg 0 v.toNat)
  | .provReq m v => some (.of m .provReq 0 v.toNat)
  | .fwUpdTarget m v => some (.of m .fwUpdTarget 0 v.toNat)
  | .fwPolicy m v => some (.of m .fwPolicy 0 v.toNat)
  | .lcReq m v => some (.of m .lcReq 0 v.toNat)
  | .keyLoad m l => some ⟨m, Obj.keyLoad.index 0, Obj.keyLoad.row.sub, l⟩
  | .vaultData m v => some (.of m .vaultData 0 v.toNat)
  | .tamperCfg m v => some (.of m .tamperCfg 0 v.toNat)
  | .release m d v => some (.of m .rgnCtrl d v.toNat)
  | _ => none

/-- Catalogue accesses, which take no time: those that stand next to each other in the queue reach the arbiter in one cycle
(log 17). -/
def isAccess (c : Instr) : Bool :=
  match c with
  | .readReq _ => true
  | .mbxReq _ => true
  | c => (requestOf c).isSome

/-- A WRITE_REQ is whole and holds at most 32 bytes, and reaches the arbiter with its TAG checked (R325, R333, R345). -/
def State.tagged (s : State) (q : Pdu) : Bool :=
  let n := 4 + byteOf q 3
  (s.reach q 3).2 && decide (s.outstanding q.master < 4) && decide (n ≤ q.bytes.length ∧ n ≤ 36) &&
    (match s.provedOf q.master with
     | none => true
     | some i => (q.bytes.drop n).take 4 = (s.session i).tag (pduIdent q) (q.bytes.take n))

/-- The request of a command reaches the arbiter. -/
def State.arrives (s : State) (c : Instr) : Bool :=
  match c with
  | .writeReq q => s.tagged q
  | _ => true

/-- Another master's download holds the object of a key (R345). -/
def State.locked (s : State) (m : Master) (k : Nat) : Bool :=
  s.cat.transfers.any fun t => t.download && t.master ≠ m && t.index * 256 + t.sub = k / 65536

/-- `a` ranks before `b` for a write of one object in one cycle: the higher level, at equal level the bus, then the
lower port (R345). -/
def State.ranks1 (s : State) (a b : Master) : Bool :=
  let la := (s.who a).level
  let lb := (s.who b).level
  decide (lb < la) || (la = lb && (match a, b with
    | .bus _, _ => true
    | .port _, .bus _ => false
    | .port p, .port q => decide (p.val ≤ q.val)))

/-- The writes of key `k` that wait behind an access of `m` in its cycle and pass rows 1 to 11 of R320 (R345). -/
def State.rivals (s : State) (m : Master) (k : Nat) : List Request :=
  (s.pending.takeWhile isAccess).filterMap fun c =>
    match requestOf c with
    | none => none
    | some r =>
      match s.place r.index r.sub with
      | .error _ => none
      | .ok p =>
        if !serial m r.m && s.keyAt r.m p = k && s.arrives c && s.writeCode r.m p r.bytes = 0 && !s.locked r.m k &&
          (s.endedNow r.m).isNone then some r else none

/-- The key is that of DB_ACK of a ring. -/
def isAck (k : Nat) : Bool := (List.range 17).any fun r => Obj.dbAck.key r = k

/-- A write of an object loses to one of the same cycle that ranks first, also when that one's own checks refuse it (R345,
R376). Acknowledgements of a ring are checked one after the other instead (R376). -/
def State.loses (s : State) (m : Master) (k : Nat) : Bool :=
  sharedKey k && !isAck k &&
    ((s.cat.writes.any fun w => w.cycle = s.now && w.ran && !serial m w.master && w.key = k && s.ranks1 w.master m) ||
      (s.rivals m k).any fun r => s.ranks1 r.m m)

/-- What the arbiter last did, and the writes of the present cycle (R320, R345). -/
def State.outcome (s : State) (k : Nat) (m : Master) (code : Nat) (value : List Byte) (old : Option Nat) (ran : Bool) : State :=
  let a : Access := ⟨k, m, code, value, s.now, old, ran⟩
  { s with cat := { s.cat with last := some a, writes := (s.cat.writes.filter fun w => w.cycle = s.now) ++ [a] } }

/-- The catalogue takes accesses of the master; in minimal mode only those from the dictionary bus (R415). -/
def State.reached (s : State) (m : Master) : Bool := s.catalogueUp && (s.dev.phase != .minimal || isBus m)

/-- A write of object `k` whose rows 1 to 11 give `code`: then the end of its session in this cycle stops it, another
master's download, or a write of the same cycle that ranks first; else `run` gives the state and its abort code (R320,
R345). -/
def State.guarded (s : State) (m : Master) (k code : Nat) (l : List Byte) (old : Option Nat) (run : State → State × Nat) :
    State :=
  if !s.reached m then s
  else if code ≠ 0 then s.outcome k m code l none false
  else if (s.endedNow m).isSome then s.outcome k m Ab.noSession l none false
  else if s.locked m k then s.outcome k m Ab.locked l none false
  else if s.loses m k then s.outcome k m Ab.superseded l none false
  else
    let r := run s
    r.1.outcome k m r.2 l old true

end Sys2Proof.Machine
end

