-- ==== Sys2Proof/Machine/Write.lean ====
section
/-! DEFINITION. Writes of catalogue objects by any path (R318, R320, R350, R356, R379, R381): the objects whose writes act, the
staging or setting of all others, and the commands that write one object. -/

namespace Sys2Proof.Machine

/-! ### The write itself -/

/-- The value stored: fields without a write level keep theirs (R379). -/
def State.keptFields (s : State) (p : Place) (v : Nat) : Nat :=
  match p.obj with
  | .progHdr => v - bits v 111 108 * 2 ^ 108 + bits (s.view.obj .progHdr p.inst) 111 108 * 2 ^ 108
  | .casSelf => bits v 30 14 * 2 ^ 14
  | _ => v

/-- Objects whose write acts, chapters 4 to 9 and 13. -/
def State.writeRooms (s : State) (m : Master) (p : Place) (v : Nat) : Option (State × Nat) :=
  let i := p.inst
  match p.obj with
  | .tblCmd => some (s.wrTblCmd i v)
  | .tblStage => some (if s.regBusy i then (s, Ab.cmdBusy) else (s.setReg .tblStage i p.off 0 v, 0))
  | .edAdvance => some (s.queueAdvance i v)
  | .poolProbeSel => some (s.wrProbe m i v)
  | .carData => some (s.wrCarData m i (BitVec.ofNat 64 v))
  | .carClear => some (s.wrCarClear i)
  | .pfxModeReq => some (s.wrMode i v)
  | .emTick => some (s.wrTick v)
  | .emLfsrSeed => some (s.wrSeed v)
  | .portCtrl => some (s.wrPortCtrl i v)
  | .scarData => some ((s.setSecWord (s.ownReg m .scarAddr) (BitVec.ofNat 64 v)).cleanse .secure 4 (s.ownReg m .scarAddr), 0)
  | .rgnCtrl => some (s.wrRgnCtrl i v)
  | _ => none

/-- DB_ACK: checked against RSEQ as the acknowledgements of this cycle that rank first leave it (R367, R369, R376). -/
def State.wrAck (s : State) (m : Master) (r v : Nat) : State × Nat :=
  let g := s.ring r
  let k := Obj.dbAck.key r
  let mine := (s.sameCycle m).filter fun w => w.key = k
  let base : BitVec 16 := match mine.find? fun w => !s.ranks1 w.master m with
    | some w => BitVec.ofNat 16 (w.old.getD 0)
    | none => g.rseq
  let ahead := fun (x : Nat) => (BitVec.ofNat 16 x - base).toNat
  let top := (g.wseq s.now - base).toNat
  let first := (mine.filter fun w => s.ranks1 w.master m).map (fun w => ofBytesLE w.value) ++
    ((s.rivals m k).filter fun x => s.ranks1 x.m m).map fun x => ofBytesLE x.bytes
  if top < ahead v || first.any fun x => decide (ahead x ≤ top ∧ ahead v < ahead x) then (s, Ab.range)
  else if (g.rseq - base).toNat < ahead v then (s.ackRing r (BitVec.ofNat 16 v), 0)
  else (s, 0)

/-- ACCESSION: it takes the values staged before the writes of its cycle, which stay staged (R345, R354). -/
def State.accedeAt (s : State) (m : Master) (v : Nat) : State × Nat :=
  let r := (s.before m).accede (s.who m) (mid m) v
  let keep := s.cat.staged.filter fun e => (s.sameCycle m).any fun w => w.key = e.1
  ({ r.1 with cat := { r.1.cat with staged := keep.foldl (fun l e => sput (fun _ => e.2 + 1) l e.1 e.2) r.1.cat.staged } }, r.2)

/-- Objects whose write acts, chapters 11, 12, 14 and 15. -/
def State.writeDevice (s : State) (m : Master) (p : Place) (v : Nat) : Option (State × Nat) :=
  match p.obj with
  | .accession => some (s.accedeAt m v)
  | .accDiscard => some (s.discardStaged m v)
  | .mbxSel => some (s.wrMbxSel m v)
  | .dbAck => some (s.wrAck m p.inst v)
  | .dbCodeCfg => some (s.wrCodeCfg m v)
  | .provReq => some (s.wrProvReq m)
  | .fwUpdTarget => some (s.byCore (·.wrUpdTarget v))
  | .fwPolicy => some (s.wrPolicy v)
  | .lcReq => some (s.byCore (·.wrLcReq v))
  | .keyLoad => some (s.byCore (·.wrKeyLoad m (bytesBE 49 v)))
  | .tamperCfg => some (s.wrTamperCfg v)
  | .vaultData => some (s.wrVaultData m v)
  | .vaultAddr => if s.dev.vaon then none else some (s, Ab.tamperActive)
  | .casSelf =>
    if s.cas.quarantined && !nbit v 14 then some (s, Ab.casFenced) else none
  | _ => none

/-- A write of MQ_PRIO ranks the room from the next arbitration point on (R243). -/
def State.notePrio (s : State) (room : Nat) : State :=
  let a := s.arb
  let was := if a.prioAt = s.now then a.prioWas else []
  if sget (fun _ => 0) was room ≠ 0 then s
  else { s with arb := { a with prioAt := s.now, prioWas := sput (fun _ => 0) was room (s.reg .mqPrio room + 1) } }

/-- A write of an object without behaviour of its own: staged (R350), in the master's context (R381), or set. -/
def State.writePlain (s : State) (m : Master) (p : Place) (v : Nat) : State × Nat :=
  if p.obj.row.s then (s.stage (s.keyAt m p) v, 0)
  else if p.obj.perContext then
    match s.takeCtx m with
    | none => (s, Ab.cmdBusy)
    | some (s, c) => (s.setCtxReg c (p.obj.key p.inst) v, 0)
  else ((if p.obj = .mqPrio then s.notePrio p.inst else s).setReg p.obj p.inst p.off 0 v, 0)

/-- Row 12 of R320: the write of a value that passed the rows before. -/
def State.performWrite (s : State) (m : Master) (p : Place) (l : List Byte) : State × Nat :=
  let v := p.obj.row.ty.value l
  match s.writeRooms m p v with
  | some r => r
  | none => match s.writeDevice m p v with
    | some r => r
    | none => s.writePlain m p (s.keptFields p v)

/-- The value of an object before a write, for the accesses of its cycle (R345): of a shadowed object what was staged, of
DB_ACK the value of DB_RSEQ. -/
def State.oldValue (s : State) (m : Master) (p : Place) : Option Nat :=
  if p.obj.row.s then (s.cat.staged.find? fun e => e.1 = s.keyAt m p).map (·.2)
  else if p.obj = .dbAck then some (s.ring p.inst).rseq.toNat
  else match s.readObj m p with
    | .ok v => some v
    | .error _ => none

/-- The abort code that the arbiter gave last (R320). -/
def State.lastCode (s : State) : Nat := match s.cat.last with | some a => a.code | none => 0

/-- A write of the bytes of a value to an object by a master (R320, R345). -/
def State.writeObj (s : State) (m : Master) (p : Place) (l : List Byte) : State :=
  s.guarded m (s.keyAt m p) (s.writeCode m p l) l (s.oldValue m p) fun s => s.performWrite m p l

/-- A write of an index and sub-index by a master (R320, R345). -/
def State.writeAccess (s : State) (m : Master) (index sub : Nat) (l : List Byte) : State :=
  match s.place index sub with
  | .error c => s.guarded m (regKey index sub 0) c l none fun s => (s, 0)
  | .ok p => s.writeObj m p l

/-- An expedited write: at most 32 bytes (R339). -/
def State.writeShort (s : State) (m : Master) (index sub : Nat) (l : List Byte) : State :=
  if l.length ≤ 32 then s.writeAccess m index sub l
  else match s.place index sub with
    | .error c => s.guarded m (regKey index sub 0) c l none fun s => (s, 0)
    | .ok p =>
      let c := if s.writeGrant m p ≠ 0 then s.writeGrant m p else if p.obj.row.ty = .mbx then Ab.mbxOnly else Ab.typeLength
      s.guarded m (s.keyAt m p) c l none fun s => (s, 0)

/-- REGISTER_WRITE (R320): a write reaches the catalogue arbiter. -/
def execRegisterWrite (m : Master) (index : BitVec 16) (sub : BitVec 8) (value : List Byte) (s : State) :
    Host.Outcome State Fault Refusal :=
  done (s.writeAccess m index.toNat sub.toNat value)

/-! ### Commands that write one object -/

/-- A write of value `v` to instance `i` of an object (R320, R345). -/
def State.control (s : State) (m : Master) (o : Obj) (i v : Nat) : Host.Outcome State Fault Refusal :=
  done (s.writeObj m ⟨o, i, 0⟩ (o.row.ty.bytes v))

/-- TBL_CMD: GO queues the staged image (R180). -/
def execTblCmd (m : Master) (room : Fin 16) (value : BitVec 32) (s : State) : Host.Outcome State Fault Refusal :=
  s.control m .tblCmd room value.toNat

/-- ED_ADVANCE (R190). -/
def execEdAdvance (m : Master) (room : Fin 16) (expect : BitVec 16) (s : State) : Host.Outcome State Fault Refusal :=
  s.control m .edAdvance room expect.toNat

/-- BUILD_TRIE (R135). -/
def execBuildTrie (m : Master) (table : Fin 256) (s : State) : Host.Outcome State Fault Refusal :=
  s.control m .pfxModeReq table 1

/-- BUILD_HASH (R135). -/
def execBuildHash (m : Master) (table : Fin 256) (s : State) : Host.Outcome State Fault Refusal :=
  s.control m .pfxModeReq table 2

/-- TRIE (R136). -/
def execTrie (m : Master) (table : Fin 256) (s : State) : Host.Outcome State Fault Refusal :=
  s.control m .pfxModeReq table 3

/-- HASH (R136). -/
def execHash (m : Master) (table : Fin 256) (s : State) : Host.Outcome State Fault Refusal :=
  s.control m .pfxModeReq table 4

/-- EM_TICK (R388). -/
def execEmTick (m : Master) (value : BitVec 16) (s : State) : Host.Outcome State Fault Refusal :=
  s.control m .emTick 0 value.toNat

/-- EM_LFSR_SEED (R159). -/
def execEmLfsrSeed (m : Master) (value : BitVec 32) (s : State) : Host.Outcome State Fault Refusal :=
  s.control m .emLfsrSeed 0 value.toNat

/-- POOL_PROBE_SEL (R209). -/
def execPoolProbeSel (m : Master) (pool : Fin 64) (block : BitVec 32) (s : State) : Host.Outcome State Fault Refusal :=
  s.control m .poolProbeSel pool block.toNat

/-- CAR_DATA (R233). -/
def execCarData (m : Master) (room : Fin 16) (value : BitVec 64) (s : State) : Host.Outcome State Fault Refusal :=
  s.control m .carData room value.toNat

/-- CAR_CLEAR (R233). -/
def execCarClear (m : Master) (room : Fin 16) (value : BitVec 32) (s : State) : Host.Outcome State Fault Refusal :=
  s.control m .carClear room value.toNat

/-- ACCESSION (R354): a write of ACCESSION by a master. -/
def execAccession (m : Master) (value : BitVec 32) (s : State) : Host.Outcome State Fault Refusal :=
  s.control m .accession 0 value.toNat

/-- ACC_DISCARD (R352). -/
def execAccDiscard (m : Master) (value : BitVec 16) (s : State) : Host.Outcome State Fault Refusal :=
  s.control m .accDiscard 0 value.toNat

/-- RETRAIN: a write of PORT_CTRL (R262, R356). -/
def execRetrain (m : Master) (port : Fin 32) (value : BitVec 32) (s : State) : Host.Outcome State Fault Refusal :=
  s.control m .portCtrl port value.toNat

/-- MBX_SEL (R361). -/
def execMbxSel (m : Master) (value : BitVec 32) (s : State) : Host.Outcome State Fault Refusal :=
  s.control m .mbxSel 0 value.toNat

/-- DB_ACK (R369). -/
def execDbAck (m : Master) (ring : Fin 17) (value : BitVec 16) (s : State) : Host.Outcome State Fault Refusal :=
  s.control m .dbAck ring value.toNat

/-- DB_CODE_CFG (R370, R492). -/
def execDbCodeCfg (m : Master) (value : BitVec 8) (s : State) : Host.Outcome State Fault Refusal :=
  s.control m .dbCodeCfg 0 value.toNat

/-- PROV_REQ (R409). -/
def execProvReq (m : Master) (value : BitVec 8) (s : State) : Host.Outcome State Fault Refusal :=
  s.control m .provReq 0 value.toNat

/-- FW_UPD_TARGET (R417): a write served by the firmware. -/
def execFwUpdTarget (m : Master) (value : BitVec 8) (s : State) : Host.Outcome State Fault Refusal :=
  s.control m .fwUpdTarget 0 value.toNat

/-- FW_POLICY (R414). -/
def execFwPolicy (m : Master) (value : BitVec 8) (s : State) : Host.Outcome State Fault Refusal :=
  s.control m .fwPolicy 0 value.toNat

/-- LC_REQ (R430): a write served by the firmware. -/
def execLcReq (m : Master) (value : BitVec 8) (s : State) : Host.Outcome State Fault Refusal :=
  s.control m .lcReq 0 value.toNat

/-- KEY_LOAD (R426): a write served by the firmware. -/
def execKeyLoad (m : Master) (value : List Byte) (s : State) : Host.Outcome State Fault Refusal :=
  done (s.writeObj m ⟨.keyLoad, 0, 0⟩ value)

/-- VAULT_DATA (R425). -/
def execVaultData (m : Master) (value : BitVec 32) (s : State) : Host.Outcome State Fault Refusal :=
  s.control m .vaultData 0 value.toNat

/-- TAMPER_CFG (R434). -/
def execTamperCfg (m : Master) (value : BitVec 16) (s : State) : Host.Outcome State Fault Refusal :=
  s.control m .tamperCfg 0 value.toNat

/-- RELEASE: a write of RGN_CTRL (R456). -/
def execRelease (m : Master) (region : Fin 5) (value : BitVec 32) (s : State) : Host.Outcome State Fault Refusal :=
  s.control m .rgnCtrl region value.toNat

end Sys2Proof.Machine
end

