-- ==== Sys2Proof/Machine/Plovier.lean ====
section
/-! DEFINITION. The Plovier services (R324 to R326, R333 to R336, R340 to R342): stored responses, expedited and segmented
accesses, sleep and sessions. -/

namespace Sys2Proof.Machine

/-! ### Stored responses (R326, R334) -/

/-- An object whose response may take 2 ms (R334). -/
def slowObject (index sub : Nat) : Bool :=
  match findObj index sub with
  | some p => p.obj.byFirmware || p.obj = .accession
  | none => false

/-- An accepted request: its session is in use (R326). -/
def State.inUse (s : State) (m : Master) : State :=
  match s.sessionOf m with
  | some n => s.setSession n { s.session n with lastUse := s.now }
  | none => s

/-- Sends the response to a request, with the segments that follow it. The request is outstanding until the response is
queued, within 50 µs or 2 ms (R334); one that needs no response is not. -/
def State.reply (s : State) (m : Master) (index sub : Nat) (l : List Pdu) : State :=
  if l.isEmpty then s
  else
    let due := s.now + s.drawn % (if slowObject index sub then 2 * Config.msec else 50 * Config.usec)
    let old := s.cat.outstanding.filter fun o => s.now < o.2
    l.foldl State.sendPdu ({ s with cat := { s.cat with outstanding := old ++ [(m, due)] } }.draw)

/-- The stored request of a master. -/
def State.lastReqOf (s : State) (m : Master) : Option LastReq := s.cat.lastReqs.find? fun l => l.master = m

/-- Stores the last accepted request of a master with its response (R326). -/
def State.storeReq (s : State) (l : LastReq) : State :=
  { s with cat := { s.cat with lastReqs := s.cat.lastReqs.filter (fun x => x.master ≠ l.master) ++ [l] } }

/-- The request repeats the last accepted one, within 1 s of it (R326). -/
def State.repeats (s : State) (x : Session) (q : Pdu) (body tag : List Byte) : Option LastReq :=
  match s.lastReqOf q.master with
  | some l =>
    if 1 ≤ x.cnt.toNat ∧ l.ident = pduIdent q ∧ l.body = body ∧ l.tag = tag ∧ s.now ≤ l.at_ + Config.sec then some l else none
  | none => none

/-- A wrong TAG: refused, and the eighth in a row ends the session (R325). -/
def State.macRefused (s : State) (n : Nat) (refusal : Pdu) : State :=
  let x := s.session n
  let s := (s.setSession n { x with macFails := x.macFails + 1 }).sendPdu refusal
  if 8 ≤ x.macFails + 1 then s.endSession n 3 else s

/-- How a service is served: the length of its layout, whether it ends in a TAG, the object it names, its refusal with a
code, and its action on the PDU's body, with the response and what follows it. -/
structure Service where
  layout : Nat
  tagged : Bool
  index : Nat
  sub : Nat
  refuse : Nat → Pdu
  run : State → List Byte → State × List Pdu

/-- A request goes through the limit of R334, its length (R333), a repetition (R326) and its TAG (R325) before it acts. -/
def State.serve (s : State) (q : Pdu) (v : Service) : State :=
  let m := q.master
  if 4 ≤ s.outstanding m then s.sendPdu (s.abortPdu q v.index v.sub Ab.cmdBusy)
  else match if v.tagged then s.provedOf m else none with
    | none =>
      if q.bytes.length < v.layout then s.sendPdu (s.abortPdu q v.index v.sub Ab.badPdu)
      else
        let r := v.run (s.inUse m) (q.bytes.take v.layout)
        r.1.reply m v.index v.sub r.2
    | some n =>
      let x := s.session n
      let body := q.bytes.take v.layout
      let tag := (q.bytes.drop v.layout).take 4
      if q.bytes.length < v.layout + 4 then s.sendPdu (s.abortPdu q v.index v.sub Ab.badPdu)
      else match s.repeats x q body tag with
        | some l => l.rsp.foldl State.sendPdu (s.bump .catDup)
        | none =>
          if tag ≠ x.tag (pduIdent q) body then s.macRefused n (v.refuse Ab.mac)
          else
            let r := v.run ((s.setSession n { x with cnt := x.cnt + 1, macFails := 0 }).inUse m) body
            (r.1.reply m v.index v.sub r.2).storeReq ⟨m, pduIdent q, body, tag, s.now, r.2⟩

/-- A PDU of a service reaches the device and is served. -/
def State.onPdu (s : State) (q : Pdu) (service : Nat) (v : State → Service) : Host.Outcome State Fault Refusal :=
  let r := s.reach q service
  done (if r.2 then r.1.serve q (v r.1) else r.1)

/-! ### Expedited accesses and mailbox requests (R320, R333, R336) -/

/-- A response that carries an object, an abort code and a value. -/
def State.valuePdu (s : State) (q : Pdu) (service index sub : Nat) (a : Answer) : Pdu :=
  s.respond q service (naming index sub ++ [byte a.code, byte a.bytes.length] ++ a.bytes)

/-- READ_REQ (R320, R333). -/
def execReadReq (pdu : Pdu) (s : State) : Host.Outcome State Fault Refusal :=
  let i := indexOf pdu 0
  let b := byteOf pdu 2
  s.onPdu pdu 0x01 fun s => ⟨4, true, i, b, fun c => s.valuePdu pdu 0x02 i b ⟨c, []⟩, fun s _ =>
    let r := s.readAccess pdu.master true i b
    (r.1, [s.valuePdu pdu 0x02 i b r.2])⟩

/-- A WRITE_RSP (R333). -/
def State.writeRsp (s : State) (q : Pdu) (index sub code : Nat) : Pdu := s.respond q 0x04 (naming index sub ++ [byte code])

/-- WRITE_REQ (R320, R333, R345): an expedited access carries at most 32 bytes (R339). -/
def execWriteReq (pdu : Pdu) (s : State) : Host.Outcome State Fault Refusal :=
  let i := indexOf pdu 0
  let b := byteOf pdu 2
  s.onPdu pdu 0x03 fun s => ⟨4 + (byteOf pdu 3), true, i, b, s.writeRsp pdu i b, fun s body =>
    let t := s.writeShort pdu.master i b (body.drop 4)
    (t, [t.writeRsp pdu i b t.lastCode])⟩

/-- MBX_REQ: a snapshot through the device's own engine (R336, R359). -/
def execMbxReq (pdu : Pdu) (s : State) : Host.Outcome State Fault Refusal :=
  let i := indexOf pdu 0
  let b := byteOf pdu 2
  s.onPdu pdu 0x09 fun s => ⟨4, true, i, b, fun c => s.valuePdu pdu 0x0A i b ⟨c, []⟩, fun s _ =>
    match s.mbxPick pdu.master i b with
    | .refuse c => (s, [s.valuePdu pdu 0x0A i b ⟨c, []⟩])
    | .zeros n => (s, [s.valuePdu pdu 0x0A i b ⟨0, List.replicate n 0⟩])
    | .take p => (s, [s.valuePdu pdu 0x0A i b (s.mbxBytes pdu.master p)])⟩

/-- A PDU that no service takes: a reserved SERVICE code, or a SESSION_REQ without bytes or with a reserved OP (R333;
log 95). -/
def badPdu (q : Pdu) : Bool :=
  let v := q.service.toNat
  if v = 0x11 then q.bytes.isEmpty || !([1, 2, 3].contains (byteOf q 0))
  else !([0x01, 0x03, 0x05, 0x07, 0x08, 0x09, 0x0B, 0x0E].contains v || deviceService v)

/-- BAD_PDU: answered with ABORT (R333). -/
def execBadPdu (pdu : Pdu) (s : State) : Host.Outcome State Fault Refusal :=
  if !badPdu pdu then .next s
  else
    let r := s.reach pdu pdu.service.toNat
    done (if r.2 then r.1.sendPdu (r.1.abortPdu pdu (indexOf pdu 0) (byteOf pdu 2) Ab.badPdu) else r.1)

/-! ### Segmented transfers (R335) -/

/-- Writes a master's transfer. -/
def State.setTransfer (s : State) (t : Transfer) : State :=
  { s with cat := { s.cat with transfers := s.cat.transfers.filter (fun x => x.master ≠ t.master) ++ [t] } }

/-- A SEG_INIT_RSP (R333). -/
def State.segInitRsp (s : State) (q : Pdu) (index sub code size : Nat) : Pdu :=
  s.respond q 0x06 (naming index sub ++ [byte code] ++ bytesLE 4 size ++ [8])

/-- Segments of an upload of `n` bytes. -/
def segments (n : Nat) : Nat := max 1 (cdiv n 63)

/-- Segment `k` of an upload (R333). -/
def State.segPdu (s : State) (t : Transfer) (k : Nat) : Pdu :=
  let lastOne := decide (k + 1 = segments t.size)
  { s.respond t.req 0x07 (byte (if lastOne then 0x80 else 0) :: (t.data.drop (63 * k)).take 63) with seq := BitVec.ofNat 5 k }

/-- The next window of an upload: up to 8 segments (R335). -/
def State.window (s : State) (t : Transfer) : State × List Pdu :=
  let n := min 8 (segments t.size - t.next)
  (s.setTransfer { t with next := t.next + n, since := s.now }, (List.range n).map fun k => s.segPdu t (t.next + k))

/-- What an object type allows a segmented transfer of: OCT and STR (R335). -/
def OType.segmented : OType → Bool
  | .oct _ => true
  | .str _ => true
  | _ => false

/-- The checks of a download's SEG_INIT: rows 1 to 10 of R320, R335, R417 and R432. -/
def State.downloadCode (s : State) (m : Master) (index sub size : Nat) : Nat :=
  match s.place index sub with
  | .error c => c
  | .ok p =>
    let g := s.writeGrant m p
    if g ≠ 0 then g
    else if p.obj.row.ty = .mbx then Ab.mbxOnly
    else if !p.obj.row.ty.segmented then Ab.typeLength
    else if p.obj = .fwUpdImage ∧ s.lcState = 4 then Ab.lcScrapped
    else if s.locked m (regKey index sub 0) then Ab.locked
    else if size ≠ p.obj.row.ty.size then Ab.segSize
    else if p.obj = .fwUpdImage ∧ s.boot.upd.busy then Ab.cmdBusy
    else if p.obj = .fwUpdImage ∧ !s.boot.upd.ready then Ab.updNotReady
    else 0

/-- A download begins (R335); that of an image needs the core's answer (R378; log 94). -/
def State.startDownload (s : State) (q : Pdu) (index sub size : Nat) : State × List Pdu :=
  let c := s.downloadCode q.master index sub size
  let t : Transfer := ⟨q.master, true, index, sub, size, 0, s.now, [], 0, q⟩
  let begin_ := fun (s : State) => (s.setTransfer t, 0)
  let r := if c ≠ 0 then (s, c) else if t.image then s.byCore fun s => begin_ s.beginImage else begin_ s
  (r.1, [r.1.segInitRsp q index sub r.2 size])

/-- An upload begins: the value of that cycle, then its first window (R335). -/
def State.startUpload (s : State) (q : Pdu) (index sub : Nat) : State × List Pdu :=
  let r := s.readAccess q.master false index sub
  let ok := match findObj index sub with | some p => p.obj.row.ty.segmented | none => true
  let c := if r.2.code = 0 ∧ !ok then Ab.typeLength else r.2.code
  let rsp := s.segInitRsp q index sub c (if c = 0 then r.2.bytes.length else 0)
  if c ≠ 0 then (r.1, [rsp])
  else
    let w := r.1.window ⟨q.master, false, index, sub, r.2.bytes.length, 0, s.now, r.2.bytes, 0, q⟩
    (w.1, rsp :: w.2)

/-- SEG_INIT (R335): refused with CMD_BUSY while the master has a transfer open. -/
def execSegInit (pdu : Pdu) (s : State) : Host.Outcome State Fault Refusal :=
  let i := indexOf pdu 1
  let b := byteOf pdu 3
  let dir := byteOf pdu 0
  s.onPdu pdu 0x05 fun s => ⟨8, true, i, b, fun c => s.segInitRsp pdu i b c 0, fun s body =>
    if 2 ≤ dir then (s, [s.abortPdu pdu i b Ab.badPdu])
    else if (s.transferOf pdu.master).isSome then (s, [s.segInitRsp pdu i b Ab.cmdBusy 0])
    else if dir = 0 then s.startDownload pdu i b (ofBytesLE (body.drop 4))
    else s.startUpload pdu i b⟩

/-- Bytes that a download has received. -/
def State.receivedOf (s : State) (t : Transfer) : Nat := if t.image then s.boot.upd.received else t.data.length

/-- A transfer ends with a code (R335). -/
def State.failTransfer (s : State) (q : Pdu) (code : Nat) : State × List Pdu :=
  match s.transferOf q.master with
  | none => (s, [s.abortPdu q 0 0 code])
  | some t => (s.dropTransfer q.master, [s.abortPdu q t.index t.sub code])

/-- The last segment of a download: an image waits for its checks (FW_UPD_IMAGE), any other object is written in one cycle
and acknowledged with the code of that write (R335). -/
def State.endDownload (s : State) (q : Pdu) (t : Transfer) : State × List Pdu :=
  if t.image then (s.setTransfer { t with last := 64, req := q, since := s.now, next := t.next + 1 }, [])
  else
    let s := s.dropTransfer q.master
    let s := s.writeAccess q.master t.index t.sub t.data
    (s, [s.segAckPdu q t.data.length s.lastCode])

/-- A segment of a download in order (R335). -/
def State.takeSegment (s : State) (q : Pdu) (t : Transfer) (body : List Byte) : State × List Pdu :=
  let l := body.drop 1
  let s := if t.image then s.program l else s
  let t := { t with data := if t.image then [] else t.data ++ l }
  if t.size < s.receivedOf t then s.failTransfer q Ab.segSize
  else if nbit (body.headD 0).toNat 7 then s.endDownload q t
  else
    let n := t.last + 1
    let t := { t with next := t.next + 1, last := n % 8, since := s.now, req := q }
    (s.setTransfer t, if n = 8 then [s.segAckPdu q (s.receivedOf t) 0] else [])

/-- SEG_DATA: a segment of the master's download (R335). -/
def execSegData (pdu : Pdu) (s : State) : Host.Outcome State Fault Refusal :=
  s.onPdu pdu 0x07 fun s =>
    let t := s.transferOf pdu.master
    let i := match t with | some t => t.index | none => 0
    let b := match t with | some t => t.sub | none => 0
    let n := pdu.bytes.length - (if (s.provedOf pdu.master).isSome then 4 else 0)
    ⟨max 1 n, true, i, b, fun c => s.segAckPdu pdu (match t with | some t => s.receivedOf t | none => 0) c, fun s body =>
      match t with
      | none => s.failTransfer pdu Ab.sequence
      | some t =>
        if 60 < body.length then s.failTransfer pdu Ab.badPdu
        else if !t.download || t.last = 64 || pdu.seq.toNat ≠ t.next % 32 then s.failTransfer pdu Ab.sequence
        else s.takeSegment pdu t body⟩

/-- SEG_ACK: the master has received the segments of an upload sent so far, or ends the transfer (R335). -/
def execSegAck (pdu : Pdu) (s : State) : Host.Outcome State Fault Refusal :=
  s.onPdu pdu 0x08 fun s =>
    let t := s.transferOf pdu.master
    let i := match t with | some t => t.index | none => 0
    let b := match t with | some t => t.sub | none => 0
    ⟨5, true, i, b, s.abortPdu pdu i b, fun s body =>
      match t with
      | none => s.failTransfer pdu Ab.sequence
      | some t =>
        if (body.getD 4 0) ≠ 0 then (s.dropTransfer pdu.master, [])
        else if t.download || ofBytesLE (body.take 4) ≠ min t.size (63 * t.next) then s.failTransfer pdu Ab.sequence
        else if segments t.size ≤ t.next then (s.dropTransfer pdu.master, [])
        else s.window { t with req := pdu }⟩

/-- ABORT: the master ends its transfer (R333, R335). -/
def execAbort (pdu : Pdu) (s : State) : Host.Outcome State Fault Refusal :=
  let i := indexOf pdu 0
  let b := byteOf pdu 2
  s.onPdu pdu 0x0B fun s => ⟨4, true, i, b, s.abortPdu pdu i b, fun s _ => (s.dropTransfer pdu.master, [])⟩

/-- TIMEOUT: a transfer without a segment or ACK for 100 ms ends (R335); an image whose last segment has come waits for the
device. -/
def execTimeout (m : Master) (s : State) : Host.Outcome State Fault Refusal :=
  match s.transferOf m with
  | none => .next s
  | some t =>
    if t.last = 64 then .next s else done ((s.at (t.since + 100 * Config.msec)).abortTransfer m Ab.timeout)

/-! ### Sleep (R341, R342) -/

/-- Why a SLEEP_REQ is refused, 0 when it is not (R342). -/
def State.sleepCode (s : State) (m : Master) : Nat :=
  if (s.who m).level < 2 then Ab.access
  else if !s.bus.push.isEmpty || decide (0 < s.bus.withheld) then Ab.eventPending
  else if !s.cat.transfers.isEmpty then Ab.transferOpen
  else 0

/-- SLEEP_REQ (R341, R342). -/
def execSleepReq (pdu : Pdu) (s : State) : Host.Outcome State Fault Refusal :=
  let rsp := fun (s : State) (c : Nat) => s.respond pdu 0x0F [byte c]
  match pdu.master with
  | .port _ =>
    let r := s.reach pdu 0x0E
    done (if r.2 then r.1.sendPdu (r.1.abortPdu pdu 0 0 Ab.badPdu) else r.1)
  | .bus _ =>
    s.onPdu pdu 0x0E fun s => ⟨4, true, 0, 0, rsp s, fun s _ =>
      let c := s.sleepCode pdu.master
      let b := s.bus
      let s := if c = 0 then { s with bus := { b with sleep := .waiting s.now, sleepMid := mid pdu.master } } else s
      (s, [rsp s c])⟩

/-! ### Sessions (R321, R324, R326) -/

/-- A SESSION_RSP (R333). -/
def State.sessionRsp (s : State) (q : Pdu) (op code n : Nat) (more : List Byte) : Pdu :=
  s.respond q 0x12 ([byte op, byte code, byte n, 0] ++ more)

/-- The key number of a level (R324, R426). -/
def keyNumber (level room : Nat) : Nat := if level = 1 then room else if level = 2 then 16 else 17

/-- The transport key TK (R427). -/
def transportKey : List Byte := hmac Config.uds (ascii "OZM-TRANSPORT")

/-- A Keeper session uses TK: no Keeper key is provisioned (R427). -/
def State.usesTk (s : State) (level : Nat) : Bool := level = 3 && !nbit s.keyState 17

/-- The key that a session of a level is proved with: 18 stands for TK (R324, R427). -/
def State.provingKey (s : State) (level room : Nat) : Nat := if s.usesTk level then 18 else keyNumber level room

/-- K of R324. -/
def State.sessionKey (s : State) (level room : Nat) : List Byte :=
  if s.usesTk level then transportKey else s.keyBytes (keyNumber level room)

/-- The port's authority refuses a level (R322, R324). -/
def State.aboveAuth (s : State) (m : Master) (level room : Nat) : Bool :=
  match m with
  | .bus _ => false
  | .port p =>
    let a := s.view.obj .portAuth p
    decide (bits a 31 30 < level) || (level = 1 && !nbit (bits a 15 0) room)

/-- Why an OPEN is refused, 0 when it is not (R324, R427; log 44). -/
def State.openCode (s : State) (m : Master) (level room : Nat) : Nat :=
  if s.cat.failedProve.any fun f => f.1 = m && decide (s.now < f.2 + Config.sec) then Ab.session
  else if 4 ≤ level ∨ (level = 1 ∧ 16 ≤ room) then Ab.range
  else if s.aboveAuth m level room then Ab.access
  else if level = 3 ∧ s.lcState = 4 then Ab.lcScrapped
  else if level = 0 || (!s.usesTk level && !nbit s.keyState (keyNumber level room)) then Ab.noKey
  else 0

/-- The session number that an OPEN takes (R321, R346). -/
def State.freeSession (s : State) (m : Master) : Option Nat :=
  match m with
  | .bus _ => (List.range 16).find? fun n => !(s.session n).isOpen
  | .port p => some (16 + p)

/-- OPEN (R324): an old session of the master ends first. -/
def State.openFor (s : State) (q : Pdu) (level room : Nat) : State × List Pdu :=
  let m := q.master
  let c := s.openCode m level room
  if c ≠ 0 then (s, [s.sessionRsp q 1 c 0 []])
  else
    let s := match s.sessionOf m with | some n => s.endSession n 7 | none => s
    match s.freeSession m with
    | none => (s, [s.sessionRsp q 1 Ab.sessionFull 0 []])
    | some n =>
      let nonce := (Config.nonce s.free ++ List.replicate 16 0).take 16
      let s := (s.setSession n ⟨true, q.src, false, level, room, s.provingKey level room, nonce, [], 0, s.now, 0⟩).draw
      (s, [s.sessionRsp q 1 0 n nonce])

/-- OPEN (R324). -/
def execOpenSession (pdu : Pdu) (s : State) : Host.Outcome State Fault Refusal :=
  if (byteOf pdu 0) ≠ 1 then .next s
  else s.onPdu pdu 0x11 fun s =>
    ⟨4, false, 0, 0, fun c => s.sessionRsp pdu 1 c 0 [], fun s _ => s.openFor pdu ((byteOf pdu 1)) ((byteOf pdu 2))⟩

/-- The proof of R324 over a session's nonce. -/
def State.proofOf (s : State) (m : Master) (x : Session) : List Byte :=
  hmac (s.sessionKey x.askLevel x.askRoom) (x.nonce ++ bytesLE 2 (mid m) ++ [byte x.askLevel, byte x.askRoom])

/-- A failed PROVE (R324, R346). -/
def State.proveFails (s : State) (q : Pdu) : State × List Pdu :=
  let m := q.master
  let s := { s with cat := { s.cat with failedProve := s.cat.failedProve.filter (fun (f : Master × Nat) => f.1 ≠ m) ++ [(m, s.now)] } }
  let s := (s.bump .sesFails).record .sesFail none hubArbiter [(16, mid m), (8, (byteOf q 1)), (8, (byteOf q 2))]
  (s, [s.sessionRsp q 2 Ab.session 0 []])

/-- PROVE (R324). -/
def State.proveFor (s : State) (q : Pdu) (body : List Byte) : State × List Pdu :=
  let m := q.master
  match s.sessionOf m with
  | none => s.proveFails q
  | some n =>
    let x := s.session n
    if x.proved || (byteOf q 1) ≠ x.askLevel || (byteOf q 2) ≠ x.askRoom || body.drop 4 ≠ s.proofOf m x then s.proveFails q
    else
      let sk := (hmac (s.sessionKey x.askLevel x.askRoom) ([0x50, 0x4C, 0x4F, 0x56] ++ x.nonce)).take 32
      let s := s.setSession n { x with proved := true, keyNo := s.provingKey x.askLevel x.askRoom, sk := sk, cnt := 0, lastUse := s.now,
                                          macFails := 0 }
      let s := { s with cat := { s.cat with lastReqs := s.cat.lastReqs.filter fun l => l.master ≠ m } }
      (s, [s.sessionRsp q 2 0 n []])

/-- PROVE (R324). -/
def execProve (pdu : Pdu) (s : State) : Host.Outcome State Fault Refusal :=
  if (byteOf pdu 0) ≠ 2 then .next s
  else s.onPdu pdu 0x11 fun s =>
    ⟨52, false, 0, 0, fun c => s.sessionRsp pdu 2 c 0 [], fun s body => s.proveFor pdu body⟩

/-- CLOSE (R326). -/
def execClose (pdu : Pdu) (s : State) : Host.Outcome State Fault Refusal :=
  if (byteOf pdu 0) ≠ 3 then .next s
  else s.onPdu pdu 0x11 fun s =>
    ⟨4, true, 0, 0, fun c => s.sessionRsp pdu 3 c 0 [], fun s _ =>
      match s.sessionOf pdu.master with
      | none => (s, [s.sessionRsp pdu 3 Ab.noSession 0 []])
      | some n =>
        let s := s.endSession n 1
        (s, [s.sessionRsp pdu 3 0 n []])⟩

/-- SESSION_IDLE: a session idle for 60 s ends (R326). -/
def execSessionIdle (session : Fin 48) (s : State) : Host.Outcome State Fault Refusal :=
  let x := s.session session
  if !x.isOpen then .next s else done ((s.at (x.lastUse + 60 * Config.sec)).endSession session 2)

end Sys2Proof.Machine
end

