-- ==== Sys2Proof/Machine/Start.lean ====
section
/-! DEFINITION. Start attempts (R397 to R416, R428, R432, R447, R478): resets, the vault check, choosing, measuring and
checking an image, the firmware's configuration, and the events that end an attempt. -/

namespace Sys2Proof.Machine

/-! ### Reset (R317, R363, R398, R459, R478) -/

/-- The rates that OTP gives (R329, R346). -/
def Otp.rates (o : Otp) : Nat := o.nominal + 16 * o.data

/-- Every region but the vault is reset: pins, supplies, OTP, flash, vault, time, the queue and the frames already sent
stay. -/
def State.clean (s : State) : State :=
  let r := State.reset
  let rates := s.boot.otp.rates
  let dev : Dev := { r.dev with porn := s.dev.porn, sysrstn := s.dev.sysrstn, boundary := s.dev.boundary,
                                tap := s.dev.tap, vin := s.dev.vin, vio := s.dev.vio, vaon := s.dev.vaon,
                                straps := s.dev.straps, sampled := s.dev.sampled, diesUp := false }
  { r with now := s.now, pending := s.pending, free := s.free, wire := s.wire, vault := s.vault, dev := dev,
           boot := { r.boot with otp := s.boot.otp, flash := s.boot.flash, attempt := { r.boot.attempt with active := false } },
           cat := { r.cat with force := sput regDefault [] (Obj.dbusCfg.key) rates },
           em := { r.em with nextTick := s.now + 1000 * Config.msec },
           bus := { r.bus with rateForce := BitVec.ofNat 32 rates, nextBeat := s.now + 100 * Config.msec } }

/-- Fuses being programmed when a reset or power loss comes read old or new (R438, R478). -/
def State.loseFuse (s : State) : State :=
  match s.vault.lcTarget with
  | none => s
  | some t =>
    let s := s.setVault fun v => { v with lcTarget := none }
    if Config.freeBool s.free then (s.blow t).draw else s.draw

/-- A slot that is being written when a reset or power loss comes in its cycle is whole, or has a bad CRC and free contents; the
slot of an update may also not have been begun (R412, R420; log 103). -/
def State.loseSlot (s : State) : State :=
  match s.boot.writing with
  | none => s
  | some w =>
    if w.cycle ≠ s.now then s
    else
      let x := s.drawn % 3
      let s := s.draw
      if x = 1 then
        let b := bytesBE 28 (s.drawn % 2 ^ 224)
        (s.draw.putWords w.slot (b ++ bytesBE 4 ((frameCrc b + 1 + s.drawn / 2 ^ 224 % (2 ^ 32 - 1)) % 2 ^ 32)))
      else if x = 2 ∧ w.late then
        let m := s.boot.flash.mirror
        let s := { s with boot := { s.boot with flash := { s.boot.flash with mirror := if s.boot.attempt.mirrorFail then m else m.dropLast } } }
        s.putWords w.slot w.old
      else s

/-- An attempt under way is interrupted: the step that it had reached is kept (R410; log 58). -/
def State.interrupt (s : State) : State :=
  if s.boot.attempt.active && s.dev.vaon then s.setVault fun v => { v with lastStep := s.boot.attempt.step } else s

/-- The device goes into reset. -/
def State.intoReset (s : State) : State := s.loseFuse.loseSlot.interrupt.clean

/-- A low level on a reset input resets the device: always from 3 µs, never below 1 µs, between the two freely (R478;
log 16). -/
def pulseResets (lowNs free : Nat) : Bool := decide (3000 ≤ lowNs) || (decide (1000 ≤ lowNs) && Config.freeBool free)

/-! ### The vault check and the mirror (R413, R428) -/

/-- The first check of R428 that fails: its order, 0 when all pass. -/
def State.vaultFault (s : State) : Nat :=
  if !s.vault.intact || !s.dev.vaon then 1
  else if s.vaultWord 0x11 ≠ s.lcState then 2
  else if s.vault.uncorr.any fun a => decide (a ≤ 0xF7 ∨ 0x1F4 ≤ a) then 3
  else 0

/-- An entry of the mirror takes the place of an older one: newer SEQ, or the same SEQ and appended later (R413). -/
def entryNewer (a b : List Byte) : Bool :=
  let d := ((slotView a).seq - (slotView b).seq).toNat
  decide (d ≤ 32767)

/-- The newest entry of a list of entries, oldest first, with its place. -/
def newestEntry (l : List (List Byte)) : Option (Nat × List Byte) :=
  (l.zip (List.range l.length)).foldl (fun (m : Option (Nat × List Byte)) e =>
    match m with
    | none => some (e.2, e.1)
    | some x => if entryNewer e.1 x.2 then some (e.2, e.1) else some x) none

/-- The slots that the mirror gives: the newest valid entry and the next newest (R413). -/
def mirrorSlots (l : List (List Byte)) : Option (List Byte × List Byte) :=
  let v := l.filter slotOk
  match newestEntry v with
  | none => none
  | some (k, a) => some (a, match newestEntry (v.take k ++ v.drop (k + 1)) with | some (_, b) => b | none => List.replicate 32 0)

/-- The start record is taken from the mirror, when the flash answers and holds an entry (R413, R428). -/
def State.takeMirror (s : State) (readable : Bool) : State :=
  if !readable then s
  else match mirrorSlots s.boot.flash.mirror with
    | none => s
    | some (a, b) =>
      let s := ((s.setAttempt fun x => { x with slots := [a, b] }).putSlot 0 a).putSlot 1 b
      (s.setAttempt fun x => { x with fromMirror := true }).record .mirrorUsed none srcFw
        [(16, (slotView a).seq.toNat), (16, (slotView b).seq.toNat)]

/-- The vault check of step 2, with what a failure does, and the tamper latch (R428, R431). -/
def State.checkVault (s : State) (readable : Bool) : State :=
  let c := s.vaultFault
  let s :=
    if c = 0 then s.setAttempt fun x => { x with policy := s.verifyPolicy }
    else
      let s := s.setVault fun v => { v with words := [], uncorr := [], intact := s.dev.vaon }
      ((s.setVaultWord 0x11 s.lcState).record .vaultLost none srcFw [(8, c)]).takeMirror readable
  let v := s.vault
  let s :=
    if v.latchCount = 0 then s
    else (s.record .tamperSeen none srcFw [(8, v.latchCount), (8, v.latchSource), (48, v.latchTime.toNat)]).setVault
      fun v => { v with latchCount := 0, latchSource := 0, latchTime := 0 }
  s.setVault fun v => { v with debug := [0, 1, 3].contains s.lcState }

/-! ### Measurement (R405, R407) -/

/-- Extends a provenance register (R405). -/
def State.extend (s : State) (i : Nat) (d : List Byte) : State :=
  { s with boot := { s.boot with prs := s.boot.prs.set i (sha384 (s.boot.prs.getD i [] ++ d)) } }

/-- PR0 in step 3 (R405). -/
def State.measureRom (s : State) : State := (s.extend 0 (sha384 Config.bootRom)).extend 0 (sha384 s.boot.otp.config)

/-- The start-state block that PR3 measures (R405). -/
def State.startState (s : State) : List Byte :=
  let a := s.boot.attempt
  [byte s.lcState, byte (b2n a.policy), byte (b2n s.vault.debug), byte (b2n a.image), byte a.fails,
    byte (b2n a.fromMirror + 2 * (a.cause % 4))] ++ List.replicate 10 0

/-- PR1 to PR3 and the alias certificate in step 6 (R405, R407). -/
def State.measureImage (s : State) : State :=
  let m := s.imageMem s.boot.attempt.image
  let s := ((s.extend 1 (sha384 ((imageHeader m).take 176))).extend 2 (sha384 (imageBody m))).extend 3 (sha384 s.startState)
  { s with boot := { s.boot with aliasCert := Config.aliasCert (aliasKey s.boot.prs) (s.boot.prs.take 4) } }

/-! ### Choosing the image (R412) -/

/-- f of R412. -/
def SlotView.f (v : SlotView) : Nat := if v.state = 3 ∨ v.state = 1 then v.fails else 0

/-- The choice of R412: the other slot, SEQ, f, preference and image; without a valid slot the place is free (log 38). -/
def State.chooseImage (s : State) : State :=
  let c := s.currentSlot
  let v : SlotView := match c with | some (_, v) => v | none => ⟨0, 2, 0, false⟩
  let w : Nat := match c with | some (n, _) => 1 - n | none => b2n (Config.freeBool s.free)
  let first : Bool := if v.f % 2 = 0 then v.preferred else !v.preferred
  let img : Bool := if s.imageValid first then first else !first
  let q : BitVec 16 := v.seq + 1
  let r : Nat := if v.state = 1 then 1 else 0
  let tag : List Byte := (bodyDigest (imageHeader (s.imageMem img))).take 8
  (s.setAttempt fun (a : Attempt) => { a with slot := w, seq := q, fails := v.f, preferred := v.preferred, image := img,
                                              prevReason := r, imgTag := tag }).draw

/-- The IN_PROGRESS slot and START_BEGIN (R411, R412); after an interrupted attempt its DETAIL is the step which that one had
reached (R410; log 58). -/
def State.beginSlot (s : State) : State :=
  let a := s.boot.attempt
  (s.writeSlot (s.slotImage 1 a.fails 0 (if a.prevReason = 1 then s.vault.lastStep else 0) a.image a.preferred false a.imgTag)).record .startBegin none srcFw
    [(8, a.cause), (8, b2n a.image), (8, a.fails), (16, a.seq.toNat)]

/-! ### Die bring-up (R447) -/

/-- BIST maps a failed bay's logical bay to its die's spare, or fences a failed spare (R447). -/
def State.bistBay (s : State) (b : Nat) : State :=
  let spare := 17 * dieOfBay b + 16
  match s.logicalOf b with
  | none => (s.record .bayFail none (srcDie (dieOfBay b)) [(8, b), (8, 0xFF), (8, 4)]).fence b
  | some l =>
    let s := s.record .bayFail none (srcDie (dieOfBay b)) [(8, b), (8, l), (8, 4)]
    let s := (s.mapBay l spare).fence b
    { s with bays := { s.bays with spareUsed := insertNew (dieOfBay b) s.bays.spareUsed } }

/-- The lowest die with two failed bays (R447). -/
def bistDie (bays : List Nat) : Option Nat := [0, 1, 2, 3].find? fun d => decide (2 ≤ (bays.filter fun b => dieOfBay b = d).length)

/-! ### The firmware's configuration (R397 step 7) -/

/-- The context number that holds the selections of the firmware's own configuration writes. -/
abbrev fwCtx : Nat := 48

/-- The entry that a configuration write reaches. -/
def State.cfgEntry (s : State) (p : Place) : Nat :=
  match p.obj with
  | .rotaData => bits (s.ctxReg fwCtx Obj.rotaSel.key) 15 9 * 64 + s.ctxReg fwCtx Obj.rotaSel.key % 64
  | .casSetCl => s.ctxReg fwCtx (Obj.casSetClSel.key p.inst)
  | .casMember => s.ctxReg fwCtx Obj.casMemberSel.key
  | _ => 0

/-- One configuration write of the firmware: staged, selected or set; an object that holds no setting, or a value out of
its range, changes nothing (log 45). -/
def State.cfgWrite (s : State) (w : CfgWrite) : State :=
  match findObj w.index.toNat w.sub.toNat with
  | none => s
  | some p =>
    let o := p.obj
    let v := w.value
    if o.row.wr = 4 || decide (2 ^ (8 * o.row.ty.size) ≤ v) || s.outOfRange o v then s
    else if o.row.s then s.stage (o.key p.inst p.off (s.cfgEntry p)) (s.keptFields p v)
    else if o.perContext then s.setCtxReg fwCtx (o.key p.inst) v
    else match o with
      | .portCtrl => (s.wrPortCtrl p.inst v).1
      | .emTick => (s.wrTick v).1
      | .emLfsrSeed => (s.wrSeed v).1
      | .dbCodeCfg =>
        let k := s.ctxReg fwCtx Obj.dbCodeSel.key
        if 8 ≤ v ∨ (codeOf k).isNone then s else s.setReg .dbCodeCfg 0 0 k v
      | _ => if o.row.rd = 4 || (s.writeRooms (.bus 0) p v).isSome || (s.writeDevice (.bus 0) p v).isSome then s
             else s.setReg o p.inst p.off 0 v

/-- PR4 measures each configuration write (R405). -/
def State.measureCfg (s : State) (w : CfgWrite) : State :=
  s.extend 4 (sha384 (Config.configBytes w.index.toNat w.sub.toNat w.value))

/-- The configuration takes effect: plain objects at once, staged values together under the checks of R354 (log 45). -/
def State.configure (s : State) (l : List CfgWrite) : State :=
  let s := l.foldl (fun s w => (s.cfgWrite w).measureCfg w) s
  let s := s.releaseCtx fwCtx
  let taken := s.taken ⟨3, 0⟩ 511
  let vals := s.adjusted taken
  let cluster := takes taken .casSelf
  let s := { s with cat := { s.cat with staged := [] } }
  match s.checkAll (s.after vals []) vals [] cluster with
  | some _ => s
  | none => ((s.holdDefaults vals).applyAccession vals [] (appliesRota vals) cluster).newRate

/-! ### An attempt (R397) -/

/-- Steps 7 and 8: bring-up, configuration and the training of every port not OFF. -/
def State.bringUp (s : State) (boot : BootInput) : State :=
  let bays := (boot.failedBays.map Fin.val).foldl (fun (l : List Nat) b => insertNew b l) []
  let s := { s with dev := { s.dev with diesUp := true } }.setAttempt fun a =>
    { a with step := 7, imageRun := true, readyAt := s.now }
  match bistDie bays with
  | some d => (s.failStart 0x30 (d * 4096 + s.drawn % 4096)).draw
  | none =>
    let s := (bays.foldl State.bistBay s).configure boot.config
    let s := ((List.range 32).filter fun p => s.role p ≠ 0).foldl State.train s
    s.setAttempt fun a => { a with step := 8 }

/-- The flash meets R402, and its reads do not fail (R410). -/
def flashUsable (f : FlashPart) : Bool :=
  f.sfdp && decide (128 ≤ f.mbit) && (f.read144 || f.read114) && f.erase4k && f.erase64k && !f.readFails

/-- How the device reads a flash (R402): 1-4-4 when it is advertised, 4-byte addresses above 128 Mbit, and SPI_DIV from OTP. -/
def flashMode (f : FlashPart) (div : Nat) : SpiMode :=
  ⟨div, f.read144, f.dummies, if f.mbit ≤ 128 then 0 else if f.fourByte then 1 else 2⟩

/-- Steps 5 and 6: the flash is set up, and the image chosen, loaded, measured and checked. -/
def State.loadImage (s : State) (boot : BootInput) : State :=
  let s := (s.setAttempt fun a => { a with step := 5 }).chooseImage
  if !flashUsable boot.flash then s.failStart 0x50 boot.flash.detail.toNat
  else
    let s := { s with boot := { s.boot with spi := some (flashMode boot.flash s.boot.otp.spiDiv) } }.beginSlot
    let img := s.boot.attempt.image
    if !s.imageValid img then s.failStart 0x10 0
    else
      let s := (s.setAttempt fun a => { a with step := 6 }).measureImage
      let m := s.imageMem img
      let k := policyFault s.boot.attempt.policy s.fwKeyDigest (imageHeader m) (imageBody m)
      if k ≠ 0 then s.failStart (0x10 + k) (b2n img)
      else
        let s := { s with boot := { s.boot with active := img, version := ((imageHeader m).drop 16).take 16 } }
        s.bringUp boot

/-- An attempt from its vault check on; in Scrapped it reads no flash (R397 to R412, R428, R432). -/
def State.runAttempt (s : State) (boot : BootInput) : State :=
  let s := s.setVault fun v => { v with uncorr := v.uncorr ++ boot.vaultUncorr.map Fin.val }
  let s := (s.checkVault (flashUsable boot.flash && s.lcState ≠ 4)).measureRom
  let s := s.setVault fun v => { v with uncorr := v.uncorr ++ boot.vaultLater.map Fin.val }
  if s.lcState = 4 then
    let f := match s.currentSlot with | some (_, v) => v.f | none => 0
    (s.setAttempt fun a => { a with active := false, ended := true, step := 4, fails := f }).enterMinimal
  else s.loadImage boot

/-- An attempt begins: CAUSE 0 PORn, 1 SYSRSTn, 2 internal restart (R397). Step 2 waits for ACLK to run in its band (R476). -/
def State.beginAttempt (s : State) (cause : Nat) (boot : BootInput) : State :=
  let s := s.clean
  let s := s.setAttempt fun a => { a with active := true, begun := s.now, cause := cause, step := 2, mirrorFail := boot.mirrorFail }
  if s.dev.vaon && s.vault.clockMasked then s.setAttempt fun a => { a with waiting := some boot } else s.runAttempt boot

/-- ACLK_QUALIFIED: ACLK has run in band, the CLOCK source is unmasked, and an attempt that waits at step 2 goes on (R476). -/
def execAclkQualified (s : State) : Host.Outcome State Fault Refusal :=
  if !s.dev.vaon then .next s
  else
    let s := s.setVault fun x => { x with clockMasked := false }
    match s.boot.attempt.waiting with
    | none => .next s
    | some boot => done ((s.setAttempt fun a => { a with waiting := none }).runAttempt boot)

/-! ### PORn and SYSRSTn (R478) -/

/-- PORN: PORn is asserted (R478, R486). -/
def execPorn (lowNs : Nat) (s : State) : Host.Outcome State Fault Refusal :=
  if s.dev.porn || !pulseResets lowNs s.free then .next s.draw
  else
    let s := s.draw
    let dev : Dev := { s.dev with porn := true, sysrstn := false, boundary := false, tap := Tap.reset, sampled := false }
    .next { s with dev := dev }.intoReset

/-- The straps are sampled and an attempt with CAUSE PORn begins; TIME starts from here (R364, R397, R478). -/
def State.powerUp (s : State) (straps : Straps) (boot : BootInput) : State :=
  let v := s.vclockNow
  let s := s.setVault fun x => { x with vclock := v, vclockAt := 0 }
  let s := { s with now := 0, dev := { s.dev with straps := straps, sampled := true } }
  s.beginAttempt 0 boot

/-- PORN_RELEASE (R397, R478): with a supply absent the straps are sampled when it rises. -/
def execPornRelease (straps : Straps) (boot : BootInput) (s : State) : Host.Outcome State Fault Refusal :=
  if !s.dev.porn then .next s
  else
    let s := { s with dev := { s.dev with porn := false } }
    if s.hubPowered then done (s.powerUp straps boot) else .next s

/-- SYSRSTN: SYSRSTn is asserted; ignored while PORn is low, without power, or in a boundary test (R478, R488). -/
def execSysrstn (lowNs : Nat) (s : State) : Host.Outcome State Fault Refusal :=
  if s.dev.porn || s.dev.sysrstn || s.dev.boundary || !s.hubPowered || !pulseResets lowNs s.free then .next s.draw
  else
    let s := s.draw
    .next { s with dev := { s.dev with sysrstn := true } }.intoReset

/-- SYSRSTN_RELEASE (R397): the straps are kept. -/
def execSysrstnRelease (boot : BootInput) (s : State) : Host.Outcome State Fault Refusal :=
  if !s.dev.sysrstn then .next s
  else
    let s := { s with dev := { s.dev with sysrstn := false } }
    done (s.beginAttempt 1 boot)

/-- INTERNAL_RESTART (R412): the attempt after a failed one. -/
def execInternalRestart (boot : BootInput) (s : State) : Host.Outcome State Fault Refusal :=
  match s.boot.attempt.restartDue with
  | none => .next s
  | some t => done ((s.at t).beginAttempt 2 boot)

/-! ### How an attempt ends (R400, R410) -/

/-- An attempt runs and start-complete has not been posted. -/
def State.starting (s : State) : Bool := s.boot.attempt.active && !s.boot.attempt.complete

/-- PR5 to PR7 as the image that runs defines (R405); PR2 tells which image that is. -/
def State.measureOwn (s : State) : State :=
  let image := s.boot.prs.getD 2 []
  ([5, 6, 7].foldl (fun s i => (Config.firmwareMeasure image i s.free).foldl (fun s d => s.extend i d) s) s).draw

/-- START_COMPLETE: the firmware posts start-complete at or before 2 s (R400, R420). -/
def execStartComplete (s : State) : Host.Outcome State Fault Refusal :=
  let a := s.boot.attempt
  if !s.starting || decide (a.step < 8) || decide (a.begun + 2 * Config.sec < s.now) then .next s
  else done ((s.measureOwn.setAttempt fun a => { a with complete := true }).trySucceed)

/-- FW_TIMEOUT (R410): 2 s without start-complete. -/
def execFwTimeout (s : State) : Host.Outcome State Fault Refusal :=
  if !s.starting then .next s
  else
    let a := s.boot.attempt
    done ((s.at (a.begun + 2 * Config.sec)).failStart 0x20 a.step)

/-- FW_FAULT (R410). -/
def execFwFault (cause : BitVec 16) (s : State) : Host.Outcome State Fault Refusal :=
  if s.starting then done (s.failStart 0x21 cause.toNat) else .next s

/-- FW_ABORT (R410): firmware runs from step 7. -/
def execFwAbort (code : BitVec 16) (s : State) : Host.Outcome State Fault Refusal :=
  if s.starting && decide (7 ≤ s.boot.attempt.step) then done (s.failStart 0x22 code.toNat) else .next s

/-- BIST_FAIL (R410): BIST_DIE of a search die, or BIST_HUB. -/
def execBistFail (die : Fin 5) (block : BitVec 12) (s : State) : Host.Outcome State Fault Refusal :=
  if !s.starting then .next s
  else if die.val = 4 then done (s.failStart 0x31 block.toNat)
  else done (s.failStart 0x30 (die.val * 4096 + block.toNat))

/-- PLL_LOCK_FAIL (R410, R473). -/
def execPllLockFail (region : Fin 5) (s : State) : Host.Outcome State Fault Refusal :=
  if s.starting then done (s.failStart 0x32 region.val) else .next s

end Sys2Proof.Machine
end

