-- ==== Sys2Proof/Machine/Power.lean ====
section
/-! DEFINITION. The management core's wait state (R27, R29), the supplies (R464, R465) and the boundary test (R486,
R488). -/

namespace Sys2Proof.Machine

/-! ### The management core (R27, R29) -/

/-- The device is out of reset and powered (R465, R478, R488). -/
def State.runs (s : State) : Bool := s.catalogueUp

/-- A request to an object served by firmware is still to be answered (R334). -/
def State.owesAnswer (s : State) : Bool := s.cat.outstanding.any fun o => decide (s.now < o.2)

/-- The management core has pending work: a start, a report, a firmware update, an answer or a reduction (R27, R248). -/
def State.fwWork (s : State) : Bool :=
  s.dev.phase == .starting || !s.cat.provQueue.isEmpty || s.boot.upd.busy || s.owesAnswer || s.guar.active

/-- The MCLK cycle of a hub cycle: 4 in 25 (R24). -/
def mclkCycle (now : Nat) : Nat := now * 4 / 25

/-- A wake cause arrived in the present MCLK cycle (R29). -/
def State.justWoken (s : State) : Bool :=
  match s.dev.lastWake with
  | some t => decide (mclkCycle t = mclkCycle s.now)
  | none => false

/-- MGMT_WAIT: MCLK stops unless work is pending or a wake cause came in this MCLK cycle (R27, R29). -/
def execMgmtWait (s : State) : Host.Outcome State Fault Refusal :=
  if !s.runs || s.fwWork || s.justWoken then .next s else .next { s with dev := { s.dev with mclk := false } }

/-- The firmware runs: it may extend PR5 to PR7 once more, as its image defines (R405; log 106). -/
def State.fwRuns (s : State) : State := if s.dev.phase = .running then s.measureOwn else s

/-- MGMT_WAKE: each of the four causes restarts MCLK (R27). -/
def execMgmtWake (cause : WakeCause) (s : State) : Host.Outcome State Fault Refusal :=
  if !s.runs then .next s
  else match cause with
    | .firmwareObject => .next s.wakeMgmt.fwRuns
    | .pdu => .next s.wakeMgmt.fwRuns
    | .daybookRecord => .next s.wakeMgmt.fwRuns
    | .timer => .next s.wakeMgmt.fwRuns

/-! ### Supplies (R464, R465) -/

/-- Whether a supply is present. -/
def Dev.supply (d : Dev) : Supply → Bool
  | .vin => d.vin
  | .vio => d.vio

/-- Sets whether a supply is present. -/
def Dev.setSupply (d : Dev) (x : Supply) (present : Bool) : Dev :=
  match x with
  | .vin => { d with vin := present }
  | .vio => { d with vio := present }

/-- SUPPLY_LOSS: the device enters reset as if PORn were asserted (R465). -/
def execSupplyLoss (supply : Supply) (s : State) : Host.Outcome State Fault Refusal :=
  if !s.dev.supply supply then .next s
  else
    let had := s.hubPowered
    let d := s.dev.setSupply supply false
    if had then
      let d : Dev := { d with sysrstn := false, boundary := false, tap := Tap.reset, sampled := false }
      .next { s with dev := d }.intoReset
    else .next { s with dev := d }

/-- SUPPLY_RISE: with both supplies and PORn high the straps are sampled and an attempt begins (R465, R478). -/
def execSupplyRise (supply : Supply) (straps : Straps) (boot : BootInput) (s : State) : Host.Outcome State Fault Refusal :=
  if s.dev.supply supply then .next s
  else
    let s := { s with dev := s.dev.setSupply supply true }
    if s.hubPowered && !s.dev.porn then done (s.powerUp straps boot) else .next s

/-! ### Test port (R486 to R488) -/

/-- IDCODE: the major stepping, 0x6440, the manufacturer identity and 1 (R382, R487). -/
def idcode : BitVec 32 :=
  BitVec.ofNat 32 (pack [(4, Config.stepping.toNat / 256), (16, 0x6440), (11, Config.manufacturer.toNat), (1, 1)])

/-- The next state of the TAP controller (R486: IEEE 1149.1). -/
def TapState.next (x : TapState) (tms : Bool) : TapState :=
  match x with
  | .reset => if tms then .reset else .idle
  | .idle => if tms then .selectDr else .idle
  | .selectDr => if tms then .selectIr else .captureDr
  | .captureDr => if tms then .exit1Dr else .shiftDr
  | .shiftDr => if tms then .exit1Dr else .shiftDr
  | .exit1Dr => if tms then .updateDr else .pauseDr
  | .pauseDr => if tms then .exit2Dr else .pauseDr
  | .exit2Dr => if tms then .updateDr else .shiftDr
  | .updateDr => if tms then .selectDr else .idle
  | .selectIr => if tms then .reset else .captureIr
  | .captureIr => if tms then .exit1Ir else .shiftIr
  | .shiftIr => if tms then .exit1Ir else .shiftIr
  | .exit1Ir => if tms then .updateIr else .pauseIr
  | .pauseIr => if tms then .exit2Ir else .pauseIr
  | .exit2Ir => if tms then .updateIr else .shiftIr
  | .updateIr => if tms then .selectDr else .idle

/-- The instruction of a code: BYPASS is all ones, the other codes stand in the BSDL file, and a code that is none of the
instructions of R486 acts as BYPASS (R486; logs 7, 96). -/
def tapInstrOf (code : BitVec 8) : TapInstr :=
  if code = 0xFF then .bypass
  else match Config.tapInstr code with
    | 0 => .idcode
    | 1 => .sample
    | 2 => .test .extest
    | 3 => .test .clamp
    | 4 => .test .highz
    | 5 => .test .extestPulse
    | 6 => .test .extestTrain
    | _ => .bypass

/-- The boundary tests of R488. -/
def TapInstr.isTest (i : TapInstr) : Bool := match i with | .test _ => true | _ => false

/-- The instruction selects the boundary register; CLAMP and HIGHZ select the bypass register (R486: IEEE 1149.1). -/
def TapInstr.boundary (i : TapInstr) : Bool :=
  match i with
  | .sample | .test .extest | .test .extestPulse | .test .extestTrain => true
  | _ => false

/-- Bits of a number, the lowest first. -/
def bitList (n x : Nat) : List Bool := (List.range n).map (nbit x)

/-- What a data register captures: BYPASS a 0, IDCODE its word, the boundary register free values, since the spec leaves the order
of its cells to the BSDL file (R486, R487; log 96). -/
def TapInstr.capture (i : TapInstr) (free : Nat) : List Bool :=
  if i.boundary then bitList Config.boundaryCells free else if i = .idcode then bitList 32 Sys2Proof.Machine.idcode.toNat else [false]

/-- The eight bits of the instruction register as a code. -/
def codeOf8 (l : List Bool) : BitVec 8 := BitVec.ofNat 8 (l.foldr (fun b x => b2n b + 2 * x) 0)

/-- One TCK cycle: the action of the state that it ends, then the next state with what is updated there (R486: IEEE 1149.1). -/
def Tap.clock (t : Tap) (c : TapClock) (free : Nat) : Tap :=
  let t := match t.st with
    | .captureDr => { t with sr := t.instr.capture free }
    | .captureIr => { t with sr := true :: false :: bitList 6 free }
    | .shiftDr | .shiftIr => { t with sr := t.sr.drop 1 ++ [c.tdi] }
    | _ => t
  let t := { t with st := t.st.next c.tms }
  match t.st with
  | .reset => { t with instr := .idcode }
  | .updateIr => { t with instr := tapInstrOf (codeOf8 t.sr) }
  | .updateDr => if t.instr.boundary then { t with cells := t.sr } else t
  | _ => t

/-- The test port operates: VIN and VIO are present and PORn is high (R486). -/
def State.tapUp (s : State) : Bool := s.hubPowered && !s.dev.porn

/-- TDO: the bit that leaves next while the port shifts, high-impedance otherwise (R479, R486). -/
def State.tdo (s : State) : Option Bool :=
  if s.tapUp && (s.dev.tap.st == .shiftDr || s.dev.tap.st == .shiftIr) then s.dev.tap.sr.head? else none

/-- What a scan of the data register captures while IDCODE is the instruction, as after a reset of the TAP (R486, R487; log 96). -/
def State.tapWord (s : State) : Option (BitVec 32) :=
  if s.tapUp && s.dev.tap.instr = .idcode then some idcode else none

/-- Writes the test port. -/
def State.setTap (s : State) (t : Tap) : State := { s with dev := { s.dev with tap := t } }

/-- A boundary-test instruction takes the balls and holds the device in reset as SYSRSTn does (R488). -/
def State.enterTest (s : State) : State :=
  if s.dev.boundary then s else { s with dev := { s.dev with boundary := true, sysrstn := false } }.intoReset

/-- The TAP leaves the boundary-test instructions: an attempt with CAUSE SYSRSTn begins (R488). -/
def State.leaveTest (s : State) (boot : BootInput) : State :=
  if s.dev.boundary then ({ s with dev := { s.dev with boundary := false } }.beginAttempt 1 boot).settleFaults else s

/-- EXTEST: a boundary-test instruction is loaded, and the port returns to Run-Test/Idle (R486, R488; log 96). -/
def execExtest (test : BoundaryTest) (s : State) : Host.Outcome State Fault Refusal :=
  if !s.tapUp then .next s
  else
    let s := s.setTap { s.dev.tap with st := .idle, instr := .test test, sr := [] }
    match test with
    | .extest => .next s.enterTest
    | .clamp => .next s.enterTest
    | .highz => .next s.enterTest
    | .extestPulse => .next s.enterTest
    | .extestTrain => .next s.enterTest

/-- One TCK cycle of the device's port, with what the instruction that it brings does (R486, R488). -/
def State.tapClock (boot : BootInput) (s : State) (c : TapClock) : State :=
  let s := (s.setTap (s.dev.tap.clock c s.drawn)).draw
  if s.dev.tap.instr.isTest then s.enterTest else s.leaveTest boot

/-- TAP_EXIT: TCK cycles of the port, which may load any instruction, scan the registers, or reset the TAP; when they leave the
boundary tests an attempt begins (R486, R488). -/
def execTapExit (run : TapRun) (s : State) : Host.Outcome State Fault Refusal :=
  if !s.tapUp then .next s else .next (run.clocks.foldl (State.tapClock run.boot) s)

/-- TRSTN: the TAP is reset, which also leaves a boundary-test instruction (R486, R488). -/
def execTrstn (boot : BootInput) (s : State) : Host.Outcome State Fault Refusal :=
  .next ((s.setTap { s.dev.tap with st := .reset, instr := .idcode }).leaveTest boot)

end Sys2Proof.Machine
end

