-- ==== Sys2Proof/Machine/Dbus.lean ====
section
/-! DEFINITION. The dictionary bus by itself: fault confinement and discarded frames (R327), rates (R329), node clash
(R331), EVENT PDUs and HEARTBEAT (R337, R338, R373), sleep and wake (R342, R344). -/

namespace Sys2Proof.Machine

/-! ### What a frame or an error on the bus does (R327, R331, R342) -/

/-- The bus was not idle: the 5 ms before sleep begin again (R342). -/
def Bus.stir (b : Bus) (now : Nat) : Bus :=
  match b.sleep with
  | .waiting _ => { b with sleep := .waiting now }
  | _ => b

/-- The controller takes part in bus traffic and the catalogue is served. -/
def State.onBus (s : State) : Bool := s.catalogueUp && s.bus.hears

/-- CAN_FRAME_DISCARD: the frame is acknowledged, discarded and counted; it cancels a sleep, its identifier free (R327,
R342). -/
def execCanFrameDiscard (kind : CanDiscard) (s : State) : Host.Outcome State Fault Refusal :=
  if !s.onBus then .next s
  else
    let r := ((s.busHeard (s.drawn % 2 ^ 29)).draw).bump .catDrop
    match kind with
    | .classical => done r
    | .remote => done r
    | .baseId => done r
    | .deviceService => done r

/-- The record of a node clash (R331), with NODE_CLASH rising or falling as R358 asks. -/
def State.clashRecord (s : State) (dir : Nat) : State :=
  s.record .dbusNodeClash none hubDbus [(8, s.nodeId), (32, s.reg .dbusNodeClash)] dir

/-- A clashing frame: NODE_CLASH rises with a record, and while it is set a record is written at most once per second
(R331, R358). -/
def State.clashFrame (s : State) : State :=
  let b := s.bus
  let due := !b.clash || (match b.clashRec with | none => true | some t => decide (t + Config.sec ≤ s.now))
  let s := { s with bus := { b with clash := true, clashAt := s.now, clashRec := if due then some s.now else b.clashRec } }
  if due then s.clashRecord (if b.clash then 0 else 1) else s

/-- DBUS_NODE_CLASH (R331). -/
def execDbusNodeClash (s : State) : Host.Outcome State Fault Refusal :=
  if !s.onBus then .next s
  else
    done (((s.busHeard (s.drawn % 2 ^ 29)).draw).bump .dbusNodeClash).clashFrame

/-- NODE_CLASH_CLEAR: 10 s after the last clashing frame (R331, R358). -/
def execNodeClashClear (s : State) : Host.Outcome State Fault Refusal :=
  if !s.catalogueUp || !s.bus.clash then .next s
  else
    let s := s.at (s.bus.clashAt + 10 * Config.sec)
    done ({ s with bus := { s.bus with clash := false } }.clashRecord 2)

/-! ### Fault confinement (R327) -/

/-- CAN_ERROR: the error counts after a bus error, and error-passive from 128 on. -/
def execCanError (tec rec : BitVec 16) (s : State) : Host.Outcome State Fault Refusal :=
  if !s.onBus then .next s
  else
    let b := s.bus.stir s.now
    .next { s with bus := b.counts tec rec }

/-- The transmit error count at bus-off: at or above 256, the excess free. -/
def State.busOffCount (s : State) : BitVec 16 :=
  if 256 ≤ s.bus.tec.toNat then s.bus.tec else BitVec.ofNat 16 (256 + s.drawn % 8)

/-- DBUS_BUSOFF: counted and recorded; queued frames are kept. -/
def execDbusBusoff (s : State) : Host.Outcome State Fault Refusal :=
  if !s.onBus then .next s
  else
    let n := s.busOffCount
    let b : Bus := { s.bus with busOff := true, passive := false, tec := n }
    let s := { s.draw with bus := b }.bump .dbusBusoffCnt
    done (s.record .dbusBusoff none hubDbus [(16, n.toNat), (16, s.bus.recv.toNat), (32, s.reg .dbusBusoffCnt)])

/-- BUSOFF_RECOVERY: the controller is error-active again with both counts 0. -/
def execBusoffRecovery (s : State) : Host.Outcome State Fault Refusal :=
  if !s.catalogueUp || !s.bus.busOff then .next s
  else
    let b := s.bus.stir s.now
    done { s with bus := { b with busOff := false, passive := false, tec := 0, recv := 0 } }

/-- PROTOCOL_EXCEPTION: the controller waits for bus idle. -/
def execProtocolException (s : State) : Host.Outcome State Fault Refusal :=
  if !s.onBus then .next s else .next { s with bus := { s.bus with exception := true } }

/-- PROTOCOL_EXCEPTION_END: bus idle. -/
def execProtocolExceptionEnd (s : State) : Host.Outcome State Fault Refusal :=
  if !s.catalogueUp || !s.bus.exception then .next s
  else
    let b := s.bus.stir s.now
    .next { s with bus := { b with exception := false } }

/-- DBUS_RATE_SWITCH: the rates of an applied DBUS_CFG take effect (R329). -/
def execDbusRateSwitch (s : State) : Host.Outcome State Fault Refusal :=
  match s.bus.rateNext with
  | none => .next s
  | some r => if !s.onBus then .next s else .next { s with bus := { s.bus with rateForce := r, rateNext := none } }

/-! ### PDUs that the device sends by itself (R337, R338, R373) -/

/-- Queues a PDU for DBUS_HOST; its SEQ field is free (log 46). -/
def State.announce (s : State) (prio service : Nat) (bytes : List Byte) : State :=
  let host := BitVec.ofNat 8 (s.reg .dbusHost)
  (s.sendPdu ⟨.bus host, BitVec.ofNat 3 prio, BitVec.ofNat 5 service, BitVec.ofNat 8 s.nodeId, host,
    BitVec.ofNat 5 s.drawn, bytes⟩).draw

/-- An EVENT PDU (R337). -/
def State.sendEvent (s : State) (ring kind seq : Nat) (body : List Byte) : State :=
  s.announce (s.reg .dbusEvPrio) 0x0C (byte ring :: byte kind :: bytesLE 2 seq ++ (body ++ List.replicate 32 0).take 32)

/-- The bytes of a HEARTBEAT (R338). -/
def State.heartbeat (s : State) : List Byte :=
  [byte s.devState, byte (b2n s.faultPin + 2 * b2n (!s.bus.push.isEmpty || decide (0 < s.bus.withheld)) +
    4 * b2n s.cas.quarantined)] ++ bytesLE 4 (s.now / Config.msec) ++ bytesLE 2 s.unread

/-- HEARTBEAT: sent while the bus is active and DBUS_HB_MS is not 0 (R338). -/
def execHeartbeat (s : State) : Host.Outcome State Fault Refusal :=
  let p := s.reg .dbusHbMs
  if !s.onBus || p = 0 then .next s
  else
    let s := s.at s.bus.nextBeat
    let s := s.announce 6 0x0D s.heartbeat
    let b := s.bus.stir s.now
    .next { s with bus := { b with nextBeat := s.now + p * Config.msec } }

/-- EVENT_PDU: the next pushed record, or after the last of them the number of pushes withheld (R342, R373). -/
def execEventPdu (s : State) : Host.Outcome State Fault Refusal :=
  if !s.onBus || s.bus.sleep ≠ .awake then .next s
  else match s.bus.push with
    | x :: t => .next ({ s with bus := { s.bus with push := t } }.sendEvent x.ring 0 x.seq.toNat (bytesBE 32 (x.item.image x.seq).toNat))
    | [] =>
      if s.bus.withheld = 0 then .next s
      else
        let n := satTo 16 s.bus.withheld
        .next ({ s with bus := { s.bus with withheld := 0 } }.draw.sendEvent (s.drawn % 17) 2 n [])

/-! ### Sleep and wake (R342, R344) -/

/-- The output CAN_STBY: it puts the transceiver in standby in reset and while the bus sleeps, and stays low in WIRED mode
(R328, R342, R479). -/
def State.canStby (s : State) : Bool :=
  s.dev.vio && !s.boot.otp.wired && (!s.dev.vin || s.inReset || decide (s.bus.sleep = .asleep))

/-- The record of ASLEEP, which rises and falls (R342, R358). -/
def State.sleepRecord (s : State) (dir : Nat) : State := s.record .dbusSleep none hubDbus [(16, s.bus.sleepMid)] dir

/-- DBUS_SLEEP: 5 ms of bus idle after SLEEP_RSP (R342, steps 2 and 3). -/
def execDbusSleep (s : State) : Host.Outcome State Fault Refusal :=
  match s.bus.sleep with
  | .waiting t =>
    if !s.onBus then .next s
    else
      let s := s.at (t + 5 * Config.msec)
      done ({ s with bus := { s.bus with sleep := .asleep } }.sleepRecord 1)
  | _ => .next s

/-- DEVICE_WAKE: a push is due while asleep (R342, step 4a). -/
def execDeviceWake (s : State) : Host.Outcome State Fault Refusal :=
  if !s.catalogueUp || s.bus.sleep ≠ .asleep || !s.bus.wakeDue then .next s
  else .next { s with bus := { s.bus with sleep := .waking, wakeOwn := true } }

/-- BUS_WAKE: a dominant phase while asleep, or one that joins the device's own wake (R342, step 4b; R344). -/
def execBusWake (s : State) : Host.Outcome State Fault Refusal :=
  if !s.catalogueUp || !s.bus.isAsleep then .next s
  else
    let own := s.bus.wakeOwn || (decide (s.bus.sleep = .asleep) && s.bus.wakeDue)
    .next { s with bus := { s.bus with sleep := .waking, wakeBus := true, wakeOwn := own } }

/-- BODY of the WAKE EVENT: REASON, then RING and SEQ of the record that caused it (R337, R344). -/
def Bus.wakeBody (b : Bus) : List Byte :=
  bytesLE 2 (b2n b.wakeOwn + 2 * b2n b.wakeBus + 4 * b2n (b.wakeOwn && b.wakeBus)) ++
    (match b.wakeRec with
     | some (r, q) => if b.wakeOwn then byte r :: bytesLE 2 q else []
     | none => [])

/-- BUS_ACTIVE: the bus is active, ASLEEP falls, and the WAKE EVENT goes first (R342, steps 5 and 6; R358); its RING and SEQ bytes are
free. -/
def execBusActive (s : State) : Host.Outcome State Fault Refusal :=
  if !s.catalogueUp || s.bus.sleep ≠ .waking then .next s
  else
    let body := s.bus.wakeBody
    let b : Bus := { s.bus with sleep := .awake, wakeOwn := false, wakeBus := false, wakeRec := none, wakeDue := false }
    done (({ s with bus := b }.draw.sendEvent (s.drawn % 17) 1 (s.drawn / 17 % 65536) body).sleepRecord 2)

end Sys2Proof.Machine
end

