-- ==== Sys2Proof/Machine/Daybook.lean ====
section
/-! DEFINITION. EVENT frames: waiting daybook records of a ring pushed on their port (R371, R372). -/

namespace Sys2Proof.Machine

/-- The two granules of a record (R372). -/
def recGranules (x : Push) : List Granule :=
  let v := (x.item.image x.seq).toNat
  [BitVec.ofNat 128 (v / 2 ^ 128), BitVec.ofNat 128 v]

/-- An EVENT frame (R372). -/
def eventFrame (ring device lost : Nat) (l : List Push) : Frame :=
  linkFrame 9 3 ⟨granule [(16, 0), (5, ring), (3, l.length), (16, lost), (12, device), (76, 0)], l.flatMap recGranules⟩

/-- EVENT_FRAME: up to seven waiting records of the ring whose record has waited longest, in SEQ order (R372). -/
def execEventFrame (port : Fin 32) (s : State) : Host.Outcome State Fault Refusal :=
  let p := port.val
  let q := s.port p
  if q.st ≠ .up then .next s
  else match q.push with
    | [] => .next s
    | x :: _ =>
      let mine := (q.push.filter fun y => y.ring = x.ring).take 7
      let lost := sget (fun _ => 0) q.lost x.ring
      let s := s.setPort p { q with push := q.push.filter (fun y => !mine.contains y),
                                    lost := sput (fun _ => 0) q.lost x.ring 0 }
      .next (s.send3 p (eventFrame x.ring s.device lost mine))

end Sys2Proof.Machine
end

