-- ==== Sys2Proof/Machine/Dispatch.lean ====
section
/-! DEFINITION. Dispatch: one arm for each command of spec/opcode_table.json. -/

namespace Sys2Proof.Machine

def exec (i : Instr) (s : State) : Host.Outcome State Fault Refusal :=
  match i with
  | .search port frame => Sys2Proof.Machine.execSearch port frame s
  | .programStage port tag uncorr stray => Sys2Proof.Machine.execProgramStage port tag uncorr stray s
  | .result port => Sys2Proof.Machine.execResult port s
  | .tableFrame port frame => Sys2Proof.Machine.execTableFrame port frame s
  | .tblCmd m room value => Sys2Proof.Machine.execTblCmd m room value s
  | .insert => Sys2Proof.Machine.execInsert s
  | .write => Sys2Proof.Machine.execWrite s
  | .read => Sys2Proof.Machine.execRead s
  | .delete => Sys2Proof.Machine.execDelete s
  | .move => Sys2Proof.Machine.execMove s
  | .scan => Sys2Proof.Machine.execScan s
  | .alloc => Sys2Proof.Machine.execAlloc s
  | .free => Sys2Proof.Machine.execFree s
  | .advance => Sys2Proof.Machine.execAdvance s
  | .edAdvance m room expect => Sys2Proof.Machine.execEdAdvance m room expect s
  | .editionFloor room => Sys2Proof.Machine.execEditionFloor room s
  | .maintSlot unit found => Sys2Proof.Machine.execMaintSlot unit found s
  | .clampPassEnd => Sys2Proof.Machine.execClampPassEnd s
  | .pfxSettle table => Sys2Proof.Machine.execPfxSettle table s
  | .buildTrie m table => Sys2Proof.Machine.execBuildTrie m table s
  | .buildHash m table => Sys2Proof.Machine.execBuildHash m table s
  | .trie m table => Sys2Proof.Machine.execTrie m table s
  | .hash m table => Sys2Proof.Machine.execHash m table s
  | .pfxBuildDone image => Sys2Proof.Machine.execPfxBuildDone image s
  | .pfxBuildFail image bank slice => Sys2Proof.Machine.execPfxBuildFail image bank slice s
  | .bankTestRequest slice level => Sys2Proof.Machine.execBankTestRequest slice level s
  | .bankTest slice level result => Sys2Proof.Machine.execBankTest slice level result s
  | .copyFillDone table => Sys2Proof.Machine.execCopyFillDone table s
  | .learn port frame => Sys2Proof.Machine.execLearn port frame s
  | .learnApply slice => Sys2Proof.Machine.execLearnApply slice s
  | .emNowTick => Sys2Proof.Machine.execEmNowTick s
  | .emTick m value => Sys2Proof.Machine.execEmTick m value s
  | .emLfsrSeed m value => Sys2Proof.Machine.execEmLfsrSeed m value s
  | .stampSweep slot uncorr => Sys2Proof.Machine.execStampSweep slot uncorr s
  | .releaseWaitEnd block => Sys2Proof.Machine.execReleaseWaitEnd block s
  | .poolProbeSel m pool block => Sys2Proof.Machine.execPoolProbeSel m pool block s
  | .mem port frame uncorr => Sys2Proof.Machine.execMem port frame uncorr s
  | .carData m room value => Sys2Proof.Machine.execCarData m room value s
  | .carClear m room value => Sys2Proof.Machine.execCarClear m room value s
  | .carClearDone room => Sys2Proof.Machine.execCarClearDone room s
  | .accession m value => Sys2Proof.Machine.execAccession m value s
  | .accessionSwitch => Sys2Proof.Machine.execAccessionSwitch s
  | .accDiscard m value => Sys2Proof.Machine.execAccDiscard m value s
  | .registerWrite m index sub value => Sys2Proof.Machine.execRegisterWrite m index sub value s
  | .reductionSwitch => Sys2Proof.Machine.execReductionSwitch s
  | .reductionSecondSwitch => Sys2Proof.Machine.execReductionSecondSwitch s
  | .linkBringUp port => Sys2Proof.Machine.execLinkBringUp port s
  | .linkFail port => Sys2Proof.Machine.execLinkFail port s
  | .linkRestart port => Sys2Proof.Machine.execLinkRestart port s
  | .hello port frame => Sys2Proof.Machine.execHello port frame s
  | .idle port frame => Sys2Proof.Machine.execIdle port frame s
  | .linkDown port lane => Sys2Proof.Machine.execLinkDown port lane s
  | .uncorrWindow port codewords => Sys2Proof.Machine.execUncorrWindow port codewords s
  | .retrain m port value => Sys2Proof.Machine.execRetrain m port value s
  | .frameReceive port frame place => Sys2Proof.Machine.execFrameReceive port frame place s
  | .linkDrop port => Sys2Proof.Machine.execLinkDrop port s
  | .slotFill port => Sys2Proof.Machine.execSlotFill port s
  | .candidate port frame => Sys2Proof.Machine.execCandidate port frame s
  | .fence port frame => Sys2Proof.Machine.execFence port frame s
  | .memberSend port tag => Sys2Proof.Machine.execMemberSend port tag s
  | .collectorClose port tag => Sys2Proof.Machine.execCollectorClose port tag s
  | .mergedSend port tag => Sys2Proof.Machine.execMergedSend port tag s
  | .ownerClose port tag => Sys2Proof.Machine.execOwnerClose port tag s
  | .casOrphan => Sys2Proof.Machine.execCasOrphan s
  | .readReq pdu => Sys2Proof.Machine.execReadReq pdu s
  | .writeReq pdu => Sys2Proof.Machine.execWriteReq pdu s
  | .segInit pdu => Sys2Proof.Machine.execSegInit pdu s
  | .segData pdu => Sys2Proof.Machine.execSegData pdu s
  | .segAck pdu => Sys2Proof.Machine.execSegAck pdu s
  | .timeout m => Sys2Proof.Machine.execTimeout m s
  | .mbxReq pdu => Sys2Proof.Machine.execMbxReq pdu s
  | .abort pdu => Sys2Proof.Machine.execAbort pdu s
  | .sleepReq pdu => Sys2Proof.Machine.execSleepReq pdu s
  | .openSession pdu => Sys2Proof.Machine.execOpenSession pdu s
  | .prove pdu => Sys2Proof.Machine.execProve pdu s
  | .close pdu => Sys2Proof.Machine.execClose pdu s
  | .sessionIdle session => Sys2Proof.Machine.execSessionIdle session s
  | .dbusNodeClash => Sys2Proof.Machine.execDbusNodeClash s
  | .nodeClashClear => Sys2Proof.Machine.execNodeClashClear s
  | .dbusBusoff => Sys2Proof.Machine.execDbusBusoff s
  | .busoffRecovery => Sys2Proof.Machine.execBusoffRecovery s
  | .heartbeat => Sys2Proof.Machine.execHeartbeat s
  | .eventPdu => Sys2Proof.Machine.execEventPdu s
  | .eventFrame port => Sys2Proof.Machine.execEventFrame port s
  | .dbusSleep => Sys2Proof.Machine.execDbusSleep s
  | .deviceWake => Sys2Proof.Machine.execDeviceWake s
  | .busWake => Sys2Proof.Machine.execBusWake s
  | .busActive => Sys2Proof.Machine.execBusActive s
  | .postedDone index => Sys2Proof.Machine.execPostedDone index s
  | .mbxSel m value => Sys2Proof.Machine.execMbxSel m value s
  | .mbxSnapshot m => Sys2Proof.Machine.execMbxSnapshot m s
  | .mbxContextRelease ctx => Sys2Proof.Machine.execMbxContextRelease ctx s
  | .dbAck m ring value => Sys2Proof.Machine.execDbAck m ring value s
  | .dbCodeCfg m value => Sys2Proof.Machine.execDbCodeCfg m value s
  | .porn lowNs => Sys2Proof.Machine.execPorn lowNs s
  | .pornRelease straps boot => Sys2Proof.Machine.execPornRelease straps boot s
  | .sysrstn lowNs => Sys2Proof.Machine.execSysrstn lowNs s
  | .sysrstnRelease boot => Sys2Proof.Machine.execSysrstnRelease boot s
  | .internalRestart boot => Sys2Proof.Machine.execInternalRestart boot s
  | .startComplete => Sys2Proof.Machine.execStartComplete s
  | .fwTimeout => Sys2Proof.Machine.execFwTimeout s
  | .provReq m value => Sys2Proof.Machine.execProvReq m value s
  | .provBuildDone => Sys2Proof.Machine.execProvBuildDone s
  | .fwUpdTarget m value => Sys2Proof.Machine.execFwUpdTarget m value s
  | .fwEraseDone ok => Sys2Proof.Machine.execFwEraseDone ok s
  | .fwUpdImage m last flashOk mirrorFail => Sys2Proof.Machine.execFwUpdImage m last flashOk mirrorFail s
  | .fwPolicy m value => Sys2Proof.Machine.execFwPolicy m value s
  | .lcReq m value => Sys2Proof.Machine.execLcReq m value s
  | .lcFuseDone blown => Sys2Proof.Machine.execLcFuseDone blown s
  | .keyLoad m value => Sys2Proof.Machine.execKeyLoad m value s
  | .vaultData m value => Sys2Proof.Machine.execVaultData m value s
  | .tamperCauseChange source present => Sys2Proof.Machine.execTamperCauseChange source present s
  | .tamperCfg m value => Sys2Proof.Machine.execTamperCfg m value s
  | .vaonRise => Sys2Proof.Machine.execVaonRise s
  | .vaonLoss => Sys2Proof.Machine.execVaonLoss s
  | .aclkQualified => Sys2Proof.Machine.execAclkQualified s
  | .srRegionStart outcome uncorr => Sys2Proof.Machine.execSrRegionStart outcome uncorr s
  | .bayRebuilt spareFails => Sys2Proof.Machine.execBayRebuilt spareFails s
  | .bayFence => Sys2Proof.Machine.execBayFence s
  | .bayRetest bay pass => Sys2Proof.Machine.execBayRetest bay pass s
  | .regionSample r => Sys2Proof.Machine.execRegionSample r s
  | .release m region value => Sys2Proof.Machine.execRelease m region value s
  | .regionRelease die found => Sys2Proof.Machine.execRegionRelease die found s
  | .wearSample region shift => Sys2Proof.Machine.execWearSample region shift s
  | .thermalSample tj => Sys2Proof.Machine.execThermalSample tj s
  | .mgmtWait => Sys2Proof.Machine.execMgmtWait s
  | .mgmtWake cause => Sys2Proof.Machine.execMgmtWake cause s
  | .supplyLoss supply => Sys2Proof.Machine.execSupplyLoss supply s
  | .extest test => Sys2Proof.Machine.execExtest test s
  | .tapExit run => Sys2Proof.Machine.execTapExit run s
  | .trstn boot => Sys2Proof.Machine.execTrstn boot s
  | .linkAligned port lanes rxLat txLat => Sys2Proof.Machine.execLinkAligned port lanes rxLat txLat s
  | .supplyRise supply straps boot => Sys2Proof.Machine.execSupplyRise supply straps boot s
  | .fwFault cause => Sys2Proof.Machine.execFwFault cause s
  | .fwAbort code => Sys2Proof.Machine.execFwAbort code s
  | .bistFail die block => Sys2Proof.Machine.execBistFail die block s
  | .pllLockFail region => Sys2Proof.Machine.execPllLockFail region s
  | .canFrameDiscard kind => Sys2Proof.Machine.execCanFrameDiscard kind s
  | .badPdu pdu => Sys2Proof.Machine.execBadPdu pdu s
  | .protocolException => Sys2Proof.Machine.execProtocolException s
  | .protocolExceptionEnd => Sys2Proof.Machine.execProtocolExceptionEnd s
  | .canError tec rec => Sys2Proof.Machine.execCanError tec rec s
  | .dbusRateSwitch => Sys2Proof.Machine.execDbusRateSwitch s

end Sys2Proof.Machine
end

