-- ==== Sys2Proof/Machine/Step.lean ====
section
/-! DEFINITION. One step: the command at the front of the queue, or one tick of the clock when nothing waits. -/

namespace Sys2Proof.Machine

/-- A step with nothing waiting: one hub SCLK cycle passes (log 1). -/
def idleStep (s : State) : State := { s with now := s.now + 1 }

/-- Takes the command at the front of the queue and runs it with the rest of the queue; on an empty queue a cycle
passes (log 1). -/
def step (s : State) : Host.Outcome State Fault Refusal :=
  match s.pending with
  | [] => .next (idleStep s)
  | c :: rest => exec c { s with pending := rest }

/-- The state with the command that a word spells at the front of its queue; no row of the table has bits, so no word
spells one. -/
def State.withFetchWord (s : State) (nbits w : Nat) : State :=
  match decodeTableWord nbits w with
  | some c => { s with pending := c :: s.pending }
  | none => s

end Sys2Proof.Machine
end

