-- ==== Sys2Proof/Safety.lean ====
section
/-! DEFINITION. The terms that claims use: the canonical form of the addressed memories, the part of a state that the
daybook touches, a state that differs from another by daybook records alone, and a write that meets no obstacle. -/

namespace Sys2Proof.Machine

/-! ### Addressed memories -/

/-- The addressed RAMs (carrels, the secure carrel, associated data) are in canonical form (R201, R223, R235). -/
def Mem.wf (m : Mem) : Bool := swf (fun _ => (0 : BitVec 64)) m.carrel && swf (fun _ => (0 : BitVec 64)) m.secure &&
  swf (fun _ => (0 : BitVec 128)) m.ads

/-! ### What records change -/

/-- A port without what the daybook puts on it: records waiting to be pushed and the counts of lost ones (R372). -/
def Port.core (q : Port) : Port := { q with push := [], lost := [] }

/-- The dictionary-bus controller without what the daybook puts on it (R342, R373). -/
def Bus.core (b : Bus) : Bus := { b with push := [], withheld := 0, wakeRec := none, wakeDue := false }

/-- Pins and phases without FAULT_CAUSE and the wakes of the management core (R27, R375). -/
def Dev.core (d : Dev) : Dev := { d with mclk := false, lastWake := none, causes := 0 }

/-- The counters that the daybook and the fault causes keep: DB_DROPPED of the 17 rings and FAULT_XING (R358, R366). -/
def daybookKeys : List Nat := Obj.faultXing.key :: (List.range 17).map fun r => Obj.dbDropped.key r

/-- `t` is `u` but for daybook records and what they bring: rings (no record is lost and none acknowledged), the two
counters, FAULT_CAUSE, queued pushes, and a wake of the management core (R27, R364 to R375). -/
structure OnlyRecords (u t : State) : Prop where
  now : t.now = u.now
  pending : t.pending = u.pending
  free : t.free = u.free
  dev : t.dev.core = u.dev.core
  boot : t.boot = u.boot
  vault : t.vault = u.vault
  cat : ({ t.cat with regs := [] } : Cat) = { u.cat with regs := [] }
  regs : ∀ k, k ∉ daybookKeys → sget regDefault t.cat.regs k = sget regDefault u.cat.regs k
  rseq : ∀ r, (t.ring r).rseq = (u.ring r).rseq
  recs : ∀ r, (u.ring r).recs.Sublist (t.ring r).recs
  bus : t.bus.core = u.bus.core
  ports : ∀ p, (t.port p).core = (u.port p).core
  wire : t.wire = u.wire
  search : t.search = u.search
  bays : t.bays = u.bays
  tables : t.tables = u.tables
  pfx : t.pfx = u.pfx
  em : t.em = u.em
  mem : t.mem = u.mem
  arb : t.arb = u.arb
  guar : t.guar = u.guar
  ed : t.ed = u.ed
  cas : t.cas = u.cas
  health : t.health = u.health

/-- The command runs and leaves `u` but for daybook records. -/
def RunsTo (c : Instr) (s u : State) : Prop := ∃ t, exec c s = .next t ∧ OnlyRecords u t

/-- The command runs as another one does, but for daybook records. -/
def RunsAs (c d : Instr) (s : State) : Prop := ∃ u, exec d s = .next u ∧ RunsTo c s u

/-- A record of a code stands unacknowledged in a ring. -/
def State.recorded (s : State) (r : Nat) (c : Code) : Prop := ∃ x ∈ (s.ring r).recs, x.code = BitVec.ofNat 16 c.num

/-- A ring takes a record that arrives: it is not full and its merge queue has room (R365, R366). -/
def State.ringOpen (s : State) (r : Nat) : Prop := 
  (s.ring r).recs.length < 1024 ∧ (s.ring r).waiting s.now + (s.ring r).lateWaiting s.now < 32

/-- Each of bits 0 to 9 of FAULT_CAUSE is set exactly while its cause is present (R375). -/
def State.CausesFollow (s : State) : Prop := ∀ b, b < 10 → nbit s.dev.causes.toNat b = s.faultBits.getD b false

/-! ### Frames -/

/-- The pieces of a state; `catalogue` is all of the catalogue but the registers that are not shadowed. -/
inductive Piece where
  | now | pending | free | dev | boot | vault | regs | catalogue | rings | bus | ports | wire | search | bays | tables
  | pfx | em | mem | arb | guar | ed | cas | health
  deriving DecidableEq, Repr

/-- A piece is the same in two states, but for what daybook records bring. -/
def Piece.same : Piece → State → State → Prop
  | .now, s, t => t.now = s.now
  | .pending, s, t => t.pending = s.pending
  | .free, s, t => t.free = s.free
  | .dev, s, t => t.dev.core = s.dev.core
  | .boot, s, t => t.boot = s.boot
  | .vault, s, t => t.vault = s.vault
  | .regs, s, t => ∀ k, k ∉ daybookKeys → sget regDefault t.cat.regs k = sget regDefault s.cat.regs k
  | .catalogue, s, t => ({ t.cat with regs := [] } : Cat) = { s.cat with regs := [] }
  | .rings, s, t => ∀ r, (t.ring r).rseq = (s.ring r).rseq ∧ (s.ring r).recs.Sublist (t.ring r).recs
  | .bus, s, t => t.bus.core = s.bus.core
  | .ports, s, t => ∀ p, (t.port p).core = (s.port p).core
  | .wire, s, t => t.wire = s.wire
  | .search, s, t => t.search = s.search
  | .bays, s, t => t.bays = s.bays
  | .tables, s, t => t.tables = s.tables
  | .pfx, s, t => t.pfx = s.pfx
  | .em, s, t => t.em = s.em
  | .mem, s, t => t.mem = s.mem
  | .arb, s, t => t.arb = s.arb
  | .guar, s, t => t.guar = s.guar
  | .ed, s, t => t.ed = s.ed
  | .cas, s, t => t.cas = s.cas
  | .health, s, t => t.health = s.health

/-- `t` differs from `s` in the pieces listed and by daybook records alone. -/
def Touches (l : List Piece) (s t : State) : Prop := ∀ p, p ∉ l → p.same s t

/-- Every register that is not shadowed but those of the keys listed reads as before, the daybook's counters apart. -/
def RegsBut (l : List Nat) (s t : State) : Prop :=
  ∀ k, k ∉ daybookKeys → k ∉ l → sget regDefault t.cat.regs k = sget regDefault s.cat.regs k

/-- `t` differs from `s` in the pieces listed and in port `p`. -/
def PortFrame (p : Nat) (l : List Piece) (s t : State) : Prop :=
  Touches (.ports :: l) s t ∧ ∀ j, j ≠ p → (t.port j).core = (s.port j).core

/-- The command leaves `u` but for records, a record of code `c` among them when the device ring has room. -/
def Logs (i : Instr) (s u : State) (c : Code) : Prop :=
  ∃ t, exec i s = .next t ∧ OnlyRecords u t ∧ (u.ringOpen 16 → t.recorded 16 c)

/-! ### Table commands -/

/-- The next start slot grants the queued command `c`, whose operation is `op`; `s1` is the state with the grant made, the command
marked as started, and what comes before the slot's cycle made (R183, R242; log 84). -/
def State.Starts (s : State) (op : Nat) (c : MqCmd) (s1 : State) : Prop :=
  c.hdr.op = op ∧ c.started = true ∧ ∃ s' room before c0, s.atSlot.grant = some (s', room) ∧
    s'.head room = some (before, c0) ∧ c = { c0 with started := true } ∧
    s1 = ({ s' with arb := { s'.arb with nextAt := s'.now + 2 } } : State).setCmd c

/-- The references to some blocks go: at once, or with the last update of the command, which waits for it in its queue (R125,
R154, R216). -/
def Releases (c : MqCmd) (drops : List Nat) (v u : State) : Prop :=
  (∀ b, (u.alloc b).count = (v.alloc b).count - drops.count b) ∨
  ((∀ b, u.alloc b = v.alloc b) ∧ ∀ x ∈ v.queue c.room, x.id = c.id →
    ∃ y ∈ u.queue c.room, y.id = c.id ∧ y.drops = drops ∧ ∃ t, y.doneAt = some t ∧ v.now < t)

/-- Registers that a table command's answer writes: the command-register set and ED_ADV_STATUS of its room, discarded frames
of its port (R180, R191, R262). -/
def answerKeys (c : MqCmd) : List Nat :=
  [Obj.tblStatus.key c.room, Obj.edAdvStatus.key c.room] ++ ((List.range 16).map fun i => Obj.tblReply.key c.room i) ++
    (match c.src with | .port p => [Obj.portTxDiscard.key p] | _ => [])

/-- Counters of the pools: watermark crossings and refused allocations (R221). -/
def poolKeys : List Nat := (List.range 64).flatMap fun n =>
  [Obj.poolXingNotice.key n, Obj.poolXingRestrain.key n, Obj.poolXingStop.key n, Obj.poolRefused.key n]

/-- What a table command leaves as it was: every piece but those listed, ports and the arbiter, every register but those of
its answer and the pools' counters, and the queue of every other room. -/
def CommandFrame (c : MqCmd) (l : List Piece) (s t : State) : Prop :=
  Touches (.regs :: .arb :: .ports :: l) s t ∧ RegsBut (answerKeys c ++ poolKeys) s t ∧
  ∀ r, r ≠ c.room → t.queue r = s.queue r

/-- Prefix entries without the places of their records in the device (R119; log 9). -/
def bare (es : List PfxEntry) : List PfxEntry := es.map fun e => { e with recs := [] }

/-- The state in which a unit's maintenance slot in cycle `c` does its work: every lookup and stamp write that comes before it
made, the slot noted and numbered (R102, R107, R198; log 84). -/
def State.inSlot (s : State) (u c : Nat) : State :=
  ((s.at c).catchUpSlot).setBays fun x => { x with
    slotAt := sput (fun _ => 0) x.slotAt u (c + 1), slotNo := sput (fun _ => 0) x.slotNo u ((sget (fun _ => 0) x.slotNo u + 1) % 64) }

/-! ### Exact-match positions -/

/-- The slots of the position of key `k` in every copy (R144, R147). -/
def EmDesc.slotsOf (d : EmDesc) (k i : Nat) : List Nat :=
  (List.range d.ncopy).flatMap fun n =>
    let j := moveSlice i (d.owner n k)
    if d.wide then [j, j + 1] else [j]

/-- The entry of key `k` with this head stands at position `i` of every copy, its tail after it in a double slot
(R144, R147). -/
def State.emStands (s : State) (d : EmDesc) (k i : Nat) (head : BitVec 128) : Prop :=
  ∀ n, n < d.ncopy → s.emSlot (moveSlice i (d.owner n k)) = head ∧
    (d.wide = true → s.emSlot (moveSlice i (d.owner n k) + 1) = d.tail k)

/-- A stamp word with both stamps at the present tick (R145, R162). -/
def State.freshStamp (s : State) (hit : Bool) : BitVec 33 := BitVec.ofNat 33 (pack [(1, b2n hit), (16, s.emNow), (16, s.emNow)])

/-! ### Bytes of the memories -/

/-- The byte of a space at an address (R223, R227): 0 a room's carrel, 1 associated data, 2 the secure carrel. -/
def State.memByte (s : State) (space room a : Nat) : Byte :=
  (s.memWord space room (a / memWidth space)).getD (a % memWidth space) 0

/-! ### Writes -/

/-- A write of object `o` instance `i` by a master meets no obstacle but those of its value: it reaches the catalogue, which
serves the object, and passes rows 1 to 8 of R320; no session of the master ends in the cycle, no download of another master
holds the object, and no write of the cycle ranks before it (R320, R345, R415). -/
structure State.CanWrite (s : State) (m : Master) (o : Obj) (i : Nat) : Prop where
  up : s.reached m = true
  served : s.unserved o i = false
  grant : s.writeGrant m ⟨o, i, 0⟩ = 0
  session : s.endedNow m = none
  free : s.locked m (o.key i) = false
  first : s.loses m (o.key i) = false

/-- A write by command `c` of the object with key `k` ends with an abort code (0: performed) and leaves `u`, on which the
arbiter notes the access, but for daybook records (R320, R345). -/
def WritesKey (c : Instr) (s : State) (m : Master) (k code : Nat) (u : State) : Prop :=
  ∃ old ran, RunsTo c s (u.outcome k m code (match requestOf c with | some r => r.bytes | none => []) old ran)

/-- The write command `c` of object `o` instance `i` ends with an abort code and leaves `u` (R320). -/
def Writes (c : Instr) (s : State) (m : Master) (o : Obj) (i code : Nat) (u : State) : Prop :=
  WritesKey c s m (o.key i) code u

/-! ### Requests of the host -/

/-- A request reaches the device and passes what stands before its own checks: fewer than four requests outstanding, its
length, and under a proved session a fitting TAG on a request that is no repetition; `s1` is the state in which it acts, with
the session's count moved on and its use noted (R325, R326, R330, R333, R334). -/
def State.Accepts (s : State) (q : Pdu) (service layout : Nat) (tagged : Bool) (s1 : State) : Prop :=
  let r := (s.reach q service).1
  (s.reach q service).2 = true ∧ r.outstanding q.master < 4 ∧
    match if tagged then r.provedOf q.master else none with
    | none => layout ≤ q.bytes.length ∧ s1 = r.inUse q.master
    | some n => layout + 4 ≤ q.bytes.length ∧
      (q.bytes.drop layout).take 4 = (r.session n).tag (pduIdent q) (q.bytes.take layout) ∧
      r.repeats (r.session n) q (q.bytes.take layout) ((q.bytes.drop layout).take 4) = none ∧
      s1 = (r.setSession n { r.session n with cnt := (r.session n).cnt + 1, macFails := 0 }).inUse q.master

/-- The request, on an object, leaves `v` with its responses queued, which a proved session stores for a repetition (R326,
R334). -/
def Answers (c : Instr) (s : State) (q : Pdu) (service layout : Nat) (tagged : Bool) (index sub : Nat) (v : State)
    (rsp : List Pdu) : Prop :=
  RunsTo c s (match if tagged then (s.reach q service).1.provedOf q.master else none with
    | none => v.reply q.master index sub rsp
    | some _ => (v.reply q.master index sub rsp).storeReq
        ⟨q.master, pduIdent q, q.bytes.take layout, (q.bytes.drop layout).take 4, s.now, rsp⟩)

/-- A port without the link block that it is sending and without what it notes of the IDLE and HELLO frames sent (R263, R272,
R277). -/
def Port.queues (q : Port) : Port :=
  { q with blkNo := 0, blk := [], blkFirst := none, lastIdle := 0, freedSent1 := 0, freedSent3 := 0, helloSent := false }

/-- Filler alone has gone on the lanes, of a port's own, with the trailers of the link blocks that it filled (R263). -/
def Padded (p : Nat) (s u : State) : Prop :=
  ∃ before, u.wire = before ++ s.wire ∧ ∀ y ∈ before, y.port = p ∧ ∀ g, y.item ≠ .frame g

/-- A port puts a frame on its lanes from slot `k`: before it the slots that no command filled have gone with filler, and the
link blocks that it fills are followed by the halves of their trailers (R263, R266). -/
def Sent (p k : Nat) (f : Frame) (s u : State) : Prop :=
  ∃ after before, u.wire = after ++ ⟨k, p, .frame f⟩ :: (before ++ s.wire) ∧
    (∀ y ∈ after, y.port = p ∧ ∃ h, y.item = .sub h) ∧
    ∀ y ∈ before, y.port = p ∧ y.slot ≤ k ∧ ∀ g, y.item ≠ .frame g

/-- The byte of a space that a read of this cycle gives: of a carrel word as it was before the tallies of the cycle (R234). -/
def State.byteBefore (s : State) (space room a : Nat) : Byte :=
  (s.wordBefore space room (a / memWidth space)).getD (a % memWidth space) 0

/-- The PDUs are queued for a master in order: on the bus, each in a frame of the smallest length that holds it, or as CAT
frames on a port that keeps frames (R333, R341). -/
def Queued (m : Master) (l : List Pdu) (s u : State) : Prop :=
  match m with
  | .bus _ => u.bus.out = s.bus.out ++ l.map s.bus.frame
  | .port p => (s.port p).keeps = true → (u.port p).tx1 = (s.port p).tx1 ++ l.map fun x => ⟨catFrame x, .none⟩

/-! ### Resets and attempts -/

/-- Every region but the vault is reset (R317, R363, R478): the catalogue at its defaults and the rates of OTP, no rings,
ports, tables, entries, instructions or queued commands left, the memories blank, the dies in reset. Time, the queue and the
frames already sent stay; the flash too, but for a mirror entry of a slot write of this very cycle (log 103), and the vault and
OTP, but for such a write, fuses that were being programmed, and the step that an interrupted attempt had reached (R410). -/
structure State.Cleaned (s u : State) : Prop where
  now : u.now = s.now
  pending : u.pending = s.pending
  wire : u.wire = s.wire
  flash : (∀ w, s.boot.writing = some w → w.cycle ≠ s.now) → u.boot.flash = s.boot.flash
  vault : s.vault.lcTarget = none → (∀ w, s.boot.writing = some w → w.cycle ≠ s.now) →
    u.vault = (if s.boot.attempt.active && s.dev.vaon then { s.vault with lastStep := s.boot.attempt.step } else s.vault)
  otp : s.vault.lcTarget = none → u.boot.otp = s.boot.otp
  rates : u.view.obj .dbusCfg = u.boot.otp.nominal + 16 * u.boot.otp.data
  cat : u.cat = { Cat.reset with force := u.cat.force }
  rings : u.rings = []
  ports : u.ports = []
  search : u.search = Search.reset
  bays : u.bays = Bays.reset
  tables : u.tables = []
  pfx : u.pfx = ⟨[], [], []⟩
  em : ({ u.em with nextTick := 0 } : Em) = { Em.reset with nextTick := 0 }
  mem : u.mem = Mem.reset
  arb : u.arb = Arbiter.reset
  guar : u.guar = Guar.reset
  ed : u.ed = EdState.reset
  cas : u.cas = Cas.reset
  health : u.health = Health.reset
  dies : u.dev.diesUp = false
  prs : u.boot.prs = List.replicate 8 (List.replicate 48 0)
  straps : u.dev.straps = s.dev.straps

/-- The attempt of `s` has failed in `t` (R410, R412): its slot says why, the failure is recorded, and either minimal mode
begins or an internal restart is due within 10 ms. -/
structure State.StartFailed (s t : State) (reason detail : Nat) : Prop where
  ended : t.boot.attempt.active = false ∧ t.boot.attempt.ended = true
  fails : t.boot.attempt.fails = min 255 (s.boot.attempt.fails + 1)
  slot : s.dev.vaon = true → s.boot.attempt.slot < 2 → t.slotBytes s.boot.attempt.slot =
    s.slotImage 3 (min 255 (s.boot.attempt.fails + 1)) reason detail s.boot.attempt.image s.boot.attempt.preferred
      (decide (s.boot.otp.bootLimit ≤ min 255 (s.boot.attempt.fails + 1))) s.boot.attempt.imgTag
  record : s.boot.attempt.mirrorFail = false → s.ringOpen 16 → t.recorded 16 .startFail
  minimal : s.boot.otp.bootLimit ≤ min 255 (s.boot.attempt.fails + 1) → t.dev.phase = .minimal ∧ t.dev.diesUp = false
  restart : min 255 (s.boot.attempt.fails + 1) < s.boot.otp.bootLimit → t.dev.phase = s.dev.phase ∧
    ∃ d, t.boot.attempt.restartDue = some d ∧ s.now < d ∧ d ≤ s.now + 10 * Config.msec

end Sys2Proof.Machine
end

