-- ==== Sys2Proof/Certificates/Slice0/Obligations.lean ====
section
/-! DEFINITION. The statements for the provers: what the commands of the block do, by family, and what every step keeps. -/

open Sys2Proof Sys2Proof.Machine

/-- A step runs the command at the front of the queue on the state with the rest of the queue. -/
def Obligations.StepRunsFront : Prop :=
  ∀ (c : Instr) (rest : List Instr) (s : State),
    step { s with pending := c :: rest } = exec c { s with pending := rest }

/-- Commands leave the queue first in, first out, and no command puts another into it. A step on an empty queue lets one
hub SCLK cycle pass and changes nothing else. The model's choice (log 1): the spec gives no row for a tick. -/
def Obligations.QueueIsFifo : Prop :=
  (∀ (c : Instr) (rest : List Instr) (s t : State), s.pending = c :: rest → step s = .next t → t.pending = rest) ∧
  (∀ s : State, s.pending = [] → step s = .next { s with now := s.now + 1 })

/-- No command stops the block: every command, in every state, answers a next state (log 1). -/
def Obligations.EveryCommandAnswers : Prop :=
  ∀ (c : Instr) (s : State), ∃ t, exec c s = .next t

/-- Every step keeps the addressed RAMs (carrels, the secure carrel, the associated-data store) in canonical form. -/
def Obligations.MemoriesStayCanonical : Prop :=
  ∀ s t : State, s.mem.wf = true → step s = .next t → t.mem.wf = true

/-- R17: the spare bay of search die d is physical bay 17d + 16 (16, 33, 50 and 67), which no logical bay is mapped to
after reset; logical bay l is mapped to physical bay 17 × ⌊l / 16⌋ + (l mod 16). -/
def Obligations.ResetBayMap : Prop :=
  (∀ l, l < 64 → State.reset.view.phys l = some (17 * (l / 16) + l % 16)) ∧
  (∀ d, d < 4 → dieOfBay (17 * d + 16) = d ∧ ∀ l, l < 64 → State.reset.view.phys l ≠ some (17 * d + 16)) ∧
  (List.range 4).map (fun d => 17 * d + 16) = [16, 33, 50, 67]

/-- What reset leaves where the spec gives a value: the rota's MAINT phases and 64 phases (R98), ports OFF (R280), rings
empty (R366), the rates of unprogrammed OTP (R329), the vault's register file (R422); nothing is shed or lost (R244).
The addressed RAMs are in canonical form after reset. -/
def Obligations.ResetValues : Prop :=
  (State.reset.view.phases = 64 ∧
    (∀ u f, u < 76 → f < 64 → State.reset.view.rota u f = if f = 0 then rotaMaint else rotaIdle) ∧
    (∀ p, (State.reset.port p).st = .off ∧ (State.reset.port p).txsent1 = 0 ∧ (State.reset.port p).rxcount1 = 0) ∧
    (∀ r, (State.reset.ring r).recs = [] ∧ (State.reset.ring r).rseq = 0) ∧
    State.reset.view.obj .dbusCfg = 0x10 ∧
    State.reset.vault.intact = false ∧ State.reset.vault.vclock = 0 ∧ State.reset.vault.tamperCnt = 0 ∧
    State.reset.vault.cfg = 0x001F ∧ (∀ a, State.reset.vaultWord a = 0) ∧
    State.reset.guar.lost = [] ∧ State.reset.guar.shed = []) ∧
  (State.reset.mem.wf = true ∧ State.reset.pending = [])

/-- Each of bits 0 to 9 of FAULT_CAUSE is set exactly while its cause is present (R375): so it is after reset, every command
keeps it so, and a write that reaches the catalogue arbiter makes it so in any state. -/
def Obligations.FaultCauseFollows : Prop :=
  State.reset.CausesFollow ∧
  (∀ (c : Instr) (s t : State), s.CausesFollow → exec c s = .next t → t.CausesFollow) ∧
  ∀ (m : Master) (index : BitVec 16) (sub : BitVec 8) (value : List Byte) (s t : State),
    exec (.registerWrite m index sub value) s = .next t → t.CausesFollow

/-- A record that arrives at a ring with 1,024 unacknowledged records is dropped, takes no SEQ and adds 1 to DB_DROPPED;
at a ring with room it enters, and the records there keep their order (R365, R366). -/
def Obligations.RingsFillAndDrop : Prop :=
  ∀ (s : State) (r : Nat) (x : Rec),
    ((s.ring r).recs.length = 1024 →
      ((s.toRing r x).ring r).recs = (s.ring r).recs ∧ ((s.toRing r x).ring r).rseq = (s.ring r).rseq ∧
      ((s.toRing r x).ring r).dropped + ((s.toRing r x).ring r).late.length =
        (s.ring r).dropped + (s.ring r).late.length + 1 ∧
      (s.toRing r x).reg .dbDropped r = wrapAdd 32 (s.reg .dbDropped r) 1) ∧
    (s.ringOpen r →
      x ∈ ((s.toRing r x).ring r).recs ∧ ((s.toRing r x).ring r).recs.length = (s.ring r).recs.length + 1 ∧
      ((s.ring r).recs).Sublist ((s.toRing r x).ring r).recs ∧
      ((s.toRing r x).ring r).rseq = (s.ring r).rseq ∧
      ((s.toRing r x).ring r).dropped + ((s.toRing r x).ring r).late.length = (s.ring r).dropped + (s.ring r).late.length) ∧
    (∀ j, j ≠ r → (s.toRing r x).ring j = s.ring j)

/-- DB_ACK: a SEQ between RSEQ and WSEQ becomes RSEQ, the records before it go, and a ring that had dropped records gets
DB_OVERFLOW; any other value is refused with RANGE and changes nothing (R367, R369). Of the acknowledgements of a ring in
one cycle, one that another ranked before it has passed is refused with RANGE (R376). Every other ring stays.
DB_CODE_CFG: the class and FW bit of the selected code (R370); a value of 8 or more is refused with RANGE. -/
def Obligations.DaybookWrites : Prop :=
  (∀ (s : State) (m : Master) (r : Fin 17) (v : BitVec 16), s.CanWrite m .dbAck r →
      (∀ w ∈ s.sameCycle m, w.key ≠ Obj.dbAck.key r) →
      let g := s.ring r
      let n := (v - g.rseq).toNat
      let top := (g.wseq s.now - g.rseq).toNat
      let ahead := fun (x : Request) => (BitVec.ofNat 16 (ofBytesLE x.bytes) - g.rseq).toNat
      let rivals := (s.rivals m (Obj.dbAck.key r)).filter fun x => s.ranks1 x.m m
      (top < n → Writes (.dbAck m r v) s m .dbAck r Ab.range s) ∧
      (∀ x ∈ rivals, ahead x ≤ top → n < ahead x → Writes (.dbAck m r v) s m .dbAck r Ab.range s) ∧
      (n ≤ top → (∀ x ∈ rivals, ahead x ≤ top → ahead x ≤ n) → ∃ u, Writes (.dbAck m r v) s m .dbAck r 0 u ∧
        (u.ring r).rseq = v ∧ (g.dropped = 0 → g.late = [] → (u.ring r).recs = g.recs.drop n) ∧
        ((g.settled s.now).dropped ≠ 0 → 0 < n → (u.ring r).dropped = 0 ∧ u.recorded r .dbOverflow) ∧
        (g.recs.drop n).Sublist (u.ring r).recs ∧
        (∀ j, j ≠ r.val → u.ring j = s.ring j) ∧ Touches [.rings] s u)) ∧
  (∀ (s : State) (m : Master) (v : BitVec 8), s.CanWrite m .dbCodeCfg 0 → (codeOf (s.ownReg m .dbCodeSel)).isSome →
      (v.toNat < 8 → Writes (.dbCodeCfg m v) s m .dbCodeCfg 0 0
        (s.setReg .dbCodeCfg 0 0 (s.ownReg m .dbCodeSel) v.toNat)) ∧
      (8 ≤ v.toNat → Writes (.dbCodeCfg m v) s m .dbCodeCfg 0 Ab.range s))

/-- R492: DB_CODE_SEL accepts any 16-bit value, held per mailbox context; a write of DB_CODE_CFG is refused with RANGE
and changes nothing while DB_CODE_SEL names a code that is not assigned, and a read then returns 0. -/
def Obligations.CodeSelection : Prop :=
  (∀ (s s1 : State) (m : Master) (c : Nat) (v : BitVec 16), s.CanWrite m .dbCodeSel 0 → s.takeCtx m = some (s1, c) →
    Writes (.registerWrite m 0x9000 0x01 (bytesLE 2 v.toNat)) s m .dbCodeSel 0 0
      (s1.setCtxReg c (Obj.dbCodeSel.key) v.toNat)) ∧
  (∀ (s : State) (m : Master) (v : BitVec 8), s.CanWrite m .dbCodeCfg 0 → codeOf (s.ownReg m .dbCodeSel) = none →
    Writes (.dbCodeCfg m v) s m .dbCodeCfg 0 Ab.range s) ∧
  (∀ (s : State) (m : Master), s.readGrant m ⟨.dbCodeCfg, 0, 0⟩ = .ok → codeOf (s.ownReg m .dbCodeSel) = none →
    (s.readAt m true 0x9000 0x02).1 = ⟨0, [0]⟩)

/-- REGISTER_WRITE of an object without behaviour of its own, past every check of R320: a shadowed object takes the value
as staged and none comes into force (R350); an object held per context takes it in the writer's context (R360, R381);
any other register takes it. No other value changes. REGISTER_WRITE is refused by the first row of R320 that applies,
and then changes nothing but what the arbiter notes: an index or sub-index without an object, a level or room below
the object's, a value outside the object's type or range, a field above the master's level, a held die, then the end of
the master's session in the cycle, another master's download, or a write of the cycle that ranks first (R345). In minimal
mode only the dictionary bus reaches the catalogue (R415). That a field above the master's level (R322, R379) is judged between
RANGE and the held die is the model's choice (log 55). -/
def Obligations.RegisterWrites : Prop :=
  (∀ (s : State) (m : Master) (index : BitVec 16) (sub : BitVec 8) (l : List Byte) (p : Place),
      s.reached m = true → s.place index.toNat sub.toNat = .ok p → s.writeCode m p l = 0 → s.endedNow m = none →
      s.locked m (s.keyAt m p) = false → s.loses m (s.keyAt m p) = false →
      s.writeRooms m p (p.obj.row.ty.value l) = none → s.writeDevice m p (p.obj.row.ty.value l) = none →
      let v := s.keptFields p (p.obj.row.ty.value l)
      let k := s.keyAt m p
      let c := Instr.registerWrite m index sub l
      (p.obj.row.s = true → ∃ u, WritesKey c s m k 0 u ∧ u.stagedKey k = v ∧
        (∀ j, j ≠ k → u.stagedKey j = s.stagedKey j) ∧ u.cat.force = s.cat.force ∧ u.cat.regs = s.cat.regs ∧
        Touches [.catalogue] s u) ∧
      (p.obj.row.s = false → p.obj.perContext = true → ∀ s1 n, s.takeCtx m = some (s1, n) →
        WritesKey c s m k 0 (s1.setCtxReg n (p.obj.key p.inst) v)) ∧
      (p.obj.row.s = false → p.obj.perContext = true → s.takeCtx m = none → WritesKey c s m k Ab.cmdBusy s) ∧
      (p.obj.row.s = false → p.obj.perContext = false → ∃ u, WritesKey c s m k 0 u ∧
        u.reg p.obj p.inst p.off = v ∧ RegsBut [p.obj.key p.inst p.off] s u ∧ Touches [.regs, .arb] s u ∧
        (p.obj ≠ .mqPrio → Touches [.regs] s u))) ∧
  (∀ (s : State) (m : Master) (index : BitVec 16) (sub : BitVec 8) (l : List Byte),
      let c := Instr.registerWrite m index sub l
      (s.reached m = false → RunsTo c s s) ∧
      (s.reached m = true →
        (∀ code, s.place index.toNat sub.toNat = .error code → code ≠ 0 →
          WritesKey c s m (regKey index.toNat sub.toNat 0) code s) ∧
        (∀ p, s.place index.toNat sub.toNat = .ok p →
          let k := s.keyAt m p
          let x := p.obj.row.ty.value l
          (s.writeGrant m p ≠ 0 → WritesKey c s m k (s.writeGrant m p) s) ∧
          (s.writeGrant m p = 0 → s.valueCode p l ≠ 0 → WritesKey c s m k (s.valueCode p l) s) ∧
          (s.writeGrant m p = 0 → s.valueCode p l = 0 → fieldDenied p.obj (s.writer m).level (s.stagedKey k) x = true →
            WritesKey c s m k Ab.access s) ∧
          (s.writeGrant m p = 0 → s.valueCode p l = 0 → fieldDenied p.obj (s.writer m).level (s.stagedKey k) x = false →
            s.onHeldDie m p x = true → WritesKey c s m k Ab.dieHeld s) ∧
          (s.writeCode m p l = 0 → (s.endedNow m).isSome = true → WritesKey c s m k Ab.noSession s) ∧
          (s.writeCode m p l = 0 → s.endedNow m = none → s.locked m k = true → WritesKey c s m k Ab.locked s) ∧
          (s.writeCode m p l = 0 → s.endedNow m = none → s.locked m k = false → s.loses m k = true →
            WritesKey c s m k Ab.superseded s))))

/-- MBX_SEL starts a snapshot in the writer's context, MBX_SNAPSHOT copies the selected object in one cycle and sets
VALID, and a bus context unused for 60 s returns to its defaults (R360, R361). Every other context stays. -/
def Obligations.Mailboxes : Prop :=
  (∀ (s s1 : State) (m : Master) (v : BitVec 32) (c : Nat) (p : Place), s.CanWrite m .mbxSel 0 → v.toNat % 256 = 0 →
    s.takeCtx m = some (s1, c) → s1.mbxPick m (v.toNat / 65536) (v.toNat / 256 % 256) = .take p →
    ∃ u, Writes (.mbxSel m v) s m .mbxSel 0 0 u ∧ (u.mailbox c).busy = true ∧ (u.mailbox c).valid = false ∧
      (u.mailbox c).sel = v.toNat ∧ (∀ j, j ≠ c → u.mailbox j = s.mailbox j) ∧ Touches [.catalogue] s u) ∧
  (∀ (s : State) (m : Master) (c : Nat) (p : Place), s.ctxOf m = some c → s.catalogueUp = true →
    (s.mailbox c).busy = true → findObj ((s.mailbox c).sel / 65536) ((s.mailbox c).sel / 256 % 256) = some p →
    ∃ t, exec (.mbxSnapshot m) s = .next t ∧ (t.mailbox c).busy = false ∧ (t.mailbox c).valid = true ∧
      (t.mailbox c).code = (s.mbxBytes m p).code ∧
      (t.mailbox c).words = wordsOf (cdiv (s.mbxBytes m p).bytes.length 4) (s.mbxBytes m p).bytes ∧
      (∀ j, j ≠ c → t.mailbox j = s.mailbox j) ∧ Touches [.catalogue] s t) ∧
  (∀ (s : State) (c : Fin 16), (s.mailbox (32 + c)).holder ≠ 0 →
    ∃ t, exec (.mbxContextRelease c) s = .next t ∧
      t.now = max s.now ((s.mailbox (32 + c)).lastUse + 60 * Config.sec) ∧ t.mailbox (32 + c) = Mailbox.none ∧
      (∀ k, k < 2 ^ 48 → t.ctxReg (32 + c) k = regDefault k) ∧ (∀ j, j ≠ 32 + c.val → t.mailbox j = s.mailbox j) ∧
      Touches [.now, .catalogue] s t)

/-- ACCESSION: past its checks the groups wait for a switch cycle fixed within 1 µs, nothing in force changes yet and every
staged value reads as before; a failing check gives its abort code in ACC_STATUS and changes nothing in force (R33, R354,
R355). It takes the values staged before the writes of its cycle, which stay staged (R345). Before its switch cycle another
is refused with POSTED_BUSY. ACC_DISCARD: staged values of the named groups that the writer may write revert to those in
force, every other one stays (R352). A value above 511 is refused with RANGE. -/
def Obligations.AccessionsAsked : Prop :=
  (∀ (s : State) (m : Master) (v : BitVec 32), s.CanWrite m .accession 0 →
      (512 ≤ v.toNat → Writes (.accession m v) s m .accession 0 Ab.range s) ∧
      (v.toNat < 512 → v.toNat ≠ 0 → s.dev.phase ≠ .minimal → s.cat.acc.busy = true → s.sameCycle m = [] →
        Writes (.accession m v) s m .accession 0 Ab.postedBusy s) ∧
      (v.toNat < 512 → v.toNat ≠ 0 → s.dev.phase ≠ .minimal → s.cat.acc.busy = false → s.guar.active = false →
        let b := s.before m
        let taken := b.taken (s.who m) v.toNat
        let vals := b.adjusted taken
        let asked := b.restoreAsked (s.who m) v.toNat
        let found := b.checkAll (b.after vals asked) vals asked (takes taken .casSelf)
        (found = none → ∃ u, Writes (.accession m v) s m .accession 0 0 u ∧
          u.cat.acc.busy = true ∧ u.cat.acc.values = vals ∧
          u.cat.acc.restore = (if appliesRota vals then asked else []) ∧
          u.cat.acc.groups.toNat = v.toNat ∧ s.now < u.cat.acc.switchAt ∧ u.cat.acc.switchAt ≤ s.now + Config.usec ∧
          u.cat.force = s.cat.force ∧ u.cat.regs = s.cat.regs ∧ u.mem = (s.holdDefaults vals).mem ∧
          (∀ p, p < 256 → p ∈ instancesIn taken 3 →
            bits (sget (fun _ => 0) vals (Obj.progHdr.key p)) 111 108 = (bits (s.view.obj .progHdr p) 111 108 + 1) % 16) ∧
          (s.sameCycle m = [] → s.cat.acc.staged = [] → ∀ k, u.stagedKey k = s.stagedKey k) ∧
          (srising 0 s.cat.staged = true → ∀ w ∈ s.sameCycle m, w.key ∈ s.cat.staged.map Prod.fst →
            u.stagedKey w.key = s.stagedKey w.key) ∧ Touches [.catalogue, .free, .mem] s u) ∧
        (∀ r, found = some r → ∃ u, Writes (.accession m v) s m .accession 0 r.code u ∧
          u.cat.acc.code = r.code ∧ u.cat.acc.busy = false ∧ u.cat.force = s.cat.force ∧
          (s.sameCycle m = [] → u.cat.staged = s.cat.staged) ∧ Touches [.catalogue, .free] s u))) ∧
  (∀ (s : State) (m : Master) (v : BitVec 16), s.CanWrite m .accDiscard 0 →
      (512 ≤ v.toNat → Writes (.accDiscard m v) s m .accDiscard 0 Ab.range s) ∧
      (v.toNat < 512 → ∃ u, Writes (.accDiscard m v) s m .accDiscard 0 0 u ∧
        (∀ k p e g, placeOf k = some (p, e) → p.obj.group = some g → nbit v.toNat g = true →
          (s.who m).mayWrite s.view p.obj p.inst = true → u.stagedKey k = sget regDefault s.cat.force k) ∧
        (∀ k p e g, placeOf k = some (p, e) → p.obj.group = some g →
          (nbit v.toNat g = false ∨ (s.who m).mayWrite s.view p.obj p.inst = false) → u.stagedKey k = s.stagedKey k) ∧
        u.cat.force = s.cat.force ∧ u.cat.regs = s.cat.regs ∧ Touches [.catalogue] s u))

/-- ACCESSION_SWITCH: at the switch cycle every value taken is in force, no other value in force changes, and the accession is
over (R33, R354). In the same cycle, by group: a port whose role changes goes to electrical idle or starts its bring-up, every
other port stays (R262); a room whose enabled programs the applied rota serves is REDUCED no more (R249); the default actions
that an image no longer refers to lose the reference (R216); a table takes the state of its new descriptor (R82, R110, R113,
R142); a pool's status bits follow its level (R220); the rooms to restore are shed no more (R252); CLUSTER becomes valid, and a
changed MGEN or device number ends the quarantine (R307, R308, R313). With values of group 0 or 8 alone nothing else changes.
`s1` is the state in the switch cycle, with every lookup and stamp write before it made. -/
def Obligations.AccessionTakesEffect : Prop :=
  ∀ (s s1 : State), s.cat.acc.busy = true → srising 0 s.cat.acc.values = true → (∀ r ∈ s.guar.degraded, r < 16) →
    s1 = (s.at s.cat.acc.switchAt).catchUp →
    let acc := s.cat.acc
    let w := s1.view.put acc.values
    ∃ t, exec .accessionSwitch s = .next t ∧ t.now = max s.now acc.switchAt ∧
      (∀ e ∈ acc.values, sget regDefault t.cat.force e.1 = e.2) ∧
      (∀ k, k ∉ acc.values.map Prod.fst → sget regDefault t.cat.force k = sget regDefault s.cat.force k) ∧
      t.cat.acc.busy = false ∧ t.cat.acc.code = 0 ∧ t.cat.acc.lastSwitch = t.now ∧ t.cat.staged = s1.cat.staged ∧
      (∀ p, p < 32 → p ∈ instancesIn acc.values 1 → t.role p ≠ s1.role p →
        (t.port p).st = if t.role p = 0 then .off else .training) ∧
      (∀ p, p ∉ instancesIn acc.values 1 → (t.port p).core = (s1.port p).core) ∧
      (acc.rota = true → ∀ r ∈ s1.guar.reduced,
        (r ∈ t.guar.reduced ↔ roomServed ⟨t.view, t.view, t.table, t.guar.shed, t.guar.lost, t.heldDies⟩ r = false)) ∧
      (acc.rota = false → t.guar.reduced = s1.guar.reduced) ∧
      (∀ b, (t.alloc b).count = (s1.alloc b).count -
          ((instancesIn acc.values 3).flatMap (moreRefs w s1.view)).count b) ∧
      (∀ n, n ∉ instancesIn acc.values 4 → t.table n = s1.table n) ∧
      (∀ n, n ∈ instancesIn acc.values 4 → (w.tbl n).kind ≠ 1 →
        ∃ l, t.table n = { tableAfter s1 w n with filling := l } ∧ (l = [] ∨ l = (tableAfter s1 w n).filling)) ∧
      (∀ n, n ∈ instancesIn acc.values 4 → (w.tbl n).kind = 1 → (t.table n).hash = (tableAfter s1 w n).hash ∧
        (t.table n).entries.length = (tableAfter s1 w n).entries.length) ∧
      (∀ n, n ∈ instancesIn acc.values 5 → ∀ m, m < 3 →
        ((t.view.pool n).mark m ≠ 0 → (t.view.pool n).mark m ≤ t.poolLevel n → nbit (t.poolStatus n) m = true) ∧
        ((t.view.pool n).mark m = 0 ∨ t.poolLevel n < (t.view.pool n).mark m - 64 * (t.view.pool n).hyst →
          nbit (t.poolStatus n) m = false)) ∧
      t.guar.shed = s1.guar.shed.filter (fun r => !acc.restore.contains r) ∧
      t.cas.clvalid = (s1.cas.clvalid || acc.cluster) ∧
      t.cas.quarantined = (s1.cas.quarantined &&
        decide (w.device s.dev.straps = s1.view.device s.dev.straps ∧ bits (w.obj .casSelf) 22 15 = s1.mgen)) ∧
      (acc.restore = [] → acc.rota = false → (∀ e ∈ acc.values, ∃ g, groupOf e.1 = some g ∧ (g = 0 ∨ g = 8)) →
        Touches [.catalogue, .bus, .cas, .guar] s1 t)

/-- TABLE_FRAME: a frame of a port that acts for its room joins the room's queue, behind every command that came before
its cycle and those of its cycle from lower ports; with 512 commands queued one of its cycle from a higher port gives it its
place, or it is itself answered QUEUE_FULL; without that authority it is answered PORT_ROOM, and nothing is queued (R181, R323).
TBL_CMD and ED_ADVANCE: with GO, BUSY is set and the staged image joins the room's queue behind every command, or is answered
QUEUE_FULL; EXPECT of ED_ADVANCE joins it as an ADVANCE. While BUSY stands, both are refused with CMD_BUSY and queue nothing
(R179, R180, R190, R191). Each finds the commands complete whose last update has been made by its cycle. -/
def Obligations.CommandsQueue : Prop :=
  (∀ (s s0 : State) (port : Fin 32) (f : Frame), s.dieHeld (dieOfPort port) = false → s.outFull port = false →
      s0 = (s.takeRx port 1 f).completeDue →
      let room := (tabHdr f.hdr).room
      let c : MqCmd := ⟨s0.arb.nextId, room, f, .port port, s0.now, false, none, [], [], [], [], [], [], none⟩
      (s0.portActs port room = true → s0.queueFull room = false →
        ∃ t, exec (.tableFrame port f) s = .next t ∧ (t.queue room).Perm (c :: s0.queue room) ∧
          (s0.queue room).Sublist (t.queue room) ∧
          (∀ before after, s0.queue room = before ++ after →
            (∀ x ∈ before, x.came ≠ s0.now ∨ x.started = true ∨ x.src.order ≤ port) →
            (∀ x ∈ after.head?, x.came = s0.now ∧ x.started = false ∧ port.val < x.src.order) →
            t.queue room = before ++ c :: after) ∧
          (∀ r, r ≠ room → t.queue r = s0.queue r) ∧ t.ports = s0.ports ∧ Touches [.arb] s0 t) ∧
      (s0.portActs port room = true → s0.queueFull room = true → s0.displaced room (.port port) = none →
        ∃ t, exec (.tableFrame port f) s = .next t ∧ t.arb = s0.arb ∧
          t.reg .mqFull room = wrapAdd 32 (s0.reg .mqFull room) 1 ∧
          t.ports = (s0.send1 port (tcomp (tabHdr f.hdr) 0x55 true false 0 0 0 [])).ports ∧
          Touches [.ports, .regs] s0 t) ∧
      (∀ x, s0.portActs port room = true → s0.queueFull room = true → s0.displaced room (.port port) = some x →
        ∃ t, exec (.tableFrame port f) s = .next t ∧ c ∈ t.queue room ∧
          (∀ y ∈ s0.queue room, y.id ≠ x.id → y ∈ t.queue room) ∧ (∀ y ∈ t.queue room, y = c ∨ y.id ≠ x.id) ∧
          (∀ r, r ≠ room → t.queue r = s0.queue r) ∧ t.reg .mqFull room = wrapAdd 32 (s0.reg .mqFull room) 1 ∧
          Touches [.ports, .regs, .arb] s0 t) ∧
      (s0.portActs port room = false →
        ∃ t, exec (.tableFrame port f) s = .next t ∧ t.arb = s0.arb ∧
          (s0.ringOpen room → t.recorded room .portAuthReject) ∧ Touches [.ports, .regs] s0 t)) ∧
  (∀ (s s0 : State) (m : Master) (room : Fin 16), s0 = s.completeDue →
      (∀ v : BitVec 32, s.CanWrite m .tblCmd room → v.toNat % 2 ^ 27 = 0 →
        (s0.regBusy room = true → Writes (.tblCmd m room v) s m .tblCmd room Ab.cmdBusy s) ∧
        (s0.regBusy room = false → nbit v.toNat 31 = false →
          Writes (.tblCmd m room v) s m .tblCmd room 0 (s0.setReg .tblCmd room 0 0 (v.toNat % 2 ^ 31))) ∧
        (s0.regBusy room = false → nbit v.toNat 31 = true → s0.queueFull room = false →
          ∃ u c, Writes (.tblCmd m room v) s m .tblCmd room 0 u ∧
            ((∀ x ∈ s0.queue room, x.src.order ≤ 32) → u.queue room = s0.queue room ++ [c]) ∧
            (u.queue room).Perm (c :: s0.queue room) ∧ (∀ r, r ≠ room.val → u.queue r = s0.queue r) ∧
            c.src = .reg ∧ c.started = false ∧ c.frame.body.length = bits v.toNat 30 27 ∧ u.regBusy room = true ∧
            RegsBut [Obj.tblCmd.key room, Obj.tblStatus.key room] s0 u ∧ Touches [.regs, .arb] s0 u) ∧
        (s0.regBusy room = false → nbit v.toNat 31 = true → s0.queueFull room = true →
          (∀ x ∈ s0.queue room, x.src.order ≤ 32) →
          ∃ u, Writes (.tblCmd m room v) s m .tblCmd room 0 u ∧ u.regBusy room = false ∧
            u.reg .mqFull room = wrapAdd 32 (s0.reg .mqFull room) 1 ∧ bits (u.reg .tblStatus room) 23 16 = 0x55 ∧
            RegsBut ([Obj.tblCmd.key room, Obj.tblStatus.key room, Obj.mqFull.key room] ++
              (List.range 16).map fun i => Obj.tblReply.key room i) s0 u ∧ Touches [.regs] s0 u)) ∧
      (∀ v : BitVec 32, s.CanWrite m .tblCmd room → v.toNat % 2 ^ 27 ≠ 0 →
        Writes (.tblCmd m room v) s m .tblCmd room Ab.range s) ∧
      (∀ e : BitVec 16, s.CanWrite m .edAdvance room →
        (s0.queueFull room = false → s0.advBusy room = true → Writes (.edAdvance m room e) s m .edAdvance room Ab.cmdBusy s) ∧
        (s0.queueFull room = true → ∃ u, Writes (.edAdvance m room e) s m .edAdvance room Ab.cmdBusy u ∧
          u.reg .mqFull room = wrapAdd 32 (s0.reg .mqFull room) 1 ∧ RegsBut [Obj.mqFull.key room] s0 u ∧ Touches [.regs] s0 u) ∧
        (s0.queueFull room = false → s0.advBusy room = false →
          ∃ u c, Writes (.edAdvance m room e) s m .edAdvance room 0 u ∧
            ((∀ x ∈ s0.queue room, x.src.order ≤ 32) → u.queue room = s0.queue room ++ [c]) ∧
            (u.queue room).Perm (c :: s0.queue room) ∧ (∀ r, r ≠ room.val → u.queue r = s0.queue r) ∧
            c.src = .catalogue ∧ c.hdr.op = opAdvance ∧ c.hdr.aux = e.toNat ∧ u.advBusy room = true ∧
            RegsBut [Obj.edAdvStatus.key room] s0 u ∧ Touches [.regs, .arb] s0 u)))

/-- A started command that fails a check of R182 changes no table, row, slot, record or allocation: it is answered with
the check's status, on the path it came by (R182). -/
def Obligations.FailedChecksChangeNothing : Prop :=
  ∀ (s s1 : State) (c : MqCmd) (st : Nat),
    let d := s1.view.tbl c.hdr.table
    d.kind < 3 →
    s1.tableStatus c (if d.kind = 0 then trnBad (s1.view.trn c.hdr.table) c.hdr c.body
      else if d.kind = 1 then pfxBad (s1.view.pfx c.hdr.table) c.hdr c.body
      else emBad (s1.view.em c.hdr.table) c.hdr c.body) = some st →
    ∀ x ∈ [(opInsert, Instr.insert), (opWrite, .write), (opRead, .read), (opDelete, .delete), (opMove, .move), (opScan, .scan)],
      s.Starts x.1 c s1 →
      ∃ t, exec x.2 s = .next t ∧ OnlyRecords (s1.answer c (reply st 0)) t ∧ CommandFrame c [] s1 t

/-- INSERT and WRITE of a new ternary entry (R91, R92, R184, R186): past its checks the entry takes a reference on its
action, no row changes yet, and the row operations are laid out copy by copy, continuation atoms before heads. -/
def Obligations.TernaryInserts : Prop :=
  ∀ (s s1 : State) (c : MqCmd) (rs : List Replica) (r0 : Replica),
    let t := c.hdr.table
    let d := s1.view.trn t
    let e := entryWord (c.body.headD 0)
    let kv := keyOf d.k (c.body.drop 1)
    (s1.view.tbl t).kind = 0 → s1.tableStatus c (trnBad d c.hdr c.body) = none → (s1.table t).filling = [] →
    (d.direct = true ∨ s1.newEdition c.hdr.room e.rset e.first e.retiring = none) →
    s1.ptrCheck s1.view c.hdr.room e.ptr (e.plen + 1) = none → rs.head? = some r0 →
    (s.Starts opInsert c s1 → s1.choose d kv.1 kv.2 = .ok rs →
      ∃ u ops, exec .insert s = .next u ∧ (u.alloc e.ptr).count = (s1.alloc e.ptr).count + 1 ∧
        ops = (List.range d.ncopy).flatMap (newOps d rs e kv.1 kv.2) ∧
        (∀ x ∈ s1.queue c.room, x.id = c.id → ∃ y ∈ u.queue c.room, y.id = c.id ∧ y.ops = ops ∧ y.adds = [rs]) ∧
        CommandFrame c [.mem] s1 u) ∧
    (s.Starts opWrite c s1 → c.hdr.placed = true →
      s1.namedStatus d kv.1 kv.2 (repDescs (c.body.drop (1 + keyGranules d.k))) [] = none →
      rs = namedReps d (repDescs (c.body.drop (1 + keyGranules d.k))) →
      ∃ u, exec .write s = .next u ∧ (u.alloc e.ptr).count = (s1.alloc e.ptr).count + 1 ∧
        (∀ x ∈ s1.queue c.room, x.id = c.id → ∃ y ∈ u.queue c.room, y.id = c.id ∧
          y.ops = (List.range d.ncopy).flatMap (newOps d rs e kv.1 kv.2) ∧ y.adds = [rs]) ∧
        CommandFrame c [.mem] s1 u)

/-- Commands on a ternary entry at its handle (R169, R178, R184, R187 to R189): DELETE empties heads before continuations
and drops the entry's reference at the end. MOVE in an edition table lays out, copy by copy, the new rows with FIRST =
current + 1 and then the old heads with RSET set and RETIRING = current + 1, and takes a reference; it is refused with 0x27 for an
entry with RSET set and with 0x64 when its action takes no more references (R188, R217). In a direct table it empties the old
heads, writes the new rows and empties the continuations that are left. READ and SCAN wait for the maintenance slots in which they
read, a SCAN with nothing left of the table to read being answered at once. -/
def Obligations.TernaryEntries : Prop :=
  ∀ (s s1 : State) (c : MqCmd) (rs : List Replica) (r0 : Replica),
    let t := c.hdr.table
    let d := s1.view.trn t
    let old := (s1.repSide d (s1.readCopy d r0) r0).entry
    (s1.view.tbl t).kind = 0 → s1.tableStatus c (trnBad d c.hdr c.body) = none → (s1.table t).filling = [] →
    s1.entryAt t d c.hdr.addr = some rs → rs.head? = some r0 → 0 < d.ncopy →
    (s.Starts opDelete c s1 → s1.deletable c.hdr.room d.direct old.rset old.first old.retiring = true →
      ∃ u, exec .delete s = .next u ∧
        (∀ x ∈ s1.queue c.room, x.id = c.id → ∃ y ∈ u.queue c.room, y.id = c.id ∧
          y.ops = (List.range d.ncopy).flatMap (fun i => emptyHeads d rs i ++ emptyConts d rs i) ∧
          y.drops = [old.ptr] ∧ y.dels = [rs] ∧ y.adds = []) ∧ CommandFrame c [] s1 u) ∧
    (s.Starts opMove c s1 → d.direct = false → old.rset = false →
      s1.namedStatus d (s1.shadowKey d r0).1 (s1.shadowKey d r0).2 (repDescs c.body) [] = none →
      let kv := s1.shadowKey d r0
      let new := namedReps d (repDescs c.body)
      let next := s1.current c.hdr.room + 1
      (s1.ptrCheck s1.view c.hdr.room old.ptr (old.plen + 1) ≠ some 0x64 →
        ∃ u, exec .move s = .next u ∧ (u.alloc old.ptr).count = (s1.alloc old.ptr).count + 1 ∧
          (∀ x ∈ s1.queue c.room, x.id = c.id → ∃ y ∈ u.queue c.room, y.id = c.id ∧
            y.ops = (List.range d.ncopy).flatMap (fun i => newOps d new { old with first := next } kv.1 kv.2 i ++
              sideOps d rs { old with rset := true, retiring := next } i) ∧
            y.adds = [new] ∧ y.dels = [] ∧ y.drops = []) ∧ CommandFrame c [.mem] s1 u) ∧
      (s1.ptrCheck s1.view c.hdr.room old.ptr (old.plen + 1) = some 0x64 →
        ∃ u, exec .move s = .next u ∧ OnlyRecords (s1.answer c (reply 0x64 c.hdr.addr)) u ∧ CommandFrame c [] s1 u)) ∧
    (s.Starts opMove c s1 → d.direct = false → old.rset = true →
      ∃ u, exec .move s = .next u ∧ OnlyRecords (s1.answer c (reply 0x27 c.hdr.addr)) u ∧ CommandFrame c [] s1 u) ∧
    (s.Starts opRead c s1 → exec .read s = .next (s1.readNext c 0 [])) ∧
    (s.Starts opScan c s1 →
      let n := walkMax (c.src = .reg) (scanWord (c.body.headD 0)).maxrec (trnPer d)
      let start := (scanWord (c.body.headD 0)).start
      (s1.headFrom t d start = none → exec .scan s = .next (s1.answer c (walkReply (trnPer d) none []))) ∧
      (s1.headFrom t d start ≠ none → 0 < n → exec .scan s = .next (s1.readNext c start []))) ∧
    (s.Starts opWrite c s1 → c.hdr.placed = false → d.direct = false →
      keyOf d.k (c.body.drop 1) = s1.shadowKey d r0 →
      (let e := entryWord (c.body.headD 0)
       e.prio = old.prio ∧ e.first = old.first ∧ e.ptr = old.ptr ∧ e.plen = old.plen ∧
       s1.rewriteEdition c.hdr.room old.rset old.retiring e.rset e.retiring = none ∧
       s1.pointerStatus c.hdr.room (some (old.ptr, old.plen)) e.ptr e.plen = none) →
      ∃ u, exec .write s = .next u ∧
        (∀ x ∈ s1.queue c.room, x.id = c.id → ∃ y ∈ u.queue c.room, y.id = c.id ∧
          y.ops = (List.range d.ncopy).flatMap (sideOps d rs { entryWord (c.body.headD 0) with valid := old.valid })) ∧
        CommandFrame c [] s1 u) ∧
    (s.Starts opWrite c s1 → c.hdr.placed = false → d.direct = true →
      (let e := entryWord (c.body.headD 0)
       s1.pointerStatus c.hdr.room (some (old.ptr, old.plen)) e.ptr e.plen = none) →
      (keyOf d.k (c.body.drop 1) = s1.shadowKey d r0 ∨
        rewriteStatus d rs (keyOf d.k (c.body.drop 1)).1 (keyOf d.k (c.body.drop 1)).2 = none) →
      (let e := entryWord (c.body.headD 0)
       let moved := e.ptr ≠ old.ptr ∨ classOf (e.plen + 1) ≠ classOf (old.plen + 1)
       ∃ u, exec .write s = .next u ∧
        (moved → (u.alloc e.ptr).count = (s1.alloc e.ptr).count + 1) ∧ (¬ moved → u.mem = s1.mem) ∧
        (∀ x ∈ s1.queue c.room, x.id = c.id → ∃ y ∈ u.queue c.room, y.id = c.id ∧
          (moved → y.drops = [old.ptr]) ∧ (¬ moved → y.drops = []) ∧
          (keyOf d.k (c.body.drop 1) = s1.shadowKey d r0 →
            y.ops = (List.range d.ncopy).flatMap (sideOps d rs (entryWord (c.body.headD 0)))) ∧
          (keyOf d.k (c.body.drop 1) ≠ s1.shadowKey d r0 → d.k ≠ 1 →
            y.ops = (List.range d.ncopy).flatMap fun i => emptyHeads d rs i ++ newOps d rs (entryWord (c.body.headD 0))
              (keyOf d.k (c.body.drop 1)).1 (keyOf d.k (c.body.drop 1)).2 i)) ∧
        CommandFrame c [.mem] s1 u)) ∧
    (s.Starts opMove c s1 → d.direct = true →
      s1.namedStatus d (s1.shadowKey d r0).1 (s1.shadowKey d r0).2 (repDescs c.body) rs = none →
      let kv := s1.shadowKey d r0
      let new := namedReps d (repDescs c.body)
      ∃ u, exec .move s = .next u ∧
        (∀ x ∈ s1.queue c.room, x.id = c.id → ∃ y ∈ u.queue c.room, y.id = c.id ∧
          y.ops = (List.range d.ncopy).flatMap (fun i => emptyHeads d rs i ++ newOps d new old kv.1 kv.2 i ++
            emptyConts d (rs.filter fun r => !new.contains r) i) ∧
          y.adds = [new] ∧ y.dels = [rs] ∧ y.drops = []) ∧ CommandFrame c [] s1 u)

/-- Commands on a prefix table past their checks (R116, R121 to R125, R178, R189, R491): what has come to the floor settles;
then INSERT adds the entry and a reference, WRITE replaces the entry that AT names, DELETE removes those that its selector
names, and the images that are kept current follow; with the last update the references of entries that went, or of an action
that was replaced, go (R125, R216). READ and SCAN wait for the maintenance slots in which they read. Every other table stays. -/
def Obligations.PrefixCommands : Prop :=
  ∀ (s s1 : State) (c : MqCmd),
    let t := c.hdr.table
    let d := s1.view.pfx t
    let s2 := s1.pfxSettle t
    let room := c.hdr.room
    let es := (s2.table t).entries
    let cells := (s2.table t).cells
    let w := pfxEntryOf c.body
    let e := { w with record := freeRec es }
    let stored := fun (u : State) (after : List PfxEntry) (cells : List Cell) =>
      (∃ l, u.table t = { s2.pfxImages t after cells (s2.current (s1.view.tbl t).room) with late := l }) ∧ bare (u.table t).entries = bare after ∧
      (∀ j, j ≠ t → u.table j = s1.table j) ∧ CommandFrame c [.mem, .tables, .health] s1 u
    let swapped := fun (u : State) (new old : Nat) =>
      (new ≠ old → Releases c [old] (s2.addRef new) u) ∧ (new = old → u.mem = s1.mem)
    (s1.view.tbl t).kind = 1 → s1.tableStatus c (pfxBad d c.hdr c.body) = none → w.len ≤ d.w →
    (∀ after', s.Starts opInsert c s1 →
      (d.direct = true → es.find? e.same = none) →
      (d.direct = false → s2.pfxNewEdition room e = none ∧ (∀ x ∈ es, e.same x = true → e.overlaps x = false) ∧
        s2.pfxPending t e (es ++ [e]) es = false) →
      s2.ptrCheck s2.view room e.ptr (e.plen + 1) = none → s2.pfxFull d e = false → s2.cellsFor t e = some after' →
      ∃ u, exec .insert s = .next u ∧ stored u (es ++ [e]) after' ∧
        (u.alloc e.ptr).count = (s1.alloc e.ptr).count + 1) ∧
    (s.Starts opInsert c s1 → d.direct = true → ∀ old, es.find? e.same = some old →
      s2.pointerStatus room (some (old.ptr, old.plen)) e.ptr e.plen = none →
      ∃ u, exec .insert s = .next u ∧
        stored u (putEntry { e with record := old.record, recs := old.recs } es) cells ∧ swapped u e.ptr old.ptr) ∧
    (∀ old l, s2.pfxNamed t room w 0 (BitVec.ofNat 16 c.hdr.addr) = old :: l →
      (s.Starts opWrite c s1 → d.direct = true →
        s2.pointerStatus room (some (old.ptr, old.plen)) w.ptr w.plen = none →
        ∃ u, exec .write s = .next u ∧
          stored u (putEntry { w with record := old.record, recs := old.recs } es) cells ∧ swapped u w.ptr old.ptr) ∧
      (s.Starts opWrite c s1 → d.direct = false →
        (let e := { w with record := old.record, recs := old.recs, valid := old.valid }
         s2.pfxRewrite room old e = none ∧
         (∀ x ∈ es, x.record ≠ e.record → e.same x = true → e.overlaps x = false) ∧
         s2.pointerStatus room (some (old.ptr, old.plen)) e.ptr e.plen = none ∧
         s2.pfxPending t e (putEntry e es) (if old.rset then putEntry { old with rset := false } es else es) = false) →
        ∃ u, exec .write s = .next u ∧
          stored u (putEntry { w with record := old.record, recs := old.recs, valid := old.valid } es) cells ∧
          u.mem = s1.mem) ∧
      (s.Starts opRead c s1 → exec .read s = .next (s2.readNext c 0 []))) ∧
    (s.Starts opDelete c s1 →
      let gone := s2.pfxNamed t room w (bits c.hdr.addr 31 30) (BitVec.ofNat 16 c.hdr.addr)
      let after := es.filter fun x => !gone.contains x
      (gone ≠ [] ∨ bits c.hdr.addr 31 30 = 1) →
      (∀ x ∈ gone, s2.deletable room d.direct x.rset x.first x.retiring = true) →
      (d.direct = true ∨ (∀ x ∈ gone, s2.later room x.first = false) ∨ s2.pfxPending t w after after = false) →
      ∃ u, exec .delete s = .next u ∧ stored u after (d.cellsOf cells after) ∧ Releases c (gone.map (·.ptr)) s2 u) ∧
    (s.Starts opScan c s1 →
      let start := (scanWord (c.body.headD 0)).start
      (s2.recFrom t d start = none → exec .scan s = .next (s2.answer c (walkReply 7 none []))) ∧
      (s2.recFrom t d start ≠ none → exec .scan s = .next (s2.readNext c start [])))

/-- Commands on an exact-match table past their checks (R154, R155, R158, R165, R178): INSERT and a WRITE of an absent key
write the entry at the place of R158, or at the slot named, in every copy with fresh stamps; a WRITE of a present key rewrites
its heads where they stand; DELETE clears it, unless its age is below the guard; with the last update the reference of the DATA
that went goes (R216). MOVE carries it, its tail in a double slot too, with its stamps to the position named; READ and SCAN wait for the maintenance slots in which they read. No slot of another position changes. -/
def Obligations.ExactCommands : Prop :=
  ∀ (s s1 : State) (c : MqCmd),
    let t := c.hdr.table
    let d := s1.view.em t
    let k := d.bodyKey c.body
    let hd := c.body.headD 0
    let head := d.head true (slotStatic hd) false (slotData hd) k
    (s1.view.tbl t).kind = 2 → s1.tableStatus c (emBad d c.hdr c.body) = none → s1.copyFilling t = false →
    (∀ i, s1.emFind d (d.owner 0 k) k = none → s1.dataStatus d c.hdr.room none (slotData hd) = none →
      let written := fun (u : State) =>
        u.emStands d k i head ∧ u.stamp i = s1.freshStamp false ∧
        (∀ j, j ∉ d.slotsOf k i → u.emSlot j = s1.emSlot j) ∧ (∀ j, j ≠ i → u.stamp j = s1.stamp j) ∧
        (d.inline = false → (u.alloc (slotData hd / 4)).count = (s1.alloc (slotData hd / 4)).count + 1) ∧
        CommandFrame c [.mem, .em, .health] s1 u
      (s1.emPlace d k = some i →
        (s.Starts opInsert c s1 → ∃ u, exec .insert s = .next u ∧ written u) ∧
        (s.Starts opWrite c s1 → c.hdr.byaddr = false → ∃ u, exec .write s = .next u ∧ written u)) ∧
      (s.Starts opWrite c s1 → c.hdr.byaddr = true → c.hdr.addr = i → i ∈ d.candidates (d.owner 0 k) k →
        slotValid (s1.emSlot i) = false → ∃ u, exec .write s = .next u ∧ written u)) ∧
    (∀ i, s.Starts opWrite c s1 → (c.hdr.byaddr = false ∨ c.hdr.addr = i) → s1.emFind d (d.owner 0 k) k = some i →
      s1.dataStatus d c.hdr.room (some (slotData (s1.emSlot i))) (slotData hd) = none →
      ∃ u, exec .write s = .next u ∧ u.em.stamps = s1.em.stamps ∧
        (∀ n, n < d.ncopy → u.emSlot (moveSlice i (d.owner n k)) = head) ∧
        (∀ j, (∀ n, n < d.ncopy → j ≠ moveSlice i (d.owner n k)) → u.emSlot j = s1.emSlot j) ∧
        (let old := slotData (s1.emSlot i)
         (d.inline = false → slotData hd / 4 ≠ old / 4 → Releases c [old / 4] (s1.addRef (slotData hd / 4)) u) ∧
         ((d.inline = true ∨ slotData hd / 4 = old / 4) → u.mem = s1.mem)) ∧
        CommandFrame c [.mem, .em, .health] s1 u) ∧
    (∀ i, s.Starts opDelete c s1 → s1.emNamed c d = .ok i →
      let s2 := s1.soundStamp i
      let age := s2.guardAge (stampLast (s2.stamp i))
      (c.hdr.aux ≤ age →
        ∃ u, exec .delete s = .next u ∧
          (∀ n, n < d.ncopy → u.emSlot (moveSlice i (d.owner n (s1.slotKey d i))) = 0 ∧
            (d.wide = true → u.emSlot (moveSlice i (d.owner n (s1.slotKey d i)) + 1) = 0)) ∧
          (d.inline = false → Releases c [slotData (s1.emSlot i) / 4] s2 u) ∧ (d.inline = true → u.mem = s1.mem) ∧
          (∀ j, j ∉ d.slotsOf (s1.slotKey d i) i → u.emSlot j = s1.emSlot j) ∧
          u.em.stamps = s2.em.stamps ∧ CommandFrame c [.mem, .em, .health] s1 u) ∧
      (age < c.hdr.aux →
        ∃ u, exec .delete s = .next u ∧ u.em = s2.em ∧ OnlyRecords (s2.answer c (reply 0x45 i)) u)) ∧
    (∀ i, s.Starts opMove c s1 → s1.emFind d (d.owner 0 k) k = some i →
      c.hdr.addr ∈ d.candidates (d.owner 0 k) k → slotValid (s1.emSlot c.hdr.addr) = false →
      let s2 := s1.soundStamp i
      ∃ u, exec .move s = .next u ∧ u.stamp c.hdr.addr = s2.stamp i ∧
        (∀ n, n < d.ncopy → u.emSlot (moveSlice c.hdr.addr (d.owner n k)) = s1.emSlot i ∧
          u.emSlot (moveSlice i (d.owner n k)) = 0 ∧
          (d.wide = true → u.emSlot (moveSlice c.hdr.addr (d.owner n k) + 1) = s1.emSlot (i + 1) ∧
            u.emSlot (moveSlice i (d.owner n k) + 1) = 0)) ∧
        (∀ j, j ∉ d.slotsOf k i → j ∉ d.slotsOf k c.hdr.addr → u.emSlot j = s1.emSlot j) ∧
        (∀ j, j ≠ c.hdr.addr → u.stamp j = s2.stamp j) ∧
        u.mem = s1.mem ∧ CommandFrame c [.em, .health] s1 u) ∧
    (s.Starts opRead c s1 → exec .read s = .next (s1.readNext c 0 [])) ∧
    (s.Starts opScan c s1 →
      (d.from_ (emScan hd).start = none → exec .scan s = .next (s1.answer c (walkReply d.per none []))) ∧
      (d.from_ (emScan hd).start ≠ none → exec .scan s = .next (s1.readNext c (emScan hd).start [])))

/-- ALLOC and FREE (R206, R211 to R214): ALLOC past its checks takes the lowest free run, or the one named, with HOLD set
and COUNT 0; FREE by the free path clears HOLD and, with COUNT 0, frees the blocks; the owner path frees an
unreferenced allocation of its owner. Every other allocation record stays; a refused ALLOC changes none.
FREE ends its cycle (log 84). RELEASE_WAIT_END: a released allocation gives its blocks back once every instruction that it
waits for has sent its last granule (R214). -/
def Obligations.PoolCommands : Prop :=
  (∀ (s s1 : State) (c : MqCmd),
      let n := c.hdr.table % 64
      let d := s1.view.pool n
      let w := poolWord (c.body.headD 0)
      s1.poolStatusOf c = none →
      (s.Starts opAlloc c s1 → s1.allocStatus n w = none →
        let b := if w.atEn then w.index else (s1.freeRun d (2 ^ w.cls.toNat)).getD 0
        ∃ u, exec .alloc s = .next u ∧ u.alloc b = ⟨true, true, w.cls, 0, w.owner⟩ ∧ (∀ j, j ≠ b → u.alloc j = s1.alloc j) ∧
          u.mem.releasing = s1.mem.releasing ∧ CommandFrame c [.mem, .health] s1 u) ∧
      (∀ st, s.Starts opAlloc c s1 → s1.allocStatus n w = some st → c.room < 16 →
        ∃ u, exec .alloc s = .next u ∧ u.mem = s1.mem ∧ u.reg .poolRefused n = wrapAdd 32 (s1.reg .poolRefused n) 1 ∧
          CommandFrame c [] s1 u) ∧
      (s.Starts opFree c s1 → (s1.alloc w.index).allocated = true → (s1.alloc w.index).cls = w.cls →
        d.holds w.index (s1.alloc w.index).blocks = true → s1.frozen w.index = false →
        (d.owner = false → (s1.alloc w.index).hold = true →
          ∃ u, exec .free s = .next u ∧ (u.alloc w.index).hold = false ∧
            (u.alloc w.index).allocated = decide ((s1.alloc w.index).count ≠ 0) ∧
            (∀ j, j ≠ w.index → u.alloc j = s1.alloc j) ∧ u.now = s1.now + 1 ∧ CommandFrame c [.now, .mem] s1 u) ∧
        (d.owner = true → (s1.alloc w.index).owner = w.owner → (s1.alloc w.index).count = 0 →
          ∃ u, exec .free s = .next u ∧ (u.alloc w.index).allocated = false ∧
            (∀ j, j ≠ w.index → u.alloc j = s1.alloc j) ∧ u.now = s1.now + 1 ∧ CommandFrame c [.now, .mem] s1 u))) ∧
  (∀ (s : State) (b : BitVec 22) (r : Releasing),
      (s.mem.releasing.find? fun x => decide (x.block = b.toNat)) = some r →
      (∀ id ∈ r.waits, s.unsent id = false) →
      ∃ u, exec (.releaseWaitEnd b) s = .next u ∧ u.mem.releasing = s.mem.releasing.filter (fun x => x ≠ r) ∧
        s.now ≤ u.now ∧ (∀ id ∈ r.waits, s.lastGranule id ≤ u.now) ∧
        u.mem.allocs = s.mem.allocs ∧ u.mem.ads = s.mem.ads ∧ u.mem.carrel = s.mem.carrel ∧
        Touches [.now, .regs, .mem] s u) ∧
  (∀ (s : State) (b : BitVec 22) (r : Releasing), (s.mem.releasing.find? fun x => decide (x.block = b.toNat)) = some r →
      (∃ id ∈ r.waits, s.unsent id = true) → exec (.releaseWaitEnd b) s = .next s)

/-- ADVANCE past its checks (R34, R136, R182, R190): the room's current edition goes up by one with the next cycle, what intake
took keeps its edition, requested mode switches take the new one, and every port of ED_NOTIFY gets the notice; a command that
fails a check changes no edition. Editions of other rooms stay. The cycle is the model's choice (log 78). -/
def Obligations.AdvanceCommand : Prop :=
  ∀ (s s1 : State) (c : MqCmd), s.Starts opAdvance c s1 →
    let r := c.hdr.room
    let e := s1.current r + 1
    (c.hdr.plain = true → c.body = [] → c.room = r → c.hdr.aux = (s1.current r).toNat →
      (e - BitVec.ofNat 16 (s1.reg .edMark r)).toNat < 12288 →
      ∃ u, exec .advance s = .next u ∧ u.current r = e ∧ u.now = s1.now + 1 ∧ u.search = s1.search ∧
        (∀ t h, t ∈ s1.view.tablesOf 1 → (s1.view.tbl t).room = r → (s1.table t).switch = .requested h →
          (u.table t).switch = .unsettled h e ∧ (u.table t).hash = h) ∧
        (∀ t, (s1.view.tbl t).room ≠ r → u.table t = s1.table t) ∧
        (∀ p, p < 32 → nbit (s1.reg .edNotify r) p = true → (s1.port p).keeps = true →
          (u.port p).tx3 = (s1.port p).tx3 ++ [⟨u.editionFrame r 1 c.hdr.ctag, .none⟩]) ∧
        RegsBut (Obj.edCurrent.key r :: ((List.range 32).map fun p => Obj.portTxDiscard.key p) ++ answerKeys c) s1 u ∧
        Touches [.now, .regs, .arb, .tables, .ports] s1 u) ∧
    (∀ st, s1.advanceStatus c = some st → ∃ u, exec .advance s = .next u ∧ CommandFrame c [] s1 u)

/-- EDITION_FLOOR (R192): when a room's floor differs from its last FLOOR notice, a notice goes to every port of
ED_NOTIFY, no sooner than 1 µs after the last; otherwise nothing happens. A visit of the clamp sweep (R193): FIRST 4,096 or
more behind the floor becomes the floor, and then RETIRING, if set and at or before the floor, too; else both stay.
CLAMP_PASS_END (R194): once the pass has been to every head side word of the edition ternary tables, ED_MARK of every room takes
the floor it had when the pass began, and the next pass begins; before that nothing happens. The records of edition prefix
tables are visited at the end of the pass, and the pass waits for a held die that keeps any: the model's choice (log 30). -/
def Obligations.FloorsAndClamps : Prop :=
  (∀ (s : State) (room : Fin 16),
      let f := s.floor room
      let last := sget (fun _ => 0) s.ed.lastFloor room
      (f = sget (fun _ => (0 : BitVec 16)) s.ed.notified room → exec (.editionFloor room) s = .next s) ∧
      (f ≠ sget (fun _ => (0 : BitVec 16)) s.ed.notified room →
        ∃ u, exec (.editionFloor room) s = .next u ∧
          u.now = max s.now (if last = 0 then 0 else last - 1 + Config.usec) ∧
          sget (fun _ => (0 : BitVec 16)) u.ed.notified room = f ∧
          (∀ r, r ≠ room.val → sget (fun _ => (0 : BitVec 16)) u.ed.notified r = sget (fun _ => 0) s.ed.notified r) ∧
          (∀ p, p < 32 → nbit (s.reg .edNotify room) p = true → (s.port p).keeps = true →
            (u.port p).tx3 = (s.port p).tx3 ++ [⟨u.editionFrame room 2 0, .none⟩]) ∧
          RegsBut ((List.range 32).map fun p => Obj.portTxDiscard.key p) s u ∧ Touches [.now, .regs, .ed, .ports] s u)) ∧
  (∀ (f first retiring : Edition) (rset : Bool),
      (edLe first f = true → 4096 ≤ (f - first).toNat →
        clampStamps f rset first retiring = (f, if rset = true ∧ edLe retiring f = true then f else retiring)) ∧
      ((edLe first f = false ∨ (f - first).toNat < 4096) → clampStamps f rset first retiring = (first, retiring))) ∧
  (∀ s : State,
      ((∃ t ∈ s.view.tablesOf 0, s.headsLeft t = true) ∨ (∃ t ∈ s.view.tablesOf 1, s.recsHeld t = true) →
        exec .clampPassEnd s = .next s) ∧
      ((∀ t ∈ s.view.tablesOf 0, s.headsLeft t = false) → (∀ t ∈ s.view.tablesOf 1, s.recsHeld t = false) →
        ∃ u, exec .clampPassEnd s = .next u ∧
          (∀ r, r < 16 → u.reg .edMark r = (sget (fun _ => (0 : BitVec 16)) s.ed.passFloors r).toNat ∧
            sget (fun _ => (0 : BitVec 16)) u.ed.passFloors r = s.floor r) ∧
          u.ed.clampPos = [] ∧ u.ed.notified = s.ed.notified ∧ u.ed.lastFloor = s.ed.lastFloor ∧
          (∀ t, t ∈ s.view.tablesOf 1 → (s.view.pfx t).direct = false →
            (u.table t).entries = (s.table t).entries.map fun e =>
              let y := clampStamps (s.floor (s.view.tbl t).room) e.rset e.first e.retiring
              { e with first := y.1, retiring := y.2 }) ∧
          (∀ t, t ∉ s.view.tablesOf 1 ∨ (s.view.pfx t).direct = true → u.table t = s.table t) ∧
          RegsBut ((List.range 16).map fun r => Obj.edMark.key r) s u ∧ Touches [.regs, .ed, .tables] s u))

/-- MAINT_SLOT (R102, R107, R178, R184, R193, R198, R445, R446): the unit's next maintenance slot, in its cycle. A slot lost to
a lookup under the old rota takes no number. Any other goes to collation's repair of the slot before, else to the first
claimant with work; within table commands a row operation, then a row of a copy fill, then a READ or SCAN, which on a bay waits
for the repair of a word that it would read: the model's choices (logs 104, 105). A row operation writes its row and no other;
the last one ends its command. A row of a copy fill is written in the appended copy. A READ answers what its entry holds, or
that it is uncorrectable; a SCAN goes on past what it read. Shelf-reading's slot empties the next row of an entry that is lost,
else repairs a side word, else makes a step of its test (R441, R444). Collation compares a row with its shadow; a mismatch is
counted, rewritten in the next slot and read again in the one after. The clamp sweep visits its next row, and moves FIRST and
RETIRING of a head of an edition table, and of no other row, as R193 says. -/
def Obligations.MaintSlots : Prop :=
  ∀ (s : State) (unit : Fin 76) (x : RowFinding) (cyc : Nat),
    s.catalogueUp = true → s.dieHeld (dieOfUnit unit) = false → s.nextSlot unit = some cyc →
    let i := Instr.maintSlot unit x
    let l := unit.val
    let s0 := (s.at cyc).catchUpSlot
    let s1 := s.inSlot l cyc
    let n := sget (fun _ => 0) s0.bays.slotNo l
    let b := if l < 64 then s1.view.phys l else none
    let fix := sget (fun _ => 0) s1.health.colFix l
    let shadowAt := fun (u : State) (m r : Nat) => sget (fun _ => (0 : BitVec 160)) u.bays.shadow (rowKey l m r)
    let goes := fun (k : Claimant) =>
      s0.slotLost l cyc = false ∧ (fix = 0 ∨ b = none) ∧ (unitClaimants l n).find? (s1.hasWork l b) = some k
    let wrote := fun (o : RowOp) (u : State) =>
      (∀ a, o.atom = some a → shadowAt u o.mat o.row = a) ∧
      (∀ p, s1.view.phys l = some p →
        (∀ a, o.atom = some a → u.atom (rowKey p o.mat o.row) = a) ∧
        (∀ w, o.side = some w → u.sideWord (rowKey p o.mat o.row) = w)) ∧
      (∀ k, (∀ p, s1.view.phys l = some p → k ≠ rowKey p o.mat o.row) → u.atom k = s1.atom k ∧ u.sideWord k = s1.sideWord k) ∧
      (∀ k, k ≠ rowKey l o.mat o.row → sget (fun _ => (0 : BitVec 160)) u.bays.shadow k = sget (fun _ => 0) s1.bays.shadow k)
    (s0.slotLost l cyc = true → ∃ u, RunsTo i s u ∧ u.bays.slotNo = s0.bays.slotNo ∧
      sget (fun _ => 0) u.bays.slotAt l = cyc + 1 ∧ Touches [.bays] s0 u) ∧
    (s0.slotLost l cyc = false → (fix = 0 ∨ b = none) → (unitClaimants l n).find? (s1.hasWork l b) = none → RunsTo i s s1) ∧
    (∀ c o rest, goes .table → s1.opOn l = some (c, o, rest) →
      ∃ u, RunsTo i s u ∧ wrote (s1.freshOp c.hdr.table o) u ∧
        (rest = [] → c.adds = [] → c.dels = [] → u.tables = s1.tables) ∧
        (rest = [] → (c.adds ≠ [] ∨ c.dels ≠ []) → (u.table c.hdr.table).placed =
          ((s1.table c.hdr.table).placed.filter fun e => !c.dels.contains e) ++ c.adds) ∧
        (rest ≠ [] → Touches [.bays, .arb, .health] s1 u) ∧
        Touches [.bays, .arb, .health, .tables, .mem, .regs, .ports] s1 u) ∧
    (∀ t p o, goes .table → s1.opOn l = none → s1.fillOn l = some (t, p, o) →
      ∃ u, RunsTo i s u ∧ wrote o u ∧ sget (fun _ => 0) (u.table t).fillPos l = p + 1 ∧
        (∀ j, j ≠ t → u.table j = s1.table j) ∧ Touches [.bays, .health, .tables] s1 u) ∧
    (∀ c cur, goes .table → s1.opOn l = none → s1.fillOn l = none → s1.readOn l = some (c, cur) → x.sideBad = true → l < 64 →
      RunsTo i s (((s1.visitWord l c cur).map s1.foundUncorr).getD s1)) ∧
    (∀ c cur, goes .table → s1.opOn l = none → s1.fillOn l = none → s1.readOn l = some (c, cur) → x.sideBad = false →
      let s2 := s1.setCmd { c with cursor := none }
      let v := s1.view
      let t := c.hdr.table
      let room := c.hdr.room
      RunsTo i s (s1.visit c cur) ∧
      (c.hdr.op = opRead → (v.tbl t).kind = 0 → ∀ r0 rs, s1.entryAt t (v.trn t) c.hdr.addr = some (r0 :: rs) →
        let d := v.trn t
        let kv := s1.shadowKey d r0
        s1.visit c cur = s2.answer c ⟨0, 0, false, [(0, (s1.repSide d (s1.readCopy d r0) r0).entry.image c.hdr.addr ::
          (keyImage d.k kv.1 kv.2 ++ placementImage d (r0 :: rs)))]⟩) ∧
      (c.hdr.op = opScan → (v.tbl t).kind = 0 → ∀ h r0 rs h2, s1.headFrom t (v.trn t) cur = some (h, r0 :: rs) →
        s1.headFrom t (v.trn t) (h + 1) = some h2 →
        let d := v.trn t
        let w := scanWord (c.body.headD 0)
        let e := (s1.repSide d (s1.readCopy d r0) r0).entry
        let kv := s1.shadowKey d r0
        (s1.scanMatch room w.by_ d.direct e.rset e.first e.retiring = false →
          c.found.length < walkMax (c.src = .reg) w.maxrec (trnPer d) → s1.visit c cur = s2.readNext c (h + 1) c.found) ∧
        (s1.scanMatch room w.by_ d.direct e.rset e.first e.retiring = true →
          c.found.length + 1 < walkMax (c.src = .reg) w.maxrec (trnPer d) → s1.visit c cur =
            s2.readNext c (h + 1) (c.found ++ [(h, e.image h :: keyImage d.k kv.1 kv.2)]))) ∧
      (c.hdr.op = opRead → (v.tbl t).kind = 1 → ∀ e rest,
        s1.pfxNamed t room (pfxEntryOf c.body) 0 (BitVec.ofNat 16 c.hdr.addr) = e :: rest →
        (s1.recLost t (v.pfx t) e = true → s1.visit c cur = s2.refuse c 0x36 0) ∧
        (s1.recLost t (v.pfx t) e = false → s1.visit c cur = s2.answer c ⟨0, 0, false, [(0, e.image)]⟩)) ∧
      (c.hdr.op = opRead → (v.tbl t).kind = 2 → ∀ j, s1.emNamed c (v.em t) = .ok j →
        s1.visit c cur = s2.answer c ⟨0, 0, false,
          [(0, s1.emSlot j :: (if (v.em t).wide then [s1.emSlot (j + 1)] else []))]⟩)) ∧
    (∀ r o rest, goes .shelf → s1.removalOn l = some (r, o, rest) →
      ∃ u, RunsTo i s u ∧ wrote o u ∧ (rest ≠ [] → Touches [.bays, .health] s1 u) ∧
        (rest = [] → ∀ k, (u.alloc k).count = (s1.alloc k).count - if k = r.ptr then 1 else 0) ∧
        Touches [.bays, .health, .mem, .regs] s1 u) ∧
    (∀ p q, goes .shelf → s1.removalOn l = none → s1.sideDue l b = some (p, q) →
      ∃ u, RunsTo i s u ∧ (⟨.side, p, q⟩ : MemWord) ∉ u.health.poison ∧ u.bays.atoms = s1.bays.atoms ∧
        (∀ k, k ≠ rowKey p (q / 1024) (q % 1024) → u.sideWord k = s1.sideWord k)) ∧
    (goes .shelf → s1.removalOn l = none → s1.sideDue l b = none → ∃ u, RunsTo i s u ∧ u.srLeft l + 1 = s1.srLeft l ∧
      (∀ j, j ≠ l → u.srLeft j = s1.srLeft j) ∧ Touches [.health] s1 u) ∧
    (∀ p0, goes .collation → b = some p0 → x.flip = 0 → x.shadowBad = false →
      let p := s1.colAt l
      let at_ := rowKey p0 (p / 1024) (p % 1024)
      p + 1 < 36864 →
      (s1.atom at_ = shadowAt s1 (p / 1024) (p % 1024) →
        ∃ u, RunsTo i s u ∧ u.colAt l = p + 1 ∧ u.bays = s1.bays ∧ Touches [.health] s1 u) ∧
      (s1.atom at_ ≠ shadowAt s1 (p / 1024) (p % 1024) → sget (fun _ => 0) s1.health.colBad p0 + 1 < 16 →
        ∃ u, RunsTo i s u ∧ u.colAt l = p + 1 ∧ u.bays = s1.bays ∧
          sget (fun _ => 0) u.health.colFix l = 2 * p + 1 ∧ u.reg .colMismatch = wrapAdd 32 (s1.reg .colMismatch) 1 ∧
          RegsBut [Obj.colMismatch.key] s1 u ∧ Touches [.regs, .health] s1 u)) ∧
    (∀ p0 q, s0.slotLost l cyc = false → b = some p0 → fix = 2 * q + 1 → x.stuck = false →
      ∃ u, RunsTo i s u ∧ sget (fun _ => 0) u.health.colFix l = 2 * q + 2 ∧
        u.atom (rowKey p0 (q / 1024) (q % 1024)) = shadowAt s1 (q / 1024) (q % 1024) ∧
        (∀ k, k ≠ rowKey p0 (q / 1024) (q % 1024) → u.atom k = s1.atom k) ∧ Touches [.bays, .health] s1 u) ∧
    (∀ p0 q, s0.slotLost l cyc = false → b = some p0 → fix = 2 * q + 2 → x.flip = 0 →
      s1.atom (rowKey p0 (q / 1024) (q % 1024)) = shadowAt s1 (q / 1024) (q % 1024) →
      ∃ u, RunsTo i s u ∧ sget (fun _ => 0) u.health.colFix l = 0 ∧ u.bays = s1.bays ∧ Touches [.health] s1 u) ∧
    (∀ p0, goes .clamp → b = some p0 → x.sideBad = false →
      let q := s1.clampAt l
      let k := rowKey p0 (q / 1024) (q % 1024)
      let w := sideOf (s1.sideWord k)
      ∃ u, RunsTo i s u ∧ u.clampAt l = q + 1 ∧ u.bays.atoms = s1.bays.atoms ∧
        (∀ j, j ≠ k → u.sideWord j = s1.sideWord j) ∧
        (s1.headRoom l (q / 1024) (q % 1024) = none → u.sideWord k = s1.sideWord k) ∧
        (∀ room, s1.headRoom l (q / 1024) (q % 1024) = some room → w.role = 1 →
          s1.poisoned .side p0 (q / 1024 * 1024 + q % 1024) = false →
          let y := clampStamps (s1.floor room) w.rset w.first w.retiring
          u.sideWord k = if y = (w.first, w.retiring) then s1.sideWord k
            else Side.image { w with first := y.1, retiring := y.2 }) ∧
        Touches [.bays, .ed] s1 u)

/-- PFX_MODE_REQ (R135, R136, R138, R387): BUILD_TRIE and BUILD_HASH start a build of an image that is neither READY nor under
build; TRIE and HASH request a switch to the other mode when its image is READY and the rota serves both modes; the mode
already in force is accepted without effect; all else is refused and changes nothing. PFX_BUILD_DONE and PFX_BUILD_FAIL (R135,
R138, R452): the end of a build makes its image READY, a trie's without marks or fault; a build that needs units, places or
banks it cannot have stops and its image is released. PFX_SETTLE (R124, R137): the answer words whose SW has come to the floor
settle, and a switch that settles ends, a hash image that is not kept being released when the table is a trie again; when
nothing has come to the floor, nothing happens. Entries and other tables stay. -/
def Obligations.PrefixModes : Prop :=
  (∀ (s : State) (m : Master) (t : Fin 256), s.CanWrite m .pfxModeReq t →
      let tb := s.table t
      let isPfx := (s.view.tbl t).present = true ∧ (s.view.tbl t).kind = 1
      let all := [(Instr.buildTrie m t, 1), (.buildHash m t, 2), (.trie m t, 3), (.hash m t, 4)]
      (¬ isPfx → ∀ x ∈ all, Writes x.1 s m .pfxModeReq t Ab.range s) ∧
      (isPfx → tb.switch ≠ .none → ∀ x ∈ all, Writes x.1 s m .pfxModeReq t Ab.modeBusy s) ∧
      (isPfx → tb.switch = .none →
        (∀ x ∈ [(Instr.buildTrie m t, false), (.buildHash m t, true)],
          (tb.ready x.2 = true ∨ tb.building x.2 = true → Writes x.1 s m .pfxModeReq t Ab.modeBusy s) ∧
          (tb.ready x.2 = false → tb.building x.2 = false → ∃ u, Writes x.1 s m .pfxModeReq t 0 u ∧
            (u.table t).building x.2 = true ∧ (u.table t).ready x.2 = false ∧
            (u.table t).building (!x.2) = tb.building (!x.2) ∧ (u.table t).ready (!x.2) = tb.ready (!x.2) ∧
            (u.table t).hash = tb.hash ∧ bare (u.table t).entries = bare tb.entries ∧
            (∀ j, j ≠ t.val → u.table j = s.table j) ∧ Touches [.tables, .health] s u)) ∧
        (∀ x ∈ [(Instr.trie m t, false), (.hash m t, true)],
          (tb.hash = x.2 → Writes x.1 s m .pfxModeReq t 0 s) ∧
          (tb.hash ≠ x.2 → tb.ready x.2 = false → Writes x.1 s m .pfxModeReq t Ab.modeNotReady s) ∧
          (tb.hash ≠ x.2 → tb.ready x.2 = true → s.bothServed t = false → Writes x.1 s m .pfxModeReq t Ab.modeRota s) ∧
          (tb.hash ≠ x.2 → tb.ready x.2 = true → s.bothServed t = true →
            Writes x.1 s m .pfxModeReq t 0 (s.setTable t { tb with switch := .requested x.2 }))))) ∧
  (∀ (s : State) (t : Fin 256) (h : Bool),
      let room := (s.view.tbl t).room
      let room1 := (s.catchUp.view.tbl t).room
      let under := if h then (s.table t).buildingHash else (s.table t).buildingTrie
      let s1 := s.catchUp.pfxSettle t
      (under = false → exec (.pfxBuildDone ⟨t, h⟩) s = .next s) ∧
      (under = true →
        (s1.buildOver t h = [] → s1.buildDead t h = [] → s1.buildWaits t h = false → s1.buildTwice t h = false →
          ∃ u, exec (.pfxBuildDone ⟨t, h⟩) s = .next u ∧
            (h = true → (u.table t).buildingHash = false ∧ (u.table t).trieReady = (s1.table t).trieReady) ∧
            (h = false → (u.table t).buildingTrie = false ∧ (u.table t).trieReady = true ∧ (u.table t).trieFault = false ∧
              (∀ w ∈ u.health.poison, w.kind = .trieNode ∨ w.kind = .trieAnswer → (pfxWord w).1 ≠ t)) ∧
            (h = true → (u.table t).hashReady = true) ∧
            bare (u.table t).entries = bare (s1.table t).entries ∧
            (s1.ringOpen room1 → u.recorded room1 .pfxBuildDone) ∧ (∀ j, j ≠ t.val → u.table j = s1.table j) ∧
            Touches [.tables, .health] s1 u) ∧
        (∀ (bank : Bool) (sl : Fin 4),
          sl.val ∈ (if bank then s.buildDead t h else s.buildOver t h) →
          ∃ u, exec (.pfxBuildFail ⟨t, h⟩ bank sl) s = .next u ∧
            (h = true → (u.table t).buildingHash = false ∧ (u.table t).cells = [] ∧ (u.table t).filter = [] ∧
              (u.table t).hashHeld = false ∧ (u.table t).nodes = (s.table t).nodes ∧ (u.table t).leaves = (s.table t).leaves) ∧
            (h = false → (u.table t).buildingTrie = false ∧ (u.table t).nodes = [] ∧ (u.table t).leaves = [] ∧
              (u.table t).cells = (s.table t).cells) ∧
            (u.table t).entries = (s.table t).entries ∧
            (u.table t).trieReady = (s.table t).trieReady ∧ (s.ringOpen room → u.recorded room .pfxBuildFail) ∧
            (∀ j, j ≠ t.val → u.table j = s.table j) ∧ Touches [.tables, .health] s u))) ∧
  (∀ (s : State) (t : Fin 256),
      let s1 := s.catchUp
      let room := (s1.view.tbl t).room
      let f := s1.floor room
      let sws := (s1.table t).pendingSw.map Prod.fst
      let due := sws.filter fun c => edLe c f
      let swDue := fun (h : Bool) => ∃ e, (s1.table t).switch = .unsettled h e ∧ edLe e f = true
      ((s1.view.tbl t).kind ≠ 1 ∨ (due = [] ∧ ∀ h, ¬ swDue h) → exec (.pfxSettle t) s = .next s1) ∧
      ((s1.view.tbl t).kind = 1 → (due ≠ [] ∨ ∃ h, swDue h) →
        ∃ u, exec (.pfxSettle t) s = .next u ∧
          (∀ c ∈ (u.table t).pendingSw, edLe c.1 f = false) ∧
          (u.table t).leaves = ((s1.table t).leaves.map fun r => { r with answer := r.answer.settle f }).filter
            (fun r => r.answer.answers) ∧
          (∀ h, swDue h → (u.table t).switch = .none ∧
            (h = false → (s1.view.pfx t).keep = false → (u.table t).cells = [] ∧ (u.table t).hashReady = false)) ∧
          ((∀ h, ¬ swDue h) → (u.table t).switch = (s1.table t).switch) ∧
          (u.table t).entries = (s1.table t).entries ∧ (u.table t).hash = (s1.table t).hash ∧
          (((due ≠ [] ∧ due.length = sws.length) ∨ ∃ h, swDue h) → s1.ringOpen room → u.recorded room .pfxSettled) ∧
          (∀ j, j ≠ t.val → u.table j = s1.table j) ∧ Touches [.tables, .health] s1 u))

/-- BANK_TEST_REQUEST and BANK_TEST (R139, R452): a bank with an uncorrectable word that no table needs is taken out of
service for its test, and tries with nodes in it lose them on its slice; while a table needs it the request is refused and
recorded; the bank comes back empty, or is dead when beyond repair. The nodes and leaves that a table loses, its trie being
READY no more, are the model's choice (log 40), and so are the failing rows that a test with repair replaces (log 39). A bank without a bad word is not asked for. COPY_FILL_DONE (R82, R113, R142): when nothing holds
the fill up, the copies of the table that were filling are complete; an exact-match copy then holds every entry of
copy 0 at its way, bucket and slot. No other table changes. -/
def Obligations.BanksAndCopies : Prop :=
  (∀ (s : State) (sl : Fin 4) (lv : Fin 12),
      let b := (sl.val, lv.val)
      let bad := ∃ w ∈ s.health.poison, bankOf w = some b
      ((¬ bad ∨ b ∈ s.pfx.testing ∨ b ∈ s.pfx.dead) → exec (.bankTestRequest sl lv) s = .next s) ∧
      (bad → b ∉ s.pfx.testing → b ∉ s.pfx.dead →
        (s.bankUser b = none →
          ∃ u, exec (.bankTestRequest sl lv) s = .next u ∧ u.pfx.testing = s.pfx.testing ++ [b] ∧ u.pfx.dead = s.pfx.dead ∧
            (∀ t, t ∈ s.inBank b → (u.table t).trieReady = false ∧ (u.table t).entries = (s.table t).entries ∧
              (u.table t).cells = (s.table t).cells ∧
              (u.table t).nodes = ((s.table t).nodes.filter fun n => n.slice ≠ sl.val ∧ (u.table t).trieKept = true) ∧
              (u.table t).leaves = ((s.table t).leaves.filter fun r => r.slice ≠ sl.val ∧ (u.table t).trieKept = true)) ∧
            (∀ t, t ∉ s.inBank b → u.table t = s.table t) ∧ Touches [.now, .pfx, .tables] s u) ∧
        (∀ t, s.bankUser b = some t →
          ∃ u, exec (.bankTestRequest sl lv) s = .next u ∧ u.pfx.testing = s.pfx.testing ∧ u.pfx.dead = s.pfx.dead ∧
            (b.1, b.2, u.now) ∈ u.pfx.asked ∧ (s.ringOpen 16 → u.recorded 16 .bankRefused) ∧ Touches [.now, .pfx] s u)) ∧
      (b ∉ s.pfx.testing → ∀ r, exec (.bankTest sl lv r) s = .next s) ∧
      (b ∈ s.pfx.testing → ∀ r : Fin 3,
        ∃ u, exec (.bankTest sl lv r) s = .next u ∧ u.pfx.testing = s.pfx.testing.filter (· ≠ b) ∧
          (s.ringOpen 16 → u.recorded 16 .bankTest) ∧
          (r.val = 0 → u.health.repairs = s.health.repairs ∧ u.free = s.free) ∧
          (∀ y ∈ u.health.repairs, y ∈ s.health.repairs ∨ y.1 = sl.val) ∧
          (r.val = 2 → u.pfx.dead = s.pfx.dead ++ [b] ∧ u.health.poison = s.health.poison) ∧
          (r.val ≠ 2 → u.pfx.dead = s.pfx.dead ∧ u.health.poison = s.health.poison.filter (fun w => bankOf w ≠ some b)) ∧
          Touches [.free, .pfx, .health] s u)) ∧
  (∀ (s : State) (t : Fin 256),
      let v := s.view
      let s1 := s.catchUp
      ((s.table t).filling = [] ∨ s.fillWaits t = true → exec (.copyFillDone t) s = .next s) ∧
      ((s.table t).filling ≠ [] → s.fillWaits t = false →
        ∃ u, exec (.copyFillDone t) s = .next u ∧
          u.table t = { s1.table t with filling := [], fillPos := [] } ∧
          (∀ j, j ≠ t.val → u.table j = s1.table j) ∧
          ((v.tbl t).kind ≠ 2 → Touches [.tables] s1 u) ∧
          ((v.tbl t).kind = 1 → (s1.table t).trieReady = true → s1.ringOpen (v.tbl t).room →
            u.recorded (v.tbl t).room .pfxBuildDone) ∧
          ((v.tbl t).kind = 2 → Touches [.tables, .em, .health] s1 u ∧ u.em.stamps = s1.em.stamps ∧
            (∀ c, (s.table t).filling = [c] → (v.em t).wide = false → srising 0 s1.em.slots = true →
              (∀ e ∈ s1.emEntries (v.em t), ∀ e' ∈ s1.emEntries (v.em t),
                (v.em t).slices.getD c 0 + (e.1 / 2097152 - (v.em t).slices.getD 0 0) ≠ e'.1 / 2097152) →
              ∀ e ∈ s1.emEntries (v.em t),
                u.emSlot (moveSlice e.1 ((v.em t).slices.getD c 0 + (e.1 / 2097152 - (v.em t).slices.getD 0 0))) = e.2))))

/-- EM_NOW_TICK, EM_TICK and EM_LFSR_SEED (R159, R162, R388): the stamp clock advances by one when its tick ends; a new
tick length counts from its write, and 0 is refused with RANGE; the seed reaches every slice's LFSR, 1 in place of 0.
STAMP_SWEEP (R163): a stamp 16,384 ticks old or more is moved forward to that age, a younger one stays, HIT stays; an
uncorrectable stamp word is rewritten with both stamps at the present tick, and recorded. The stamp write of a hit that is
due sets HIT and LAST (R151), in a word that it repairs first when it is uncorrectable. No other stamp changes. -/
def Obligations.StampsAndSeeds : Prop :=
  ((∀ s : State, let s1 := (s.at s.em.nextTick).catchUp
      ∃ u, exec .emNowTick s = .next u ∧ u.now = s1.now ∧ u.emNow = (s1.emNow + 1) % 65536 ∧
      u.em = { s1.em with nextTick := s1.em.nextTick + s1.reg .emTick * Config.msec } ∧
      RegsBut [Obj.emNow.key] s1 u ∧ Touches [.regs, .em] s1 u) ∧
    (∀ (s : State) (m : Master) (v : BitVec 16), s.CanWrite m .emTick 0 →
      (v.toNat = 0 → Writes (.emTick m v) s m .emTick 0 Ab.range s) ∧
      (v.toNat ≠ 0 → ∃ u, Writes (.emTick m v) s m .emTick 0 0 u ∧ u.reg .emTick = v.toNat ∧
        u.em = { s.em with nextTick := s.now + v.toNat * Config.msec } ∧ RegsBut [Obj.emTick.key] s u ∧
        Touches [.regs, .em] s u)) ∧
    (∀ (s : State) (m : Master) (v : BitVec 32), s.CanWrite m .emLfsrSeed 0 →
      ∃ u, Writes (.emLfsrSeed m v) s m .emLfsrSeed 0 0 u ∧ u.reg .emLfsrSeed = v.toNat ∧
        (∀ i, i < 4 → u.lfsr i = if v.toNat = 0 then 1 else v) ∧
        ({ u.em with lfsr := [] } : Em) = { s.em with lfsr := [] } ∧ RegsBut [Obj.emLfsrSeed.key] s u ∧
        Touches [.regs, .em] s u)) ∧
  (∀ (s : State) (i : BitVec 23),
      let n := i.toNat
      let s1 := s.catchUp
      let w := s1.stamp n
      (s1.poisoned .stamp (n / 2097152) n = false →
        ∃ u, RunsTo (.stampSweep i false) s u ∧
          u.stamp n = BitVec.ofNat 33 (pack [(1, b2n (wasHit w)), (16, s1.clampStamp (stampIns w)),
            (16, s1.clampStamp (stampLast w))]) ∧
          (∀ j, j ≠ n → u.stamp j = s1.stamp j) ∧ u.em.slots = s1.em.slots ∧ Touches [.em] s1 u) ∧
      (∀ bad, bad = true ∨ s1.poisoned .stamp (n / 2097152) n = true →
        ∃ u, RunsTo (.stampSweep i bad) s u ∧ u.stamp n = s1.freshStamp true ∧
          u.poisoned .stamp (n / 2097152) n = false ∧ (∀ j, j ≠ n → u.stamp j = s1.stamp j) ∧ u.em.slots = s1.em.slots ∧
          Touches [.em, .health] s1 u)) ∧
  (∀ (s : State) (t : Nat) (h : StampHit), s.em.hits = [h] →
      (t < h.due → s.stampHits t = s) ∧
      (h.due ≤ t →
        let u := s.stampHits t
        u.em.hits = [] ∧ u.em.slots = s.em.slots ∧ (∀ j, j ≠ h.slot → u.stamp j = s.stamp j) ∧
        (s.poisoned .stamp (h.slot / 2097152) h.slot = false →
          u.stamp h.slot = BitVec.ofNat 33 (pack [(1, 1), (16, stampIns (s.stamp h.slot)), (16, s.emNow)]) ∧
          Touches [.em] s u) ∧
        (s.poisoned .stamp (h.slot / 2097152) h.slot = true →
          u.stamp h.slot = s.freshStamp true ∧ u.poisoned .stamp (h.slot / 2097152) h.slot = false ∧
          Touches [.em, .health] s u)))

/-- LEARN (R156, R157, R161, R323): a frame of a port that acts for its room, past the checks, joins the queue of its
key's owner slice last, or is dropped and counted when 4,096 wait there; without the authority, or at the first
failing check, it is dropped and counted in EM_LEARN_REJ; one that arrives on a held die is counted and dropped. No slot or stamp changes. LEARN_APPLY (R158, R159, R161): a
slice takes its oldest learn. A new key with a free place gets a LEARNT entry with fresh stamps; with none, the
oldest entry that is not STATIC gives way (WEED = OLDEST) or the one the slice's LFSR picks (RANDOM); the same DATA
renews LAST alone; a STATIC entry, a full set with no weeding, a pointer that fails its check and an uncorrectable candidate
of an absent key refuse the learn and change no slot. An uncorrectable stamp word that is read is repaired first (R163); the
reference of new DATA is added and that of the DATA that went is dropped (R216). No other position changes. A learn ends the
cycle of its last update: the model's choice (log 84). -/
def Obligations.Learning : Prop :=
  (∀ (s : State) (port : Fin 32) (f : Frame), s.heldFrame port 3 f = true →
      exec (.learn port f) s = .next (s.bump .portHeldDrop port)) ∧
  (∀ (s : State) (port : Fin 32) (f : Frame), s.heldFrame port 3 f = false →
      let room := fld f.hdr 111 108
      let t := fld f.hdr 107 100
      let s0 := s.takeRx port 3 f
      let d := s.view.em t
      let sl := d.owner 0 (d.learnKey f.body)
      let rejected := fun (u : State) => u.reg .emLearnRej t = wrapAdd 32 (s.reg .emLearnRej t) 1 ∧
        RegsBut [Obj.emLearnRej.key t] s0 u ∧ Touches [.regs] s0 u
      (s.portActs port room = false → ∃ u, exec (.learn port f) s = .next u ∧ rejected u ∧
        (s.ringOpen room → u.recorded room .portAuthReject)) ∧
      (∀ cause, s.portActs port room = true → s.learnCause t room (frameLen f) = some cause →
        ∃ u, exec (.learn port f) s = .next u ∧ rejected u ∧ (s.ringOpen room → u.recorded room .learnReject)) ∧
      (s.portActs port room = true → s.learnCause t room (frameLen f) = none →
        (4096 ≤ (s.learnQueue sl).length → ∃ u, exec (.learn port f) s = .next u ∧
          u.reg .emLearnDrop 0 sl = wrapAdd 32 (s.reg .emLearnDrop 0 sl) 1 ∧
          RegsBut [Obj.emLearnDrop.key 0 sl] s0 u ∧ Touches [.regs] s0 u) ∧
        ((s.learnQueue sl).length < 4096 → ∃ u, exec (.learn port f) s = .next u ∧
          u.learnQueue sl = s.learnQueue sl ++ [⟨room, t, fld f.hdr 99 76, fld f.hdr 75 60, f.body, port⟩] ∧
          (∀ j, j ≠ sl → u.learnQueue j = s.learnQueue j) ∧ u.em.slots = s.em.slots ∧ u.em.stamps = s.em.stamps ∧
          RegsBut [Obj.emBacklogXing.key 0 sl] s0 u ∧ Touches [.regs, .em] s0 u))) ∧
  (∀ (s : State) (slice : Fin 4) (x : Learn) (rest : List Learn),
      let s1 := (s.at (max (s.limitAt 2 slice) (s.limitAt 2 7))).catchUp
      let d := s.view.em x.table
      let k := d.learnKey x.key
      let sl := d.owner 0 k
      s.learnQueue slice = x :: rest → s.noticesHeld ≤ 8188 → s.learnCause x.table x.room (1 + x.key.length) = none →
      s.learnHeld d = false →
      let last := s1.lastOf (s1.emTimes d k).2
      let runs := fun (t : Nat) (u : State) => exec (.learnApply slice) s = .next u ∧ u.now = t + 1 ∧
        u.learnQueue slice = rest ∧
        RegsBut ([Obj.emLearnRefused.key x.table, Obj.emWeedCnt.key x.table, Obj.emBacklogXing.key 0 slice,
          Obj.portTxDiscard.key d.nport] ++ poolKeys) s1 u ∧ Touches [.now, .regs, .em, .mem, .health, .ports, .arb] s1 u
      let learnt := d.head true false true x.data k
      let written := fun (s2 : State) (i : Nat) (u : State) => u.emStands d k i learnt ∧ u.stamp i = s1.freshStamp false ∧
        (∀ j, j ∉ d.slotsOf k i → u.emSlot j = s1.emSlot j) ∧ (∀ j, j ≠ i → u.stamp j = s2.stamp j)
      let refers := fun (drops : List Nat) (u : State) => (d.inline = true → u.mem = s1.mem) ∧
        (d.inline = false → ∀ b, (u.alloc b).count = ((s1.addRef (x.data / 4)).alloc b).count - drops.count b)
      let refused := fun (u : State) => runs s1.now u ∧ u.em.slots = s1.em.slots ∧ u.em.stamps = s1.em.stamps ∧ u.mem = s1.mem ∧
        u.reg .emLearnRefused x.table = wrapAdd 32 (s1.reg .emLearnRefused x.table) 1
      let renewed := fun (i : Nat) (u : State) =>
        u.stamp i = BitVec.ofNat 33 (pack [(1, 1), (16, stampIns ((s1.soundStamp i).stamp i)), (16, s1.emNow)]) ∧
        (∀ j, j ≠ i → u.stamp j = s1.stamp j)
      (s1.emFind d sl k = none → s1.emBad d sl k = true → ∃ u, refused u) ∧
      (∀ st, s1.emFind d sl k = none → s1.emBad d sl k = false → s1.dataStatus d x.room none x.data = some st →
        ∃ u, refused u) ∧
      (s1.emFind d sl k = none → s1.emBad d sl k = false → s1.dataStatus d x.room none x.data = none →
        (∀ i, s1.emPlace d k = some i → ∃ u, runs last u ∧ written s1 i u ∧ refers [] u) ∧
        (s1.emPlace d k = none → d.weed = 0 ∨ s1.weedable d k = [] → ∃ u, refused u) ∧
        (∀ i, s1.emPlace d k = none → d.weed ≠ 0 → d.weed ≠ 1 → s1.weedable d k ≠ [] →
          let s2 := (s1.weedable d k).foldl State.soundStamp s1
          s2.oldest (s1.weedable d k) = some i →
          ∃ u, runs last u ∧ written s2 i u ∧ refers [slotData (s1.emSlot i) / 4] u ∧
            u.reg .emWeedCnt x.table = wrapAdd 32 (s1.reg .emWeedCnt x.table) 1) ∧
        (∀ i, s1.emPlace d k = none → d.weed = 1 →
          (s1.weedable d k)[(lfsrStep (s1.lfsr sl)).toNat * (s1.weedable d k).length / 2 ^ 32]? = some i →
          ∃ u, runs last u ∧ u.lfsr sl = lfsrStep (s1.lfsr sl) ∧ written s1 i u ∧ refers [slotData (s1.emSlot i) / 4] u ∧
            u.reg .emWeedCnt x.table = wrapAdd 32 (s1.reg .emWeedCnt x.table) 1)) ∧
      (∀ i, s1.emFind d sl k = some i → slotData (s1.emSlot i) = x.data →
        ∃ u, runs s1.now u ∧ u.em.slots = s1.em.slots ∧ u.mem = s1.mem ∧ renewed i u) ∧
      (∀ i, s1.emFind d sl k = some i → slotData (s1.emSlot i) ≠ x.data → slotStatic (s1.emSlot i) = true →
        ∃ u, refused u) ∧
      (∀ i st, s1.emFind d sl k = some i → slotData (s1.emSlot i) ≠ x.data → slotStatic (s1.emSlot i) = false →
        s1.dataStatus d x.room (some (slotData (s1.emSlot i))) x.data = some st → ∃ u, refused u) ∧
      (∀ i, s1.emFind d sl k = some i → slotData (s1.emSlot i) ≠ x.data → slotStatic (s1.emSlot i) = false →
        s1.dataStatus d x.room (some (slotData (s1.emSlot i))) x.data = none →
        ∃ u, runs last u ∧ renewed i u ∧ (∀ n, n < d.ncopy → u.emSlot (moveSlice i (d.owner n k)) = learnt) ∧
          (∀ j, (∀ n, n < d.ncopy → j ≠ moveSlice i (d.owner n k)) → u.emSlot j = s1.emSlot j) ∧
          (x.data / 4 ≠ slotData (s1.emSlot i) / 4 → refers [slotData (s1.emSlot i) / 4] u) ∧
          (x.data / 4 = slotData (s1.emSlot i) / 4 → u.mem = s1.mem)))

/-- SEARCH (R37, R38, R41, R45, R63, R312): a frame reaches intake in the slot of its port, 7 or 8 cycles after its last granule,
and is judged there. One that passes joins the instructions in flight with its window reserved at A + L + M; one whose window
clashes is counted and not run; a rejected one without a set reserves an error result 112 cycles after A, and on a member or
collector a candidate with ERROR records. A barred cascade drops frames of set programs, and a held die's port every frame. -/
def Obligations.SearchIntake : Prop :=
  ∀ (s : State) (port : Fin 32) (f : Frame),
    let h := searchHdr f.hdr
    let a := (s.fromLink port f 7).1
    let t := intakeCycle port a
    let s0 := (s.fromLink port f 7).2.at t
    let v := s0.viewAt t
    let last := sget (fun _ => 0) s.search.lastAt port
    let pace := decide (last ≠ 0 ∧ a + 1 < last + 2)
    let st := s0.intakeStatus v port t h (frameLen f) pace
    let barred := (v.progSet h.prog).isSome = true ∧ (s.cas.quarantined = true ∨ nbit (v.obj .casSelf) 14 = true)
    let budget := match v.progSet h.prog with | some n => (v.set n).budget | none => 0
    let due := a + latency (v.prog h.prog).stages + budget
    let accepted := fun (x : Inflight) => x.port = port.val ∧ x.room = h.room ∧ x.prog = h.prog ∧ x.tag = h.tag ∧
      x.ctx = h.ctx ∧ x.edition = (if h.pinned then h.edition else s0.current h.room) ∧ x.arrived = a ∧ x.accepted = t ∧
      x.due = due ∧ x.view = v ∧ x.key = (f.body.flatMap granuleBytes).take h.keylen ∧ x.nextStage = 0 ∧ x.ahead = 0 ∧
      x.ended = false ∧ x.status = 0
    (s.dieHeld (dieOfPort port) = true → exec (.search port f) s = .next (s0.bump .portHeldDrop port)) ∧
    (s.dieHeld (dieOfPort port) = false →
      (barred → ∃ u, exec (.search port f) s = .next u ∧ u.search.flight = s.search.flight ∧ u.search.errs = s.search.errs ∧
        u.reg .casQuarDrop = wrapAdd 32 (s.reg .casQuarDrop) 1 ∧ RegsBut [Obj.casQuarDrop.key] s0 u ∧
        Touches [.search, .regs] s0 u) ∧
      (¬ barred → st = none →
        (v.progSet h.prog = none → s0.windowClash port due = false →
          ∃ u x, exec (.search port f) s = .next u ∧ u.search.flight = s.search.flight ++ [x] ∧ accepted x ∧
            x.noResult = false ∧ x.cas = none ∧ u.search.errs = s.search.errs ∧ Touches [.search] s0 u) ∧
        (v.progSet h.prog = none → s0.windowClash port due = true →
          ∃ u, exec (.search port f) s = .next u ∧ u.search.flight = s.search.flight ∧
            u.reg .portWinClash port = wrapAdd 32 (s.reg .portWinClash port) 1 ∧
            RegsBut [Obj.portWinClash.key port] s0 u ∧ Touches [.search, .regs] s0 u) ∧
        (∀ n, v.progSet h.prog = some n →
          let part := (v.set n).partOf (v.device s.dev.straps) ((v.set n).ownerOf h.ctx)
          part ≠ .owner ∨ s0.windowClash port due = false →
          ∃ u x c, exec (.search port f) s = .next u ∧ u.search.flight = s.search.flight ++ [x] ∧ accepted x ∧
            x.cas = some c ∧ c.part = part ∧ c.set = n ∧ (x.noResult = true ↔ part ≠ .owner) ∧
            Touches [.search, .regs, .cas] s0 u)) ∧
      (∀ code n, ¬ barred → st = some code → v.progSet h.prog = some n → (v.prog h.prog).enable = true →
        let part := (v.set n).partOf (v.device s.dev.straps) ((v.set n).ownerOf h.ctx)
        (part = .nobody → ∃ u, exec (.search port f) s = .next u ∧ u.search.flight = s.search.flight ∧
          u.reg .casNoOwner = wrapAdd 32 (s.reg .casNoOwner) 1 ∧ RegsBut [Obj.casNoOwner.key] s0 u ∧
          Touches [.search, .regs] s0 u) ∧
        (part = .member ∨ part = .collector → code ≠ 0 → ∃ u x, exec (.search port f) s = .next u ∧
          u.search.flight = s.search.flight ++ [x] ∧ x.status = code ∧ x.error = true ∧ x.ended = true ∧
          x.noResult = true ∧ x.due = due ∧ x.rejected = true ∧ Touches [.search, .regs, .cas] s0 u)) ∧
      (∀ code, ¬ barred → st = some code →
        (∀ n, v.progSet h.prog = some n → (v.prog h.prog).enable = false ∨
          (v.set n).partOf (v.device s.dev.straps) ((v.set n).ownerOf h.ctx) = .owner) →
        (s0.windowClash port (a + 112) = false →
          ∃ u, exec (.search port f) s = .next u ∧ u.search.flight = s.search.flight ∧
            u.search.errs = s.search.errs ++ [⟨port, a + 112, errorHdr v h code⟩] ∧
            (s0.ringOpen h.room → u.recorded h.room .srchReject) ∧ Touches [.search] s0 u) ∧
        (s0.windowClash port (a + 112) = true →
          ∃ u, exec (.search port f) s = .next u ∧ u.search.flight = s.search.flight ∧ u.search.errs = s.search.errs ∧
            u.reg .portWinClash port = wrapAdd 32 (s.reg .portWinClash port) 1 ∧
            RegsBut [Obj.portWinClash.key port] s0 u ∧ Touches [.search, .regs] s0 u)))

/-- PROGRAM_STAGE (R42, R60, R62, R99, R132): the next stage of the instruction under a tag runs its four lookups in ascending
order, ternary and exact-match ones in its compare cycle and prefix ones to the end of its compare, then its tally, and the program
ends when one of them ends it with stages left; an ended program only counts the stage, and so does a stage that was run before a
change of its cycle. Without an instruction under the tag nothing happens. The cycle of the tally and of the actions' reads, the
last of the compare's 24, and the order of a stage against commands of its cycle are the model's choices (logs 86, 84). -/
def Obligations.StagesRun : Prop :=
  ∀ (s : State) (port : Fin 32) (tag : BitVec 8),
    (s.running port tag.toNat = none → ∀ l b, exec (.programStage port tag l b) s = .next s) ∧
    (∀ x, s.running port tag.toNat = some x →
      let n := x.nextStage
      let c := x.accepted + 88 * n + 24
      let swap := fun (y : Inflight) => s.search.flight.map fun z => if z.id = x.id then y else z
      (0 < x.ahead → ∃ u, RunsTo (.programStage port tag [] []) s u ∧
        u.search.flight = swap { x with ahead := x.ahead - 1 } ∧ Touches [.search] s u) ∧
      (x.ahead = 0 → x.ended = true → ∀ l b, ∃ u, RunsTo (.programStage port tag l b) s u ∧ u.now = max s.now c ∧
        u.search.flight = swap { x with nextStage := n + 1 } ∧ Touches [.now, .search] s u) ∧
      (x.ahead = 0 → x.ended = false →
        let lookups := [4 * n, 4 * n + 1, 4 * n + 2, 4 * n + 3]
        let compared := match x.front with
          | some l => (s.at c, l)
          | none => lookups.foldl (compareLookup c x) (s.at c, [])
        let r := lookups.foldl (runLookup c compared.2) (compared.1.at (c + 23), { x with nextStage := n + 1, front := none })
        ∃ u e, RunsTo (.programStage port tag [] []) s u ∧ u.now = max s.now (c + 23) ∧
          u.search.flight = swap { r.2 with ended := e } ∧
          (e = true ↔ n + 1 < (x.view.prog x.prog).stages ∧
            ∃ i ∈ [4 * n, 4 * n + 1, 4 * n + 2, 4 * n + 3], r.2.endsAt i = true) ∧
          OnlyRecords ((r.1.stageTally (c + 23) r.2 n).setFlight { r.2 with ended := e }) u ∧
          Touches [.now, .search, .em, .mem, .regs, .health] s u))

/-- The outcome of one lookup (R55, R56, R60, R61, R65, R66, R120, R131, R148, R149, R151): not valid, skipped, a miss, an error,
or the winner of its kind with the action that its pointer names. A skipped lookup stays skipped, and a tie found stays a tie, when
the read of the action errors. `s` is the state in the stage's compare cycle `c`, in which rows and buckets are read, and `u` that
at the end of its compare, in which the action is read (log 86). A sharded lookup keeps at the stage only what its candidate record
says, and reads no action (R294, R296). -/
def Obligations.LookupOutcomes : Prop :=
  ∀ (c : Nat) (s u : State) (x : Inflight) (i : Nat),
    let v := x.view
    let d := v.lkp x.prog i
    let phi := c % v.phases
    let key := x.lookupKey i
    let front := compareLookup c x (s, []) i
    let r := runLookup c front.2 (u, x) i
    let o := r.2.out i
    let shard := (v.setOfTable d.table).isSome
    let nothing := d.miss = 0 ∨ 3 ≤ d.miss
    let readable := fun (p : Nat) => u.dieHeld (dieOfBlock p) = false ∧ u.adsBad p = false
    let defaults := o.hit = false ∧ o.defaulted = true ∧ o.supplied = true ∧ r.1 = u ∧
      (d.miss = 1 → o.b0 = u.adsBlock d.defptr ∧ o.ptr = d.defptr ∧ o.plen = d.deflen) ∧
      (d.miss = 2 → o.b0 = BitVec.ofNat 128 (v.obj .portDefact x.port))
    let errs := o.error = true ∧ r.2.error = true ∧ (r.2.status = 0x10 ∨ r.2.status = 0x11) ∧
      ((v.prog x.prog).endOnErr = true → r.2.status = 0x11 ∧ o.supplied = false) ∧
      ((v.prog x.prog).endOnErr = false → o.supplied = true ∧ o.b0 = BitVec.ofNat 128 (v.obj .portDefact x.port))
    let failed := OnlyRecords u r.1 ∧
      if shard then r.2 = x.setOut i { LookupOut.none with performed := true, error := true } else errs
    let missed := if shard then r.1 = u ∧ o = { LookupOut.none with performed := true }
      else (nothing → r.1 = u ∧ o = { LookupOut.none with performed := true }) ∧
        ((d.miss = 1 ∧ readable d.defptr) ∨ d.miss = 2 → defaults ∧ o.performed = true ∧ o.skipped = false) ∧
        (d.miss = 1 → ¬ readable d.defptr → failed)
    let won := fun (ptr plen : Nat) (more : Prop) => o.hit = true ∧ o.ptr = ptr ∧ o.plen = plen ∧ more ∧ r.1 = u ∧
      o.supplied = !shard ∧ (shard = false → o.b0 = u.adsBlock ptr)
    let answers := fun (ptr plen : Nat) (more : Prop) =>
      (shard = true ∨ readable ptr → won ptr plen more) ∧ (shard = false → ¬ readable ptr → failed)
    (d.valid = false → r = (u, x)) ∧
    (d.valid = true → x.condOk i = false →
      (shard = true → r = (u, x.setOut i { LookupOut.none with skipped := true })) ∧
      (shard = false → (nothing → r.1 = u ∧ o = { LookupOut.none with skipped := true }) ∧
        ((d.miss = 1 ∧ readable d.defptr) ∨ d.miss = 2 → defaults ∧ o.skipped = true ∧ o.performed = false) ∧
        (d.miss = 1 → ¬ readable d.defptr → failed ∧ o.skipped = true ∧ o.performed = false))) ∧
    (d.valid = false ∨ x.condOk i = false ∨ d.kind < 2 → front.1 = s) ∧
    (d.valid = true → x.condOk i = true →
      (d.kind = 0 →
        let e := v.trn d.table
        (trnCopy v.rotaFn e [] phi x.port i = none → failed) ∧
        (∀ c, trnCopy v.rotaFn e [] phi x.port i = some c →
          ((∃ l ∈ e.bays c, s.bayFault v l ≠ none) → failed) ∧
          ((∀ l ∈ e.bays c, s.bayFault v l = none) →
            (s.sideUncorr e ((e.bays c).filterMap v.phys) key = true → failed) ∧
            (s.sideUncorr e ((e.bays c).filterMap v.phys) key = false →
              let best := s.trnBest e (v.device s.dev.straps) ((e.bays c).filterMap v.phys) key x.edition
              (best = none → missed) ∧
              (∀ b, best = some b →
                answers b.ptr b.plen (o.prio = b.prio ∧ o.loc = b.call) ∧ (o.tie = true ↔ 2 ≤ b.n)))))) ∧
      (d.kind = 1 →
        let e := v.pfx d.table
        let tb := u.table d.table
        let found := fun (f : PfxFound) =>
          (f = .miss → missed) ∧ (f = .bad → failed) ∧
          (∀ b, f = .entry b → answers b.ptr b.plen (o.prio = b.len ∧ o.tie = false))
        (tb.hashMode x.edition = true →
          let served := hashServed v.rotaFn phi x.port i = true ∧ ∀ sl ∈ e.hashSlices, u.dieHeld sl = false
          (¬ served → failed) ∧ (served → found (u.hashFind d.table e (key128 e.w key) c x.edition))) ∧
        (tb.hashMode x.edition = false →
          (pfxCopy v.rotaFn e [] phi x.port i = none → failed) ∧
          (∀ cp, pfxCopy v.rotaFn e [] phi x.port i = some cp →
            (u.dieHeld (e.owner cp key) = true → failed) ∧
            (u.dieHeld (e.owner cp key) = false → found (u.trieFind d.table e (e.owner cp key) key c x.edition))))) ∧
      (2 ≤ d.kind →
        let e := v.em d.table
        let q := s.emAsOf c
        (emCopy v.rotaFn e [] phi x.port i = none → failed ∧ front.1 = s) ∧
        (∀ cp, emCopy v.rotaFn e [] phi x.port i = some cp →
          (q.dieHeld (e.owner cp key) = true → failed ∧ front.1 = s) ∧
          (q.dieHeld (e.owner cp key) = false →
            (q.emFind e (e.owner cp key) key = none → q.emBad e (e.owner cp key) key = false → missed ∧ front.1 = s) ∧
            (q.emFind e (e.owner cp key) key = none → q.emBad e (e.owner cp key) key = true → failed ∧ front.1 = s) ∧
            (∀ n, q.emFind e (e.owner cp key) key = some n →
              let data := slotData (q.emSlot n)
              (e.inline = true → o.hit = true ∧ o.supplied = !shard ∧ o.b0 = BitVec.ofNat 128 (data * 2 ^ 104) ∧ r.1 = u) ∧
              (e.inline = false → answers (data / 4) (codeBlocks (data % 4) - 1) True) ∧
              front.1.em = { s.em with hits := s.em.hits ++ [⟨moveSlice n (e.owner 0 key), c + 6⟩] } ∧
              Touches [.em] s front.1)))))

/-- R71 and R73: an entry of k atoms hits a key exactly when at every position a MASK bit of 1 meets an equal key bit and
a MASK bit of 0 stands with a VALUE bit of 0. -/
def Obligations.TernaryCompare : Prop :=
  ∀ (s : State) (k bay mat row : Nat) (key : BitVec 640), 1 ≤ k → k ≤ 8 →
    (s.entryHit k bay mat row (key.toNat % 2 ^ (80 * k)) = true ↔
      ∀ a, a < k → ∀ j, j < 80 →
        let w := s.atom (rowKey bay (mat + a) row)
        let m := w.getLsbD (79 - j)
        let v := w.getLsbD (159 - j)
        (m = true → v = key.getLsbD (80 * k - 1 - (80 * a + j))) ∧ (m = false → v = false))

/-- R65: the winner of a ternary lookup is a live entry that hits, of the lowest priority, and of these the one with the
lowest call number, and it counts the live entries that hit at that priority in the sets compared, from which TIE follows (R95);
there is none exactly when no compared entry is live and hits. R66: the longest live entry that covers a
key is live and covers it, and none that is live and covers it is longer. R119 to R121: the answer word of a key, written from
edition b on with at most one change, selects at every later edition the record of that entry, as long as no stamp is so old
that it leaves the window of editions. -/
def Obligations.WinnersOfLookups : Prop :=
  (∀ (s : State) (d : Trn) (device : Nat) (bays : List Nat) (key : Nat) (e : Edition),
      let live := fun (b m : Nat) (r : Nat × BitVec 96) =>
        b ∈ bays ∧ m ∈ comparedMats d key ∧ r ∈ s.usedRows b m ∧ (sideOf r.2).role = 1 ∧
          (sideOf r.2).width = widthCode d.k ∧
          liveAt d.direct (sideOf r.2).valid (sideOf r.2).rset (sideOf r.2).first (sideOf r.2).retiring e = true ∧
          s.entryHit d.k b m r.1 key = true
      (s.trnBest d device bays key e = none ↔ ∀ b m r, ¬ live b m r) ∧
      (∀ w, s.trnBest d device bays key e = some w →
        (∃ b m r, live b m r ∧ w.prio = (sideOf r.2).prio ∧ w.call = callNumber device b m r.1 ∧ w.ptr = (sideOf r.2).ptr ∧
          w.plen = (sideOf r.2).plen) ∧
        (∀ b m r, live b m r → w.prio < (sideOf r.2).prio ∨
          (w.prio = (sideOf r.2).prio ∧ w.call ≤ callNumber device b m r.1)) ∧
        w.n = (bays.map fun b => ((comparedMats d key).map fun m => ((s.usedRows b m).countP fun r =>
          decide ((sideOf r.2).role = 1 ∧ (sideOf r.2).width = widthCode d.k ∧ (sideOf r.2).prio = w.prio) &&
            liveAt d.direct (sideOf r.2).valid (sideOf r.2).rset (sideOf r.2).first (sideOf r.2).retiring e &&
            s.entryHit d.k b m r.1 key)).sum).sum)) ∧
  (∀ (direct : Bool) (es : List PfxEntry) (k : Nat) (e : Edition),
      (longestLive direct es k e = none ↔ ∀ x ∈ es, ¬ (x.covers k = true ∧ x.live direct e = true)) ∧
      (∀ x, longestLive direct es k e = some x → x ∈ es ∧ x.covers k = true ∧ x.live direct e = true ∧
        ∀ y ∈ es, y.covers k = true → y.live direct e = true → y.len ≤ x.len)) ∧
  (∀ (es : List PfxEntry) (slice k : Nat) (b e : Edition), edLe b e = true → (changes es b k).length ≤ 1 →
      (∀ x ∈ es, ∀ n, n ≤ (e - b).toNat → b + BitVec.ofNat 16 n ≠ x.first + 16384 ∧
        b + BitVec.ofNat 16 n ≠ x.retiring + 16384) →
      (answerOf false es slice b k).version e = (longestLive false es k e).map fun x => x.recIdx slice)

/-- Tallies (R58, R59, R234): a tally whose lookup supplied an action adds its increment, modulo 2^64, to the word of the
room's carrel that the action names, and no other word changes but those that a clear under way zeroes before the cycle of the
tally; a word on a held die stays and TALLY_HELD counts. A clear zeroes a line in its cycle, but for a word that a tally reached in
that cycle: there the tally stays (R233, R234). -/
def Obligations.TalliesAdd : Prop :=
  (∀ (s : State) (c : Nat) (x : Inflight) (stage : Nat),
    let d := x.view.tally x.prog stage
    let o := x.out d.alkp
    let word := sliceAt o.carry 256 d.aoff 16
    let inc := if d.imode = 0 then d.iconst else if d.imode = 1 then x.keyLen else sliceAt (keyNat x.key) 1280 d.ioff 16
    let t := s.stageTally c x stage
    (d.en = false ∨ o.supplied = false → t = s) ∧
    (d.en = true → o.supplied = true → s.dieHeld (dieOfWord word) = true →
      t.mem = s.mem ∧ t.reg .tallyHeld x.room = wrapAdd 32 (s.reg .tallyHeld x.room) 1 ∧
      RegsBut [Obj.tallyHeld.key x.room] s t ∧ Touches [.regs] s t) ∧
    (d.en = true → o.supplied = true → s.dieHeld (dieOfWord word) = false →
      let s1 := s.clearTo (c - 1)
      let old := if s1.poisoned .carrel x.room word then 0 else (s1.carWord x.room word).toNat
      t.carWord x.room word = BitVec.ofNat 64 (old + inc) ∧
      (∀ r w, w < 65536 → (r ≠ x.room ∨ w ≠ word) → t.carWord r w = s1.carWord r w) ∧
      (2 ^ 64 ≤ old + inc → t.reg .tallyWrap x.room = wrapAdd 32 (s1.reg .tallyWrap x.room) 1) ∧
      (old + inc < 2 ^ 64 → t.cat = s1.cat) ∧
      t.mem.ads = s.mem.ads ∧ t.mem.secure = s.mem.secure ∧ RegsBut [Obj.tallyWrap.key x.room] s1 t ∧
      Touches [.mem, .health, .regs] s1 t)) ∧
  (∀ (s : State) (t : Nat) (cl : Clear), s.mem.clearing = [cl] →
    let reached := fun (w : Nat) => cl.lines ≤ w / 32 ∧ cl.cycle (w / 32) ≤ t ∧ dieOfWord w ∉ cl.held
    let won := fun (w : Nat) => s.mem.talliedAt = cl.cycle (w / 32) ∧ ∃ e ∈ s.mem.tallied, e.1 = cl.room * 65536 + w
    let u := s.clearTo t
    (∀ w, w < 65536 → reached w → ¬ won w → u.carWord cl.room w = 0) ∧
    (∀ r w, w < 65536 → (r ≠ cl.room ∨ ¬ reached w ∨ won w) → u.carWord r w = s.carWord r w) ∧
    u.mem.ads = s.mem.ads ∧ u.mem.secure = s.mem.secure ∧ RegsBut [Obj.carSuper.key cl.room] s u ∧
    Touches [.mem, .health, .regs] s u)

/-- RESULT (R43, R44, R47, R48, R214, R262, R289): what a port has due first leaves at its due cycle; its frame goes on
the lanes when the port is UP, else it is discarded and counted; the instruction leaves, and its tag is held until its last
granule. One that sends no result only leaves. With nothing due nothing happens. -/
def Obligations.ResultsLeave : Prop :=
  ∀ (s : State) (port : Fin 32),
    let drop := Obj.portTxDiscard.key port
    let up := (s.port port).st = .up
    let unsent := fun (u : State) => u.wire = s.wire ∧ u.reg .portTxDiscard port = wrapAdd 32 (s.reg .portTxDiscard port) 1
    (s.firstDue port = none → exec (.result port) s = .next s) ∧
    (∀ e, s.firstDue port = some (.err e) → ∃ u, exec (.result port) s = .next u ∧ u.now = max s.now e.due ∧
      (up → Sent port (5 * e.due) ⟨e.hdr, []⟩ s u ∧ u.cat = s.cat) ∧ (¬ up → unsent u) ∧
      u.search.errs = eraseFirst (fun y => y = e) s.search.errs ∧ u.search.flight = s.search.flight ∧
      RegsBut [drop] s u ∧ Touches [.now, .wire, .ports, .search, .regs] s u) ∧
    (∀ x, s.firstDue port = some (.flight x) → s.flight? x.id = some x → (x.view.prog x.prog).stages ≤ x.nextStage →
      (∀ c, x.cas = some c → c.part ≠ .owner ∨ c.closed = true) →
      ∃ u, RunsTo (.result port) s u ∧ u.now = max s.now x.due ∧
        u.search.flight = s.search.flight.filter (fun y => y.id ≠ x.id) ∧
        u.search.tails = (s.search.tails.filter fun e => decide (u.now < e.last)) ++
          (if u.now < x.freeAt ∧ x.rejected = false then [⟨x.id, x.port, x.room, x.prog, x.tag, x.edition, x.cas, x.freeAt⟩] else []) ∧
        (x.noResult = true → u.wire = s.wire ∧ u.cat = s.cat ∧ u.ports = s.ports) ∧
        (x.noResult = false → up → Sent port (5 * x.due) x.result s u ∧
          ((∃ i, i < 16 ∧ (x.out i).incomplete = true) → u.reg .casIncomplete = wrapAdd 32 (s.reg .casIncomplete) 1) ∧
          ((∀ i, i < 16 → (x.out i).incomplete = false) → u.reg .casIncomplete = s.reg .casIncomplete)) ∧
        (x.noResult = false → ¬ up → unsent u ∧ u.reg .casIncomplete = s.reg .casIncomplete) ∧
        RegsBut [drop, Obj.casIncomplete.key] s u ∧ Touches [.now, .wire, .ports, .search, .regs] s u)

/-- MEM (R227 to R235, R276, R323): past its checks a WRITE changes exactly the bytes that it names, but for carrel words
that a tally reached in its cycle, and a READ changes no byte and answers with the bytes read, carrel words as they stood before
the tallies of the cycle; a failing check answers its status and changes no byte. The frame waits while the port's queue is
full, and one that arrives on a held die is counted and dropped. -/
def Obligations.MemoryRequests : Prop :=
  ∀ (s : State) (port : Fin 32) (f : Frame) (uncorr : List MemWord),
    let h := memHdr f.hdr
    let s0 := (s.takeRx port 1 f).catchUp
    let s1 := s0.clearTo s0.now
    let c := Instr.mem port f uncorr
    let payload := f.body.flatMap granuleBytes
    let names := h.words.map (memName h.space h.room)
    let answers := fun (x : Frame) (u : State) =>
      (s1.port port).keeps = true → (u.port port).tx1 = (s1.port port).tx1 ++ [⟨x, .none⟩]
    (s.heldFrame port 1 f = true → exec c s = .next (s.bump .portHeldDrop port)) ∧
    (s.heldFrame port 1 f = false → s.outFull port = true → exec c s = .next s) ∧
    (s.heldFrame port 1 f = false → s.outFull port = false →
      (∀ st, s1.memStatus port f = some st → ∃ u, RunsTo c s u ∧ u.mem = s1.mem ∧ answers (memDone h st 0 []) u ∧
        RegsBut [Obj.portTxDiscard.key port] s1 u ∧ Touches [.ports, .regs] s1 u) ∧
      (s1.memStatus port f = none → h.op = 0 → (uncorr.filter names.contains) = [] →
        (∀ w ∈ names, w ∉ s1.health.poison) → (h.space = 2 → 3 ≤ s1.portLevel port) →
        ∃ u, RunsTo c s u ∧ u.mem = s1.mem ∧
          answers (memDone h 0 0
            (granulesOf (cdiv h.len 16) ((List.range h.len).map fun i => s1.byteBefore h.space h.room (h.addr + i)))) u ∧
          RegsBut [Obj.portTxDiscard.key port] s1 u ∧ Touches [.ports, .regs] s1 u) ∧
      (s1.memStatus port f = none → h.op = 1 → ∃ u, RunsTo c s u ∧
        (∀ a, a < memSize h.space → u.memByte h.space h.room a =
          if h.addr ≤ a ∧ a < h.addr + h.len ∧ ¬ (h.space = 0 ∧ s1.tallyWon h.room (a / 8) = true) then payload.getD (a - h.addr) 0
          else s1.memByte h.space h.room a) ∧
        (∀ sp r a, sp < 3 → r < 16 → a < memSize sp → (sp ≠ h.space ∨ (sp = 0 ∧ r ≠ h.room)) →
          u.memByte sp r a = s1.memByte sp r a) ∧
        answers (memDone h 0 (s1.superMask h) []) u ∧
        RegsBut [Obj.portTxDiscard.key port, Obj.carSuper.key h.room] s1 u ∧
        Touches [.mem, .ports, .regs, .health] s1 u))

/-- CAR_DATA, CAR_CLEAR and CAR_CLEAR_DONE (R233, R234): a write stores the word at the writer's CAR_ADDR and no other; a
clear runs until 8,192 cycles after its write, when every line it had left on dies not held is zero and BUSY falls;
both are refused while a die they need is held or a clear runs. POOL_PROBE_SEL (R209, R381): both probe objects of
the writer's context take the record of the block named; a block outside the store, a held die and a lack of contexts
refuse it. Nothing else changes. -/
def Obligations.CarrelsAndProbes : Prop :=
  ((∀ (s : State) (m : Master) (room : Fin 16) (x : BitVec 64), s.CanWrite m .carData room →
      let s1 := s.catchUp
      let w := s1.ownReg m .carAddr room
      let c := Instr.carData m room x
      (s.dieHeld (dieOfWord (s.ownReg m .carAddr room)) = true → Writes c s m .carData room Ab.dieHeld s) ∧
      (s.dieHeld (dieOfWord (s.ownReg m .carAddr room)) = false →
        (s1.clearing room = true → Writes c s m .carData room Ab.cmdBusy s1) ∧
        (s1.clearing room = false → s1.tallyWon room w = true →
          Writes c s m .carData room Ab.superseded (s1.bump .carSuper room)) ∧
        (s1.clearing room = false → s1.tallyWon room w = false → w < 65536 →
          ∃ u, Writes c s m .carData room 0 u ∧ u.carWord room w = x ∧ u.poisoned .carrel room w = false ∧
            (∀ r j, j < 65536 → (r ≠ room.val ∨ j ≠ w) → u.carWord r j = s1.carWord r j) ∧
            u.mem.ads = s1.mem.ads ∧ u.mem.secure = s1.mem.secure ∧ Touches [.mem, .health] s1 u))) ∧
    (∀ (s : State) (m : Master) (room : Fin 16) (v : BitVec 32), s.CanWrite m .carClear room →
      (v.toNat ≠ 1 → Writes (.carClear m room v) s m .carClear room Ab.range s) ∧
      (v.toNat = 1 → s.anyHeld = true → Writes (.carClear m room v) s m .carClear room Ab.dieHeld s) ∧
      (v.toNat = 1 → s.anyHeld = false → s.clearing room = true → Writes (.carClear m room v) s m .carClear room Ab.cmdBusy s) ∧
      (v.toNat = 1 → s.anyHeld = false → s.clearing room = false →
        let s1 := s.catchUp
        ∃ u, Writes (.carClear m room v) s m .carClear room 0 u ∧ (u.block (roomIdx room)).busy = true ∧
          u.mem.clearing = s1.mem.clearing ++ [⟨room, s1.now, 0, []⟩] ∧ u.mem.carrel = s1.mem.carrel ∧
          Touches [.mem, .catalogue] s1 u)) ∧
    (∀ (s : State) (room : Fin 16) (c : Clear), s.mem.clearing = [c] →
      (c.room ≠ room → exec (.carClearDone room) s = .next s) ∧
      (c.room = room →
        let s1 := (s.at (c.start + 8192)).catchUp
        s1.mem.clearing = [c] → s1.mem.talliedAt ≤ c.start →
        ∃ u, exec (.carClearDone room) s = .next u ∧
          u.now = s1.now ∧ u.mem.clearing = [] ∧ (u.block (roomIdx room)).busy = false ∧
          (u.block (roomIdx room)).code = (if c.held = [] then 0 else Ab.dieHeld) ∧
          (∀ w, w < 65536 → c.lines ≤ w / 32 → dieOfWord w ∉ c.held → u.carWord room w = 0) ∧
          (∀ r w, w < 65536 → (r ≠ room.val ∨ w / 32 < c.lines ∨ dieOfWord w ∈ c.held) → u.carWord r w = s1.carWord r w) ∧
          u.mem.ads = s1.mem.ads ∧ u.mem.secure = s1.mem.secure ∧ Touches [.mem, .catalogue, .health, .regs] s1 u))) ∧
  (∀ (s : State) (m : Master) (pool : Fin 64) (b : BitVec 32), s.CanWrite m .poolProbeSel pool →
      let c := Instr.poolProbeSel m pool b
      (4194304 ≤ b.toNat → Writes c s m .poolProbeSel pool Ab.range s) ∧
      (b.toNat < 4194304 → s.dieHeld (dieOfBlock b.toNat) = true → Writes c s m .poolProbeSel pool Ab.dieHeld s) ∧
      (b.toNat < 4194304 → s.dieHeld (dieOfBlock b.toNat) = false →
        (s.takeCtx m = none → Writes c s m .poolProbeSel pool Ab.cmdBusy s) ∧
        (∀ s1 n, s.takeCtx m = some (s1, n) → ∃ u, Writes c s m .poolProbeSel pool 0 u ∧
          u.ctxReg n (Obj.poolProbeSel.key pool) = b.toNat ∧
          u.ctxReg n (Obj.poolProbe.key pool) = (s.alloc b.toNat).image / 65536 ∧
          u.ctxReg n (Obj.poolProbeOwner.key pool) = (s.alloc b.toNat).image % 65536 ∧
          (∀ j k, k < 2 ^ 48 → (j ≠ n ∨ k ∉ [Obj.poolProbeSel.key pool, Obj.poolProbe.key pool, Obj.poolProbeOwner.key pool]) →
            u.ctxReg j k = s.ctxReg j k) ∧ Touches [.catalogue] s u)))

/-- R295: the order in which two records enter a merge has no effect on what the merge says, for records whose hits have
different call numbers. -/
def Obligations.MergeOrderFree : Prop :=
  ∀ a b c : CandRec, (a.hit = true → b.hit = true → a.call ≠ b.call) → (b.hit = true → c.hit = true → b.call ≠ c.call) →
    (a.hit = true → c.hit = true → a.call ≠ c.call) →
    let x := mergeRec (mergeRec a b) c
    let y := mergeRec (mergeRec a c) b
    let z := mergeRec (mergeRec c b) a
    x.hit = y.hit ∧ x.hit = z.hit ∧ x.incomplete = y.incomplete ∧ x.incomplete = z.incomplete ∧ x.error = y.error ∧
    x.error = z.error ∧ x.count = y.count ∧ x.count = z.count ∧ (x.hit = true → x = y ∧ x = z)

/-- CANDIDATE (R291, R303 to R305, R312) ends in a next state for every frame, 4 cycles after the frame's last granule: a frame
from a live member of its generation joins the merge of the instruction it matches, once per sender, the earliest accepted
first, as long as the merge is open in the cycle the frame arrives; one without a match waits; the rest are dropped and counted by
the first row that applies. A held die's port counts and drops, and no exchange takes place before CLUSTER (R21, R307; log 77). A
frame that a close of its cycle has taken in has no effect again (log 84). -/
def Obligations.CandidateRows : Prop :=
  ∀ (s : State) (port : Fin 32) (f : Frame),
    let c := Instr.candidate port f
    let r := s.fromLink port f 4
    let s0 := r.2.at (r.1 + 4)
    let h := candHdr f.hdr
    let newer := (h.smgen + 256 - s0.mgen) % 256
    let m := (s0.viewAt s0.now).obj .casMember 0 0 h.sender
    let own := h.sender = s0.device ∧ 1 ≤ newer ∧ newer ≤ 127
    let known := nbit m 15 = true ∧ m % 256 = h.smgen
    let ms := s0.search.flight.filter fun x => x.matchesCand h
    let opens := ms.filter fun x => x.open? (r.1 + 4)
    let gone := ∃ e ∈ s0.search.tails, s0.now < e.last ∧ e.matchesCand h = true
    let fresh := opens.filter fun x => x.fresh h.sender
    let goes := fun (u : State) => ∃ t, exec c s = .next t ∧ OnlyRecords u t
    let counted := fun (o : Obj) (u : State) => goes u ∧ u.reg o = wrapAdd 32 (s0.reg o) 1
    (∃ t, exec c s = .next t) ∧
    ((s.port port).early.contains f = true →
      goes (s.setPort port { s.port port with early := eraseFirst (fun x => x = f) (s.port port).early })) ∧
    ((s.port port).early.contains f = false → s0.dieHeld (dieOfPort port) = true → goes (s0.bump .portHeldDrop port)) ∧
    ((s.port port).early.contains f = false → s0.dieHeld (dieOfPort port) = false →
      (h.kind = 2 → exec c s = exec (.fence port f) s) ∧
      (h.kind = 3 → goes (s0.bump .casMisroute)) ∧
      (h.kind < 2 → s0.cas.clvalid = false → goes s0) ∧
      (h.kind < 2 → s0.cas.clvalid = true → s0.cas.quarantined = true ∨ s0.quiet = true → goes (s0.bump .casQuarDrop)) ∧
      (h.kind < 2 → s0.cas.clvalid = true → s0.cas.quarantined = false → s0.quiet = false →
        (h.dest ≠ s0.device → goes (s0.bump .casMisroute)) ∧
        (h.dest = s0.device → own → ∃ u, goes u ∧ u.cas.quarantined = true ∧ Touches [.cas] s0 u) ∧
        (h.dest = s0.device → ¬ own → ¬ known → ∃ u, counted .casStale u ∧ u.search = s0.search ∧ u.cas.pend = s0.cas.pend ∧
          RegsBut [Obj.casStale.key, Obj.casFenceTx.key, Obj.portTxDiscard.key port] s0 u ∧
          Touches [.cas, .regs, .ports] s0 u) ∧
        (h.dest = s0.device → ¬ own → known →
          (∀ x p, earliest fresh = some x → x.cas = some p → ∃ u, goes u ∧
            u.flight? x.id = some { x with cas := some { p with
              senders := p.senders ++ [h.sender],
              recs := p.recs ++ (f.body.map recOf).filter fun r => r.2.edition = x.edition && p.lookups.contains r.1 } } ∧
            (fresh.length ≤ 1 → u.reg .casAmbig = s0.reg .casAmbig) ∧
            (2 ≤ fresh.length → u.reg .casAmbig = wrapAdd 32 (s0.reg .casAmbig) 1) ∧
            RegsBut [Obj.casMisroute.key, Obj.casEdMismatch.key, Obj.casAmbig.key] s0 u ∧ Touches [.search, .regs] s0 u) ∧
          (fresh = [] →
            (opens ≠ [] → goes (s0.bump .casDup)) ∧
            (opens = [] → ms ≠ [] ∨ gone → ∃ u, counted .casLate u ∧ u.search = s0.search ∧ RegsBut [Obj.casLate.key] s0 u ∧
              Touches [.cas, .regs] s0 u) ∧
            (opens = [] → ms = [] → ¬ gone → 4096 ≤ s0.cas.pend.length → goes (s0.bump .casPendFull)) ∧
            (opens = [] → ms = [] → ¬ gone → s0.cas.pend.length < 4096 →
              goes { s0 with cas := { s0.cas with pend := s0.cas.pend ++ [⟨s0.now, port, f⟩] } })))))

/-- FENCE (R311): the device named quarantines when the fence is against its present generation and the one expected is
newer or unknown; a fence for another device is misrouted, any other is ignored and counted; none acts before CLUSTER
(log 77), and a held die's port counts and drops it. CAS_ORPHAN (R304):
frames that have waited 10,240 cycles leave the pending store and are counted; younger ones stay. -/
def Obligations.FencesAndOrphans : Prop :=
  (∀ (s : State) (port : Fin 32) (f : Frame),
      let r := s.fromLink port f 4
      let s0 := r.2.at (r.1 + 4)
      let g := f.body.headD 0
      let stale := fld g 115 108
      let newer := (fld g 107 100 + 256 - s0.mgen) % 256
      let fenced := stale = s0.mgen ∧ (fld g 107 100 = 0 ∨ (1 ≤ newer ∧ newer ≤ 127))
      ((s.port port).early.contains f = true → RunsTo (.fence port f) s
        (s.setPort port { s.port port with early := eraseFirst (fun x => x = f) (s.port port).early })) ∧
      ((s.port port).early.contains f = false → s0.dieHeld (dieOfPort port) = true → RunsTo (.fence port f) s (s0.bump .portHeldDrop port)) ∧
      ((s.port port).early.contains f = false → s0.dieHeld (dieOfPort port) = false →
        (s0.cas.clvalid = false → RunsTo (.fence port f) s s0) ∧
        (s0.cas.clvalid = true → fld g 127 116 ≠ s0.device → RunsTo (.fence port f) s (s0.bump .casMisroute)) ∧
        (s0.cas.clvalid = true → fld g 127 116 = s0.device → ¬ fenced →
          RunsTo (.fence port f) s (s0.bump .casFenceIgn)) ∧
        (s0.cas.clvalid = true → fld g 127 116 = s0.device → fenced → ∃ u, RunsTo (.fence port f) s u ∧
          u.cas.quarantined = true ∧ u.search = s0.search ∧ u.cas.pend = s0.cas.pend ∧ Touches [.cas] s0 u))) ∧
  (∀ s : State, (s.cas.pend = [] → exec .casOrphan s = .next s) ∧
      (∀ p rest, s.cas.pend = p :: rest → ∃ u, exec .casOrphan s = .next u ∧ u.now = max s.now (p.arrived + 10240) ∧
        (∀ q, q ∈ u.cas.pend ↔ q ∈ s.cas.pend ∧ u.now < q.arrived + 10240) ∧
        u.reg .casOrphan = wrapAdd 32 (s.reg .casOrphan) (s.cas.pend.length - u.cas.pend.length) ∧
        RegsBut [Obj.casOrphan.key] s u ∧ Touches [.now, .cas, .regs] s u))

/-- MEMBER_SEND, COLLECTOR_CLOSE and MERGED_SEND (R299, R300, R303, R312): at its cycle a member's or collector's candidate
frame joins the transmitter of its route port, unless the exchange is barred, once; a collector's merge closes at A + L + 16 and
takes the records that arrive in that cycle or before. A close ends its cycle (log 84). -/
def Obligations.CandidatesLeave : Prop :=
  (∀ (s : State) (port : Fin 32) (tag : BitVec 8) (x : Inflight) (c : CasPart),
    s.flight? x.id = some x → (x.view.prog x.prog).stages ≤ x.nextStage →
    let dev := x.view.device s.dev.straps
    let route := routePort (routeMask x.view dev ((x.view.set c.set).target dev c.owner c.part)) (x.port / 2)
    let left := fun (merged : Bool) (u : State) =>
      u.flight? x.id = some { x with cas := some { c with sent := true } } ∧
      (∀ p, route = some p → s.casBarred = false → (s.port p).keeps = true →
        (u.port p).txc = (s.port p).txc ++ [⟨candOf dev x c merged, .cand x.id⟩]) ∧
      (s.casBarred = true ∨ route = none → u.ports = s.ports ∧ u.cat = s.cat) ∧
      Touches [.now, .search, .ports, .regs] s u
    (s.casFlight port tag.toNat (fun c => c.part = .member && !c.sent) = some (x, c) →
      ∃ u, RunsTo (.memberSend port tag) s u ∧ u.now = max s.now (x.arrived + x.lat - 44) ∧ left false u) ∧
    (s.casFlight port tag.toNat (fun c => c.part = .collector && c.closed && !c.sent) = some (x, c) →
      ∃ u, RunsTo (.mergedSend port tag) s u ∧ u.now = max s.now (x.arrived + x.lat + 20) ∧ left true u) ∧
    (s.casFlight port tag.toNat (fun c => c.part = .collector && !c.closed) = some (x, c) →
      let s1 := (List.range 32).foldl (State.earlyOn (x.arrived + x.lat + 16)) (s.at (x.arrived + x.lat + 16))
      ∀ y, s1.flight? x.id = some y → (y.view.prog y.prog).stages ≤ y.nextStage →
      ∃ u, RunsTo (.collectorClose port tag) s u ∧ u.now = max s.now (x.arrived + x.lat + 17) ∧
        u.flight? x.id = some { y with cas := some { y.cas.getD c with closed := true } } ∧ Touches [.now, .search] s1 u)) ∧
  (∀ (s : State) (p t : Nat), s.dieHeld (dieOfPort p) = true ∨
      (∀ e ∈ (s.port p).inbound, fld e.2.hdr 127 124 = 3 → (candHdr e.2.hdr).kind < 2 → t < e.1 + 4) →
      s.earlyOn t p = s)

/-- OWNER_CLOSE (R62, R68, R296 to R300): at A + L + M - 44 the owner takes the records that arrive in that cycle or before and
settles each sharded lookup from the merge of its own record and those it took: an error, a hit with the action at the winner's
pointer, or the miss action; too few devices make it INCOMPLETE. One of a stage not performed stays as it is. A close ends its
cycle (log 84). -/
def Obligations.OwnersClose : Prop :=
  ∀ (s : State) (port : Fin 32) (tag : BitVec 8) (x0 : Inflight) (c0 : CasPart),
    s.casFlight port tag.toNat (fun c => c.part = .owner && !c.closed) = some (x0, c0) →
    let t := x0.arrived + x0.lat + c0.budget - 44
    let s1 := (List.range 32).foldl (State.earlyOn t) (s.at t)
    ∀ (x : Inflight) (c : CasPart), s1.flight? x0.id = some x → x.id = x0.id → x.cas = some c → c.part = .owner →
    c.closed = false → (x.view.prog x.prog).stages ≤ x.nextStage → c.lookups.Nodup →
    let v := x.view
    let dev := v.device s1.dev.straps
    let readable := fun (p : Nat) => s1.dieHeld (dieOfBlock p) = false ∧ s1.adsBad p = false
    ∃ u y q, RunsTo (.ownerClose port tag) s u ∧ u.now = max s.now (t + 1) ∧
      u.flight? x.id = some y ∧ y.cas = some q ∧ q.closed = true ∧
      (∀ i, i ∉ c.lookups ∨ ((x.out i).performed = false ∧ (x.out i).skipped = false) → y.out i = x.out i) ∧
      (∀ i ∈ c.lookups, (x.out i).performed = true ∨ (x.out i).skipped = true →
        let w := mergedRec (v.set c.set) dev c (ownRec v dev v.mgen x c.status i) i
        let d := v.lkp x.prog i
        let here := w.device = dev
        let ok := s1.ptrCheck s1.view (v.set c.set).room w.ptr (w.plen + 1)
        let inline := d.kind = 2 ∧ (v.em d.table).inline = true ∧ here
        (y.out i).incomplete = w.incomplete ∧
        (w.error = true → (y.out i).error = true ∧ y.error = true) ∧
        (w.error = false → w.hit = false →
          (d.miss = 0 ∨ 3 ≤ d.miss → (y.out i).hit = false ∧ (y.out i).supplied = false) ∧
          (d.miss = 1 → readable d.defptr → (y.out i).hit = false ∧ (y.out i).defaulted = true ∧
            (y.out i).b0 = s1.adsBlock d.defptr) ∧
          (d.miss = 2 → (y.out i).hit = false ∧ (y.out i).defaulted = true ∧
            (y.out i).b0 = BitVec.ofNat 128 (v.obj .portDefact x.port))) ∧
        (w.error = false → w.hit = true → ¬ here → ok ≠ none → ok ≠ some 0x64 → (y.out i).error = true) ∧
        (w.error = false → w.hit = true → inline → (y.out i).supplied = true ∧ (y.out i).b0 = (x.out i).b0) ∧
        (w.error = false → w.hit = true → here ∨ ok = none ∨ ok = some 0x64 → ¬ inline → readable w.ptr →
          (y.out i).hit = true ∧ (y.out i).supplied = true ∧ (y.out i).tie = w.tie ∧ (y.out i).loc = w.call ∧
            (y.out i).b0 = s1.adsBlock w.ptr)) ∧
      RegsBut [Obj.casPtrBad.key] s1 u ∧ Touches [.now, .search, .regs] s1 u

/-- How a link comes up (R30, R258 to R261, R271, R272, R274, R278, R280): LINK_BRING_UP starts a port with a role;
LINK_ALIGNED takes it to the step it has reached, no further than step 3 with a mapping of lanes that is neither in order
nor reversed and than step 4 with more than 4.0 ns of skew, and after step 4 shows its lanes and latencies and begins HELLO
with fresh credits; a valid HELLO is taken and shown, an IDLE after it makes the port UP and returns lost credit, and the
port of a held die counts and drops both; LINK_FAIL fails a port that is not UP 200 ms later, with the step it had reached,
and the start with a required one, and so does an IDLE that comes after them; LINK_RESTART starts a failed port 1 s later. That a
HELLO on an UP port starts the 200 ms again is the model's choice (log 62). -/
def Obligations.LinksComeUp : Prop :=
  ∀ (s : State) (port : Fin 32),
    let q := s.port port
    let held := s.dieHeld (dieOfPort port)
    let begun := fun (now : Nat) => { q with st := if s.role port = 0 then .off else .training, step := 1, begun := now,
                                             helloValid := false, helloSent := false, helloErr := false }
    (q.st = .off → s.role port ≠ 0 → s.dev.diesUp = true → RunsTo (.linkBringUp port) s (s.setPort port (begun s.now))) ∧
    (q.st ≠ .off ∨ s.role port = 0 ∨ s.dev.diesUp = false → exec (.linkBringUp port) s = .next s) ∧
    (∀ (a : Sys2Proof.Alignment) (rx tx : Fin 3),
      let k := alignStep a
      let step := max q.step k
      (a.laneOf.map Fin.val ≠ List.range 8 → a.laneOf.map Fin.val ≠ (List.range 8).reverse → k ≤ 3) ∧
      (4000 < a.skew → k ≤ 4) ∧
      (q.st = .training ∨ q.st = .aligning → k < 5 → exec (.linkAligned port a rx tx) s =
        .next (s.setPort port { q with step := step, st := if 3 ≤ step then .aligning else .training })) ∧
      (q.st = .training ∨ q.st = .aligning → 5 ≤ k → ∃ u, RunsTo (.linkAligned port a rx tx) s u ∧
        u.reg .portLanes port = a.precoding.toNat * 65536 + b2n (lanesReversed a) * 256 + a.inverted.toNat ∧
        u.reg .portLat port = (99 + rx.val) * 65536 + 59 + tx.val ∧
        u.port port = ({ q.freshCredits with st := if held then .held else .hello, step := 5, helloValid := false,
                                             helloSent := false, helloErr := false, resync := false } : Port).firstBlock s.now ∧
        RegsBut [Obj.portLanes.key port, Obj.portLat.key port] s u ∧ PortFrame port [.regs] s u) ∧
      (q.st ≠ .training → q.st ≠ .aligning → exec (.linkAligned port a rx tx) s = .next s)) ∧
    (q.st = .held ∨ (q.st = .up ∨ q.st = .hello) ∧ held = true → ∀ f,
      RunsTo (.hello port f) s (s.bump .portHeldDrop port) ∧ RunsTo (.idle port f) s (s.bump .portHeldDrop port)) ∧
    (∀ f, q.st = .hello → held = false →
      let c := credit f.hdr
      let why := helloCheck (s.role port) c
      (why = 0 → ∃ u, RunsTo (.hello port f) s u ∧
        (u.port port).queues = { q.queues with helloValid := true, peerFreed1 := c.rxfreed1, peerFreed3 := c.rxfreed3 } ∧
        (q.helloValid = false → (u.port port).helloSent = q.helloSent) ∧ Padded port s u ∧
        u.reg .portPeer port = pack [(12, c.device), (5, c.port), (2, c.role), (4, c.version), (9, 0)] ∧
        u.reg .portPeerLimit port = c.limit1 * 256 + c.limit3 ∧
        RegsBut [Obj.portPeer.key port, Obj.portPeerLimit.key port] s u ∧ PortFrame port [.regs, .wire] s u) ∧
      (why ≠ 0 → q.helloErr = true → RunsTo (.hello port f) s s) ∧
      (why ≠ 0 → q.helloErr = false → Logs (.hello port f) s (s.setPort port { q with helloErr := true })
        (if why = 1 then .linkVersion else if why = 2 then .linkRole else .linkLimit))) ∧
    (∀ f, q.st = .up → held = false → helloCheck (s.role port) (credit f.hdr) = 0 →
      ∃ u, Logs (.hello port f) s u .linkReset ∧ (u.port port).st = .hello ∧ (u.port port).helloValid = true ∧
        (u.port port).downAt = s.now ∧ (u.port port).begun = s.now ∧
        (u.port port).txsent1 = 0 ∧ (u.port port).txsent3 = 0 ∧ (u.port port).rxcount1 = 0 ∧ (u.port port).rxcount3 = 0 ∧
        (u.port port).tx1 = q.tx1 ∧ (u.port port).tx3 = q.tx3 ∧ (u.port port).rx1 = q.rx1 ∧ (u.port port).rx3 = q.rx3 ∧
        Padded port s u ∧
        RegsBut [Obj.portPeer.key port, Obj.portPeerLimit.key port] s u ∧ PortFrame port [.regs, .wire] s u) ∧
    (∀ f, q.st = .up ∨ (q.st = .hello ∧ q.helloValid = true ∧ s.now ≤ q.begun + 200 * Config.msec ∧
        s.boot.attempt.active = false) → held = false →
      let c := credit f.hdr
      let n1 := lostCredit c.txsent1 q.rxcount1
      let n3 := lostCredit c.txsent3 q.rxcount3
      ∃ u, RunsTo (.idle port f) s u ∧ (u.port port).core.queues =
          { q.core.queues with st := .up, step := if q.st = .up then q.step else 6, everUp := q.everUp || (q.st = .hello),
                               rxcount1 := q.rxcount1 + BitVec.ofNat 16 n1, rxfreed1 := q.rxfreed1 + BitVec.ofNat 16 n1,
                               rxcount3 := q.rxcount3 + BitVec.ofNat 16 n3, rxfreed3 := q.rxfreed3 + BitVec.ofNat 16 n3,
                               peerFreed1 := c.rxfreed1, peerFreed3 := c.rxfreed3 } ∧
        (q.st = .up → u.wire = s.wire) ∧ Padded port s u ∧
        (n1 + n3 ≠ 0 → u.reg .portCreditLost port = wrapAdd 32 (s.reg .portCreditLost port) (n1 + n3)) ∧
        (n1 + n3 = 0 → u.reg .portCreditLost port = s.reg .portCreditLost port) ∧
        RegsBut [Obj.portCreditLost.key port] s u ∧ PortFrame port [.regs, .wire] s u) ∧
    (∀ f, q.st = .hello → held = false →
      (q.helloValid = false → RunsTo (.idle port f) s s) ∧
      (q.helloValid = true → s.now ≤ q.begun + 200 * Config.msec →
        ∃ t, exec (.idle port f) s = .next t ∧ (t.port port).st = .up) ∧
      (q.helloValid = true → q.begun + 200 * Config.msec < s.now → s.boot.attempt.active = false →
        ∃ t, exec (.idle port f) s = .next t ∧ (t.port port).st = .failed ∧ (t.port port).failedAt = s.now)) ∧
    (let now := max s.now (q.begun + 200 * Config.msec)
      let waits := s.required port = true ∧ s.boot.attempt.active = true
      let failed := ∃ t, exec (.linkFail port) s = .next t ∧ t.now = now ∧ t.boot.attempt.active = false ∧
        t.boot.attempt.ended = true ∧ t.boot.attempt.fails = min 255 (s.boot.attempt.fails + 1)
      (q.st = .training ∨ q.st = .aligning ∨ q.st = .hello → waits → failed) ∧
      (q.st = .training ∨ q.st = .aligning ∨ q.st = .hello → ¬ waits →
        let u := { s with now := now }.setPort port { q with st := .failed, failedAt := now }
        ∃ t, exec (.linkFail port) s = .next t ∧ OnlyRecords u t ∧ (u.ringOpen 16 →
          ∃ x ∈ (t.ring 16).recs, x.code = BitVec.ofNat 16 Code.linkFail.num ∧ x.detail = detailOf [(8, q.step)])) ∧
      (q.st = .off ∨ q.st = .held → waits → failed) ∧
      (q.st = .off ∨ q.st = .held → ¬ waits → exec (.linkFail port) s = .next s) ∧
      (q.st = .up ∨ q.st = .failed → exec (.linkFail port) s = .next s)) ∧
    (q.st = .failed →
      let now := max s.now (q.failedAt + Config.sec)
      RunsTo (.linkRestart port) s ({ s with now := now }.setPort port (begun now))) ∧
    (q.st ≠ .failed → exec (.linkRestart port) s = .next s)

/-- Links that go down (R257, R262, R269, R280): lost synchronisation, too many uncorrectable codewords and a RETRAIN from the
host take a port from UP to step 1 of bring-up, discard and count the frames that wait, and end its session; a codeword with
more than 15 symbols in error is uncorrectable, and in the others the symbols corrected are counted; LINK_DROP records the
frames dropped since the last record. -/
def Obligations.LinksGoDown : Prop :=
  ∀ (s : State) (port : Fin 32),
    let q := s.port port
    let n := q.tx1.length + q.txc.length + q.tx3.length + q.push.length
    let limit := s.reg .portUncorrLimit port
    let down := fun (s u : State) (l : List Nat) =>
      (u.port port).st = (if s.role port = 0 then .off else .training) ∧ (u.port port).step = 1 ∧
      (u.port port).begun = s.now ∧ (u.port port).downAt = (if q.st = .up then s.now else q.downAt) ∧
      (u.port port).tx1 = [] ∧ (u.port port).tx3 = [] ∧
      (u.port port).txc = [] ∧ (u.port port).rx1 = q.rx1 ∧ (u.port port).rx3 = q.rx3 ∧
      (u.session (16 + port)).isOpen = false ∧ (∀ j, j ≠ 16 + port.val → u.session j = s.session j) ∧
      (q.st = .up → u.reg .portRetrain port = wrapAdd 32 (s.reg .portRetrain port) 1) ∧
      (q.st ≠ .up → u.reg .portRetrain port = s.reg .portRetrain port) ∧
      ((s.session (16 + port)).isOpen = false → n ≠ 0 →
        u.reg .portTxDiscard port = wrapAdd 32 (s.reg .portTxDiscard port) n) ∧
      ((s.session (16 + port)).isOpen = false → n = 0 → u.reg .portTxDiscard port = s.reg .portTxDiscard port) ∧
      ((s.session (16 + port)).isOpen = false → ∀ r, (u.session r) = s.session r) ∧
      RegsBut ([Obj.portRetrain.key port, Obj.portTxDiscard.key port] ++ l) s u ∧
      Padded port s u ∧ PortFrame port [.regs, .arb, .catalogue, .boot, .wire] s u
    (q.keeps = true → ∀ lane, ∃ u, RunsTo (.linkDown port lane) s u ∧ down s u [] ∧
      (q.st = .up → s.ringOpen 16 → u.recorded 16 .linkDown)) ∧
    (q.keeps = false → ∀ lane, exec (.linkDown port lane) s = .next s) ∧
    (∀ ws : List (List SymbolError),
      let wrong := fun (w : List SymbolError) => (w.map symbolIndex).eraseDups.length
      let k := (ws.filter fun w => 15 < wrong w).length
      let n := ((ws.filter fun w => wrong w ≤ 15).map wrong).sum
      (¬ (q.st = .up ∧ limit ≠ 0 ∧ limit < k) → exec (.uncorrWindow port ws) s =
        .next ((s.bumpBy k .portFecUncorr port).bumpBy n .portFecCorr port)) ∧
      (q.st = .up → limit ≠ 0 → limit < k → ∃ u, RunsTo (.uncorrWindow port ws) s u ∧
        down s u [Obj.portFecUncorr.key port, Obj.portFecCorr.key port] ∧
        u.reg .portFecUncorr port = wrapAdd 32 (s.reg .portFecUncorr port) k ∧
        u.reg .portFecCorr port = wrapAdd 32 (s.reg .portFecCorr port) n ∧
        (s.ringOpen 16 → u.recorded 16 .linkDown))) ∧
    (∀ (m : Master) (v : BitVec 32), s.CanWrite m .portCtrl port →
      let bad := v.toNat % 65536 &&& (v.toNat / 65536) &&& 0xFFFC
      let required := 2 * b2n (if nbit v.toNat 17 then nbit v.toNat 1 else nbit (s.reg .portCtrl port) 1)
      let acts := nbit v.toNat 16 = true ∧ nbit v.toNat 0 = true ∧ q.keeps = true
      (bad ≠ 0 → Writes (.retrain m port v) s m .portCtrl port Ab.range s) ∧
      (bad = 0 → ¬ acts → Writes (.retrain m port v) s m .portCtrl port 0 (s.setReg .portCtrl port 0 0 required)) ∧
      (bad = 0 → acts → ∃ u, Writes (.retrain m port v) s m .portCtrl port 0 u ∧ u.reg .portCtrl port = required ∧
        down s u [Obj.portCtrl.key port])) ∧
    (q.drops.all (· = 0) = true → exec (.linkDrop port) s = .next s) ∧
    (q.drops.all (· = 0) = false →
      let now := if q.dropLast = 0 then s.now else max s.now (q.dropLast - 1 + Config.usec)
      Logs (.linkDrop port) s
        ({ s with now := now }.setPort port { q with drops := [0, 0, 0, 0, 0], dropLast := now + 1 }) .linkDrop)

/-- FRAME_RECEIVE (R266 to R268, R274, R275): a held die's port counts and drops; on an UP port the slots of a FILL block carry
no frame, a frame that meets a row of R267 is dropped and counted under it, after a damaged block or a wrong length until a
slot that FIRST marks, and one of class 1 or 3 that passed the block checks keeps the counts in step; of the others those of
class 1 and 3 enter their buffer, SEARCH and CANDIDATE frames go on their way to intake and the merge unit (log 75), HELLO and
IDLE act at once; in HELLO only those two are taken; any other port receives nothing. SLOT_FILL and EVENT_FRAME (R214, R262, R263,
R266, R271 to R273, R277, R279, R312, R372): the slots that no command filled have gone with filler; then the transmitter sends the
frame it picks by the order of R277 from its next slot and takes it off its queue, credits spent; a command whose last frame leaves
is complete; no candidate leaves in quarantine; in HELLO the port sends HELLO until it has had one and sent one, then IDLE; a held
die's port sends slots of zeros, as does the rest of a block in which no frame may begin any more, and a block of 80 slots ends with
its trailer, half of it in each of two codewords. EVENT_FRAME queues up to seven records of one ring: that of the ring which has
waited longest is the model's choice (log 52), as is the place of blocks among the slots (log 79). -/
def Obligations.FramesInAndOut : Prop :=
  (∀ (s : State) (port : Fin 32) (f : Frame) (a : Arrival),
      let q := s.port port
      let i := Instr.frameReceive port f a
      let n := BitVec.ofNat 16 (frameLen f)
      let cls := fld f.hdr 123 122
      let ty := fld f.hdr 127 124
      let held := s.dieHeld (dieOfPort port)
      let counters := [Obj.portFrameDrop, .portCrcErr, .portLenErr, .portTypeErr, .portCreditOvr]
      let found := { q with resync := false }
      (q.st = .held ∨ (q.st = .up ∨ q.st = .hello) ∧ held = true → RunsTo i s (s.bump .portHeldDrop port)) ∧
      (q.st = .up → held = false → inFill a = true → RunsTo i s (s.setPort port { q with resync := true })) ∧
      (q.st = .up → held = false → inFill a = false →
        (∀ k, rxCheck (s.role port) q f a = some k →
          let o := counters.getD k .portCreditOvr
          ∃ u, RunsTo i s u ∧ u.reg o port = wrapAdd 32 (s.reg o port) 1 ∧
            (u.port port).drops = q.drops.modify k (· + 1) ∧ (u.port port).resync = decide (k ≤ 2) ∧
            (u.port port).rx1 = q.rx1 ∧ (u.port port).rx3 = q.rx3 ∧
            (u.port port).rxcount1 = (if 3 ≤ k ∧ cls = 1 then q.rxcount1 + n else q.rxcount1) ∧
            (u.port port).rxfreed1 = (if 3 ≤ k ∧ cls = 1 then q.rxfreed1 + n else q.rxfreed1) ∧
            (u.port port).rxcount3 = (if 3 ≤ k ∧ cls = 3 then q.rxcount3 + n else q.rxcount3) ∧
            (u.port port).rxfreed3 = (if 3 ≤ k ∧ cls = 3 then q.rxfreed3 + n else q.rxfreed3) ∧
            RegsBut [o.key port] s u ∧ PortFrame port [.regs] s u) ∧
        (rxCheck (s.role port) q f a = none →
          (catDropped port f = true → ∃ u, RunsTo i s u ∧ u.reg .catDrop = wrapAdd 32 (s.reg .catDrop) 1 ∧
            u.port port = { found with rxcount1 := q.rxcount1 + n, rxfreed1 := q.rxfreed1 + n } ∧
            RegsBut [Obj.catDrop.key] s u ∧ PortFrame port [.regs] s u) ∧
          (catDropped port f = false →
            (cls = 1 → RunsTo i s (s.setPort port { found with rxcount1 := q.rxcount1 + n, rx1 := q.rx1 ++ [f] })) ∧
            (cls = 3 → RunsTo i s (s.setPort port { found with rxcount3 := q.rxcount3 + n, rx3 := q.rx3 ++ [f] })) ∧
            (ty = 1 ∨ ty = 3 → RunsTo i s (s.setPort port { found with inbound := q.inbound ++ [(s.now, f)] })) ∧
            (ty = 0 → fld f.hdr 111 108 = 1 → exec i s = exec (.hello port f) (s.setPort port found)) ∧
            (ty = 0 → fld f.hdr 111 108 ≠ 1 → exec i s = exec (.idle port f) (s.setPort port found))))) ∧
      (q.st = .hello → held = false →
        (inFill a = false → rxCheck (s.role port) q f a = none → ty = 0 →
          exec i s = if fld f.hdr 111 108 = 1 then exec (.hello port f) s else exec (.idle port f) s) ∧
        (inFill a = true ∨ rxCheck (s.role port) q f a ≠ none ∨ ty ≠ 0 → RunsTo i s s)) ∧
      (q.st = .off ∨ q.st = .training ∨ q.st = .aligning ∨ q.st = .failed → exec i s = .next s)) ∧
  (∀ (s : State) (port : Fin 32),
      let st := (s.port port).st
      let held := s.dieHeld (dieOfPort port)
      let k := max (5 * s.now) (s.port port).txSlot
      let s1 := (s.at (k / 5)).completeDue
      let s2 := s1.padTo port k
      let q := s2.port port
      let room := s2.roomAt port k
      let zero := held = true ∨ q.mayBegin = false
      let sends := fun (f : Frame) (q' : Port) (l : List Piece) (u : State) => exec (.slotFill port) s = .next u ∧
        u.now = max s.now (k / 5) ∧ Sent port k f s2 u ∧ (u.port port).queues = { q'.queues with txSlot := k + frameLen f } ∧
        PortFrame port (.wire :: l) s2 u
      let zeros := fun (q' : Port) => ∃ u, exec (.slotFill port) s = .next u ∧ u.now = max s.now (k / 5) ∧
        (let t := blockTrailer q.blkFirst (q.blk ++ [0])
         u.wire = (if q.blk.length < 79 then [] else [⟨80 * q.blkNo + 80, port, .sub (t.extractLsb' 0 20)⟩,
          ⟨80 * q.blkNo + 40, port, .sub (t.extractLsb' 20 20)⟩]) ++ ⟨k, port, .zero⟩ :: s2.wire) ∧
        (u.port port).queues = { q'.queues with txSlot := k + 1 } ∧ PortFrame port [.wire] s2 u
      let noted := fun (u : State) => (s.port port).blk.length < 80 → (u.port port).lastIdle = k ∧
        (u.port port).freedSent1 = q.rxfreed1 ∧ (u.port port).freedSent3 = q.rxfreed3
      let finished := fun (d : TxDone) (u : State) => ∀ r, u.queue r = (match d with
        | .cmd r' id => if r' = r then (s2.queue r).filter (fun c => c.id ≠ id) else s2.queue r
        | _ => s2.queue r)
      (Padded port s1 s2 ∧ q.queues = (s1.port port).queues ∧ PortFrame port [.wire] s1 s2) ∧
      (st = .held → zeros q) ∧ (st = .hello → zero → zeros q) ∧
      (st = .up →
        let p := if s2.cas.quarantined || s2.quiet then { q with txc := [] } else q
        let pick := p.pick (s2.role port) (s2.reg .portPeerLimit port) room k
        (zero → zeros p) ∧
        (¬ zero → q.owesHello = true → 0 < room →
          ∃ u, sends (creditFrame (s2.ownHello port)) p [] u ∧ noted u) ∧
        (¬ zero → q.owesHello = false ∨ room = 0 →
          (pick = .none → ∃ u, exec (.slotFill port) s = .next u ∧ u.port port = p ∧ PortFrame port [] s2 u) ∧
          (pick = .idle → ∃ u, sends (creditFrame p.ownIdle) p [] u ∧ noted u) ∧
          (∀ f l, pick = .cand → p.txc = f :: l → ∃ u, sends f.frame { p with txc := l } [.search] u ∧
            (∀ id, f.done = .cand id → (id, (k + frameLen f.frame - 1) / 5) ∈ u.search.cands) ∧
            u.search.flight = s2.search.flight) ∧
          (∀ f l, pick = .one → p.tx1 = f :: l → ∃ u,
            sends f.frame { p with tx1 := l, txsent1 := p.txsent1 + BitVec.ofNat 16 (frameLen f.frame) } [.arb] u ∧
            finished f.done u) ∧
          (∀ f l, pick = .three → p.tx3 = f :: l → ∃ u,
            sends f.frame { p with tx3 := l, txsent3 := p.txsent3 + BitVec.ofNat 16 (frameLen f.frame) } [.arb] u ∧
            finished f.done u)) ∧
        (s2.cas.quarantined = true ∨ s2.quiet = true → pick ≠ .cand) ∧
        (∀ f l, p.txc = f :: l → frameLen f.frame ≤ room → pick = .cand) ∧
        (∀ f l, p.txc = [] → s2.role port = 1 → p.creditDue k = false → p.tx1 = f :: l → frameLen f.frame ≤ room →
          (p.txsent1 - p.peerFreed1).toNat + frameLen f.frame ≤ s2.reg .portPeerLimit port / 256 → pick = .one)) ∧
      (st = .hello → ¬ zero →
        ((q.helloValid && q.helloSent) = true → ∃ u, sends (creditFrame q.ownIdle) q [] u ∧ noted u) ∧
        ((q.helloValid && q.helloSent) = false → ∃ u, sends (creditFrame (s2.ownHello port)) q [] u ∧ noted u ∧
          ((s.port port).blk.length < 80 → (u.port port).helloSent = q.helloValid)))) ∧
  (∀ (s : State) (port : Fin 32),
      let q := s.port port
      (∀ x l, q.st = .up → q.push = x :: l →
        let mine := (q.push.filter fun y => y.ring = x.ring).take 7
        exec (.eventFrame port) s = .next (s.setPort port { q with
          push := q.push.filter (fun y => !mine.contains y), lost := sput (fun _ => 0) q.lost x.ring 0,
          tx3 := q.tx3 ++ [⟨eventFrame x.ring s.device (sget (fun _ => 0) q.lost x.ring) mine, .none⟩] })))

/-- How a request is judged before its own checks (R325, R326, R330, R333, R334), shown for READ_REQ, WRITE_REQ, MBX_REQ,
SEG_INIT and ABORT: one that does not reach the device has no effect but on the bus, a fifth outstanding one is
answered CMD_BUSY, a short one BAD_PDU; under a proved session a repetition is answered again with every PDU of its response
and not performed, and a wrong TAG changes no object and ends the session at the eighth in a row. -/
def Obligations.RequestsGuarded : Prop :=
  ∀ (s : State) (q : Pdu),
    let guard := fun (c : Instr) (service layout i b : Nat) =>
      let r := (s.reach q service).1
      let tag := (q.bytes.drop layout).take 4
      ((s.reach q service).2 = false → RunsTo c s r) ∧
      ((s.reach q service).2 = true →
        (4 ≤ r.outstanding q.master → RunsTo c s (r.sendPdu (r.abortPdu q i b Ab.cmdBusy))) ∧
        (r.outstanding q.master < 4 →
          (r.provedOf q.master = none → q.bytes.length < layout → RunsTo c s (r.sendPdu (r.abortPdu q i b Ab.badPdu))) ∧
          (∀ n, r.provedOf q.master = some n →
            (q.bytes.length < layout + 4 → RunsTo c s (r.sendPdu (r.abortPdu q i b Ab.badPdu))) ∧
            (layout + 4 ≤ q.bytes.length →
              (∀ l, r.repeats (r.session n) q (q.bytes.take layout) tag = some l →
                RunsTo c s (l.rsp.foldl State.sendPdu (r.bump .catDup))) ∧
              (r.repeats (r.session n) q (q.bytes.take layout) tag = none →
                tag ≠ (r.session n).tag (pduIdent q) (q.bytes.take layout) →
                ∃ u, RunsTo c s u ∧ u.cat.last = s.cat.last ∧ u.cat.force = s.cat.force ∧ u.cat.staged = s.cat.staged ∧
                  u.cat.lastReqs = s.cat.lastReqs ∧
                  (7 ≤ (r.session n).macFails → (u.session n).isOpen = false) ∧
                  ((r.session n).macFails < 7 →
                    u.session n = { r.session n with macFails := (r.session n).macFails + 1 }))))))
    guard (.readReq q) 1 4 (indexOf q 0) (byteOf q 2) ∧
    guard (.writeReq q) 3 (4 + byteOf q 3) (indexOf q 0) (byteOf q 2) ∧
    guard (.mbxReq q) 9 4 (indexOf q 0) (byteOf q 2) ∧
    guard (.segInit q) 5 8 (indexOf q 1) (byteOf q 3) ∧
    guard (.abort q) 0xB 4 (indexOf q 0) (byteOf q 2)

/-- Accepted READ_REQ, WRITE_REQ and MBX_REQ (R320, R333, R336, R339, R345, R350, R378, R381): a read is answered by the first
row of R320 that applies, an object without a rule of its own with its staged value, its value in the master's context, or
its register, as it was before a write of the same cycle; one that the management core serves and does not answer in time
with FIRMWARE (log 94); a write does what REGISTER_WRITE does and is answered with its code, one of more than 32 bytes with
TYPE_LENGTH; MBX_REQ is answered with a snapshot. BAD_PDU answers a reserved service and a SESSION_REQ without a service of
its own with ABORT (log 95). -/
def Obligations.AccessesByPdu : Prop :=
  ∀ (s s1 : State) (q : Pdu),
    let i := indexOf q 0
    let b := byteOf q 2
    let m := q.master
    let value := fun (service : Nat) (a : Answer) =>
      [s1.respond q service (naming i b ++ [byte a.code, byte a.bytes.length] ++ a.bytes)]
    let data := (q.bytes.take (4 + byteOf q 3)).drop 4
    let bad := if q.service = 0x11 then q.bytes = [] ∨ byteOf q 0 ∉ [1, 2, 3]
      else q.service.toNat ∉ [0x01, 0x03, 0x05, 0x07, 0x08, 0x09, 0x0B, 0x0E] ∧ deviceService q.service.toNat = false
    (s.Accepts q 1 4 true s1 → let s2 := s1.settled i b
      ∃ v a, Answers (.readReq q) s q 1 4 true i b v (value 2 a) ∧ v.cat.regs = s2.cat.regs ∧
      v.cat.force = s2.cat.force ∧ v.cat.staged = s2.cat.staged ∧ Touches [.catalogue, .free] s2 v ∧
      (∀ c, s2.place i b = .error c → a = ⟨c, []⟩) ∧
      (∀ p, s2.place i b = .ok p →
        let ty := p.obj.row.ty
        let late := p.obj.byFirmware && Config.freeBool s2.free
        let plain := s2.readGrant m p = .ok ∧ ty ≠ .mbx ∧ ty.size ≤ 32
        (∀ c, s2.readGrant m p = .refuse c → a = ⟨c, []⟩) ∧
        (s2.readGrant m p = .zero → p.obj.readSize ≤ 32 → a = ⟨0, List.replicate p.obj.readSize 0⟩) ∧
        (s2.readGrant m p = .ok → ty = .mbx → a = ⟨Ab.mbxOnly, []⟩) ∧
        (s2.readGrant m p = .ok → ty ≠ .mbx → 32 < ty.size → a = ⟨Ab.typeLength, []⟩) ∧
        (plain → late = true → a = ⟨Ab.firmware, []⟩) ∧
        (plain → late = false → s2.sameCycle m = [] → s2.readOwn m p = none → s2.readRooms p = none →
          s2.readDevice m p = none → a = ⟨0, ty.bytes (if p.obj.row.s then s2.stagedKey (s2.keyAt m p)
            else if p.obj.perContext then s2.ownReg m p.obj p.inst else s2.reg p.obj p.inst p.off)⟩) ∧
        (∀ w x l, plain → late = false → p.obj.row.s = false → sharedKey (s2.keyAt m p) = true → s2.sameCycle m = w :: l →
          w.key = s2.keyAt m p → w.old = some x → (∃ y, s2.readObj m p = .ok y) → a = ⟨0, ty.bytes x⟩))) ∧
    (s.Accepts q 3 (4 + byteOf q 3) true s1 → ∃ v,
      Answers (.writeReq q) s q 3 (4 + byteOf q 3) true i b v [v.respond q 4 (naming i b ++ [byte v.lastCode])] ∧
      (byteOf q 3 ≤ 32 → RunsTo (.registerWrite m (BitVec.ofNat 16 i) (BitVec.ofNat 8 b) data) s1 v) ∧
      (∀ p, 32 < byteOf q 3 → s1.reached m = true → s1.place i b = .ok p → s1.writeGrant m p = 0 → p.obj.row.ty ≠ .mbx →
        v.lastCode = Ab.typeLength ∧ v.cat.staged = s1.cat.staged ∧ v.cat.regs = s1.cat.regs ∧ Touches [.catalogue] s1 v)) ∧
    (s.Accepts q 9 4 true s1 →
      let ends := fun (a : Answer) => Answers (.mbxReq q) s q 9 4 true i b s1 (value 0xA a)
      (∀ c, s1.mbxPick m i b = .refuse c → ends ⟨c, []⟩) ∧
      (∀ n, s1.mbxPick m i b = .zeros n → ends ⟨0, List.replicate n 0⟩) ∧
      (∀ p, s1.mbxPick m i b = .take p → ends (s1.mbxBytes m p))) ∧
    (¬ bad → exec (.badPdu q) s = .next s) ∧
    (bad → let r := (s.reach q q.service.toNat).1
      ((s.reach q q.service.toNat).2 = true → RunsTo (.badPdu q) s (r.sendPdu (r.abortPdu q i b Ab.badPdu))) ∧
      ((s.reach q q.service.toNat).2 = false → RunsTo (.badPdu q) s r))

/-- Accepted SEG_INIT, SEG_DATA, SEG_ACK and ABORT, and TIMEOUT (R335): a download collects segments in order,
acknowledges every eighth, and writes the object when its last one is in; an upload sends its first window and goes
on at each ACK; a segment or ACK out of order and a gap of 100 ms end the transfer with an ABORT. An image's download
begins when the management core answers in time (R378; log 94), and its segments (R417) have a rule of their own. BAD_PDU
for a DIR above 1 and for more than 59 data bytes, CMD_BUSY for a second SEG_INIT, TYPE_LENGTH for types that are not segmented
and SEG_SIZE for surplus bytes are the model's choices (log 56). -/
def Obligations.Transfers : Prop :=
  ∀ (s s1 : State) (q : Pdu),
    let m := q.master
    (let i := indexOf q 1
     let b := byteOf q 3
     let size := ofBytesLE ((q.bytes.take 8).drop 4)
     let image := i = 0xF000 ∧ b = 0x21
     let rsp := fun (c n : Nat) => s1.respond q 6 (naming i b ++ [byte c] ++ bytesLE 4 n ++ [8])
     let ends := fun (v : State) (r : List Pdu) => Answers (.segInit q) s q 5 8 true i b v r
     let begun : Transfer := ⟨m, true, i, b, size, 0, s.now, [], 0, q⟩
     s.Accepts q 5 8 true s1 →
      (2 ≤ byteOf q 0 → ends s1 [s1.abortPdu q i b Ab.badPdu]) ∧
      (byteOf q 0 < 2 → s1.transferOf m ≠ none → ends s1 [rsp Ab.cmdBusy 0]) ∧
      (byteOf q 0 = 0 → s1.transferOf m = none →
        let c := s1.downloadCode m i b size
        (c ≠ 0 → ends s1 [rsp c size]) ∧
        (c = 0 → ¬ image → ∃ v, ends v [rsp 0 size] ∧ v.transferOf m = some begun ∧
          (∀ m', m' ≠ m → v.transferOf m' = s1.transferOf m') ∧ Touches [.catalogue] s1 v) ∧
        (c = 0 → image → ∃ v,
          ends v [rsp (if Config.freeBool s1.free then Ab.firmware else 0) size] ∧
          v.transferOf m = (if Config.freeBool s1.free then none else some begun) ∧
          (Config.freeBool s1.free = false → v.boot.upd.busy = true ∧ v.boot.upd.received = 0) ∧
          (∀ m', m' ≠ m → v.transferOf m' = s1.transferOf m') ∧ Touches [.catalogue, .boot, .free] s1 v)) ∧
      (byteOf q 0 = 1 → s1.transferOf m = none →
        let a := (s1.readAccess m false i b).2
        let n := segments a.bytes.length
        let longer := (findObj i b).map fun p => p.obj.row.ty.segmented
        (a.code ≠ 0 → ∃ v, ends v [rsp a.code 0] ∧ v.transferOf m = none ∧ Touches [.catalogue, .free] (s1.settled i b) v) ∧
        (a.code = 0 → longer = some false → ∃ v, ends v [rsp Ab.typeLength 0] ∧ v.transferOf m = none) ∧
        (a.code = 0 → longer = some true → ∃ v, ends v (rsp 0 a.bytes.length :: (List.range (min 8 n)).map fun k =>
            { s1.respond q 7 (byte (if k + 1 = n then 0x80 else 0) :: (a.bytes.drop (63 * k)).take 63) with
              seq := BitVec.ofNat 5 k }) ∧
          v.transferOf m = some ⟨m, false, i, b, a.bytes.length, min 8 n, s.now, a.bytes, 0, q⟩ ∧
          (∀ m', m' ≠ m → v.transferOf m' = s1.transferOf m')))) ∧
    (∀ t, s1.transferOf m = some t →
      let n := q.bytes.length - (if ((s.reach q 7).1.provedOf m).isSome then 4 else 0)
      let body := q.bytes.take (max 1 n)
      let ends := fun (v : State) (r : List Pdu) => Answers (.segData q) s q 7 (max 1 n) true t.index t.sub v r
      s.Accepts q 7 (max 1 n) true s1 →
        (60 < body.length → ends (s1.dropTransfer m) [s1.abortPdu q t.index t.sub Ab.badPdu]) ∧
        (body.length ≤ 60 → t.download = false ∨ t.last = 64 ∨ q.seq.toNat ≠ t.next % 32 →
          ends (s1.dropTransfer m) [s1.abortPdu q t.index t.sub Ab.sequence]) ∧
        (body.length ≤ 60 → t.download = true → t.last ≠ 64 → q.seq.toNat = t.next % 32 → t.image = false →
          let got := t.data ++ body.drop 1
          (t.size < got.length → ends (s1.dropTransfer m) [s1.abortPdu q t.index t.sub Ab.segSize]) ∧
          (got.length ≤ t.size → nbit (body.headD 0).toNat 7 = false → ∃ v,
            ends v (if t.last + 1 = 8 then [s1.respond q 8 (bytesLE 4 got.length ++ [0])] else []) ∧
            v.transferOf m = some { t with data := got, next := t.next + 1, last := (t.last + 1) % 8, since := s.now,
                                           req := q } ∧ Touches [.catalogue] s1 v) ∧
          (got.length ≤ t.size → nbit (body.headD 0).toNat 7 = true → t.index < 65536 → t.sub < 256 → ∃ v,
            ends v [v.respond q 8 (bytesLE 4 got.length ++ [byte v.lastCode])] ∧
            RunsTo (.registerWrite m (BitVec.ofNat 16 t.index) (BitVec.ofNat 8 t.sub) got) (s1.dropTransfer m) v))) ∧
    (∀ t, s1.transferOf m = some t →
      let body := q.bytes.take 5
      let ends := fun (v : State) (r : List Pdu) => Answers (.segAck q) s q 8 5 true t.index t.sub v r
      let n := min 8 (segments t.size - t.next)
      let fits := t.download = false ∧ ofBytesLE (body.take 4) = min t.size (63 * t.next)
      s.Accepts q 8 5 true s1 →
        (body.getD 4 0 ≠ 0 → ends (s1.dropTransfer m) []) ∧
        (body.getD 4 0 = 0 → ¬ fits → ends (s1.dropTransfer m) [s1.abortPdu q t.index t.sub Ab.sequence]) ∧
        (body.getD 4 0 = 0 → fits → segments t.size ≤ t.next → ends (s1.dropTransfer m) []) ∧
        (body.getD 4 0 = 0 → fits → t.next < segments t.size → ∃ v,
          ends v ((List.range n).map fun k =>
            { s1.respond q 7 (byte (if t.next + k + 1 = segments t.size then 0x80 else 0) ::
                (t.data.drop (63 * (t.next + k))).take 63) with seq := BitVec.ofNat 5 (t.next + k) }) ∧
          v.transferOf m = some { t with req := q, next := t.next + n, since := s.now } ∧ Touches [.catalogue] s1 v)) ∧
    (s.Accepts q 0xB 4 true s1 →
      Answers (.abort q) s q 0xB 4 true (indexOf q 0) (byteOf q 2) (s1.dropTransfer m) [] ∧
      (s1.dropTransfer m).transferOf m = none ∧
      ∀ m', m' ≠ m → (s1.dropTransfer m).transferOf m' = s1.transferOf m') ∧
    (s.transferOf m = none → exec (.timeout m) s = .next s) ∧
    (∀ t, s.transferOf m = some t →
      (t.last = 64 → exec (.timeout m) s = .next s) ∧
      (t.last ≠ 64 → ∃ u, RunsTo (.timeout m) s u ∧ u.now = max s.now (t.since + 100 * Config.msec) ∧
        u.transferOf m = none ∧ (∀ m', m' ≠ m → u.transferOf m' = s.transferOf m') ∧
        Queued t.req.master [s.abortPdu t.req t.index t.sub Ab.timeout] s u ∧
        Touches [.now, .catalogue, .boot, .bus, .ports, .regs] s u))

/-- Sessions (R321, R324, R326, R427): OPEN past its checks answers a 16-byte nonce in an unproved session, PROVE with
the right proof gives the master the level asked for and a session key, a wrong one is counted and holds the master
off, CLOSE and 60 s without a request end a session. That PROVE under a proved session fails with SESSION, and that a failed
one leaves the session open, are the model's choices (log 44). -/
def Obligations.Sessions : Prop :=
  ∀ (s s1 : State) (q : Pdu),
    let m := q.master
    let level := byteOf q 1
    let room := byteOf q 2
    let rsp := fun (op c n : Nat) (more : List Byte) => [s1.respond q 0x12 ([byte op, byte c, byte n, 0] ++ more)]
    (byteOf q 0 = 1 → s.Accepts q 0x11 4 false s1 →
      let ends := Answers (.openSession q) s q 0x11 4 false 0 0
      let c := s1.openCode m level room
      (c ≠ 0 → ends s1 (rsp 1 c 0 [])) ∧
      (c = 0 → s1.sessionOf m = none →
        (s1.freeSession m = none → ends s1 (rsp 1 Ab.sessionFull 0 [])) ∧
        (∀ n, s1.freeSession m = some n → ∃ v nonce key, ends v (rsp 1 0 n nonce) ∧ nonce.length = 16 ∧
          v.session n = ⟨true, q.src, false, level, room, key, nonce, [], 0, s.now, 0⟩ ∧
          (∀ j, j ≠ n → v.session j = s1.session j) ∧ Touches [.catalogue, .free] s1 v)) ∧
      (∀ old, c = 0 → s1.sessionOf m = some old → ∃ v n nonce key, ends v (rsp 1 0 n nonce) ∧ nonce.length = 16 ∧
        v.session n = ⟨true, q.src, false, level, room, key, nonce, [], 0, s.now, 0⟩ ∧
        (old ≠ n → (v.session old).isOpen = false) ∧ (∀ j, j ≠ n → j ≠ old → v.session j = s1.session j))) ∧
    (byteOf q 0 = 2 → s.Accepts q 0x11 52 false s1 →
      let ends := Answers (.prove q) s q 0x11 52 false 0 0
      let good := fun (n : Nat) => let x := s1.session n
        x.proved = false ∧ level = x.askLevel ∧ room = x.askRoom ∧ (q.bytes.take 52).drop 4 = s1.proofOf m x
      (∀ n, s1.sessionOf m = some n → good n → ∃ v, ends v (rsp 2 0 n []) ∧
        v.session n = { s1.session n with proved := true, sk := (hmac (s1.sessionKey level room)
          ([0x50, 0x4C, 0x4F, 0x56] ++ (s1.session n).nonce)).take 32, cnt := 0, lastUse := s.now, macFails := 0 } ∧
        v.who m = ⟨level, room⟩ ∧ (∀ j, j ≠ n → v.session j = s1.session j) ∧ Touches [.catalogue] s1 v) ∧
      ((∀ n, s1.sessionOf m = some n → ¬ good n) → ∃ v, ends v (rsp 2 Ab.session 0 []) ∧
        v.cat.sessions = s1.cat.sessions ∧ (m, s.now) ∈ v.cat.failedProve ∧
        v.reg .sesFails = wrapAdd 32 (s1.reg .sesFails) 1 ∧ RegsBut [Obj.sesFails.key] s1 v ∧
        Touches [.catalogue, .regs] s1 v)) ∧
    (byteOf q 0 = 3 → s.Accepts q 0x11 4 true s1 →
      let ends := Answers (.close q) s q 0x11 4 true 0 0
      (s1.sessionOf m = none → ends s1 (rsp 3 Ab.noSession 0 [])) ∧
      (∀ n, s1.sessionOf m = some n → ∃ v, ends v (rsp 3 0 n []) ∧ (v.session n).isOpen = false ∧
        (∀ j, j ≠ n → v.session j = s1.session j))) ∧
    (∀ op, op ∈ [(Instr.openSession q, 1), (.prove q, 2), (.close q, 3)] → byteOf q 0 ≠ op.2 → exec op.1 s = .next s) ∧
    (∀ n : Fin 48,
      ((s.session n).isOpen = false → exec (.sessionIdle n) s = .next s) ∧
      ((s.session n).isOpen = true → ∃ u, RunsTo (.sessionIdle n) s u ∧
        u.now = max s.now ((s.session n).lastUse + 60 * Config.sec) ∧ (u.session n).isOpen = false ∧
        (s.ringOpen 16 → u.recorded 16 .sesEnd) ∧ (∀ j, j ≠ n.val → u.session j = s.session j) ∧
        Touches [.now, .catalogue, .boot, .bus, .ports, .regs] s u))

/-- Sleep and wake (R341, R342, R344): an accepted SLEEP_REQ begins the wait, 5 ms of bus idle put the bus to sleep, a
due push or a dominant phase wakes it, and the WAKE EVENT goes first when the bus is active; ASLEEP is recorded as it rises and as
it falls (R358). CAN_STBY (R328, R342) is
asserted while the bus sleeps, and not in WIRED mode. -/
def Obligations.SleepAndWake : Prop :=
  ∀ (s : State),
    let b := s.bus
    (s.dev.vin = true → s.dev.vio = true → s.inReset = false →
      (s.canStby = true ↔ s.boot.otp.wired = false ∧ b.sleep = .asleep)) ∧
    (∀ s1 q, s.Accepts q 0xE 4 true s1 → ∀ n, q.master = .bus n →
      let c := s1.sleepCode q.master
      (c ≠ 0 → Answers (.sleepReq q) s q 0xE 4 true 0 0 s1 [s1.respond q 0xF [byte c]]) ∧
      (c = 0 → ∃ v, Answers (.sleepReq q) s q 0xE 4 true 0 0 v [s1.respond q 0xF [0]] ∧
        v.bus = { s1.bus with sleep := .waiting s.now, sleepMid := n.toNat } ∧ Touches [.bus] s1 v)) ∧
    (∀ q p, q.master = .port p → (s.reach q 0xE).2 = true →
      let r := (s.reach q 0xE).1
      RunsTo (.sleepReq q) s (r.sendPdu (r.abortPdu q 0 0 Ab.badPdu))) ∧
    (∀ t, b.sleep = .waiting t → s.onBus = true →
      Logs (.dbusSleep) s { s with now := max s.now (t + 5 * Config.msec), bus := { b with sleep := .asleep } } .dbusSleep) ∧
    ((∀ t, b.sleep ≠ .waiting t) ∨ s.onBus = false → exec .dbusSleep s = .next s) ∧
    (s.catalogueUp = true → b.sleep = .asleep → b.wakeDue = true →
      exec .deviceWake s = .next { s with bus := { b with sleep := .waking, wakeOwn := true } }) ∧
    (s.catalogueUp = false ∨ b.sleep ≠ .asleep ∨ b.wakeDue = false → exec .deviceWake s = .next s) ∧
    (s.catalogueUp = true → b.sleep = .asleep ∨ b.sleep = .waking →
      exec .busWake s = .next { s with bus := { b with sleep := .waking, wakeBus := true,
                                                       wakeOwn := b.wakeOwn || ((b.sleep = .asleep) && b.wakeDue) } }) ∧
    (s.catalogueUp = true → b.sleep = .waking → ∃ (u : State) (e : Pdu), Logs .busActive s u .dbusSleep ∧
      u.bus.out = b.out ++ [b.frame e] ∧
      e.service = 0xC ∧ e.bytes.getD 1 0 = 1 ∧
      (e.bytes.drop 4).take 2 = bytesLE 2 (b2n b.wakeOwn + 2 * b2n b.wakeBus + 4 * b2n (b.wakeOwn && b.wakeBus)) ∧
      u.bus.sleep = .awake ∧ u.bus.push = b.push ∧ u.bus.withheld = b.withheld ∧ Touches [.bus, .free] s u) ∧
    (s.catalogueUp = false ∨ b.sleep ≠ .waking → exec .busActive s = .next s)

/-- Faults on the bus (R327, R329, R331, R358): a discarded frame is counted, a node clash is counted and shown until 10 s
after the last one, recorded as it rises and falls and once a second while it is set, bus-off and recovery, error-passive from 128 on, protocol exceptions, and rates that take effect
later. A frame received without error lowers the receive count, one sent the transmit count (log 93); a frame received
cancels a sleep that waits (R342). A PDU leaves in the smallest CAN FD frame that holds it, padded with 0x00 (R333). PDUs that the device sends by itself (R337, R338, R342,
R373): HEARTBEAT every DBUS_HB_MS with the device's state, the FAULT, event and quarantine flags, the time and the
unread records; EVENT for the next pushed record, then for the number of pushes withheld. Their SEQ field is free
(log 46). The transmit count at bus-off, both counts 0 after BUSOFF_RECOVERY and the new wait of 5 ms after an error are the model's
choices (log 47). -/
def Obligations.BusEvents : Prop :=
  (∀ (s : State),
      let b := s.bus
      let heard : Sleep := match b.sleep with | .waiting _ => .awake | x => x
      let g := b.heardGood s.drawn
      let stirred : Sleep := match b.sleep with | .waiting _ => .waiting s.now | x => x
      (b.recv = 0 → g = b) ∧
      (b.recv ≠ 0 → b.recv.toNat ≤ 127 → g.recv = b.recv - 1) ∧
      (127 < b.recv.toNat → 119 ≤ g.recv.toNat ∧ g.recv.toNat ≤ 127) ∧
      (b.recv ≠ 0 → g.passive = decide (128 ≤ b.tec.toNat ∨ 128 ≤ g.recv.toNat)) ∧
      (∀ p : Pdu, p.bytes.length ≤ 64 →
        let f := b.frame p
        f.pdu = p ∧ f.data.take p.bytes.length = p.bytes ∧ (∀ x ∈ f.data.drop p.bytes.length, x = 0) ∧
        f.data.length ∈ [0, 1, 2, 3, 4, 5, 6, 7, 8, 12, 16, 20, 24, 32, 48, 64] ∧
        ∀ n ∈ [0, 1, 2, 3, 4, 5, 6, 7, 8, 12, 16, 20, 24, 32, 48, 64], p.bytes.length ≤ n → f.data.length ≤ n) ∧
      (s.onBus = true →
        (∀ k, ∃ u, RunsTo (.canFrameDiscard k) s u ∧ u.reg .catDrop = wrapAdd 32 (s.reg .catDrop) 1 ∧
          u.bus.core = { g.core with sleep := heard } ∧ RegsBut [Obj.catDrop.key] s u ∧ Touches [.bus, .free, .regs] s u) ∧
        (let due := b.clash = false ∨ ∀ t, b.clashRec = some t → t + Config.sec ≤ s.now
         ∃ u, RunsTo .dbusNodeClash s u ∧ u.reg .dbusNodeClash = wrapAdd 32 (s.reg .dbusNodeClash) 1 ∧
          (due → u.bus.core = { g.core with sleep := heard, clash := true, clashAt := s.now, clashRec := some s.now } ∧
            (s.ringOpen 16 → u.recorded 16 .dbusNodeClash)) ∧
          (¬ due → u.bus.core = { g.core with sleep := heard, clash := true, clashAt := s.now }) ∧
          RegsBut [Obj.dbusNodeClash.key] s u ∧ Touches [.bus, .free, .regs] s u) ∧
        (∃ u n, RunsTo .dbusBusoff s u ∧ 256 ≤ n.toNat ∧ (256 ≤ b.tec.toNat → n = b.tec) ∧
          u.bus.core = { b.core with busOff := true, passive := false, tec := n } ∧
          u.reg .dbusBusoffCnt = wrapAdd 32 (s.reg .dbusBusoffCnt) 1 ∧ (s.ringOpen 16 → u.recorded 16 .dbusBusoff) ∧
          RegsBut [Obj.dbusBusoffCnt.key] s u ∧ Touches [.bus, .free, .regs] s u) ∧
        (∀ tec rec : BitVec 16, exec (.canError tec rec) s = .next { s with bus :=
          { b with sleep := stirred, tec := tec, recv := rec, passive := decide (128 ≤ tec.toNat ∨ 128 ≤ rec.toNat) } }) ∧
        exec .protocolException s = .next { s with bus := { b with exception := true } } ∧
        (∀ r, b.rateNext = some r →
          exec .dbusRateSwitch s = .next { s with bus := { b with rateForce := r, rateNext := none } })) ∧
      (s.onBus = false → ∀ c, c ∈ [Instr.canFrameDiscard .remote, .dbusNodeClash, .dbusBusoff, .canError 0 0,
        .protocolException, .dbusRateSwitch, .heartbeat, .eventPdu] → exec c s = .next s) ∧
      (s.catalogueUp = true → b.clash = true → Logs .nodeClashClear s
        { s with now := max s.now (b.clashAt + 10 * Config.sec), bus := { b with clash := false } } .dbusNodeClash) ∧
      (s.catalogueUp = true → b.busOff = true → RunsTo .busoffRecovery s
        { s with bus := { b with sleep := stirred, busOff := false, passive := false, tec := 0, recv := 0 } }) ∧
      (s.catalogueUp = true → b.exception = true → exec .protocolExceptionEnd s =
        .next { s with bus := { b with sleep := stirred, exception := false } })) ∧
  (∀ (s : State),
      let b := s.bus
      let p := s.reg .dbusHbMs
      let host := BitVec.ofNat 8 (s.reg .dbusHost)
      let sent := fun (c : Instr) (u : State) (e : Pdu) => exec c s = .next u ∧ u.bus.out = b.out ++ [b.frame e] ∧
        (b.tec ≠ 0 → u.bus.tec = b.tec - 1) ∧ (b.tec = 0 → u.bus.tec = 0) ∧ e.master = .bus host ∧ e.dst = host ∧ e.src = BitVec.ofNat 8 s.nodeId
      (s.onBus = true → p ≠ 0 → ∃ u e, sent .heartbeat u e ∧ u.now = max s.now b.nextBeat ∧ e.service = 0xD ∧ e.prio = 6 ∧
        e.bytes = [byte s.devState, byte (b2n s.faultPin + 2 * b2n (!b.push.isEmpty || decide (0 < b.withheld)) +
          4 * b2n s.cas.quarantined)] ++ bytesLE 4 (u.now / Config.msec) ++ bytesLE 2 s.unread ∧
        u.bus.nextBeat = u.now + p * Config.msec ∧ u.bus.push = b.push ∧ Touches [.now, .bus, .free] s u) ∧
      (p = 0 → exec .heartbeat s = .next s) ∧
      (s.onBus = true → b.sleep = .awake →
        (∀ x t, b.push = x :: t → ∃ u e, sent .eventPdu u e ∧ e.service = 0xC ∧
          e.bytes = byte x.ring :: 0 :: bytesLE 2 x.seq.toNat ++ bytesBE 32 (x.item.image x.seq).toNat ∧
          u.bus.push = t ∧ u.bus.withheld = b.withheld ∧ Touches [.bus, .free] s u) ∧
        (b.push = [] → b.withheld ≠ 0 → ∃ u e, sent .eventPdu u e ∧ e.service = 0xC ∧ e.bytes.getD 1 0 = 2 ∧
          (e.bytes.drop 2).take 2 = bytesLE 2 (min b.withheld 65535) ∧ u.bus.push = [] ∧ u.bus.withheld = 0 ∧
          Touches [.bus, .free] s u) ∧
        (b.push = [] → b.withheld = 0 → exec .eventPdu s = .next s)) ∧
      (b.sleep ≠ .awake → exec .eventPdu s = .next s))

/-- What resets the device (R412, R420, R465, R478, R486, R488): PORn or SYSRSTn low for at least 3 µs, the loss of a supply, and a
boundary-test instruction leave every region but the vault reset, where a slot that is being written in that very cycle may be
damaged (log 103); a pulse below 1 µs does nothing, and one in between either (log 16). The test port resets with five TCK cycles of
TMS high, and a scan then captures IDCODE (R486, R487); EXTEST leaves the port in Run-Test/Idle, the model's choice (log 96). -/
def Obligations.Resets : Prop :=
  (∀ (t : Tap) (n : Nat) (c1 c2 c3 c4 c5 : TapClock),
    let five := [c1, c2, c3, c4, c5].foldl (fun t c => t.clock c n) t
    (c1.tms = true ∧ c2.tms = true ∧ c3.tms = true ∧ c4.tms = true ∧ c5.tms = true → five.st = .reset ∧ five.instr = .idcode) ∧
    (t.st = .captureDr → t.instr = .idcode → (t.clock c1 n).sr = (List.range 32).map fun i => nbit idcode.toNat i) ∧
    (t.st = .captureDr → t.instr = .bypass → (t.clock c1 n).sr = [false]) ∧
    (t.st = .shiftDr → (t.clock c1 n).sr = t.sr.drop 1 ++ [c1.tdi])) ∧
  ∀ s : State,
    (s.tapUp = true → s.dev.tap.instr = .idcode → ∃ w, s.tapWord = some w ∧ nbit w.toNat 0 = true ∧
      bits w.toNat 11 1 = Config.manufacturer.toNat ∧ bits w.toNat 27 12 = 0x6440 ∧
      bits w.toNat 31 28 = Config.stepping.toNat / 256 % 16) ∧
    (s.tapUp = false → s.tapWord = none ∧ s.tdo = none) ∧
    (∀ n, s.dev.porn = true ∨ n < 1000 → exec (.porn n) s = .next { s with free := s.free + 1 }) ∧
    (∀ n, s.dev.porn = false → 1000 ≤ n → ∃ u, exec (.porn n) s = .next u ∧
      ((n < 3000 ∧ u = { s with free := s.free + 1 }) ∨
        (s.Cleaned u ∧ u.dev.porn = true ∧ u.dev.sysrstn = false ∧ u.dev.boundary = false ∧ u.dev.sampled = false ∧
          u.dev.tap.st = .reset ∧ u.dev.tap.instr = .idcode))) ∧
    (let deaf := s.dev.porn = true ∨ s.dev.sysrstn = true ∨ s.dev.boundary = true ∨ s.hubPowered = false
     (∀ n, deaf ∨ n < 1000 → exec (.sysrstn n) s = .next { s with free := s.free + 1 }) ∧
     (∀ n, ¬ deaf → 1000 ≤ n → ∃ u, exec (.sysrstn n) s = .next u ∧
      ((n < 3000 ∧ u = { s with free := s.free + 1 }) ∨
        (s.Cleaned u ∧ u.dev.sysrstn = true ∧ u.dev.porn = false ∧ u.dev.sampled = s.dev.sampled ∧ u.dev.tap = s.dev.tap)))) ∧
    (∀ x, s.dev.supply x = false → exec (.supplyLoss x) s = .next s) ∧
    (∀ x, s.dev.supply x = true → ∃ u, exec (.supplyLoss x) s = .next u ∧ u.dev.supply x = false ∧
      u.dev.porn = s.dev.porn ∧ (s.hubPowered = true → s.Cleaned u ∧ u.dev.sampled = false ∧ u.dev.tap.st = .reset) ∧
      (s.hubPowered = false → Touches [.dev] s u)) ∧
    (∀ x,
      let t := { s.dev.tap with st := .idle, instr := .test x, sr := [] }
      (s.tapUp = true → s.dev.boundary = false → ∃ u, exec (.extest x) s = .next u ∧ s.Cleaned u ∧ u.dev.boundary = true ∧
        u.dev.tap = t ∧ u.catalogueUp = false) ∧
      (s.tapUp = true → s.dev.boundary = true → exec (.extest x) s = .next { s with dev := { s.dev with tap := t } }) ∧
      (s.tapUp = false → exec (.extest x) s = .next s))

/-- What begins an attempt (R364, R397, R412, R465, R478, R488): PORn released, or a supply risen, with the rest of the
power there samples the straps and starts TIME; SYSRSTn released, the end of a boundary test and an internal restart
keep them. While CLOCK is masked the attempt waits at step 2 (R476). TCK cycles act one after the other, and those that bring an
instruction which is no boundary test end one. That TIME starts again with the second supply (log 57) and that TRSTn leaves a
boundary test (log 61) are the model's choices. -/
def Obligations.AttemptsBegin : Prop :=
  ∀ (s : State) (straps : Straps) (boot : BootInput),
    let began := fun (c : Instr) (cause now : Nat) (straps : Straps) (released : State → Bool) =>
      ∃ t, exec c s = .next t ∧ t.boot.attempt.cause = cause ∧ t.boot.attempt.begun = now ∧ t.now = now ∧
        (t.boot.attempt.active = true ∨ t.boot.attempt.ended = true) ∧ t.dev.straps = straps ∧ released t = true ∧
        t.pending = s.pending ∧ t.wire = s.wire ∧ t.cat.sessions = [] ∧ t.cat.mailboxes = [] ∧
        (s.dev.vaon = true → s.vault.clockMasked = true → t.boot.attempt.waiting = some boot ∧ t.boot.attempt.step = 2)
    let allUp := fun (t : State) => !t.dev.porn && t.dev.vin && t.dev.vio
    (s.dev.porn = false → exec (.pornRelease straps boot) s = .next s) ∧
    (s.dev.porn = true → s.hubPowered = false →
      exec (.pornRelease straps boot) s = .next { s with dev := { s.dev with porn := false } }) ∧
    (s.dev.porn = true → s.hubPowered = true → began (.pornRelease straps boot) 0 0 straps allUp) ∧
    (s.dev.sysrstn = false → exec (.sysrstnRelease boot) s = .next s) ∧
    (s.dev.sysrstn = true → began (.sysrstnRelease boot) 1 s.now s.dev.straps fun t => !t.dev.sysrstn) ∧
    (s.boot.attempt.restartDue = none → exec (.internalRestart boot) s = .next s) ∧
    (∀ d, s.boot.attempt.restartDue = some d →
      began (.internalRestart boot) 2 (max s.now d) s.dev.straps fun _ => true) ∧
    (∀ x, s.dev.supply x = true → exec (.supplyRise x straps boot) s = .next s) ∧
    (∀ x, s.dev.supply x = false →
      let p := { s with dev := s.dev.setSupply x true }
      (p.hubPowered = false ∨ s.dev.porn = true → exec (.supplyRise x straps boot) s = .next p) ∧
      (p.hubPowered = true → s.dev.porn = false → began (.supplyRise x straps boot) 0 0 straps allUp)) ∧
    (s.tapUp = false → ∀ l, exec (.tapExit ⟨l, boot⟩) s = .next s) ∧
    (s.tapUp = true → exec (.tapExit ⟨[], boot⟩) s = .next s ∧
      ∀ c,
        let tap := s.dev.tap.clock c s.drawn
        (∀ l, ∃ t, exec (.tapExit ⟨[c], boot⟩) s = .next t ∧ t.dev.tap = tap ∧
          exec (.tapExit ⟨c :: l, boot⟩) s = exec (.tapExit ⟨l, boot⟩) t) ∧
        (tap.instr.isTest = s.dev.boundary → exec (.tapExit ⟨[c], boot⟩) s =
          .next { s with dev := { s.dev with tap := tap }, free := s.free + 1 }) ∧
        (tap.instr.isTest = true → s.dev.boundary = false → ∃ u, exec (.tapExit ⟨[c], boot⟩) s = .next u ∧ s.Cleaned u ∧
          u.dev.boundary = true) ∧
        (tap.instr.isTest = false → s.dev.boundary = true →
          began (.tapExit ⟨[c], boot⟩) 1 s.now s.dev.straps fun t => !t.dev.boundary)) ∧
    (s.dev.boundary = false → exec (.trstn boot) s =
      .next { s with dev := { s.dev with tap := { s.dev.tap with st := .reset, instr := .idcode } } }) ∧
    (s.dev.boundary = true → began (.trstn boot) 1 s.now s.dev.straps fun t =>
      !t.dev.boundary && decide (t.dev.tap.st = .reset ∧ t.dev.tap.instr = .idcode))

/-- How an attempt ends, and the management core's wait (R27, R29, R261, R400, R405, R410, R412): start-complete in time
succeeds with every REQUIRED port UP, and the firmware's own provenance registers alone may change with it or with a wake (log 106); 2 s without it, a fault or abort of the firmware, BIST and an unlocked PLL fail
the start, each with its reason and detail. -/
def Obligations.AttemptsEnd : Prop :=
  ∀ s : State,
    let a := s.boot.attempt
    let fails := fun (c : Instr) (s' : State) (reason detail : Nat) =>
      ∃ t, exec c s = .next t ∧ s'.StartFailed t reason detail ∧ t.now = s'.now
    (s.starting = false ∨ a.step < 8 ∨ a.begun + 2 * Config.sec < s.now → exec .startComplete s = .next s) ∧
    (s.starting = true → 8 ≤ a.step → s.now ≤ a.begun + 2 * Config.sec → ∃ u, RunsTo .startComplete s u ∧
      u.boot.attempt.complete = true ∧ (∀ i, i < 5 → u.boot.prs.getD i [] = s.boot.prs.getD i []) ∧
      (s.linksReady = true → u.boot.attempt.active = false ∧ u.boot.attempt.fails = 0 ∧ u.dev.phase = .running ∧
        u.dev.started = true ∧ (a.mirrorFail = false → s.ringOpen 16 → u.recorded 16 .startDone)) ∧
      (s.linksReady = false → u.boot.attempt.active = true ∧ u.dev = s.dev) ∧
      Touches [.dev, .boot, .vault, .free] s u) ∧
    (s.starting = false → ∀ c, c ∈ [Instr.fwTimeout, .fwFault 0, .fwAbort 0, .bistFail 0 0, .pllLockFail 0] →
      exec c s = .next s) ∧
    (s.starting = true →
      fails .fwTimeout { s with now := max s.now (a.begun + 2 * Config.sec) } 0x20 a.step ∧
      (∀ x, fails (.fwFault x) s 0x21 x.toNat) ∧
      (∀ x, (7 ≤ a.step → fails (.fwAbort x) s 0x22 x.toNat) ∧ (a.step < 7 → exec (.fwAbort x) s = .next s)) ∧
      (∀ (die : Fin 5) x, fails (.bistFail die x) s (if die.val = 4 then 0x31 else 0x30)
        (if die.val = 4 then x.toNat else die.val * 4096 + x.toNat)) ∧
      (∀ r : Fin 5, fails (.pllLockFail r) s 0x32 r)) ∧
    (s.runs = true → s.fwWork = false → s.justWoken = false →
      exec .mgmtWait s = .next { s with dev := { s.dev with mclk := false } }) ∧
    (s.runs = false ∨ s.fwWork = true ∨ s.justWoken = true → exec .mgmtWait s = .next s) ∧
    (s.runs = true → ∀ x, ∃ u, exec (.mgmtWake x) s = .next u ∧
      u.dev = { s.dev with mclk := true, lastWake := some s.now } ∧ (s.dev.phase ≠ .running → u.boot = s.boot) ∧
      ({ u.boot with prs := [] } : Boot) = { s.boot with prs := [] } ∧
      (∀ i, i < 5 → u.boot.prs.getD i [] = s.boot.prs.getD i []) ∧ Touches [.dev, .boot, .free] s u) ∧
    (s.runs = false → ∀ x, exec (.mgmtWake x) s = .next s)

/-- Firmware update and policy (R378, R414, R417, R432, R435): a FW_UPD_TARGET that the management core does not answer in time
ends with FIRMWARE and changes nothing (log 94); answered, FW_UPD_TARGET past its checks begins an erase of the target, its
end makes the engine ready or fails, an image that has come whole is checked and then committed with an UPDATED slot
or fails, and FW_POLICY is stored. Provenance (R382, R409, R432): PROV_REQ queues a build, PROV_BUILD_DONE completes
the first, which started no earlier than step 6 ended. That the target reads erased from the write on (log 37) and that PROV_REQ takes
a context and the nonce then (log 68) are the model's choices. -/
def Obligations.Firmware : Prop :=
  ∀ (s : State) (m : Master),
    let upd := s.boot.upd
    (∀ v : BitVec 8, s.CanWrite m .fwUpdTarget 0 →
      let b := decide (v.toNat = 1)
      let w := Writes (.fwUpdTarget m v) s m .fwUpdTarget 0
      let late := Config.freeBool s.free
      (2 ≤ v.toNat → w Ab.range s) ∧
      (v.toNat < 2 → late = true → w Ab.firmware s.draw) ∧
      (v.toNat < 2 → late = false →
        (s.lcState = 4 → w Ab.lcScrapped s.draw) ∧
        (s.lcState ≠ 4 → upd.busy = true → w Ab.cmdBusy s.draw) ∧
        (s.lcState ≠ 4 → upd.busy = false → s.dev.phase ≠ .minimal → s.boot.active = b → w Ab.imageActive s.draw) ∧
        (s.lcState ≠ 4 → upd.busy = false → s.dev.phase = .minimal ∨ s.boot.active ≠ b → ∃ u, w 0 u ∧
          u.imageMem b = [] ∧ u.imageMem (!b) = s.imageMem (!b) ∧ u.boot.flash.mirror = s.boot.flash.mirror ∧
          u.boot.upd = ⟨true, true, upd.code, false, b, 0⟩ ∧ Touches [.boot, .free] s u))) ∧
    (∀ ok, (upd.erasing = false → exec (.fwEraseDone ok) s = .next s) ∧
      (upd.erasing = true → exec (.fwEraseDone ok) s = .next { s with boot := { s.boot with upd :=
        { upd with busy := false, erasing := false, ready := ok, code := if ok then 0 else Ab.flashErr } } })) ∧
    (∀ t last flashOk mirrorFail, s.transferOf m = some t → t.image = true → t.last = 64 ∨ last ≠ [] →
      let p := if t.last = 64 then s else s.program last
      let b := upd.target
      let c := p.imageCode flashOk
      let i := Instr.fwUpdImage m last flashOk mirrorFail
      ∃ u, RunsTo i s u ∧ u.transferOf m = none ∧ (∀ m', m' ≠ m → u.transferOf m' = s.transferOf m') ∧
        u.boot.upd = { p.boot.upd with busy := false, ready := false, code := c } ∧
        u.imageMem (!b) = s.imageMem (!b) ∧
        Queued t.req.master [s.respond t.req 8 (bytesLE 4 p.boot.upd.received ++ [byte c])] s u ∧
        (c = 0 → committed (imageHeader (u.imageMem b)) = true ∧
          (∀ k, k < 508 ∨ 512 ≤ k → sget erased (u.imageMem b) k = sget erased (p.imageMem b) k) ∧
          (s.dev.vaon = true → ∃ n, n < 2 ∧ (slotView (u.slotBytes n)).state = 4 ∧ (slotView (u.slotBytes n)).preferred = b) ∧
          (mirrorFail = false → s.ringOpen 16 → u.recorded 16 .fwUpdateDone)) ∧
        (c ≠ 0 → u.imageMem b = p.imageMem b ∧ u.vault = s.vault ∧ (s.ringOpen 16 → u.recorded 16 .fwUpdateFail)) ∧
        Touches [.boot, .vault, .catalogue, .bus, .ports, .regs] s u) ∧
    ((s.transferOf m = none ∨ ∃ t, s.transferOf m = some t ∧ t.image = false) →
      ∀ last flashOk mirrorFail, exec (.fwUpdImage m last flashOk mirrorFail) s = .next s) ∧
    (∀ v : BitVec 8, s.CanWrite m .fwPolicy 0 →
      let w := Writes (.fwPolicy m v) s m .fwPolicy 0
      (2 ≤ v.toNat → w Ab.range s) ∧
      (v.toNat < 2 → s.tamperActive = true → w Ab.tamperActive s) ∧
      (v.toNat = 1 → s.tamperActive = false → s.fwKeyDigest.all (· = 0) = true → w Ab.noFwKey s) ∧
      (v.toNat < 2 → s.tamperActive = false → v.toNat = 0 ∨ s.fwKeyDigest.all (· = 0) = false → ∃ u, w 0 u ∧
        u.verifyPolicy = decide (v.toNat = 1) ∧ (∀ a, a ≠ 0x10 → u.vaultWord a = s.vaultWord a) ∧ Touches [.vault] s u)) ∧
    (∀ v : BitVec 8, s.CanWrite m .provReq 0 →
      let w := Writes (.provReq m v) s m .provReq 0
      (v.toNat ≠ 1 → w Ab.range s) ∧
      (v.toNat = 1 → s.lcState = 4 → w Ab.lcScrapped s) ∧
      (v.toNat = 1 → s.lcState ≠ 4 → s.takeCtx m = none → w Ab.cmdBusy s) ∧
      (∀ s1 c, v.toNat = 1 → s.lcState ≠ 4 → s.takeCtx m = some (s1, c) →
        ((s1.prov c).busy = true → w Ab.cmdBusy s1) ∧
        ((s1.prov c).busy = false → ∃ u, w 0 u ∧ u.cat.provQueue = s.cat.provQueue ++ [c] ∧ (u.prov c).busy = true ∧
          (u.prov c).nonce = bytesBE 32 (s1.ctxReg c Obj.provNonce.key) ∧
          (s.cat.provQueue = [] → (u.prov c).since = s.now) ∧
          (∀ j, j ≠ c → u.prov j = s.prov j) ∧ Touches [.catalogue] s u))) ∧
    (s.cat.provQueue = [] → exec .provBuildDone s = .next s) ∧
    (∀ c rest, s.cat.provQueue = c :: rest → s.boot.attempt.active = false ∨ 7 ≤ s.boot.attempt.step →
      ∃ u, exec .provBuildDone s = .next u ∧ u.cat.provQueue = rest ∧
        (let x := { s.prov c with since := max (s.prov c).since s.boot.attempt.readyAt }
         u.prov c = { x with busy := false, code := 0, len := 608, report := s.report x }) ∧
        (∀ j, j ≠ c → rest.head? ≠ some j → u.prov j = s.prov j) ∧
        (∀ j, j ≠ c → rest.head? = some j → u.prov j = { s.prov j with since := s.now }) ∧ Touches [.catalogue] s u)

/-- The vault (R235, R348, R378, R424 to R430, R435): a KEY_LOAD or LC_REQ that the management core does not answer in time ends
with FIRMWARE and changes nothing (log 94); VAULT_DATA posts a write that POSTED_DONE brings into effect, KEY_LOAD
stores a key and ends the sessions that it proved, and a Keeper key those opened under the transport key, LC_REQ clears what it must
before the fuses, and LC_FUSE_DONE takes what the read-back shows. That KEY_LOAD answers LC_KEYS before TAMPER_ACTIVE and that LC_REQ
clears in the command itself are the model's choices (log 67). -/
def Obligations.VaultCommands : Prop :=
  ∀ (s : State) (m : Master),
    (∀ v : BitVec 32, s.CanWrite m .vaultData 0 →
      let a := s.ownReg m .vaultAddr
      let w := Writes (.vaultData m v) s m .vaultData 0
      let key := s.verifyPolicy && s.clearsDigest a v.toNat
      ((s.block 0xA100).busy = true → w Ab.postedBusy s) ∧
      ((s.block 0xA100).busy = false →
        (0x10 ≤ a ∧ a ≤ 0xF7 → w Ab.access s) ∧
        (a < 0x10 ∨ 0xF7 < a →
          (s.tamperActive = true → w Ab.tamperActive s) ∧
          (s.tamperActive = false → key = true → w Ab.noFwKey s) ∧
          (s.tamperActive = false → key = false → ∃ u, w 0 u ∧ (u.block 0xA100).busy = true ∧
            (u.block 0xA100).addr = a ∧ (u.block 0xA100).value = v.toNat ∧ u.vault = s.vault ∧ Touches [.catalogue] s u)))) ∧
    (let b := s.block 0xA100
     (b.busy = false → exec (.postedDone 0xA100) s = .next s) ∧
     (b.busy = true → s.tamperActive = true →
       exec (.postedDone 0xA100) s = .next (s.setBlock 0xA100 { b with busy := false, code := Ab.tamperActive })) ∧
     (b.busy = true → s.tamperActive = false → ∃ u, exec (.postedDone 0xA100) s = .next u ∧
       u.vaultWord b.addr = b.value % 4294967296 ∧ (∀ a, a ≠ b.addr → u.vaultWord a = s.vaultWord a) ∧
       u.block 0xA100 = { b with busy := false, code := 0 } ∧ (∀ k, k ≠ 0xA100 → u.block k = s.block k) ∧
       Touches [.vault, .catalogue] s u)) ∧
    (∀ r : Fin 16, exec (.postedDone (BitVec.ofNat 16 (roomIdx r))) s = exec (.carClearDone r) s) ∧
    (∀ i : BitVec 16, i.toNat ≠ 0xA100 → (∀ r, r < 16 → roomIdx r ≠ i.toNat) → exec (.postedDone i) s = .next s) ∧
    (∀ v : List Byte, s.CanWrite m .keyLoad 0 →
      let k := (v.headD 0).toNat
      let w := Writes (.keyLoad m v) s m .keyLoad 0
      let life := s.lcState = 0 ∨ s.lcState = 4
      let loaded := (v.drop 1).any (· ≠ 0)
      let late := Config.freeBool s.free
      (v.length ≠ 49 → w Ab.typeLength s) ∧
      (v.length = 49 → 18 ≤ k → w Ab.range s) ∧
      (v.length = 49 → k < 18 → late = true → w Ab.firmware s.draw) ∧
      (v.length = 49 → k < 18 → late = false → life → w Ab.lcKeys s.draw) ∧
      (v.length = 49 → k < 18 → late = false → ¬ life → s.tamperActive = true → w Ab.tamperActive s.draw) ∧
      (v.length = 49 → k < 18 → late = false → ¬ life → s.tamperActive = false → ∃ u, w 0 u ∧ u.keyBytes k = v.drop 1 ∧
        (∀ j, j < 18 → j ≠ k → u.keyBytes j = s.keyBytes j) ∧
        (∀ n, n < 48 →
          let x := s.session n
          let ends := x.isOpen = true ∧ ((x.proved = true ∧ x.keyNo = k) ∨ (k = 17 ∧ loaded = true ∧ x.keyNo = 18)) ∧
            s.sessionOf m ≠ some n
          (ends → (u.session n).isOpen = false) ∧ (¬ ends → u.session n = x)) ∧
        Touches [.vault, .catalogue, .boot, .bus, .ports, .regs, .free] s u)) ∧
    (∀ v : BitVec 8, s.CanWrite m .lcReq 0 →
      let w := Writes (.lcReq m v) s m .lcReq 0
      let ok := (lcTargets s.lcState).contains v.toNat = true
      let late := Config.freeBool s.free
      (5 ≤ v.toNat → w Ab.range s) ∧
      (v.toNat < 5 → late = true → w Ab.firmware s.draw) ∧
      (v.toNat < 5 → late = false → ¬ ok → w Ab.lcTransition s.draw) ∧
      (late = false → ok → s.tamperActive = true → w Ab.tamperActive s.draw) ∧
      (late = false → ok → s.tamperActive = false → s.vault.lcTarget ≠ none → w Ab.cmdBusy s.draw) ∧
      (late = false → ok → s.tamperActive = false → s.vault.lcTarget = none → ∃ u, w 0 u ∧ u.vault.lcTarget = some v.toNat ∧
        (∀ a, u.vaultWord a = if a < 16 then s.vaultWord a else 0) ∧ u.mem.secure = [] ∧
        u.vault.debug = (s.vault.debug && !(v.toNat = 2 || v.toNat = 4)) ∧ u.mem.carrel = s.mem.carrel ∧
        u.mem.ads = s.mem.ads ∧ Touches [.vault, .mem, .health, .free] s u)) ∧
    (s.vault.lcTarget = none → ∀ b, exec (.lcFuseDone b) s = .next s) ∧
    (∀ t, s.vault.lcTarget = some t →
      (∃ u, RunsTo (.lcFuseDone true) s u ∧ u.vault.lcTarget = none ∧
        u.boot.otp.fuses = s.boot.otp.fuses ||| BitVec.ofNat 4 (2 ^ (t - 1)) ∧
        (∀ n, n < 48 → (u.session n).isOpen = false) ∧
        (s.ringOpen 16 → (∀ n, n < 48 → (s.session n).isOpen = false) → u.recorded 16 .lcChanged) ∧
        Touches [.vault, .boot, .catalogue, .bus, .ports, .regs] s u) ∧
      (∃ u, Logs (.lcFuseDone false) s u .lcFail ∧ u.vault.lcTarget = none ∧ u.boot = s.boot ∧ u.cat = s.cat ∧
        Touches [.vault] s u))

/-- Tamper and the vault's supply (R422, R433 to R435, R438, R476): a change of a cause is shown and recorded; an enabled
cause that rises, or is enabled while present, is a tamper event, which clears the vault and the secure carrel,
counts, and ends every session and a posted write of the vault; loss of VAON loses the vault, and its rise leaves the values of R422
with CLOCK masked, its cause no longer present; ACLK in band unmasks it and lets a waiting attempt go on. That each cause enabled at
once counts as an event (log 67) and that the other causes outlive a loss of VAON (log 66) are the model's choices. -/
def Obligations.Tamper : Prop :=
  ∀ s : State,
    let zero := fun (u : State) => u.vault.words = [] ∧ u.vault.intact = false
    let ended := fun (u : State) => u.mem.secure = [] ∧ (u.block 0xA100).busy = false ∧ ∀ n, n < 48 → (u.session n).isOpen = false
    let all : List Piece := [.vault, .mem, .health, .catalogue, .boot, .bus, .ports, .regs]
    (∀ (source : Fin 5) (present : Bool),
      let i := source.val
      let idle := s.dev.vaon = false ∨ nbit s.vault.cause.toNat i = present ∨
        (i = 1 ∧ present = true ∧ s.vault.clockMasked = true)
      let event := present = true ∧ nbit s.vault.cfg.toNat i = true
      let c := Instr.tamperCauseChange source present
      (idle → exec c s = .next s) ∧
      (¬ idle → ∃ u, RunsTo c s u ∧ u.vault.cause = s.vault.cause ^^^ BitVec.ofNat 5 (2 ^ i) ∧
        (s.catalogueUp = true → s.ringOpen 16 → u.recorded 16 .tamper) ∧
        (¬ event → u.vault = { s.vault with cause := u.vault.cause } ∧ Touches [.vault] s u) ∧
        (event → zero u ∧ u.vault.tamperCnt = s.vault.tamperCnt + 1 ∧ Touches all s u ∧
          (s.hubPowered = true → ended u) ∧
          (s.hubPowered = false → u.vault.latchCount = min 255 (s.vault.latchCount + 1) ∧
            (s.vault.latchCount = 0 → u.vault.latchSource = i ∧ u.vault.latchTime = s.vclockNow))))) ∧
    (∀ (m : Master) (v : BitVec 16), s.CanWrite m .tamperCfg 0 →
      let w := Writes (.tamperCfg m v) s m .tamperCfg 0
      let new := (setBits 5 (s.vault.cause.toNat &&& v.toNat)).filter fun i =>
        !nbit (s.vault.cause.toNat &&& s.vault.cfg.toNat) i
      (32 ≤ v.toNat → w Ab.range s) ∧
      (v.toNat < 32 → s.dev.vaon = false → w Ab.tamperActive s) ∧
      (v.toNat < 32 → s.dev.vaon = true → ∃ u, w 0 u ∧ u.vault.cfg = v ∧ u.vault.cause = s.vault.cause ∧
        u.vault.tamperCnt = s.vault.tamperCnt + BitVec.ofNat 32 new.length ∧
        (new = [] → u.vault = { s.vault with cfg := v } ∧ Touches [.vault] s u) ∧
        (new ≠ [] → zero u ∧ ended u ∧ Touches all s u))) ∧
    (s.dev.vaon = true → exec .vaonRise s = .next s) ∧
    (let blank : Vault := { s.vault with words := [], uncorr := [], intact := false, vclock := 0, vclockAt := s.now,
                                         tamperCnt := 0, latchCount := 0, latchSource := 0, latchTime := 0, cfg := 0x1F,
                                         lastStep := 0 }
     (s.dev.vaon = false → nbit s.vault.cause.toNat 1 = false → exec .vaonRise s =
       .next { s with dev := { s.dev with vaon := true }, vault := { blank with clockMasked := true } }) ∧
     (s.dev.vaon = false → nbit s.vault.cause.toNat 1 = true → ∃ u, RunsTo .vaonRise s u ∧ u.dev.vaon = true ∧
       u.vault = { blank with clockMasked := true, cause := s.vault.cause ^^^ 2 } ∧
       (s.catalogueUp = true → s.ringOpen 16 → u.recorded 16 .tamper) ∧ Touches [.dev, .vault] s u) ∧
     (s.dev.vaon = false → exec .vaonLoss s = .next s) ∧
     (s.dev.vaon = true → ∃ u, exec .vaonLoss s = .next u ∧ u.dev = { s.dev with vaon := false } ∧ u.vault = blank ∧
       (u.block 0xA100).busy = false ∧ (∀ k, k ≠ 0xA100 → u.block k = s.block k) ∧ Touches [.dev, .vault, .catalogue] s u)) ∧
    (s.dev.vaon = true → s.boot.attempt.waiting = none →
      exec .aclkQualified s = .next { s with vault := { s.vault with clockMasked := false } }) ∧
    (∀ boot, s.dev.vaon = true → s.boot.attempt.waiting = some boot → s.boot.attempt.active = true →
      ∃ t, exec .aclkQualified s = .next t ∧ t.vault.clockMasked = false ∧ t.boot.attempt.waiting = none ∧
        (t.boot.attempt.ended = true ∨ (t.boot.attempt.active = true ∧ t.boot.attempt.step = 8))) ∧
    (s.dev.vaon = false → exec .aclkQualified s = .next s)

/-- A loss of units (R244, R246, R247, R248, R253): the units are noted and recorded, and when an enabled lane is served no more
a reduction is planned with the ranks of its first detection. Its rooms go by rank and number: one is kept when every lane is served
after repairs and its charges lie within its shares, else it is shed; a repair gives the units of one copy that has no lost unit the
lane, taking no entry of a room already kept; a lost bay has MAINT in phase 0 and IDLE elsewhere. When the transition rule needs
two switch cycles, both obey it.
REDUCTION_SWITCH and REDUCTION_SECOND_SWITCH (R248, R249, R251): the switch cycle of a reduction, the next cycle (log 78),
brings its rota, or
the first of its two, into force, sheds the rooms that cannot be kept, marks those that moved, and sets the second
switch 264 cycles later; that one brings the whole rota in and ends the reduction. -/
def Obligations.Reductions : Prop :=
  (∀ (s : State) (units : List Nat) (cause what : Nat),
    let g := s.guar
    let v := s.view
    let u := s.loseUnits units cause what
    let ranks := if g.active = true ∧ g.second = none then g.ranks else s.ranks
    let serves := fun (q : RotaFn) => feasible q v.phases v s.table g.shed u.guar.lost s.heldDies
    let r := reduce v s.table u.guar.lost s.heldDies g.shed ranks
    (∀ x, x ∈ u.guar.lost ↔ x ∈ g.lost ∨ x ∈ units) ∧ u.guar.cause = cause ∧ u.guar.detected = s.now ∧ u.guar.ranks = ranks ∧
    u.guar.shed = g.shed ∧ (s.ringOpen 16 → u.recorded 16 .guarLoss) ∧ Touches [.guar] s u ∧
    (s.dev.phase ≠ .minimal → g.second = none → serves v.rotaFn = true → u.guar.active = false) ∧
    (s.dev.phase ≠ .minimal → (∀ c, g.second = some c → serves (rotaOver v g.final) = false) → serves v.rotaFn = false →
      u.guar.active = true ∧ u.guar.second = none ∧ u.guar.final = r.q ∧ u.guar.toShed = r.shed ∧ u.guar.toReduce = r.moved)) ∧
  (∀ (v : View) (tables : Nat → Table) (lost held shed ranks : List Nat),
    let r := reduce v tables lost held shed ranks
    let order := rankOrder v shed ranks
    let rank := fun (m : Nat) => ranks.getD m 0
    (∀ m, m ∈ order ↔ m < 16 ∧ rank m ≤ 15 ∧ ∃ p ∈ v.enabledSlots shed, (v.prog p).room = m) ∧
    order.Pairwise (fun a b => rank b < rank a ∨ (rank a = rank b ∧ a < b)) ∧
    (∀ m, m ∈ order ↔ m ∈ r.kept ∨ ∃ x ∈ r.shed, x.1 = m) ∧ (∀ m ∈ r.kept, ∀ x ∈ r.shed, x.1 ≠ m) ∧ (∀ m ∈ r.moved, m ∈ r.kept) ∧
    (v.phases ≤ 64 → ∀ u ∈ lost, u < 64 → ∀ phi, phi < v.phases →
      rotaOver v r.q u phi = if phi = 0 then rotaMaint else rotaIdle) ∧
    (∀ (x : Redu) (m : Nat),
      let y := reduceRoom v tables lost held shed v.phases x m
      let slots := (v.enabledSlots (shed ++ x.shed.map Prod.fst)).filter fun p => (v.prog p).room = m
      match repairSlots v tables lost held v.phases x.kept m slots x.q false with
      | .ok (q, b) =>
        (withinShares (rotaOver v q) v.phases v m = true →
          y = { x with q := q, kept := x.kept ++ [m], moved := if b then x.moved ++ [m] else x.moved }) ∧
        (withinShares (rotaOver v q) v.phases v m = false → y.kept = x.kept ∧ y.shed = x.shed ++ [(m, 0xFF, 0xFF, 0xFF)])
      | .error lane => y.kept = x.kept ∧ y.moved = x.moved ∧ y.shed = x.shed ++ [(m, lane)]) ∧
    (∀ (q q' : Store Nat) (kept : List Nat) (m t port lkp phi : Nat), v.phases ≤ 64 → phi < 64 →
      repair v (tables t) lost v.phases q kept m t port lkp phi = some q' →
      (∃ g ∈ copyGroups v (tables t) lost t, ∀ us ∈ g, ∃ u ∈ us,
        rotaOver v q' u phi = rotaLane port lkp (if (v.tbl t).kind = 0 then (v.trn t).region else 0)) ∧
      (∀ u f, f < 64 → rotaOver v q' u f ≠ rotaOver v q u f → rotaKind (rotaOver v q u f) ≠ 2 ∨
        ∀ x ∈ chargedTo v u (rotaOver v q u f), x ∉ kept ∧ x ≠ m)) ∧
    (∀ q : Store Nat, v.phases ≤ 64 →
      transitionFault v.rotaFn v.phases (rotaOver v (firstStep v q)) v.phases = none ∧
      transitionFault (rotaOver v (firstStep v q)) v.phases (rotaOver v q) v.phases = none)) ∧
  (∀ s : State,
    let g := s.guar
    let key := fun (k : Nat) => Obj.rotaData.key 0 0 k
    let inForce := fun (q : Store Nat) (u : State) => (∀ e ∈ q, sget regDefault u.cat.force (key e.1) = e.2) ∧
      (∀ k, (∀ e ∈ q, key e.1 ≠ k) → sget regDefault u.cat.force k = sget regDefault s.cat.force k)
    let q := if g.first = [] then g.final else g.first
    (g.active = false ∨ g.second ≠ none → exec .reductionSwitch s = .next s) ∧
    (g.active = true → g.second = none → srising 0 q = true → (∀ x ∈ g.toShed, x.1 < 16) → (∀ r ∈ g.toReduce, r < 16) →
      ∃ u, RunsTo .reductionSwitch s u ∧ u.now = s.now + 1 ∧ inForce q u ∧
        (∀ r, r ∈ u.guar.shed ↔ r ∈ g.shed ∨ ∃ x ∈ g.toShed, x.1 = r) ∧ (∀ r ∈ g.toReduce, r ∈ u.guar.reduced) ∧
        u.guar.active = decide (g.first ≠ []) ∧ u.guar.second = (if g.first = [] then none else some (s.now + 265)) ∧
        u.guar.toShed = [] ∧ u.guar.toReduce = [] ∧ u.guar.lost = g.lost ∧ u.guar.final = g.final ∧
        u.reg .guarReductions = wrapAdd 32 (s.reg .guarReductions) 1 ∧
        RegsBut (Obj.guarReductions.key :: g.toShed.map fun x => Obj.roomShedCnt.key x.1) s u ∧
        Touches [.now, .catalogue, .regs, .guar] s u) ∧
    (g.second = none → exec .reductionSecondSwitch s = .next s) ∧
    (∀ c, g.second = some c → srising 0 g.final = true → ∃ u, RunsTo .reductionSecondSwitch s u ∧ u.now = max c (s.now + 1) ∧
      inForce g.final u ∧ u.guar = { g with active := false, second := none, first := [], final := [] } ∧
      (s.ringOpen 16 → u.recorded 16 .rotaApplied) ∧ Touches [.now, .catalogue, .guar] s u))

/-- Shelf-reading and bays (R440 to R443, R448 to R451): SR_REGION_START tests the next region when the slots that the last one's
test takes have passed, a mat in 12,288 of its bay's slots, 22,528 with a repair and 21,504 when it is beyond repair, and what it
finds is marked, repaired with the redundant rows that the region has left, or counted as beyond repair; BAY_REBUILT puts the spare,
written from the shadow, in the failed bay's place, or loses the bay; BAY_FENCE fences it 264 cycles later and releases its save
buffer, and BAY_RETEST brings a bay that passes back, empty, as its die's spare. The slots of a test, and the free rows of a
retest, are the model's reading (log 39). -/
def Obligations.ShelfAndBays : Prop :=
  ∀ s : State,
    (s.catalogueUp = false ∨ s.dev.phase = .starting ∨ s.srBusy = true ∨ s.srPick = none →
      ∀ o l, exec (.srRegionStart o l) s = .next s) ∧
    (∀ s1 d r, s.catalogueUp = true → s.dev.phase ≠ .starting → s.srBusy = false → s.srPick = some (s1, d, r) →
      let s2 := s1.catchUp
      (∀ rows l, s2.rowsLeft d r < rows.length →
        exec (.srRegionStart (.repaired rows) l) s = exec (.srRegionStart (.beyond rows) l) s) ∧
      (∀ o l, ∃ u, RunsTo (.srRegionStart o l) s u ∧ u.reg .srPos = d * 2 ^ 28 + r ∧
        ∀ w ∈ l, dieOfMem w = d → regionOf w = r → w.kind ≠ .shadow → w ∈ u.health.poison) ∧
      (∀ l, (∀ w ∈ l, dieOfMem w ≠ d ∨ regionOf w ≠ r) →
        let takes := fun (n : Nat) (u : State) =>
          ∀ b lb, regionBay d r = some b → s2.logicalOf b = some lb → d < 4 → u.srLeft lb = n
        (∃ u, RunsTo (.srRegionStart .pass l) s u ∧ (d, r) ∉ u.health.srHead ∧
          u.health.poison = s2.health.poison ∧ takes 12288 u ∧ RegsBut [Obj.srPos.key, Obj.srPasses.key] s2 u ∧
          Touches [.regs, .health, .free] s2 u) ∧
        (∀ rows, rows ≠ [] → rows.length ≤ s2.rowsLeft d r → ∃ u, RunsTo (.srRegionStart (.repaired rows) l) s u ∧
          (d, r) ∉ u.health.srHead ∧ u.health.repairs = s2.health.repairs ++ rows.map (fun x => (d, r, x)) ∧
          takes 22528 u ∧ (s2.ringOpen 16 → u.recorded 16 .srRepair) ∧
          RegsBut [Obj.srPos.key, Obj.srPasses.key] s2 u ∧ Touches [.regs, .health, .free] s2 u) ∧
        (∀ rows, ∃ u, RunsTo (.srRegionStart (.beyond rows) l) s u ∧
          u.reg .srFails = wrapAdd 32 (s2.reg .srFails) 1 ∧ (s2.ringOpen 16 → rows = [] → u.recorded 16 .srFail) ∧
          (s2.spareOf d ≠ none → takes 21504 u) ∧
          (regionBay d r = none → (d, r) ∈ u.health.pinned ∧ Touches [.regs, .health, .free] s2 u) ∧
          Touches [.regs, .health, .bays, .free, .tables, .guar] s2 u))) ∧
    (s.firstRebuild = none → ∀ x, exec (.bayRebuilt x) s = .next s) ∧
    (∀ r, s.firstRebuild = some r → r.spare < 68 →
      let s2 := (s.at r.switchAt).catchUp
      (∃ u, RunsTo (.bayRebuilt false) s u ∧ u.now = s2.now ∧ u.view.phys r.lbay = some r.spare ∧
        (∀ l, l ≠ r.lbay → u.view.phys l = s2.view.phys l) ∧ dieOfBay r.failed ∈ u.bays.spareUsed ∧
        (r.fenceAfter = false → ∀ y ∈ u.bays.rebuilds, y.failed ≠ r.failed) ∧ u.bays.fenced = s2.bays.fenced) ∧
      ((∀ w ∈ s2.health.poison, ¬ (w.kind = .side ∧ w.unit = r.failed) ∧ ¬ (w.kind = .shadow ∧ w.unit = r.lbay)) →
        srising 0 s2.bays.shadow = true → srising 0 s2.bays.sides = true →
        ∃ u, RunsTo (.bayRebuilt false) s u ∧
          (∀ mat row, mat < 36 → row < 1024 →
            u.atom (rowKey r.spare mat row) = sget (fun _ => 0) s2.bays.shadow (rowKey r.lbay mat row) ∧
            u.sideWord (rowKey r.spare mat row) = s2.sideWord (rowKey r.failed mat row)) ∧
          (∀ k, k < rowKey r.spare 0 0 ∨ rowKey (r.spare + 1) 0 0 ≤ k →
            u.atom k = s2.atom k ∧ u.sideWord k = s2.sideWord k) ∧
          u.bays.shadow = s2.bays.shadow ∧ (s2.ringOpen 16 → u.recorded 16 .bayRebuilt) ∧
          Touches [.bays, .health, .tables] s2 u) ∧
      (s.logicalOf r.spare = none → ∃ u, RunsTo (.bayRebuilt true) s u ∧
        u.now = max s.now (r.detected + 37888) ∧ r.spare ∈ u.bays.fenced ∧ r.failed ∈ u.bays.fenced ∧
        u.view.phys r.lbay = none ∧ r.lbay ∈ u.guar.lost ∧ u.bays.atoms = s.bays.atoms ∧ u.srLeft r.lbay = 0 ∧
        Touches [.now, .bays, .tables, .guar, .health, .regs] s u)) ∧
    ((s.bays.rebuilds.find? fun r => r.switched) = none → exec .bayFence s = .next s) ∧
    (∀ r, (s.bays.rebuilds.find? fun r => r.switched) = some r →
      let s2 := (s.at (r.switchAt + 264)).catchUp
      ∃ u, exec .bayFence s = .next u ∧ r.failed ∈ u.bays.fenced ∧ (∀ y ∈ u.bays.rebuilds, y.failed ≠ r.failed) ∧
      (r.failed ∉ s2.bays.fenced → (r.failed, u.now + Config.sec) ∈ u.bays.retests) ∧ u.bays.bayMap = s2.bays.bayMap ∧
      u.bays.atoms = s2.bays.atoms ∧ u.srLeft r.lbay = 0 ∧ Touches [.bays, .health] s2 u) ∧
    (∀ bay : Fin 68,
      let rest := s.bays.retests.filter fun x => x.1 ≠ bay.val
      ((s.bays.retests.find? fun x => x.1 = bay.val) = none → ∀ p, exec (.bayRetest bay p) s = .next s) ∧
      (∀ x, (s.bays.retests.find? fun x => x.1 = bay.val) = some x →
        (∀ p, p = false ∨ s.logicalOf bay ≠ none → ∃ u, RunsTo (.bayRetest bay p) s u ∧ u.now = max s.now x.2 ∧
          u.bays = { s.bays with retests := rest } ∧ (∃ new, u.health = { s.health with repairs := s.health.repairs ++ new }) ∧
          Touches [.now, .bays, .health, .free] s u) ∧
        (s.logicalOf bay = none → ∃ u, RunsTo (.bayRetest bay true) s u ∧ u.now = max s.now x.2 ∧
          u.bays.retests = rest ∧ bay.val ∉ u.bays.fenced ∧ dieOfBay bay ∉ u.bays.spareUsed ∧
          (∀ k, rowKey bay.val 0 0 ≤ k → k < rowKey (bay.val + 1) 0 0 → u.atom k = 0 ∧ u.sideWord k = 0) ∧
          (∀ k, k < rowKey bay.val 0 0 ∨ rowKey (bay.val + 1) 0 0 ≤ k → u.atom k = s.atom k ∧ u.sideWord k = s.sideWord k) ∧
          Touches [.now, .bays, .health, .free] s u)))

/-- Region limits and wear (R392, R453 to R457, R481): a sample shows the rails and temperatures, keeps since when each limit that
counts a time has been passed, raises ALARM while a quantity is past its Alarm column, clears it after 100 ms within the Permitted
one, and holds the dies that a Hold column names, whose units are lost; a temperature above 112 °C twice in a row holds its die;
RELEASE and REGION_RELEASE bring a held die back, collated, with its ports in HELLO; wear raises the rail target. An ALARM moves the
rail targets toward each other: each toward their median, by a free part of the way, is the model's choice (log 41). -/
def Obligations.RegionsAndWear : Prop :=
  (∀ (s : State) (d : Nat), d < 5 →
    let m := (median ([0, 1, 2, 3, 4].map fun x => (s.railTarget x : Int))).toNat
    let old := s.railTarget d
    let new := s.drawTogether.railTarget d
    (old < m → old < new ∧ new ≤ m) ∧ (m < old → m ≤ new ∧ new < old) ∧ (old = m → new = old)) ∧
  (∀ s : State,
    (s.catalogueUp = false ∨ s.dev.diesUp = false → ∀ r, exec (.regionSample r) s = .next s) ∧
    (∀ r : RegionReading,
      let s0 := s.sampleTime
      let s1 := s0.trackAll r
      let v := fun (a b : Nat) => (reading r.rails a - reading r.rails b).natAbs
      let w := fun (a b : Nat) => (reading r.tj a - reading r.tj b).natAbs
      ∀ a b, a < b → b < 5 → ∀ lim past, (lim, past) ∈ [(0, decide (60 < v a b)), (1, decide (90 < v a b)),
          (2, decide (20000 < w a b)), (3, decide (30000 < w a b))] →
        let old := sget (fun _ => 0) s.health.exceeded (limitKey lim a b)
        sget (fun _ => 0) s1.health.exceeded (limitKey lim a b) = if past = false then 0 else if old = 0 then s0.now + 1 else old) ∧
    (∀ r : RegionReading, s.catalogueUp = true → s.dev.diesUp = true →
      let s1 := s.sampleTime.trackAll r
      let alarmOf := s1.alarmOf r
      ∃ u, RunsTo (.regionSample r) s u ∧ u.now = s1.now ∧
      (∀ d, d < 5 → u.reg .rgnVcore d = (reading r.rails d).toNat % 65536 ∧ u.reg .rgnTj d = ofI32 (reading r.tj d) ∧
        (alarmOf d ≠ none → (u.region d).alarm = true) ∧
        (alarmOf d = none → (s.region d).alarm = false → (u.region d).alarm = false) ∧
        (alarmOf d = none → permitted r d = true → (s.region d).badAt + 100 * Config.msec ≤ s1.now + 1 →
          (u.region d).alarm = false) ∧
        (alarmOf d = none → permitted r d = false ∨ s1.now + 1 < (s.region d).badAt + 100 * Config.msec →
          (u.region d).alarm = (s.region d).alarm) ∧
        ((s.region d).held = true → (u.region d).held = true)) ∧
      (∀ x ∈ s1.holdsOf r, ∀ d ∈ x.1, (u.region d).held = true ∧
        ((s.region d).held = false → ∀ k ∈ dieUnits d, k ∈ u.guar.lost)) ∧
      ((∀ d, d < 5 → alarmOf d = none ∨ (s.region d).alarm = true) →
        ∀ d, (u.region d).targetMv = (s.region d).targetMv) ∧
      (s1.holdsOf r = [] → (∀ d, (u.region d).held = (s.region d).held) ∧
        (∀ d, d < 5 → (u.region d).alarm ≠ (s.region d).alarm → u.reg .rgnXing d = wrapAdd 32 (s.reg .rgnXing d) 1) ∧
        RegsBut ((List.range 5).flatMap fun d => [Obj.rgnVcore.key d, Obj.rgnTj.key d, Obj.rgnXing.key d]) s u ∧
        Touches [.now, .regs, .health, .free] s u)) ∧
    (s.catalogueUp = false → ∀ tj, exec (.thermalSample tj) s = .next s) ∧
    (∀ tj, s.catalogueUp = true → ∃ u, RunsTo (.thermalSample tj) s u ∧
      (∀ d, d < 5 → u.reg .rgnTj d = ofI32 (reading tj d) ∧ (u.region d).hotOnce = decide (112000 < reading tj d)) ∧
      u.health.thermal = decide (toI32 (s.view.obj .thermLimit) < u.tjMax) ∧
      (∀ d, d < 5 → s.dev.diesUp = true → (s.region d).hotOnce = true → 112000 < reading tj d →
        if d = 4 then ∀ x, x < 4 → (u.region x).held = true ∧ (u.region x).byHeat = true
        else (u.region d).held = true ∧ (u.region d).byHeat = true) ∧
      ((∀ d, d < 5 → (s.region d).hotOnce = false ∨ reading tj d ≤ 112000) →
        (∀ d, (u.region d).held = (s.region d).held) ∧
        RegsBut ((List.range 5).map fun d => Obj.rgnTj.key d) s u ∧ Touches [.regs, .health] s u)) ∧
    (∀ (m : Master) (d : Fin 5) (v : BitVec 32), s.CanWrite m .rgnCtrl d →
      let bad := v.toNat % 65536 &&& (v.toNat / 65536) &&& 0xFFFE
      let acts := nbit v.toNat 16 = true ∧ nbit v.toNat 0 = true
      let w := Writes (.release m d v) s m .rgnCtrl d
      (bad ≠ 0 → w Ab.range s) ∧
      (bad = 0 → ¬ acts → w 0 s) ∧
      (bad = 0 → acts → d.val = 4 → w Ab.range s) ∧
      (bad = 0 → acts → d.val ≠ 4 → (s.region d).held = false → w Ab.notHeld s) ∧
      (bad = 0 → acts → d.val ≠ 4 → (s.region d).held = true → s.releasable d = false → w Ab.regionLimit s) ∧
      (bad = 0 → acts → d.val ≠ 4 → (s.region d).held = true → s.releasable d = true →
        w 0 (s.setRegion d { s.region d with releasing := true }))) ∧
    (∀ (die : Fin 4),
      let g := s.region die
      let ready := g.releasing = true ∧ g.held = true ∧ s.guar.active = false
      (¬ ready → ∀ l, exec (.regionRelease die l) s = .next s) ∧
      (ready → ∀ l : DieFinding, ∃ u, RunsTo (.regionRelease die l) s u ∧
        u.region die = { g with held := false, releasing := false, byHeat := false } ∧
        (∀ w ∈ l.uncorr, dieOfMem w = die.val → w.kind ≠ .shadow → w ∈ u.health.poison) ∧
        (∀ p, p < 32 → dieOfPort p = die.val → (s.port p).st = .held → (u.port p).st = .hello ∧
          (u.port p).tx1 = (s.port p).tx1 ∧ (u.port p).tx3 = (s.port p).tx3 ∧ (u.port p).txsent1 = 0) ∧
        (∀ p, p < 32 → dieOfPort p = die.val → (s.port p).st ≠ .held →
          (u.port p).core.queues = (s.port p).core.queues) ∧
        (∀ p, dieOfPort p ≠ die.val → (u.port p).core = (s.port p).core)) ∧
      (ready → (∀ i j, s.view.phys i = s.view.phys j → s.view.phys i ≠ none → i = j) →
        (∀ i b, i / 16 = die.val → s.view.phys i = some b → b ∉ s.bays.fenced ∧
          sget (fun _ => 0) s.health.colBad b + (s.mismatches i b).length < 16) →
        ∃ u, RunsTo (.regionRelease die ⟨[], [], []⟩) s u ∧
        u.guar.lost = s.guar.lost.filter (fun x =>
          !(dieUnits die).contains x || (decide (x < 64) && (s.view.phys x).isNone)) ∧
        (∀ i b mat row, i / 16 = die.val → s.view.phys i = some b → mat < 36 → row < 1024 →
          u.atom (rowKey b mat row) = sget (fun _ => 0) s.bays.shadow (rowKey i mat row)) ∧
        u.bays.sides = s.bays.sides ∧ u.bays.shadow = s.bays.shadow ∧
        Touches [.regs, .bays, .health, .guar, .ports, .wire] s u)) ∧
    (s.catalogueUp = false → ∀ d x, exec (.wearSample d x) s = .next s) ∧
    (∀ (d : Fin 5) (x : BitVec 16), s.catalogueUp = true → ∃ u, exec (.wearSample d x) s = .next u ∧
      u.reg .wearShift 0 d = x.toNat ∧
      (u.region d).targetMv = min 800 (s.railTarget d + (x.toNat / 10 - (s.region d).wearSteps)) ∧
      (u.region d).wearSteps = max (s.region d).wearSteps (x.toNat / 10) ∧
      (s.ringOpen 16 → s.reg .wearShift 0 d / 100 < x.toNat / 100 → u.recorded 16 .wear) ∧
      (∀ j, j ≠ d.val → u.region j = s.region j) ∧ RegsBut [Obj.wearShift.key 0 d] s u ∧ Touches [.regs, .health] s u))
end

