-- ==== Sys2Proof/Laws/Store.lean ====
section
/-! SUPPORT. Sparse memories: what a read after a write gives, and the canonical form that every operation keeps. -/

namespace Sys2Proof.Machine

variable {α : Type} {d : Nat → α}

/-! ### Reading after writing -/

/-- A memory without an entry at an address reads as unlisted there. -/
theorem sget_of_absent (m : Store α) (k : Nat) (h : ∀ e ∈ m, e.1 ≠ k) : sget d m k = d k := by
  induction m with
  | nil => rfl
  | cons e t ih =>
    have := h e List.mem_cons_self
    simp only [sget, this, if_false]
    exact ih fun x hx => h x (List.mem_cons_of_mem _ hx)

theorem sget_sins_self (m : Store α) (k : Nat) (v : α) (h : ∀ e ∈ m, e.1 ≠ k) : sget d (sins m k v) k = v := by
  induction m with
  | nil => simp [sins, sget]
  | cons e t ih =>
    have := h e List.mem_cons_self
    simp only [sins]
    split
    · simp [sget]
    · simp only [sget, this, if_false]
      exact ih fun x hx => h x (List.mem_cons_of_mem _ hx)

theorem sget_sins_ne (m : Store α) (k j : Nat) (v : α) (h : j ≠ k) : sget d (sins m k v) j = sget d m j := by
  induction m with
  | nil => simp [sins, sget, h.symm]
  | cons e t ih =>
    simp only [sins]
    split
    · simp [sget, h.symm]
    · simp only [sget, ih]

theorem sget_filter_ne (m : Store α) (k j : Nat) (h : j ≠ k) :
    sget d (m.filter fun e => decide (e.1 ≠ k)) j = sget d m j := by
  induction m with
  | nil => rfl
  | cons e t ih =>
    by_cases he : e.1 = k
    · have : e.1 ≠ j := fun x => h (x.symm.trans he)
      rw [List.filter_cons_of_neg (by simp [he])]
      simp only [sget, this, if_false]
      exact ih
    · rw [List.filter_cons_of_pos (by simpa using he)]
      simp only [sget, ih]

variable [DecidableEq α]

/-- A read after a write gives the value written at its address. -/
@[simp] theorem sget_sput_self (m : Store α) (k : Nat) (v : α) : sget d (sput d m k v) k = v := by
  have h : ∀ e ∈ m.filter (fun e => decide (e.1 ≠ k)), e.1 ≠ k := by simp
  simp only [sput]
  split
  · rename_i hv; rw [sget_of_absent _ _ h, hv]
  · exact sget_sins_self _ _ _ h

/-- A write leaves every other address alone. -/
theorem sget_sput_ne (m : Store α) (k j : Nat) (v : α) (h : j ≠ k) : sget d (sput d m k v) j = sget d m j := by
  simp only [sput]
  split
  · exact sget_filter_ne m k j h
  · rw [sget_sins_ne _ _ _ _ h, sget_filter_ne m k j h]

/-- A read after a write, in one equation. -/
theorem sget_sput (m : Store α) (k j : Nat) (v : α) : sget d (sput d m k v) j = if j = k then v else sget d m j := by
  split
  · rename_i h; rw [h, sget_sput_self]
  · rename_i h; exact sget_sput_ne m k j v h

/-! ### The canonical form -/

omit [DecidableEq α] in
theorem srising_mono (m : Store α) (b c : Nat) (h : srising c m = true) (hb : b ≤ c) : srising b m = true := by
  cases m with
  | nil => rfl
  | cons e t =>
    simp only [srising, Bool.and_eq_true, decide_eq_true_eq] at h ⊢
    exact ⟨by omega, h.2⟩

omit [DecidableEq α] in
/-- Dropping entries keeps addresses rising. -/
theorem srising_filter (p : Nat × α → Bool) (m : Store α) (lo : Nat) (h : srising lo m = true) :
    srising lo (m.filter p) = true := by
  induction m generalizing lo with
  | nil => rfl
  | cons e t ih =>
    simp only [srising, Bool.and_eq_true, decide_eq_true_eq] at h
    by_cases hp : p e = true
    · simp only [List.filter_cons, hp, if_true, srising, Bool.and_eq_true, decide_eq_true_eq]
      exact ⟨h.1, ih _ h.2⟩
    · simp only [List.filter_cons, hp]
      exact srising_mono _ _ _ (ih _ h.2) (by omega)

omit [DecidableEq α] in
theorem srising_sins (m : Store α) (lo k : Nat) (v : α) (h : srising lo m = true) (hk : lo ≤ k)
    (ha : ∀ e ∈ m, e.1 ≠ k) : srising lo (sins m k v) = true := by
  induction m generalizing lo with
  | nil => simp [sins, srising, hk]
  | cons e t ih =>
    have he := ha e List.mem_cons_self
    simp only [srising, Bool.and_eq_true, decide_eq_true_eq] at h
    simp only [sins]
    split
    · simp only [srising, Bool.and_eq_true, decide_eq_true_eq]
      exact ⟨hk, by omega, h.2⟩
    · simp only [srising, Bool.and_eq_true, decide_eq_true_eq]
      exact ⟨h.1, ih _ h.2 (by omega) fun x hx => ha x (List.mem_cons_of_mem _ hx)⟩

omit [DecidableEq α] in
theorem mem_sins (m : Store α) (k : Nat) (v : α) (e : Nat × α) (h : e ∈ sins m k v) : e ∈ m ∨ e = (k, v) := by
  induction m with
  | nil => exact .inr (List.mem_singleton.1 h)
  | cons x t ih =>
    simp only [sins] at h
    split at h
    · rcases List.mem_cons.1 h with h | h
      · exact .inr h
      · exact .inl h
    · rcases List.mem_cons.1 h with h | h
      · exact .inl (h ▸ List.mem_cons_self)
      · exact (ih h).imp_left (List.mem_cons_of_mem _)

/-- Dropping entries keeps the canonical form. -/
theorem swf_filter (p : Nat × α → Bool) (m : Store α) (h : swf d m = true) : swf d (m.filter p) = true := by
  simp only [swf, Bool.and_eq_true, List.all_eq_true, decide_eq_true_eq] at h ⊢
  exact ⟨srising_filter p m 0 h.1, fun e he => h.2 e (List.mem_filter.1 he).1⟩

/-- A write keeps the canonical form. -/
theorem swf_sput (m : Store α) (k : Nat) (v : α) (h : swf d m = true) : swf d (sput d m k v) = true := by
  have hf := swf_filter (fun e => decide (e.1 ≠ k)) m h
  simp only [sput]
  split
  · exact hf
  · rename_i hv
    simp only [swf, Bool.and_eq_true, List.all_eq_true, decide_eq_true_eq] at hf ⊢
    refine ⟨srising_sins _ 0 k v hf.1 (Nat.zero_le k) (by simp), fun e he => ?_⟩
    rcases mem_sins _ k v e he with he | rfl
    · exact hf.2 e he
    · exact hv

/-- Clearing addresses keeps the canonical form. -/
theorem swf_sclear (p : Nat → Bool) (m : Store α) (h : swf d m = true) : swf d (sclear p m) = true :=
  swf_filter _ m h

/-- Writing a list of values keeps the canonical form. -/
theorem swf_sputs (l : List α) (m : Store α) (k : Nat) (h : swf d m = true) : swf d (sputs d m k l) = true := by
  induction l generalizing m k with
  | nil => exact h
  | cons v t ih => exact ih _ _ (swf_sput m k v h)

/-- A memory with nothing listed is in canonical form. -/
theorem swf_nil : swf d ([] : Store α) = true := rfl

end Sys2Proof.Machine
end

