-- ==== Sys2Proof/Laws/State.lean ====
section
/-! SUPPORT. What each named update of the state leaves alone, one lemma for each field, and what the accessors read after
it, so that no proof unfolds a record update. -/

namespace Sys2Proof.Machine

variable (s : State)

/-! ### State.setReg -/

@[simp] theorem State.setReg_now (o : Obj) (i off ext v : Nat) : (s.setReg o i off ext v).now = s.now := rfl
@[simp] theorem State.setReg_pending (o : Obj) (i off ext v : Nat) : (s.setReg o i off ext v).pending = s.pending := rfl
@[simp] theorem State.setReg_free (o : Obj) (i off ext v : Nat) : (s.setReg o i off ext v).free = s.free := rfl
@[simp] theorem State.setReg_dev (o : Obj) (i off ext v : Nat) : (s.setReg o i off ext v).dev = s.dev := rfl
@[simp] theorem State.setReg_boot (o : Obj) (i off ext v : Nat) : (s.setReg o i off ext v).boot = s.boot := rfl
@[simp] theorem State.setReg_vault (o : Obj) (i off ext v : Nat) : (s.setReg o i off ext v).vault = s.vault := rfl
@[simp] theorem State.setReg_rings (o : Obj) (i off ext v : Nat) : (s.setReg o i off ext v).rings = s.rings := rfl
@[simp] theorem State.setReg_bus (o : Obj) (i off ext v : Nat) : (s.setReg o i off ext v).bus = s.bus := rfl
@[simp] theorem State.setReg_ports (o : Obj) (i off ext v : Nat) : (s.setReg o i off ext v).ports = s.ports := rfl
@[simp] theorem State.setReg_wire (o : Obj) (i off ext v : Nat) : (s.setReg o i off ext v).wire = s.wire := rfl
@[simp] theorem State.setReg_search (o : Obj) (i off ext v : Nat) : (s.setReg o i off ext v).search = s.search := rfl
@[simp] theorem State.setReg_bays (o : Obj) (i off ext v : Nat) : (s.setReg o i off ext v).bays = s.bays := rfl
@[simp] theorem State.setReg_tables (o : Obj) (i off ext v : Nat) : (s.setReg o i off ext v).tables = s.tables := rfl
@[simp] theorem State.setReg_pfx (o : Obj) (i off ext v : Nat) : (s.setReg o i off ext v).pfx = s.pfx := rfl
@[simp] theorem State.setReg_em (o : Obj) (i off ext v : Nat) : (s.setReg o i off ext v).em = s.em := rfl
@[simp] theorem State.setReg_mem (o : Obj) (i off ext v : Nat) : (s.setReg o i off ext v).mem = s.mem := rfl
@[simp] theorem State.setReg_arb (o : Obj) (i off ext v : Nat) : (s.setReg o i off ext v).arb = s.arb := rfl
@[simp] theorem State.setReg_guar (o : Obj) (i off ext v : Nat) : (s.setReg o i off ext v).guar = s.guar := rfl
@[simp] theorem State.setReg_ed (o : Obj) (i off ext v : Nat) : (s.setReg o i off ext v).ed = s.ed := rfl
@[simp] theorem State.setReg_cas (o : Obj) (i off ext v : Nat) : (s.setReg o i off ext v).cas = s.cas := rfl
@[simp] theorem State.setReg_health (o : Obj) (i off ext v : Nat) : (s.setReg o i off ext v).health = s.health := rfl
@[simp] theorem State.setReg_cat_force (o : Obj) (i off ext v : Nat) : (s.setReg o i off ext v).cat.force = s.cat.force := rfl
@[simp] theorem State.setReg_cat_staged (o : Obj) (i off ext v : Nat) : (s.setReg o i off ext v).cat.staged = s.cat.staged := rfl
@[simp] theorem State.setReg_cat_ctx (o : Obj) (i off ext v : Nat) : (s.setReg o i off ext v).cat.ctx = s.cat.ctx := rfl
@[simp] theorem State.setReg_cat_sessions (o : Obj) (i off ext v : Nat) : (s.setReg o i off ext v).cat.sessions = s.cat.sessions := rfl
@[simp] theorem State.setReg_cat_failedProve (o : Obj) (i off ext v : Nat) : (s.setReg o i off ext v).cat.failedProve = s.cat.failedProve := rfl
@[simp] theorem State.setReg_cat_lastReqs (o : Obj) (i off ext v : Nat) : (s.setReg o i off ext v).cat.lastReqs = s.cat.lastReqs := rfl
@[simp] theorem State.setReg_cat_transfers (o : Obj) (i off ext v : Nat) : (s.setReg o i off ext v).cat.transfers = s.cat.transfers := rfl
@[simp] theorem State.setReg_cat_outstanding (o : Obj) (i off ext v : Nat) : (s.setReg o i off ext v).cat.outstanding = s.cat.outstanding := rfl
@[simp] theorem State.setReg_cat_mailboxes (o : Obj) (i off ext v : Nat) : (s.setReg o i off ext v).cat.mailboxes = s.cat.mailboxes := rfl
@[simp] theorem State.setReg_cat_provs (o : Obj) (i off ext v : Nat) : (s.setReg o i off ext v).cat.provs = s.cat.provs := rfl
@[simp] theorem State.setReg_cat_provQueue (o : Obj) (i off ext v : Nat) : (s.setReg o i off ext v).cat.provQueue = s.cat.provQueue := rfl
@[simp] theorem State.setReg_cat_blocks (o : Obj) (i off ext v : Nat) : (s.setReg o i off ext v).cat.blocks = s.cat.blocks := rfl
@[simp] theorem State.setReg_cat_acc (o : Obj) (i off ext v : Nat) : (s.setReg o i off ext v).cat.acc = s.cat.acc := rfl
@[simp] theorem State.setReg_cat_last (o : Obj) (i off ext v : Nat) : (s.setReg o i off ext v).cat.last = s.cat.last := rfl
@[simp] theorem State.setReg_cat_writes (o : Obj) (i off ext v : Nat) : (s.setReg o i off ext v).cat.writes = s.cat.writes := rfl

/-! ### State.bumpBy -/

@[simp] theorem State.bumpBy_now (n : Nat) (o : Obj) (i off : Nat) : (s.bumpBy n o i off).now = s.now := rfl
@[simp] theorem State.bumpBy_pending (n : Nat) (o : Obj) (i off : Nat) : (s.bumpBy n o i off).pending = s.pending := rfl
@[simp] theorem State.bumpBy_free (n : Nat) (o : Obj) (i off : Nat) : (s.bumpBy n o i off).free = s.free := rfl
@[simp] theorem State.bumpBy_dev (n : Nat) (o : Obj) (i off : Nat) : (s.bumpBy n o i off).dev = s.dev := rfl
@[simp] theorem State.bumpBy_boot (n : Nat) (o : Obj) (i off : Nat) : (s.bumpBy n o i off).boot = s.boot := rfl
@[simp] theorem State.bumpBy_vault (n : Nat) (o : Obj) (i off : Nat) : (s.bumpBy n o i off).vault = s.vault := rfl
@[simp] theorem State.bumpBy_rings (n : Nat) (o : Obj) (i off : Nat) : (s.bumpBy n o i off).rings = s.rings := rfl
@[simp] theorem State.bumpBy_bus (n : Nat) (o : Obj) (i off : Nat) : (s.bumpBy n o i off).bus = s.bus := rfl
@[simp] theorem State.bumpBy_ports (n : Nat) (o : Obj) (i off : Nat) : (s.bumpBy n o i off).ports = s.ports := rfl
@[simp] theorem State.bumpBy_wire (n : Nat) (o : Obj) (i off : Nat) : (s.bumpBy n o i off).wire = s.wire := rfl
@[simp] theorem State.bumpBy_search (n : Nat) (o : Obj) (i off : Nat) : (s.bumpBy n o i off).search = s.search := rfl
@[simp] theorem State.bumpBy_bays (n : Nat) (o : Obj) (i off : Nat) : (s.bumpBy n o i off).bays = s.bays := rfl
@[simp] theorem State.bumpBy_tables (n : Nat) (o : Obj) (i off : Nat) : (s.bumpBy n o i off).tables = s.tables := rfl
@[simp] theorem State.bumpBy_pfx (n : Nat) (o : Obj) (i off : Nat) : (s.bumpBy n o i off).pfx = s.pfx := rfl
@[simp] theorem State.bumpBy_em (n : Nat) (o : Obj) (i off : Nat) : (s.bumpBy n o i off).em = s.em := rfl
@[simp] theorem State.bumpBy_mem (n : Nat) (o : Obj) (i off : Nat) : (s.bumpBy n o i off).mem = s.mem := rfl
@[simp] theorem State.bumpBy_arb (n : Nat) (o : Obj) (i off : Nat) : (s.bumpBy n o i off).arb = s.arb := rfl
@[simp] theorem State.bumpBy_guar (n : Nat) (o : Obj) (i off : Nat) : (s.bumpBy n o i off).guar = s.guar := rfl
@[simp] theorem State.bumpBy_ed (n : Nat) (o : Obj) (i off : Nat) : (s.bumpBy n o i off).ed = s.ed := rfl
@[simp] theorem State.bumpBy_cas (n : Nat) (o : Obj) (i off : Nat) : (s.bumpBy n o i off).cas = s.cas := rfl
@[simp] theorem State.bumpBy_health (n : Nat) (o : Obj) (i off : Nat) : (s.bumpBy n o i off).health = s.health := rfl
@[simp] theorem State.bumpBy_cat_force (n : Nat) (o : Obj) (i off : Nat) : (s.bumpBy n o i off).cat.force = s.cat.force := rfl
@[simp] theorem State.bumpBy_cat_staged (n : Nat) (o : Obj) (i off : Nat) : (s.bumpBy n o i off).cat.staged = s.cat.staged := rfl
@[simp] theorem State.bumpBy_cat_ctx (n : Nat) (o : Obj) (i off : Nat) : (s.bumpBy n o i off).cat.ctx = s.cat.ctx := rfl
@[simp] theorem State.bumpBy_cat_sessions (n : Nat) (o : Obj) (i off : Nat) : (s.bumpBy n o i off).cat.sessions = s.cat.sessions := rfl
@[simp] theorem State.bumpBy_cat_failedProve (n : Nat) (o : Obj) (i off : Nat) : (s.bumpBy n o i off).cat.failedProve = s.cat.failedProve := rfl
@[simp] theorem State.bumpBy_cat_lastReqs (n : Nat) (o : Obj) (i off : Nat) : (s.bumpBy n o i off).cat.lastReqs = s.cat.lastReqs := rfl
@[simp] theorem State.bumpBy_cat_transfers (n : Nat) (o : Obj) (i off : Nat) : (s.bumpBy n o i off).cat.transfers = s.cat.transfers := rfl
@[simp] theorem State.bumpBy_cat_outstanding (n : Nat) (o : Obj) (i off : Nat) : (s.bumpBy n o i off).cat.outstanding = s.cat.outstanding := rfl
@[simp] theorem State.bumpBy_cat_mailboxes (n : Nat) (o : Obj) (i off : Nat) : (s.bumpBy n o i off).cat.mailboxes = s.cat.mailboxes := rfl
@[simp] theorem State.bumpBy_cat_provs (n : Nat) (o : Obj) (i off : Nat) : (s.bumpBy n o i off).cat.provs = s.cat.provs := rfl
@[simp] theorem State.bumpBy_cat_provQueue (n : Nat) (o : Obj) (i off : Nat) : (s.bumpBy n o i off).cat.provQueue = s.cat.provQueue := rfl
@[simp] theorem State.bumpBy_cat_blocks (n : Nat) (o : Obj) (i off : Nat) : (s.bumpBy n o i off).cat.blocks = s.cat.blocks := rfl
@[simp] theorem State.bumpBy_cat_acc (n : Nat) (o : Obj) (i off : Nat) : (s.bumpBy n o i off).cat.acc = s.cat.acc := rfl
@[simp] theorem State.bumpBy_cat_last (n : Nat) (o : Obj) (i off : Nat) : (s.bumpBy n o i off).cat.last = s.cat.last := rfl
@[simp] theorem State.bumpBy_cat_writes (n : Nat) (o : Obj) (i off : Nat) : (s.bumpBy n o i off).cat.writes = s.cat.writes := rfl

/-! ### State.bump -/

@[simp] theorem State.bump_now (o : Obj) (i off : Nat) : (s.bump o i off).now = s.now := rfl
@[simp] theorem State.bump_pending (o : Obj) (i off : Nat) : (s.bump o i off).pending = s.pending := rfl
@[simp] theorem State.bump_free (o : Obj) (i off : Nat) : (s.bump o i off).free = s.free := rfl
@[simp] theorem State.bump_dev (o : Obj) (i off : Nat) : (s.bump o i off).dev = s.dev := rfl
@[simp] theorem State.bump_boot (o : Obj) (i off : Nat) : (s.bump o i off).boot = s.boot := rfl
@[simp] theorem State.bump_vault (o : Obj) (i off : Nat) : (s.bump o i off).vault = s.vault := rfl
@[simp] theorem State.bump_rings (o : Obj) (i off : Nat) : (s.bump o i off).rings = s.rings := rfl
@[simp] theorem State.bump_bus (o : Obj) (i off : Nat) : (s.bump o i off).bus = s.bus := rfl
@[simp] theorem State.bump_ports (o : Obj) (i off : Nat) : (s.bump o i off).ports = s.ports := rfl
@[simp] theorem State.bump_wire (o : Obj) (i off : Nat) : (s.bump o i off).wire = s.wire := rfl
@[simp] theorem State.bump_search (o : Obj) (i off : Nat) : (s.bump o i off).search = s.search := rfl
@[simp] theorem State.bump_bays (o : Obj) (i off : Nat) : (s.bump o i off).bays = s.bays := rfl
@[simp] theorem State.bump_tables (o : Obj) (i off : Nat) : (s.bump o i off).tables = s.tables := rfl
@[simp] theorem State.bump_pfx (o : Obj) (i off : Nat) : (s.bump o i off).pfx = s.pfx := rfl
@[simp] theorem State.bump_em (o : Obj) (i off : Nat) : (s.bump o i off).em = s.em := rfl
@[simp] theorem State.bump_mem (o : Obj) (i off : Nat) : (s.bump o i off).mem = s.mem := rfl
@[simp] theorem State.bump_arb (o : Obj) (i off : Nat) : (s.bump o i off).arb = s.arb := rfl
@[simp] theorem State.bump_guar (o : Obj) (i off : Nat) : (s.bump o i off).guar = s.guar := rfl
@[simp] theorem State.bump_ed (o : Obj) (i off : Nat) : (s.bump o i off).ed = s.ed := rfl
@[simp] theorem State.bump_cas (o : Obj) (i off : Nat) : (s.bump o i off).cas = s.cas := rfl
@[simp] theorem State.bump_health (o : Obj) (i off : Nat) : (s.bump o i off).health = s.health := rfl
@[simp] theorem State.bump_cat_force (o : Obj) (i off : Nat) : (s.bump o i off).cat.force = s.cat.force := rfl
@[simp] theorem State.bump_cat_staged (o : Obj) (i off : Nat) : (s.bump o i off).cat.staged = s.cat.staged := rfl
@[simp] theorem State.bump_cat_ctx (o : Obj) (i off : Nat) : (s.bump o i off).cat.ctx = s.cat.ctx := rfl
@[simp] theorem State.bump_cat_sessions (o : Obj) (i off : Nat) : (s.bump o i off).cat.sessions = s.cat.sessions := rfl
@[simp] theorem State.bump_cat_failedProve (o : Obj) (i off : Nat) : (s.bump o i off).cat.failedProve = s.cat.failedProve := rfl
@[simp] theorem State.bump_cat_lastReqs (o : Obj) (i off : Nat) : (s.bump o i off).cat.lastReqs = s.cat.lastReqs := rfl
@[simp] theorem State.bump_cat_transfers (o : Obj) (i off : Nat) : (s.bump o i off).cat.transfers = s.cat.transfers := rfl
@[simp] theorem State.bump_cat_outstanding (o : Obj) (i off : Nat) : (s.bump o i off).cat.outstanding = s.cat.outstanding := rfl
@[simp] theorem State.bump_cat_mailboxes (o : Obj) (i off : Nat) : (s.bump o i off).cat.mailboxes = s.cat.mailboxes := rfl
@[simp] theorem State.bump_cat_provs (o : Obj) (i off : Nat) : (s.bump o i off).cat.provs = s.cat.provs := rfl
@[simp] theorem State.bump_cat_provQueue (o : Obj) (i off : Nat) : (s.bump o i off).cat.provQueue = s.cat.provQueue := rfl
@[simp] theorem State.bump_cat_blocks (o : Obj) (i off : Nat) : (s.bump o i off).cat.blocks = s.cat.blocks := rfl
@[simp] theorem State.bump_cat_acc (o : Obj) (i off : Nat) : (s.bump o i off).cat.acc = s.cat.acc := rfl
@[simp] theorem State.bump_cat_last (o : Obj) (i off : Nat) : (s.bump o i off).cat.last = s.cat.last := rfl
@[simp] theorem State.bump_cat_writes (o : Obj) (i off : Nat) : (s.bump o i off).cat.writes = s.cat.writes := rfl

/-! ### State.stage -/

@[simp] theorem State.stage_now (k v : Nat) : (s.stage k v).now = s.now := rfl
@[simp] theorem State.stage_pending (k v : Nat) : (s.stage k v).pending = s.pending := rfl
@[simp] theorem State.stage_free (k v : Nat) : (s.stage k v).free = s.free := rfl
@[simp] theorem State.stage_dev (k v : Nat) : (s.stage k v).dev = s.dev := rfl
@[simp] theorem State.stage_boot (k v : Nat) : (s.stage k v).boot = s.boot := rfl
@[simp] theorem State.stage_vault (k v : Nat) : (s.stage k v).vault = s.vault := rfl
@[simp] theorem State.stage_rings (k v : Nat) : (s.stage k v).rings = s.rings := rfl
@[simp] theorem State.stage_bus (k v : Nat) : (s.stage k v).bus = s.bus := rfl
@[simp] theorem State.stage_ports (k v : Nat) : (s.stage k v).ports = s.ports := rfl
@[simp] theorem State.stage_wire (k v : Nat) : (s.stage k v).wire = s.wire := rfl
@[simp] theorem State.stage_search (k v : Nat) : (s.stage k v).search = s.search := rfl
@[simp] theorem State.stage_bays (k v : Nat) : (s.stage k v).bays = s.bays := rfl
@[simp] theorem State.stage_tables (k v : Nat) : (s.stage k v).tables = s.tables := rfl
@[simp] theorem State.stage_pfx (k v : Nat) : (s.stage k v).pfx = s.pfx := rfl
@[simp] theorem State.stage_em (k v : Nat) : (s.stage k v).em = s.em := rfl
@[simp] theorem State.stage_mem (k v : Nat) : (s.stage k v).mem = s.mem := rfl
@[simp] theorem State.stage_arb (k v : Nat) : (s.stage k v).arb = s.arb := rfl
@[simp] theorem State.stage_guar (k v : Nat) : (s.stage k v).guar = s.guar := rfl
@[simp] theorem State.stage_ed (k v : Nat) : (s.stage k v).ed = s.ed := rfl
@[simp] theorem State.stage_cas (k v : Nat) : (s.stage k v).cas = s.cas := rfl
@[simp] theorem State.stage_health (k v : Nat) : (s.stage k v).health = s.health := rfl
@[simp] theorem State.stage_cat_force (k v : Nat) : (s.stage k v).cat.force = s.cat.force := rfl
@[simp] theorem State.stage_cat_regs (k v : Nat) : (s.stage k v).cat.regs = s.cat.regs := rfl
@[simp] theorem State.stage_cat_ctx (k v : Nat) : (s.stage k v).cat.ctx = s.cat.ctx := rfl
@[simp] theorem State.stage_cat_sessions (k v : Nat) : (s.stage k v).cat.sessions = s.cat.sessions := rfl
@[simp] theorem State.stage_cat_failedProve (k v : Nat) : (s.stage k v).cat.failedProve = s.cat.failedProve := rfl
@[simp] theorem State.stage_cat_lastReqs (k v : Nat) : (s.stage k v).cat.lastReqs = s.cat.lastReqs := rfl
@[simp] theorem State.stage_cat_transfers (k v : Nat) : (s.stage k v).cat.transfers = s.cat.transfers := rfl
@[simp] theorem State.stage_cat_outstanding (k v : Nat) : (s.stage k v).cat.outstanding = s.cat.outstanding := rfl
@[simp] theorem State.stage_cat_mailboxes (k v : Nat) : (s.stage k v).cat.mailboxes = s.cat.mailboxes := rfl
@[simp] theorem State.stage_cat_provs (k v : Nat) : (s.stage k v).cat.provs = s.cat.provs := rfl
@[simp] theorem State.stage_cat_provQueue (k v : Nat) : (s.stage k v).cat.provQueue = s.cat.provQueue := rfl
@[simp] theorem State.stage_cat_blocks (k v : Nat) : (s.stage k v).cat.blocks = s.cat.blocks := rfl
@[simp] theorem State.stage_cat_acc (k v : Nat) : (s.stage k v).cat.acc = s.cat.acc := rfl
@[simp] theorem State.stage_cat_last (k v : Nat) : (s.stage k v).cat.last = s.cat.last := rfl
@[simp] theorem State.stage_cat_writes (k v : Nat) : (s.stage k v).cat.writes = s.cat.writes := rfl

/-! ### State.enforce -/

@[simp] theorem State.enforce_now (v : Store Nat) : (s.enforce v).now = s.now := rfl
@[simp] theorem State.enforce_pending (v : Store Nat) : (s.enforce v).pending = s.pending := rfl
@[simp] theorem State.enforce_free (v : Store Nat) : (s.enforce v).free = s.free := rfl
@[simp] theorem State.enforce_dev (v : Store Nat) : (s.enforce v).dev = s.dev := rfl
@[simp] theorem State.enforce_boot (v : Store Nat) : (s.enforce v).boot = s.boot := rfl
@[simp] theorem State.enforce_vault (v : Store Nat) : (s.enforce v).vault = s.vault := rfl
@[simp] theorem State.enforce_rings (v : Store Nat) : (s.enforce v).rings = s.rings := rfl
@[simp] theorem State.enforce_bus (v : Store Nat) : (s.enforce v).bus = s.bus := rfl
@[simp] theorem State.enforce_ports (v : Store Nat) : (s.enforce v).ports = s.ports := rfl
@[simp] theorem State.enforce_wire (v : Store Nat) : (s.enforce v).wire = s.wire := rfl
@[simp] theorem State.enforce_search (v : Store Nat) : (s.enforce v).search = s.search := rfl
@[simp] theorem State.enforce_bays (v : Store Nat) : (s.enforce v).bays = s.bays := rfl
@[simp] theorem State.enforce_tables (v : Store Nat) : (s.enforce v).tables = s.tables := rfl
@[simp] theorem State.enforce_pfx (v : Store Nat) : (s.enforce v).pfx = s.pfx := rfl
@[simp] theorem State.enforce_em (v : Store Nat) : (s.enforce v).em = s.em := rfl
@[simp] theorem State.enforce_mem (v : Store Nat) : (s.enforce v).mem = s.mem := rfl
@[simp] theorem State.enforce_arb (v : Store Nat) : (s.enforce v).arb = s.arb := rfl
@[simp] theorem State.enforce_guar (v : Store Nat) : (s.enforce v).guar = s.guar := rfl
@[simp] theorem State.enforce_ed (v : Store Nat) : (s.enforce v).ed = s.ed := rfl
@[simp] theorem State.enforce_cas (v : Store Nat) : (s.enforce v).cas = s.cas := rfl
@[simp] theorem State.enforce_health (v : Store Nat) : (s.enforce v).health = s.health := rfl
@[simp] theorem State.enforce_cat_staged (v : Store Nat) : (s.enforce v).cat.staged = s.cat.staged := rfl
@[simp] theorem State.enforce_cat_regs (v : Store Nat) : (s.enforce v).cat.regs = s.cat.regs := rfl
@[simp] theorem State.enforce_cat_ctx (v : Store Nat) : (s.enforce v).cat.ctx = s.cat.ctx := rfl
@[simp] theorem State.enforce_cat_sessions (v : Store Nat) : (s.enforce v).cat.sessions = s.cat.sessions := rfl
@[simp] theorem State.enforce_cat_failedProve (v : Store Nat) : (s.enforce v).cat.failedProve = s.cat.failedProve := rfl
@[simp] theorem State.enforce_cat_lastReqs (v : Store Nat) : (s.enforce v).cat.lastReqs = s.cat.lastReqs := rfl
@[simp] theorem State.enforce_cat_transfers (v : Store Nat) : (s.enforce v).cat.transfers = s.cat.transfers := rfl
@[simp] theorem State.enforce_cat_outstanding (v : Store Nat) : (s.enforce v).cat.outstanding = s.cat.outstanding := rfl
@[simp] theorem State.enforce_cat_mailboxes (v : Store Nat) : (s.enforce v).cat.mailboxes = s.cat.mailboxes := rfl
@[simp] theorem State.enforce_cat_provs (v : Store Nat) : (s.enforce v).cat.provs = s.cat.provs := rfl
@[simp] theorem State.enforce_cat_provQueue (v : Store Nat) : (s.enforce v).cat.provQueue = s.cat.provQueue := rfl
@[simp] theorem State.enforce_cat_blocks (v : Store Nat) : (s.enforce v).cat.blocks = s.cat.blocks := rfl
@[simp] theorem State.enforce_cat_acc (v : Store Nat) : (s.enforce v).cat.acc = s.cat.acc := rfl
@[simp] theorem State.enforce_cat_last (v : Store Nat) : (s.enforce v).cat.last = s.cat.last := rfl
@[simp] theorem State.enforce_cat_writes (v : Store Nat) : (s.enforce v).cat.writes = s.cat.writes := rfl

/-! ### State.draw -/

@[simp] theorem State.draw_now : (s.draw).now = s.now := rfl
@[simp] theorem State.draw_pending : (s.draw).pending = s.pending := rfl
@[simp] theorem State.draw_dev : (s.draw).dev = s.dev := rfl
@[simp] theorem State.draw_boot : (s.draw).boot = s.boot := rfl
@[simp] theorem State.draw_vault : (s.draw).vault = s.vault := rfl
@[simp] theorem State.draw_cat : (s.draw).cat = s.cat := rfl
@[simp] theorem State.draw_rings : (s.draw).rings = s.rings := rfl
@[simp] theorem State.draw_bus : (s.draw).bus = s.bus := rfl
@[simp] theorem State.draw_ports : (s.draw).ports = s.ports := rfl
@[simp] theorem State.draw_wire : (s.draw).wire = s.wire := rfl
@[simp] theorem State.draw_search : (s.draw).search = s.search := rfl
@[simp] theorem State.draw_bays : (s.draw).bays = s.bays := rfl
@[simp] theorem State.draw_tables : (s.draw).tables = s.tables := rfl
@[simp] theorem State.draw_pfx : (s.draw).pfx = s.pfx := rfl
@[simp] theorem State.draw_em : (s.draw).em = s.em := rfl
@[simp] theorem State.draw_mem : (s.draw).mem = s.mem := rfl
@[simp] theorem State.draw_arb : (s.draw).arb = s.arb := rfl
@[simp] theorem State.draw_guar : (s.draw).guar = s.guar := rfl
@[simp] theorem State.draw_ed : (s.draw).ed = s.ed := rfl
@[simp] theorem State.draw_cas : (s.draw).cas = s.cas := rfl
@[simp] theorem State.draw_health : (s.draw).health = s.health := rfl

/-! ### State.at -/

@[simp] theorem State.at_pending (n : Nat) : (s.at n).pending = s.pending := rfl
@[simp] theorem State.at_free (n : Nat) : (s.at n).free = s.free := rfl
@[simp] theorem State.at_dev (n : Nat) : (s.at n).dev = s.dev := rfl
@[simp] theorem State.at_boot (n : Nat) : (s.at n).boot = s.boot := rfl
@[simp] theorem State.at_vault (n : Nat) : (s.at n).vault = s.vault := rfl
@[simp] theorem State.at_cat (n : Nat) : (s.at n).cat = s.cat := rfl
@[simp] theorem State.at_rings (n : Nat) : (s.at n).rings = s.rings := rfl
@[simp] theorem State.at_bus (n : Nat) : (s.at n).bus = s.bus := rfl
@[simp] theorem State.at_ports (n : Nat) : (s.at n).ports = s.ports := rfl
@[simp] theorem State.at_wire (n : Nat) : (s.at n).wire = s.wire := rfl
@[simp] theorem State.at_search (n : Nat) : (s.at n).search = s.search := rfl
@[simp] theorem State.at_bays (n : Nat) : (s.at n).bays = s.bays := rfl
@[simp] theorem State.at_tables (n : Nat) : (s.at n).tables = s.tables := rfl
@[simp] theorem State.at_pfx (n : Nat) : (s.at n).pfx = s.pfx := rfl
@[simp] theorem State.at_em (n : Nat) : (s.at n).em = s.em := rfl
@[simp] theorem State.at_mem (n : Nat) : (s.at n).mem = s.mem := rfl
@[simp] theorem State.at_arb (n : Nat) : (s.at n).arb = s.arb := rfl
@[simp] theorem State.at_guar (n : Nat) : (s.at n).guar = s.guar := rfl
@[simp] theorem State.at_ed (n : Nat) : (s.at n).ed = s.ed := rfl
@[simp] theorem State.at_cas (n : Nat) : (s.at n).cas = s.cas := rfl
@[simp] theorem State.at_health (n : Nat) : (s.at n).health = s.health := rfl

/-! ### State.setRegion -/

@[simp] theorem State.setRegion_now (d : Nat) (r : Region) : (s.setRegion d r).now = s.now := rfl
@[simp] theorem State.setRegion_pending (d : Nat) (r : Region) : (s.setRegion d r).pending = s.pending := rfl
@[simp] theorem State.setRegion_free (d : Nat) (r : Region) : (s.setRegion d r).free = s.free := rfl
@[simp] theorem State.setRegion_dev (d : Nat) (r : Region) : (s.setRegion d r).dev = s.dev := rfl
@[simp] theorem State.setRegion_boot (d : Nat) (r : Region) : (s.setRegion d r).boot = s.boot := rfl
@[simp] theorem State.setRegion_vault (d : Nat) (r : Region) : (s.setRegion d r).vault = s.vault := rfl
@[simp] theorem State.setRegion_cat (d : Nat) (r : Region) : (s.setRegion d r).cat = s.cat := rfl
@[simp] theorem State.setRegion_rings (d : Nat) (r : Region) : (s.setRegion d r).rings = s.rings := rfl
@[simp] theorem State.setRegion_bus (d : Nat) (r : Region) : (s.setRegion d r).bus = s.bus := rfl
@[simp] theorem State.setRegion_ports (d : Nat) (r : Region) : (s.setRegion d r).ports = s.ports := rfl
@[simp] theorem State.setRegion_wire (d : Nat) (r : Region) : (s.setRegion d r).wire = s.wire := rfl
@[simp] theorem State.setRegion_search (d : Nat) (r : Region) : (s.setRegion d r).search = s.search := rfl
@[simp] theorem State.setRegion_bays (d : Nat) (r : Region) : (s.setRegion d r).bays = s.bays := rfl
@[simp] theorem State.setRegion_tables (d : Nat) (r : Region) : (s.setRegion d r).tables = s.tables := rfl
@[simp] theorem State.setRegion_pfx (d : Nat) (r : Region) : (s.setRegion d r).pfx = s.pfx := rfl
@[simp] theorem State.setRegion_em (d : Nat) (r : Region) : (s.setRegion d r).em = s.em := rfl
@[simp] theorem State.setRegion_mem (d : Nat) (r : Region) : (s.setRegion d r).mem = s.mem := rfl
@[simp] theorem State.setRegion_arb (d : Nat) (r : Region) : (s.setRegion d r).arb = s.arb := rfl
@[simp] theorem State.setRegion_guar (d : Nat) (r : Region) : (s.setRegion d r).guar = s.guar := rfl
@[simp] theorem State.setRegion_ed (d : Nat) (r : Region) : (s.setRegion d r).ed = s.ed := rfl
@[simp] theorem State.setRegion_cas (d : Nat) (r : Region) : (s.setRegion d r).cas = s.cas := rfl

/-! ### State.setPort -/

@[simp] theorem State.setPort_now (p : Nat) (q : Port) : (s.setPort p q).now = s.now := rfl
@[simp] theorem State.setPort_pending (p : Nat) (q : Port) : (s.setPort p q).pending = s.pending := rfl
@[simp] theorem State.setPort_free (p : Nat) (q : Port) : (s.setPort p q).free = s.free := rfl
@[simp] theorem State.setPort_dev (p : Nat) (q : Port) : (s.setPort p q).dev = s.dev := rfl
@[simp] theorem State.setPort_boot (p : Nat) (q : Port) : (s.setPort p q).boot = s.boot := rfl
@[simp] theorem State.setPort_vault (p : Nat) (q : Port) : (s.setPort p q).vault = s.vault := rfl
@[simp] theorem State.setPort_cat (p : Nat) (q : Port) : (s.setPort p q).cat = s.cat := rfl
@[simp] theorem State.setPort_rings (p : Nat) (q : Port) : (s.setPort p q).rings = s.rings := rfl
@[simp] theorem State.setPort_bus (p : Nat) (q : Port) : (s.setPort p q).bus = s.bus := rfl
@[simp] theorem State.setPort_wire (p : Nat) (q : Port) : (s.setPort p q).wire = s.wire := rfl
@[simp] theorem State.setPort_search (p : Nat) (q : Port) : (s.setPort p q).search = s.search := rfl
@[simp] theorem State.setPort_bays (p : Nat) (q : Port) : (s.setPort p q).bays = s.bays := rfl
@[simp] theorem State.setPort_tables (p : Nat) (q : Port) : (s.setPort p q).tables = s.tables := rfl
@[simp] theorem State.setPort_pfx (p : Nat) (q : Port) : (s.setPort p q).pfx = s.pfx := rfl
@[simp] theorem State.setPort_em (p : Nat) (q : Port) : (s.setPort p q).em = s.em := rfl
@[simp] theorem State.setPort_mem (p : Nat) (q : Port) : (s.setPort p q).mem = s.mem := rfl
@[simp] theorem State.setPort_arb (p : Nat) (q : Port) : (s.setPort p q).arb = s.arb := rfl
@[simp] theorem State.setPort_guar (p : Nat) (q : Port) : (s.setPort p q).guar = s.guar := rfl
@[simp] theorem State.setPort_ed (p : Nat) (q : Port) : (s.setPort p q).ed = s.ed := rfl
@[simp] theorem State.setPort_cas (p : Nat) (q : Port) : (s.setPort p q).cas = s.cas := rfl
@[simp] theorem State.setPort_health (p : Nat) (q : Port) : (s.setPort p q).health = s.health := rfl

/-! ### State.setRing -/

@[simp] theorem State.setRing_now (r : Nat) (g : Ring) : (s.setRing r g).now = s.now := rfl
@[simp] theorem State.setRing_pending (r : Nat) (g : Ring) : (s.setRing r g).pending = s.pending := rfl
@[simp] theorem State.setRing_free (r : Nat) (g : Ring) : (s.setRing r g).free = s.free := rfl
@[simp] theorem State.setRing_dev (r : Nat) (g : Ring) : (s.setRing r g).dev = s.dev := rfl
@[simp] theorem State.setRing_boot (r : Nat) (g : Ring) : (s.setRing r g).boot = s.boot := rfl
@[simp] theorem State.setRing_vault (r : Nat) (g : Ring) : (s.setRing r g).vault = s.vault := rfl
@[simp] theorem State.setRing_cat (r : Nat) (g : Ring) : (s.setRing r g).cat = s.cat := rfl
@[simp] theorem State.setRing_bus (r : Nat) (g : Ring) : (s.setRing r g).bus = s.bus := rfl
@[simp] theorem State.setRing_ports (r : Nat) (g : Ring) : (s.setRing r g).ports = s.ports := rfl
@[simp] theorem State.setRing_wire (r : Nat) (g : Ring) : (s.setRing r g).wire = s.wire := rfl
@[simp] theorem State.setRing_search (r : Nat) (g : Ring) : (s.setRing r g).search = s.search := rfl
@[simp] theorem State.setRing_bays (r : Nat) (g : Ring) : (s.setRing r g).bays = s.bays := rfl
@[simp] theorem State.setRing_tables (r : Nat) (g : Ring) : (s.setRing r g).tables = s.tables := rfl
@[simp] theorem State.setRing_pfx (r : Nat) (g : Ring) : (s.setRing r g).pfx = s.pfx := rfl
@[simp] theorem State.setRing_em (r : Nat) (g : Ring) : (s.setRing r g).em = s.em := rfl
@[simp] theorem State.setRing_mem (r : Nat) (g : Ring) : (s.setRing r g).mem = s.mem := rfl
@[simp] theorem State.setRing_arb (r : Nat) (g : Ring) : (s.setRing r g).arb = s.arb := rfl
@[simp] theorem State.setRing_guar (r : Nat) (g : Ring) : (s.setRing r g).guar = s.guar := rfl
@[simp] theorem State.setRing_ed (r : Nat) (g : Ring) : (s.setRing r g).ed = s.ed := rfl
@[simp] theorem State.setRing_cas (r : Nat) (g : Ring) : (s.setRing r g).cas = s.cas := rfl
@[simp] theorem State.setRing_health (r : Nat) (g : Ring) : (s.setRing r g).health = s.health := rfl

/-! ### State.setTable -/

@[simp] theorem State.setTable_now (n : Nat) (x : Table) : (s.setTable n x).now = s.now := rfl
@[simp] theorem State.setTable_pending (n : Nat) (x : Table) : (s.setTable n x).pending = s.pending := rfl
@[simp] theorem State.setTable_free (n : Nat) (x : Table) : (s.setTable n x).free = s.free := rfl
@[simp] theorem State.setTable_dev (n : Nat) (x : Table) : (s.setTable n x).dev = s.dev := rfl
@[simp] theorem State.setTable_boot (n : Nat) (x : Table) : (s.setTable n x).boot = s.boot := rfl
@[simp] theorem State.setTable_vault (n : Nat) (x : Table) : (s.setTable n x).vault = s.vault := rfl
@[simp] theorem State.setTable_cat (n : Nat) (x : Table) : (s.setTable n x).cat = s.cat := rfl
@[simp] theorem State.setTable_rings (n : Nat) (x : Table) : (s.setTable n x).rings = s.rings := rfl
@[simp] theorem State.setTable_bus (n : Nat) (x : Table) : (s.setTable n x).bus = s.bus := rfl
@[simp] theorem State.setTable_ports (n : Nat) (x : Table) : (s.setTable n x).ports = s.ports := rfl
@[simp] theorem State.setTable_wire (n : Nat) (x : Table) : (s.setTable n x).wire = s.wire := rfl
@[simp] theorem State.setTable_search (n : Nat) (x : Table) : (s.setTable n x).search = s.search := rfl
@[simp] theorem State.setTable_bays (n : Nat) (x : Table) : (s.setTable n x).bays = s.bays := rfl
@[simp] theorem State.setTable_pfx (n : Nat) (x : Table) : (s.setTable n x).pfx = s.pfx := rfl
@[simp] theorem State.setTable_em (n : Nat) (x : Table) : (s.setTable n x).em = s.em := rfl
@[simp] theorem State.setTable_mem (n : Nat) (x : Table) : (s.setTable n x).mem = s.mem := rfl
@[simp] theorem State.setTable_arb (n : Nat) (x : Table) : (s.setTable n x).arb = s.arb := rfl
@[simp] theorem State.setTable_guar (n : Nat) (x : Table) : (s.setTable n x).guar = s.guar := rfl
@[simp] theorem State.setTable_ed (n : Nat) (x : Table) : (s.setTable n x).ed = s.ed := rfl
@[simp] theorem State.setTable_cas (n : Nat) (x : Table) : (s.setTable n x).cas = s.cas := rfl
@[simp] theorem State.setTable_health (n : Nat) (x : Table) : (s.setTable n x).health = s.health := rfl

/-! ### State.wakeMgmt -/

@[simp] theorem State.wakeMgmt_now : (s.wakeMgmt).now = s.now := rfl
@[simp] theorem State.wakeMgmt_pending : (s.wakeMgmt).pending = s.pending := rfl
@[simp] theorem State.wakeMgmt_free : (s.wakeMgmt).free = s.free := rfl
@[simp] theorem State.wakeMgmt_boot : (s.wakeMgmt).boot = s.boot := rfl
@[simp] theorem State.wakeMgmt_vault : (s.wakeMgmt).vault = s.vault := rfl
@[simp] theorem State.wakeMgmt_cat : (s.wakeMgmt).cat = s.cat := rfl
@[simp] theorem State.wakeMgmt_rings : (s.wakeMgmt).rings = s.rings := rfl
@[simp] theorem State.wakeMgmt_bus : (s.wakeMgmt).bus = s.bus := rfl
@[simp] theorem State.wakeMgmt_ports : (s.wakeMgmt).ports = s.ports := rfl
@[simp] theorem State.wakeMgmt_wire : (s.wakeMgmt).wire = s.wire := rfl
@[simp] theorem State.wakeMgmt_search : (s.wakeMgmt).search = s.search := rfl
@[simp] theorem State.wakeMgmt_bays : (s.wakeMgmt).bays = s.bays := rfl
@[simp] theorem State.wakeMgmt_tables : (s.wakeMgmt).tables = s.tables := rfl
@[simp] theorem State.wakeMgmt_pfx : (s.wakeMgmt).pfx = s.pfx := rfl
@[simp] theorem State.wakeMgmt_em : (s.wakeMgmt).em = s.em := rfl
@[simp] theorem State.wakeMgmt_mem : (s.wakeMgmt).mem = s.mem := rfl
@[simp] theorem State.wakeMgmt_arb : (s.wakeMgmt).arb = s.arb := rfl
@[simp] theorem State.wakeMgmt_guar : (s.wakeMgmt).guar = s.guar := rfl
@[simp] theorem State.wakeMgmt_ed : (s.wakeMgmt).ed = s.ed := rfl
@[simp] theorem State.wakeMgmt_cas : (s.wakeMgmt).cas = s.cas := rfl
@[simp] theorem State.wakeMgmt_health : (s.wakeMgmt).health = s.health := rfl

/-! ### State.setFlight -/

@[simp] theorem State.setFlight_now (x : Inflight) : (s.setFlight x).now = s.now := rfl
@[simp] theorem State.setFlight_pending (x : Inflight) : (s.setFlight x).pending = s.pending := rfl
@[simp] theorem State.setFlight_free (x : Inflight) : (s.setFlight x).free = s.free := rfl
@[simp] theorem State.setFlight_dev (x : Inflight) : (s.setFlight x).dev = s.dev := rfl
@[simp] theorem State.setFlight_boot (x : Inflight) : (s.setFlight x).boot = s.boot := rfl
@[simp] theorem State.setFlight_vault (x : Inflight) : (s.setFlight x).vault = s.vault := rfl
@[simp] theorem State.setFlight_cat (x : Inflight) : (s.setFlight x).cat = s.cat := rfl
@[simp] theorem State.setFlight_rings (x : Inflight) : (s.setFlight x).rings = s.rings := rfl
@[simp] theorem State.setFlight_bus (x : Inflight) : (s.setFlight x).bus = s.bus := rfl
@[simp] theorem State.setFlight_ports (x : Inflight) : (s.setFlight x).ports = s.ports := rfl
@[simp] theorem State.setFlight_wire (x : Inflight) : (s.setFlight x).wire = s.wire := rfl
@[simp] theorem State.setFlight_bays (x : Inflight) : (s.setFlight x).bays = s.bays := rfl
@[simp] theorem State.setFlight_tables (x : Inflight) : (s.setFlight x).tables = s.tables := rfl
@[simp] theorem State.setFlight_pfx (x : Inflight) : (s.setFlight x).pfx = s.pfx := rfl
@[simp] theorem State.setFlight_em (x : Inflight) : (s.setFlight x).em = s.em := rfl
@[simp] theorem State.setFlight_mem (x : Inflight) : (s.setFlight x).mem = s.mem := rfl
@[simp] theorem State.setFlight_arb (x : Inflight) : (s.setFlight x).arb = s.arb := rfl
@[simp] theorem State.setFlight_guar (x : Inflight) : (s.setFlight x).guar = s.guar := rfl
@[simp] theorem State.setFlight_ed (x : Inflight) : (s.setFlight x).ed = s.ed := rfl
@[simp] theorem State.setFlight_cas (x : Inflight) : (s.setFlight x).cas = s.cas := rfl
@[simp] theorem State.setFlight_health (x : Inflight) : (s.setFlight x).health = s.health := rfl

/-! ### State.dropFlight -/

@[simp] theorem State.dropFlight_now (n : Nat) : (s.dropFlight n).now = s.now := rfl
@[simp] theorem State.dropFlight_pending (n : Nat) : (s.dropFlight n).pending = s.pending := rfl
@[simp] theorem State.dropFlight_free (n : Nat) : (s.dropFlight n).free = s.free := rfl
@[simp] theorem State.dropFlight_dev (n : Nat) : (s.dropFlight n).dev = s.dev := rfl
@[simp] theorem State.dropFlight_boot (n : Nat) : (s.dropFlight n).boot = s.boot := rfl
@[simp] theorem State.dropFlight_vault (n : Nat) : (s.dropFlight n).vault = s.vault := rfl
@[simp] theorem State.dropFlight_cat (n : Nat) : (s.dropFlight n).cat = s.cat := rfl
@[simp] theorem State.dropFlight_rings (n : Nat) : (s.dropFlight n).rings = s.rings := rfl
@[simp] theorem State.dropFlight_bus (n : Nat) : (s.dropFlight n).bus = s.bus := rfl
@[simp] theorem State.dropFlight_ports (n : Nat) : (s.dropFlight n).ports = s.ports := rfl
@[simp] theorem State.dropFlight_wire (n : Nat) : (s.dropFlight n).wire = s.wire := rfl
@[simp] theorem State.dropFlight_bays (n : Nat) : (s.dropFlight n).bays = s.bays := rfl
@[simp] theorem State.dropFlight_tables (n : Nat) : (s.dropFlight n).tables = s.tables := rfl
@[simp] theorem State.dropFlight_pfx (n : Nat) : (s.dropFlight n).pfx = s.pfx := rfl
@[simp] theorem State.dropFlight_em (n : Nat) : (s.dropFlight n).em = s.em := rfl
@[simp] theorem State.dropFlight_mem (n : Nat) : (s.dropFlight n).mem = s.mem := rfl
@[simp] theorem State.dropFlight_arb (n : Nat) : (s.dropFlight n).arb = s.arb := rfl
@[simp] theorem State.dropFlight_guar (n : Nat) : (s.dropFlight n).guar = s.guar := rfl
@[simp] theorem State.dropFlight_ed (n : Nat) : (s.dropFlight n).ed = s.ed := rfl
@[simp] theorem State.dropFlight_cas (n : Nat) : (s.dropFlight n).cas = s.cas := rfl
@[simp] theorem State.dropFlight_health (n : Nat) : (s.dropFlight n).health = s.health := rfl

/-! ### State.cleanse -/

@[simp] theorem State.cleanse_now (k : MemKind) (u i : Nat) : (s.cleanse k u i).now = s.now := rfl
@[simp] theorem State.cleanse_pending (k : MemKind) (u i : Nat) : (s.cleanse k u i).pending = s.pending := rfl
@[simp] theorem State.cleanse_free (k : MemKind) (u i : Nat) : (s.cleanse k u i).free = s.free := rfl
@[simp] theorem State.cleanse_dev (k : MemKind) (u i : Nat) : (s.cleanse k u i).dev = s.dev := rfl
@[simp] theorem State.cleanse_boot (k : MemKind) (u i : Nat) : (s.cleanse k u i).boot = s.boot := rfl
@[simp] theorem State.cleanse_vault (k : MemKind) (u i : Nat) : (s.cleanse k u i).vault = s.vault := rfl
@[simp] theorem State.cleanse_cat (k : MemKind) (u i : Nat) : (s.cleanse k u i).cat = s.cat := rfl
@[simp] theorem State.cleanse_rings (k : MemKind) (u i : Nat) : (s.cleanse k u i).rings = s.rings := rfl
@[simp] theorem State.cleanse_bus (k : MemKind) (u i : Nat) : (s.cleanse k u i).bus = s.bus := rfl
@[simp] theorem State.cleanse_ports (k : MemKind) (u i : Nat) : (s.cleanse k u i).ports = s.ports := rfl
@[simp] theorem State.cleanse_wire (k : MemKind) (u i : Nat) : (s.cleanse k u i).wire = s.wire := rfl
@[simp] theorem State.cleanse_search (k : MemKind) (u i : Nat) : (s.cleanse k u i).search = s.search := rfl
@[simp] theorem State.cleanse_bays (k : MemKind) (u i : Nat) : (s.cleanse k u i).bays = s.bays := rfl
@[simp] theorem State.cleanse_tables (k : MemKind) (u i : Nat) : (s.cleanse k u i).tables = s.tables := rfl
@[simp] theorem State.cleanse_pfx (k : MemKind) (u i : Nat) : (s.cleanse k u i).pfx = s.pfx := rfl
@[simp] theorem State.cleanse_em (k : MemKind) (u i : Nat) : (s.cleanse k u i).em = s.em := rfl
@[simp] theorem State.cleanse_mem (k : MemKind) (u i : Nat) : (s.cleanse k u i).mem = s.mem := rfl
@[simp] theorem State.cleanse_arb (k : MemKind) (u i : Nat) : (s.cleanse k u i).arb = s.arb := rfl
@[simp] theorem State.cleanse_guar (k : MemKind) (u i : Nat) : (s.cleanse k u i).guar = s.guar := rfl
@[simp] theorem State.cleanse_ed (k : MemKind) (u i : Nat) : (s.cleanse k u i).ed = s.ed := rfl
@[simp] theorem State.cleanse_cas (k : MemKind) (u i : Nat) : (s.cleanse k u i).cas = s.cas := rfl

/-! ### State.mapBay -/

@[simp] theorem State.mapBay_now (l b : Nat) : (s.mapBay l b).now = s.now := rfl
@[simp] theorem State.mapBay_pending (l b : Nat) : (s.mapBay l b).pending = s.pending := rfl
@[simp] theorem State.mapBay_free (l b : Nat) : (s.mapBay l b).free = s.free := rfl
@[simp] theorem State.mapBay_dev (l b : Nat) : (s.mapBay l b).dev = s.dev := rfl
@[simp] theorem State.mapBay_boot (l b : Nat) : (s.mapBay l b).boot = s.boot := rfl
@[simp] theorem State.mapBay_vault (l b : Nat) : (s.mapBay l b).vault = s.vault := rfl
@[simp] theorem State.mapBay_cat (l b : Nat) : (s.mapBay l b).cat = s.cat := rfl
@[simp] theorem State.mapBay_rings (l b : Nat) : (s.mapBay l b).rings = s.rings := rfl
@[simp] theorem State.mapBay_bus (l b : Nat) : (s.mapBay l b).bus = s.bus := rfl
@[simp] theorem State.mapBay_ports (l b : Nat) : (s.mapBay l b).ports = s.ports := rfl
@[simp] theorem State.mapBay_wire (l b : Nat) : (s.mapBay l b).wire = s.wire := rfl
@[simp] theorem State.mapBay_search (l b : Nat) : (s.mapBay l b).search = s.search := rfl
@[simp] theorem State.mapBay_tables (l b : Nat) : (s.mapBay l b).tables = s.tables := rfl
@[simp] theorem State.mapBay_pfx (l b : Nat) : (s.mapBay l b).pfx = s.pfx := rfl
@[simp] theorem State.mapBay_em (l b : Nat) : (s.mapBay l b).em = s.em := rfl
@[simp] theorem State.mapBay_mem (l b : Nat) : (s.mapBay l b).mem = s.mem := rfl
@[simp] theorem State.mapBay_arb (l b : Nat) : (s.mapBay l b).arb = s.arb := rfl
@[simp] theorem State.mapBay_guar (l b : Nat) : (s.mapBay l b).guar = s.guar := rfl
@[simp] theorem State.mapBay_ed (l b : Nat) : (s.mapBay l b).ed = s.ed := rfl
@[simp] theorem State.mapBay_cas (l b : Nat) : (s.mapBay l b).cas = s.cas := rfl
@[simp] theorem State.mapBay_health (l b : Nat) : (s.mapBay l b).health = s.health := rfl

/-! ### State.setQueue -/

@[simp] theorem State.setQueue_now (room : Nat) (l : List MqCmd) : (s.setQueue room l).now = s.now := rfl
@[simp] theorem State.setQueue_pending (room : Nat) (l : List MqCmd) : (s.setQueue room l).pending = s.pending := rfl
@[simp] theorem State.setQueue_free (room : Nat) (l : List MqCmd) : (s.setQueue room l).free = s.free := rfl
@[simp] theorem State.setQueue_dev (room : Nat) (l : List MqCmd) : (s.setQueue room l).dev = s.dev := rfl
@[simp] theorem State.setQueue_boot (room : Nat) (l : List MqCmd) : (s.setQueue room l).boot = s.boot := rfl
@[simp] theorem State.setQueue_vault (room : Nat) (l : List MqCmd) : (s.setQueue room l).vault = s.vault := rfl
@[simp] theorem State.setQueue_cat (room : Nat) (l : List MqCmd) : (s.setQueue room l).cat = s.cat := rfl
@[simp] theorem State.setQueue_rings (room : Nat) (l : List MqCmd) : (s.setQueue room l).rings = s.rings := rfl
@[simp] theorem State.setQueue_bus (room : Nat) (l : List MqCmd) : (s.setQueue room l).bus = s.bus := rfl
@[simp] theorem State.setQueue_ports (room : Nat) (l : List MqCmd) : (s.setQueue room l).ports = s.ports := rfl
@[simp] theorem State.setQueue_wire (room : Nat) (l : List MqCmd) : (s.setQueue room l).wire = s.wire := rfl
@[simp] theorem State.setQueue_search (room : Nat) (l : List MqCmd) : (s.setQueue room l).search = s.search := rfl
@[simp] theorem State.setQueue_bays (room : Nat) (l : List MqCmd) : (s.setQueue room l).bays = s.bays := rfl
@[simp] theorem State.setQueue_tables (room : Nat) (l : List MqCmd) : (s.setQueue room l).tables = s.tables := rfl
@[simp] theorem State.setQueue_pfx (room : Nat) (l : List MqCmd) : (s.setQueue room l).pfx = s.pfx := rfl
@[simp] theorem State.setQueue_em (room : Nat) (l : List MqCmd) : (s.setQueue room l).em = s.em := rfl
@[simp] theorem State.setQueue_mem (room : Nat) (l : List MqCmd) : (s.setQueue room l).mem = s.mem := rfl
@[simp] theorem State.setQueue_guar (room : Nat) (l : List MqCmd) : (s.setQueue room l).guar = s.guar := rfl
@[simp] theorem State.setQueue_ed (room : Nat) (l : List MqCmd) : (s.setQueue room l).ed = s.ed := rfl
@[simp] theorem State.setQueue_cas (room : Nat) (l : List MqCmd) : (s.setQueue room l).cas = s.cas := rfl
@[simp] theorem State.setQueue_health (room : Nat) (l : List MqCmd) : (s.setQueue room l).health = s.health := rfl

/-! ### State.setCmd -/

@[simp] theorem State.setCmd_now (c : MqCmd) : (s.setCmd c).now = s.now := rfl
@[simp] theorem State.setCmd_pending (c : MqCmd) : (s.setCmd c).pending = s.pending := rfl
@[simp] theorem State.setCmd_free (c : MqCmd) : (s.setCmd c).free = s.free := rfl
@[simp] theorem State.setCmd_dev (c : MqCmd) : (s.setCmd c).dev = s.dev := rfl
@[simp] theorem State.setCmd_boot (c : MqCmd) : (s.setCmd c).boot = s.boot := rfl
@[simp] theorem State.setCmd_vault (c : MqCmd) : (s.setCmd c).vault = s.vault := rfl
@[simp] theorem State.setCmd_cat (c : MqCmd) : (s.setCmd c).cat = s.cat := rfl
@[simp] theorem State.setCmd_rings (c : MqCmd) : (s.setCmd c).rings = s.rings := rfl
@[simp] theorem State.setCmd_bus (c : MqCmd) : (s.setCmd c).bus = s.bus := rfl
@[simp] theorem State.setCmd_ports (c : MqCmd) : (s.setCmd c).ports = s.ports := rfl
@[simp] theorem State.setCmd_wire (c : MqCmd) : (s.setCmd c).wire = s.wire := rfl
@[simp] theorem State.setCmd_search (c : MqCmd) : (s.setCmd c).search = s.search := rfl
@[simp] theorem State.setCmd_bays (c : MqCmd) : (s.setCmd c).bays = s.bays := rfl
@[simp] theorem State.setCmd_tables (c : MqCmd) : (s.setCmd c).tables = s.tables := rfl
@[simp] theorem State.setCmd_pfx (c : MqCmd) : (s.setCmd c).pfx = s.pfx := rfl
@[simp] theorem State.setCmd_em (c : MqCmd) : (s.setCmd c).em = s.em := rfl
@[simp] theorem State.setCmd_mem (c : MqCmd) : (s.setCmd c).mem = s.mem := rfl
@[simp] theorem State.setCmd_guar (c : MqCmd) : (s.setCmd c).guar = s.guar := rfl
@[simp] theorem State.setCmd_ed (c : MqCmd) : (s.setCmd c).ed = s.ed := rfl
@[simp] theorem State.setCmd_cas (c : MqCmd) : (s.setCmd c).cas = s.cas := rfl
@[simp] theorem State.setCmd_health (c : MqCmd) : (s.setCmd c).health = s.health := rfl

/-! ### State.setAttempt -/

@[simp] theorem State.setAttempt_now (f : Attempt → Attempt) : (s.setAttempt f).now = s.now := rfl
@[simp] theorem State.setAttempt_pending (f : Attempt → Attempt) : (s.setAttempt f).pending = s.pending := rfl
@[simp] theorem State.setAttempt_free (f : Attempt → Attempt) : (s.setAttempt f).free = s.free := rfl
@[simp] theorem State.setAttempt_dev (f : Attempt → Attempt) : (s.setAttempt f).dev = s.dev := rfl
@[simp] theorem State.setAttempt_vault (f : Attempt → Attempt) : (s.setAttempt f).vault = s.vault := rfl
@[simp] theorem State.setAttempt_cat (f : Attempt → Attempt) : (s.setAttempt f).cat = s.cat := rfl
@[simp] theorem State.setAttempt_rings (f : Attempt → Attempt) : (s.setAttempt f).rings = s.rings := rfl
@[simp] theorem State.setAttempt_bus (f : Attempt → Attempt) : (s.setAttempt f).bus = s.bus := rfl
@[simp] theorem State.setAttempt_ports (f : Attempt → Attempt) : (s.setAttempt f).ports = s.ports := rfl
@[simp] theorem State.setAttempt_wire (f : Attempt → Attempt) : (s.setAttempt f).wire = s.wire := rfl
@[simp] theorem State.setAttempt_search (f : Attempt → Attempt) : (s.setAttempt f).search = s.search := rfl
@[simp] theorem State.setAttempt_bays (f : Attempt → Attempt) : (s.setAttempt f).bays = s.bays := rfl
@[simp] theorem State.setAttempt_tables (f : Attempt → Attempt) : (s.setAttempt f).tables = s.tables := rfl
@[simp] theorem State.setAttempt_pfx (f : Attempt → Attempt) : (s.setAttempt f).pfx = s.pfx := rfl
@[simp] theorem State.setAttempt_em (f : Attempt → Attempt) : (s.setAttempt f).em = s.em := rfl
@[simp] theorem State.setAttempt_mem (f : Attempt → Attempt) : (s.setAttempt f).mem = s.mem := rfl
@[simp] theorem State.setAttempt_arb (f : Attempt → Attempt) : (s.setAttempt f).arb = s.arb := rfl
@[simp] theorem State.setAttempt_guar (f : Attempt → Attempt) : (s.setAttempt f).guar = s.guar := rfl
@[simp] theorem State.setAttempt_ed (f : Attempt → Attempt) : (s.setAttempt f).ed = s.ed := rfl
@[simp] theorem State.setAttempt_cas (f : Attempt → Attempt) : (s.setAttempt f).cas = s.cas := rfl
@[simp] theorem State.setAttempt_health (f : Attempt → Attempt) : (s.setAttempt f).health = s.health := rfl

/-! ### State.extend -/

@[simp] theorem State.extend_now (i : Nat) (d : List Byte) : (s.extend i d).now = s.now := rfl
@[simp] theorem State.extend_pending (i : Nat) (d : List Byte) : (s.extend i d).pending = s.pending := rfl
@[simp] theorem State.extend_free (i : Nat) (d : List Byte) : (s.extend i d).free = s.free := rfl
@[simp] theorem State.extend_dev (i : Nat) (d : List Byte) : (s.extend i d).dev = s.dev := rfl
@[simp] theorem State.extend_vault (i : Nat) (d : List Byte) : (s.extend i d).vault = s.vault := rfl
@[simp] theorem State.extend_cat (i : Nat) (d : List Byte) : (s.extend i d).cat = s.cat := rfl
@[simp] theorem State.extend_rings (i : Nat) (d : List Byte) : (s.extend i d).rings = s.rings := rfl
@[simp] theorem State.extend_bus (i : Nat) (d : List Byte) : (s.extend i d).bus = s.bus := rfl
@[simp] theorem State.extend_ports (i : Nat) (d : List Byte) : (s.extend i d).ports = s.ports := rfl
@[simp] theorem State.extend_wire (i : Nat) (d : List Byte) : (s.extend i d).wire = s.wire := rfl
@[simp] theorem State.extend_search (i : Nat) (d : List Byte) : (s.extend i d).search = s.search := rfl
@[simp] theorem State.extend_bays (i : Nat) (d : List Byte) : (s.extend i d).bays = s.bays := rfl
@[simp] theorem State.extend_tables (i : Nat) (d : List Byte) : (s.extend i d).tables = s.tables := rfl
@[simp] theorem State.extend_pfx (i : Nat) (d : List Byte) : (s.extend i d).pfx = s.pfx := rfl
@[simp] theorem State.extend_em (i : Nat) (d : List Byte) : (s.extend i d).em = s.em := rfl
@[simp] theorem State.extend_mem (i : Nat) (d : List Byte) : (s.extend i d).mem = s.mem := rfl
@[simp] theorem State.extend_arb (i : Nat) (d : List Byte) : (s.extend i d).arb = s.arb := rfl
@[simp] theorem State.extend_guar (i : Nat) (d : List Byte) : (s.extend i d).guar = s.guar := rfl
@[simp] theorem State.extend_ed (i : Nat) (d : List Byte) : (s.extend i d).ed = s.ed := rfl
@[simp] theorem State.extend_cas (i : Nat) (d : List Byte) : (s.extend i d).cas = s.cas := rfl
@[simp] theorem State.extend_health (i : Nat) (d : List Byte) : (s.extend i d).health = s.health := rfl

/-! ### State.setUpd -/

@[simp] theorem State.setUpd_now (f : FwUpd → FwUpd) : (s.setUpd f).now = s.now := rfl
@[simp] theorem State.setUpd_pending (f : FwUpd → FwUpd) : (s.setUpd f).pending = s.pending := rfl
@[simp] theorem State.setUpd_free (f : FwUpd → FwUpd) : (s.setUpd f).free = s.free := rfl
@[simp] theorem State.setUpd_dev (f : FwUpd → FwUpd) : (s.setUpd f).dev = s.dev := rfl
@[simp] theorem State.setUpd_vault (f : FwUpd → FwUpd) : (s.setUpd f).vault = s.vault := rfl
@[simp] theorem State.setUpd_cat (f : FwUpd → FwUpd) : (s.setUpd f).cat = s.cat := rfl
@[simp] theorem State.setUpd_rings (f : FwUpd → FwUpd) : (s.setUpd f).rings = s.rings := rfl
@[simp] theorem State.setUpd_bus (f : FwUpd → FwUpd) : (s.setUpd f).bus = s.bus := rfl
@[simp] theorem State.setUpd_ports (f : FwUpd → FwUpd) : (s.setUpd f).ports = s.ports := rfl
@[simp] theorem State.setUpd_wire (f : FwUpd → FwUpd) : (s.setUpd f).wire = s.wire := rfl
@[simp] theorem State.setUpd_search (f : FwUpd → FwUpd) : (s.setUpd f).search = s.search := rfl
@[simp] theorem State.setUpd_bays (f : FwUpd → FwUpd) : (s.setUpd f).bays = s.bays := rfl
@[simp] theorem State.setUpd_tables (f : FwUpd → FwUpd) : (s.setUpd f).tables = s.tables := rfl
@[simp] theorem State.setUpd_pfx (f : FwUpd → FwUpd) : (s.setUpd f).pfx = s.pfx := rfl
@[simp] theorem State.setUpd_em (f : FwUpd → FwUpd) : (s.setUpd f).em = s.em := rfl
@[simp] theorem State.setUpd_mem (f : FwUpd → FwUpd) : (s.setUpd f).mem = s.mem := rfl
@[simp] theorem State.setUpd_arb (f : FwUpd → FwUpd) : (s.setUpd f).arb = s.arb := rfl
@[simp] theorem State.setUpd_guar (f : FwUpd → FwUpd) : (s.setUpd f).guar = s.guar := rfl
@[simp] theorem State.setUpd_ed (f : FwUpd → FwUpd) : (s.setUpd f).ed = s.ed := rfl
@[simp] theorem State.setUpd_cas (f : FwUpd → FwUpd) : (s.setUpd f).cas = s.cas := rfl
@[simp] theorem State.setUpd_health (f : FwUpd → FwUpd) : (s.setUpd f).health = s.health := rfl

/-! ### State.setTap -/

@[simp] theorem State.setTap_now (t : Tap) : (s.setTap t).now = s.now := rfl
@[simp] theorem State.setTap_pending (t : Tap) : (s.setTap t).pending = s.pending := rfl
@[simp] theorem State.setTap_free (t : Tap) : (s.setTap t).free = s.free := rfl
@[simp] theorem State.setTap_vault (t : Tap) : (s.setTap t).vault = s.vault := rfl
@[simp] theorem State.setTap_dev_tap (t : Tap) : (s.setTap t).dev.tap = t := rfl
@[simp] theorem State.setTap_dev_boundary (t : Tap) : (s.setTap t).dev.boundary = s.dev.boundary := rfl
@[simp] theorem State.setTap_boot (t : Tap) : (s.setTap t).boot = s.boot := rfl
@[simp] theorem State.setTap_cat (t : Tap) : (s.setTap t).cat = s.cat := rfl
@[simp] theorem State.setTap_rings (t : Tap) : (s.setTap t).rings = s.rings := rfl
@[simp] theorem State.setTap_bus (t : Tap) : (s.setTap t).bus = s.bus := rfl
@[simp] theorem State.setTap_ports (t : Tap) : (s.setTap t).ports = s.ports := rfl
@[simp] theorem State.setTap_wire (t : Tap) : (s.setTap t).wire = s.wire := rfl
@[simp] theorem State.setTap_search (t : Tap) : (s.setTap t).search = s.search := rfl
@[simp] theorem State.setTap_bays (t : Tap) : (s.setTap t).bays = s.bays := rfl
@[simp] theorem State.setTap_tables (t : Tap) : (s.setTap t).tables = s.tables := rfl
@[simp] theorem State.setTap_pfx (t : Tap) : (s.setTap t).pfx = s.pfx := rfl
@[simp] theorem State.setTap_em (t : Tap) : (s.setTap t).em = s.em := rfl
@[simp] theorem State.setTap_mem (t : Tap) : (s.setTap t).mem = s.mem := rfl
@[simp] theorem State.setTap_arb (t : Tap) : (s.setTap t).arb = s.arb := rfl
@[simp] theorem State.setTap_guar (t : Tap) : (s.setTap t).guar = s.guar := rfl
@[simp] theorem State.setTap_ed (t : Tap) : (s.setTap t).ed = s.ed := rfl
@[simp] theorem State.setTap_cas (t : Tap) : (s.setTap t).cas = s.cas := rfl
@[simp] theorem State.setTap_health (t : Tap) : (s.setTap t).health = s.health := rfl

/-! ### State.setVault -/

@[simp] theorem State.setVault_now (f : Vault → Vault) : (s.setVault f).now = s.now := rfl
@[simp] theorem State.setVault_pending (f : Vault → Vault) : (s.setVault f).pending = s.pending := rfl
@[simp] theorem State.setVault_free (f : Vault → Vault) : (s.setVault f).free = s.free := rfl
@[simp] theorem State.setVault_dev (f : Vault → Vault) : (s.setVault f).dev = s.dev := rfl
@[simp] theorem State.setVault_boot (f : Vault → Vault) : (s.setVault f).boot = s.boot := rfl
@[simp] theorem State.setVault_cat (f : Vault → Vault) : (s.setVault f).cat = s.cat := rfl
@[simp] theorem State.setVault_rings (f : Vault → Vault) : (s.setVault f).rings = s.rings := rfl
@[simp] theorem State.setVault_bus (f : Vault → Vault) : (s.setVault f).bus = s.bus := rfl
@[simp] theorem State.setVault_ports (f : Vault → Vault) : (s.setVault f).ports = s.ports := rfl
@[simp] theorem State.setVault_wire (f : Vault → Vault) : (s.setVault f).wire = s.wire := rfl
@[simp] theorem State.setVault_search (f : Vault → Vault) : (s.setVault f).search = s.search := rfl
@[simp] theorem State.setVault_bays (f : Vault → Vault) : (s.setVault f).bays = s.bays := rfl
@[simp] theorem State.setVault_tables (f : Vault → Vault) : (s.setVault f).tables = s.tables := rfl
@[simp] theorem State.setVault_pfx (f : Vault → Vault) : (s.setVault f).pfx = s.pfx := rfl
@[simp] theorem State.setVault_em (f : Vault → Vault) : (s.setVault f).em = s.em := rfl
@[simp] theorem State.setVault_mem (f : Vault → Vault) : (s.setVault f).mem = s.mem := rfl
@[simp] theorem State.setVault_arb (f : Vault → Vault) : (s.setVault f).arb = s.arb := rfl
@[simp] theorem State.setVault_guar (f : Vault → Vault) : (s.setVault f).guar = s.guar := rfl
@[simp] theorem State.setVault_ed (f : Vault → Vault) : (s.setVault f).ed = s.ed := rfl
@[simp] theorem State.setVault_cas (f : Vault → Vault) : (s.setVault f).cas = s.cas := rfl
@[simp] theorem State.setVault_health (f : Vault → Vault) : (s.setVault f).health = s.health := rfl

/-! ### State.setHealth -/

@[simp] theorem State.setHealth_now (f : Health → Health) : (s.setHealth f).now = s.now := rfl
@[simp] theorem State.setHealth_pending (f : Health → Health) : (s.setHealth f).pending = s.pending := rfl
@[simp] theorem State.setHealth_free (f : Health → Health) : (s.setHealth f).free = s.free := rfl
@[simp] theorem State.setHealth_dev (f : Health → Health) : (s.setHealth f).dev = s.dev := rfl
@[simp] theorem State.setHealth_boot (f : Health → Health) : (s.setHealth f).boot = s.boot := rfl
@[simp] theorem State.setHealth_vault (f : Health → Health) : (s.setHealth f).vault = s.vault := rfl
@[simp] theorem State.setHealth_cat (f : Health → Health) : (s.setHealth f).cat = s.cat := rfl
@[simp] theorem State.setHealth_rings (f : Health → Health) : (s.setHealth f).rings = s.rings := rfl
@[simp] theorem State.setHealth_bus (f : Health → Health) : (s.setHealth f).bus = s.bus := rfl
@[simp] theorem State.setHealth_ports (f : Health → Health) : (s.setHealth f).ports = s.ports := rfl
@[simp] theorem State.setHealth_wire (f : Health → Health) : (s.setHealth f).wire = s.wire := rfl
@[simp] theorem State.setHealth_search (f : Health → Health) : (s.setHealth f).search = s.search := rfl
@[simp] theorem State.setHealth_bays (f : Health → Health) : (s.setHealth f).bays = s.bays := rfl
@[simp] theorem State.setHealth_tables (f : Health → Health) : (s.setHealth f).tables = s.tables := rfl
@[simp] theorem State.setHealth_pfx (f : Health → Health) : (s.setHealth f).pfx = s.pfx := rfl
@[simp] theorem State.setHealth_em (f : Health → Health) : (s.setHealth f).em = s.em := rfl
@[simp] theorem State.setHealth_mem (f : Health → Health) : (s.setHealth f).mem = s.mem := rfl
@[simp] theorem State.setHealth_arb (f : Health → Health) : (s.setHealth f).arb = s.arb := rfl
@[simp] theorem State.setHealth_guar (f : Health → Health) : (s.setHealth f).guar = s.guar := rfl
@[simp] theorem State.setHealth_ed (f : Health → Health) : (s.setHealth f).ed = s.ed := rfl
@[simp] theorem State.setHealth_cas (f : Health → Health) : (s.setHealth f).cas = s.cas := rfl

/-! ### State.setBays -/

@[simp] theorem State.setBays_now (f : Bays → Bays) : (s.setBays f).now = s.now := rfl
@[simp] theorem State.setBays_pending (f : Bays → Bays) : (s.setBays f).pending = s.pending := rfl
@[simp] theorem State.setBays_free (f : Bays → Bays) : (s.setBays f).free = s.free := rfl
@[simp] theorem State.setBays_dev (f : Bays → Bays) : (s.setBays f).dev = s.dev := rfl
@[simp] theorem State.setBays_boot (f : Bays → Bays) : (s.setBays f).boot = s.boot := rfl
@[simp] theorem State.setBays_vault (f : Bays → Bays) : (s.setBays f).vault = s.vault := rfl
@[simp] theorem State.setBays_cat (f : Bays → Bays) : (s.setBays f).cat = s.cat := rfl
@[simp] theorem State.setBays_rings (f : Bays → Bays) : (s.setBays f).rings = s.rings := rfl
@[simp] theorem State.setBays_bus (f : Bays → Bays) : (s.setBays f).bus = s.bus := rfl
@[simp] theorem State.setBays_ports (f : Bays → Bays) : (s.setBays f).ports = s.ports := rfl
@[simp] theorem State.setBays_wire (f : Bays → Bays) : (s.setBays f).wire = s.wire := rfl
@[simp] theorem State.setBays_search (f : Bays → Bays) : (s.setBays f).search = s.search := rfl
@[simp] theorem State.setBays_tables (f : Bays → Bays) : (s.setBays f).tables = s.tables := rfl
@[simp] theorem State.setBays_pfx (f : Bays → Bays) : (s.setBays f).pfx = s.pfx := rfl
@[simp] theorem State.setBays_em (f : Bays → Bays) : (s.setBays f).em = s.em := rfl
@[simp] theorem State.setBays_mem (f : Bays → Bays) : (s.setBays f).mem = s.mem := rfl
@[simp] theorem State.setBays_arb (f : Bays → Bays) : (s.setBays f).arb = s.arb := rfl
@[simp] theorem State.setBays_guar (f : Bays → Bays) : (s.setBays f).guar = s.guar := rfl
@[simp] theorem State.setBays_ed (f : Bays → Bays) : (s.setBays f).ed = s.ed := rfl
@[simp] theorem State.setBays_cas (f : Bays → Bays) : (s.setBays f).cas = s.cas := rfl
@[simp] theorem State.setBays_health (f : Bays → Bays) : (s.setBays f).health = s.health := rfl

/-! ### State.setAlloc -/

@[simp] theorem State.setAlloc_now (b : Nat) (a : Alloc) : (s.setAlloc b a).now = s.now := rfl
@[simp] theorem State.setAlloc_pending (b : Nat) (a : Alloc) : (s.setAlloc b a).pending = s.pending := rfl
@[simp] theorem State.setAlloc_free (b : Nat) (a : Alloc) : (s.setAlloc b a).free = s.free := rfl
@[simp] theorem State.setAlloc_dev (b : Nat) (a : Alloc) : (s.setAlloc b a).dev = s.dev := rfl
@[simp] theorem State.setAlloc_boot (b : Nat) (a : Alloc) : (s.setAlloc b a).boot = s.boot := rfl
@[simp] theorem State.setAlloc_vault (b : Nat) (a : Alloc) : (s.setAlloc b a).vault = s.vault := rfl
@[simp] theorem State.setAlloc_cat (b : Nat) (a : Alloc) : (s.setAlloc b a).cat = s.cat := rfl
@[simp] theorem State.setAlloc_rings (b : Nat) (a : Alloc) : (s.setAlloc b a).rings = s.rings := rfl
@[simp] theorem State.setAlloc_bus (b : Nat) (a : Alloc) : (s.setAlloc b a).bus = s.bus := rfl
@[simp] theorem State.setAlloc_ports (b : Nat) (a : Alloc) : (s.setAlloc b a).ports = s.ports := rfl
@[simp] theorem State.setAlloc_wire (b : Nat) (a : Alloc) : (s.setAlloc b a).wire = s.wire := rfl
@[simp] theorem State.setAlloc_search (b : Nat) (a : Alloc) : (s.setAlloc b a).search = s.search := rfl
@[simp] theorem State.setAlloc_bays (b : Nat) (a : Alloc) : (s.setAlloc b a).bays = s.bays := rfl
@[simp] theorem State.setAlloc_tables (b : Nat) (a : Alloc) : (s.setAlloc b a).tables = s.tables := rfl
@[simp] theorem State.setAlloc_pfx (b : Nat) (a : Alloc) : (s.setAlloc b a).pfx = s.pfx := rfl
@[simp] theorem State.setAlloc_em (b : Nat) (a : Alloc) : (s.setAlloc b a).em = s.em := rfl
@[simp] theorem State.setAlloc_arb (b : Nat) (a : Alloc) : (s.setAlloc b a).arb = s.arb := rfl
@[simp] theorem State.setAlloc_guar (b : Nat) (a : Alloc) : (s.setAlloc b a).guar = s.guar := rfl
@[simp] theorem State.setAlloc_ed (b : Nat) (a : Alloc) : (s.setAlloc b a).ed = s.ed := rfl
@[simp] theorem State.setAlloc_cas (b : Nat) (a : Alloc) : (s.setAlloc b a).cas = s.cas := rfl
@[simp] theorem State.setAlloc_health (b : Nat) (a : Alloc) : (s.setAlloc b a).health = s.health := rfl

/-! ### State.setCarWord -/

@[simp] theorem State.setCarWord_now (room w : Nat) (x : BitVec 64) : (s.setCarWord room w x).now = s.now := rfl
@[simp] theorem State.setCarWord_pending (room w : Nat) (x : BitVec 64) : (s.setCarWord room w x).pending = s.pending := rfl
@[simp] theorem State.setCarWord_free (room w : Nat) (x : BitVec 64) : (s.setCarWord room w x).free = s.free := rfl
@[simp] theorem State.setCarWord_dev (room w : Nat) (x : BitVec 64) : (s.setCarWord room w x).dev = s.dev := rfl
@[simp] theorem State.setCarWord_boot (room w : Nat) (x : BitVec 64) : (s.setCarWord room w x).boot = s.boot := rfl
@[simp] theorem State.setCarWord_vault (room w : Nat) (x : BitVec 64) : (s.setCarWord room w x).vault = s.vault := rfl
@[simp] theorem State.setCarWord_cat (room w : Nat) (x : BitVec 64) : (s.setCarWord room w x).cat = s.cat := rfl
@[simp] theorem State.setCarWord_rings (room w : Nat) (x : BitVec 64) : (s.setCarWord room w x).rings = s.rings := rfl
@[simp] theorem State.setCarWord_bus (room w : Nat) (x : BitVec 64) : (s.setCarWord room w x).bus = s.bus := rfl
@[simp] theorem State.setCarWord_ports (room w : Nat) (x : BitVec 64) : (s.setCarWord room w x).ports = s.ports := rfl
@[simp] theorem State.setCarWord_wire (room w : Nat) (x : BitVec 64) : (s.setCarWord room w x).wire = s.wire := rfl
@[simp] theorem State.setCarWord_search (room w : Nat) (x : BitVec 64) : (s.setCarWord room w x).search = s.search := rfl
@[simp] theorem State.setCarWord_bays (room w : Nat) (x : BitVec 64) : (s.setCarWord room w x).bays = s.bays := rfl
@[simp] theorem State.setCarWord_tables (room w : Nat) (x : BitVec 64) : (s.setCarWord room w x).tables = s.tables := rfl
@[simp] theorem State.setCarWord_pfx (room w : Nat) (x : BitVec 64) : (s.setCarWord room w x).pfx = s.pfx := rfl
@[simp] theorem State.setCarWord_em (room w : Nat) (x : BitVec 64) : (s.setCarWord room w x).em = s.em := rfl
@[simp] theorem State.setCarWord_arb (room w : Nat) (x : BitVec 64) : (s.setCarWord room w x).arb = s.arb := rfl
@[simp] theorem State.setCarWord_guar (room w : Nat) (x : BitVec 64) : (s.setCarWord room w x).guar = s.guar := rfl
@[simp] theorem State.setCarWord_ed (room w : Nat) (x : BitVec 64) : (s.setCarWord room w x).ed = s.ed := rfl
@[simp] theorem State.setCarWord_cas (room w : Nat) (x : BitVec 64) : (s.setCarWord room w x).cas = s.cas := rfl
@[simp] theorem State.setCarWord_health (room w : Nat) (x : BitVec 64) : (s.setCarWord room w x).health = s.health := rfl

/-! ### State.setSecWord -/

@[simp] theorem State.setSecWord_now (w : Nat) (x : BitVec 64) : (s.setSecWord w x).now = s.now := rfl
@[simp] theorem State.setSecWord_pending (w : Nat) (x : BitVec 64) : (s.setSecWord w x).pending = s.pending := rfl
@[simp] theorem State.setSecWord_free (w : Nat) (x : BitVec 64) : (s.setSecWord w x).free = s.free := rfl
@[simp] theorem State.setSecWord_dev (w : Nat) (x : BitVec 64) : (s.setSecWord w x).dev = s.dev := rfl
@[simp] theorem State.setSecWord_boot (w : Nat) (x : BitVec 64) : (s.setSecWord w x).boot = s.boot := rfl
@[simp] theorem State.setSecWord_vault (w : Nat) (x : BitVec 64) : (s.setSecWord w x).vault = s.vault := rfl
@[simp] theorem State.setSecWord_cat (w : Nat) (x : BitVec 64) : (s.setSecWord w x).cat = s.cat := rfl
@[simp] theorem State.setSecWord_rings (w : Nat) (x : BitVec 64) : (s.setSecWord w x).rings = s.rings := rfl
@[simp] theorem State.setSecWord_bus (w : Nat) (x : BitVec 64) : (s.setSecWord w x).bus = s.bus := rfl
@[simp] theorem State.setSecWord_ports (w : Nat) (x : BitVec 64) : (s.setSecWord w x).ports = s.ports := rfl
@[simp] theorem State.setSecWord_wire (w : Nat) (x : BitVec 64) : (s.setSecWord w x).wire = s.wire := rfl
@[simp] theorem State.setSecWord_search (w : Nat) (x : BitVec 64) : (s.setSecWord w x).search = s.search := rfl
@[simp] theorem State.setSecWord_bays (w : Nat) (x : BitVec 64) : (s.setSecWord w x).bays = s.bays := rfl
@[simp] theorem State.setSecWord_tables (w : Nat) (x : BitVec 64) : (s.setSecWord w x).tables = s.tables := rfl
@[simp] theorem State.setSecWord_pfx (w : Nat) (x : BitVec 64) : (s.setSecWord w x).pfx = s.pfx := rfl
@[simp] theorem State.setSecWord_em (w : Nat) (x : BitVec 64) : (s.setSecWord w x).em = s.em := rfl
@[simp] theorem State.setSecWord_arb (w : Nat) (x : BitVec 64) : (s.setSecWord w x).arb = s.arb := rfl
@[simp] theorem State.setSecWord_guar (w : Nat) (x : BitVec 64) : (s.setSecWord w x).guar = s.guar := rfl
@[simp] theorem State.setSecWord_ed (w : Nat) (x : BitVec 64) : (s.setSecWord w x).ed = s.ed := rfl
@[simp] theorem State.setSecWord_cas (w : Nat) (x : BitVec 64) : (s.setSecWord w x).cas = s.cas := rfl
@[simp] theorem State.setSecWord_health (w : Nat) (x : BitVec 64) : (s.setSecWord w x).health = s.health := rfl

/-! ### State.setLearnQueue -/

@[simp] theorem State.setLearnQueue_now (n : Nat) (l : List Learn) : (s.setLearnQueue n l).now = s.now := rfl
@[simp] theorem State.setLearnQueue_pending (n : Nat) (l : List Learn) : (s.setLearnQueue n l).pending = s.pending := rfl
@[simp] theorem State.setLearnQueue_free (n : Nat) (l : List Learn) : (s.setLearnQueue n l).free = s.free := rfl
@[simp] theorem State.setLearnQueue_dev (n : Nat) (l : List Learn) : (s.setLearnQueue n l).dev = s.dev := rfl
@[simp] theorem State.setLearnQueue_boot (n : Nat) (l : List Learn) : (s.setLearnQueue n l).boot = s.boot := rfl
@[simp] theorem State.setLearnQueue_vault (n : Nat) (l : List Learn) : (s.setLearnQueue n l).vault = s.vault := rfl
@[simp] theorem State.setLearnQueue_cat (n : Nat) (l : List Learn) : (s.setLearnQueue n l).cat = s.cat := rfl
@[simp] theorem State.setLearnQueue_rings (n : Nat) (l : List Learn) : (s.setLearnQueue n l).rings = s.rings := rfl
@[simp] theorem State.setLearnQueue_bus (n : Nat) (l : List Learn) : (s.setLearnQueue n l).bus = s.bus := rfl
@[simp] theorem State.setLearnQueue_ports (n : Nat) (l : List Learn) : (s.setLearnQueue n l).ports = s.ports := rfl
@[simp] theorem State.setLearnQueue_wire (n : Nat) (l : List Learn) : (s.setLearnQueue n l).wire = s.wire := rfl
@[simp] theorem State.setLearnQueue_search (n : Nat) (l : List Learn) : (s.setLearnQueue n l).search = s.search := rfl
@[simp] theorem State.setLearnQueue_bays (n : Nat) (l : List Learn) : (s.setLearnQueue n l).bays = s.bays := rfl
@[simp] theorem State.setLearnQueue_tables (n : Nat) (l : List Learn) : (s.setLearnQueue n l).tables = s.tables := rfl
@[simp] theorem State.setLearnQueue_pfx (n : Nat) (l : List Learn) : (s.setLearnQueue n l).pfx = s.pfx := rfl
@[simp] theorem State.setLearnQueue_mem (n : Nat) (l : List Learn) : (s.setLearnQueue n l).mem = s.mem := rfl
@[simp] theorem State.setLearnQueue_arb (n : Nat) (l : List Learn) : (s.setLearnQueue n l).arb = s.arb := rfl
@[simp] theorem State.setLearnQueue_guar (n : Nat) (l : List Learn) : (s.setLearnQueue n l).guar = s.guar := rfl
@[simp] theorem State.setLearnQueue_ed (n : Nat) (l : List Learn) : (s.setLearnQueue n l).ed = s.ed := rfl
@[simp] theorem State.setLearnQueue_cas (n : Nat) (l : List Learn) : (s.setLearnQueue n l).cas = s.cas := rfl
@[simp] theorem State.setLearnQueue_health (n : Nat) (l : List Learn) : (s.setLearnQueue n l).health = s.health := rfl

/-! ### State.setMailbox -/

@[simp] theorem State.setMailbox_now (c : Nat) (x : Mailbox) : (s.setMailbox c x).now = s.now := rfl
@[simp] theorem State.setMailbox_pending (c : Nat) (x : Mailbox) : (s.setMailbox c x).pending = s.pending := rfl
@[simp] theorem State.setMailbox_free (c : Nat) (x : Mailbox) : (s.setMailbox c x).free = s.free := rfl
@[simp] theorem State.setMailbox_dev (c : Nat) (x : Mailbox) : (s.setMailbox c x).dev = s.dev := rfl
@[simp] theorem State.setMailbox_boot (c : Nat) (x : Mailbox) : (s.setMailbox c x).boot = s.boot := rfl
@[simp] theorem State.setMailbox_vault (c : Nat) (x : Mailbox) : (s.setMailbox c x).vault = s.vault := rfl
@[simp] theorem State.setMailbox_rings (c : Nat) (x : Mailbox) : (s.setMailbox c x).rings = s.rings := rfl
@[simp] theorem State.setMailbox_bus (c : Nat) (x : Mailbox) : (s.setMailbox c x).bus = s.bus := rfl
@[simp] theorem State.setMailbox_ports (c : Nat) (x : Mailbox) : (s.setMailbox c x).ports = s.ports := rfl
@[simp] theorem State.setMailbox_wire (c : Nat) (x : Mailbox) : (s.setMailbox c x).wire = s.wire := rfl
@[simp] theorem State.setMailbox_search (c : Nat) (x : Mailbox) : (s.setMailbox c x).search = s.search := rfl
@[simp] theorem State.setMailbox_bays (c : Nat) (x : Mailbox) : (s.setMailbox c x).bays = s.bays := rfl
@[simp] theorem State.setMailbox_tables (c : Nat) (x : Mailbox) : (s.setMailbox c x).tables = s.tables := rfl
@[simp] theorem State.setMailbox_pfx (c : Nat) (x : Mailbox) : (s.setMailbox c x).pfx = s.pfx := rfl
@[simp] theorem State.setMailbox_em (c : Nat) (x : Mailbox) : (s.setMailbox c x).em = s.em := rfl
@[simp] theorem State.setMailbox_mem (c : Nat) (x : Mailbox) : (s.setMailbox c x).mem = s.mem := rfl
@[simp] theorem State.setMailbox_arb (c : Nat) (x : Mailbox) : (s.setMailbox c x).arb = s.arb := rfl
@[simp] theorem State.setMailbox_guar (c : Nat) (x : Mailbox) : (s.setMailbox c x).guar = s.guar := rfl
@[simp] theorem State.setMailbox_ed (c : Nat) (x : Mailbox) : (s.setMailbox c x).ed = s.ed := rfl
@[simp] theorem State.setMailbox_cas (c : Nat) (x : Mailbox) : (s.setMailbox c x).cas = s.cas := rfl
@[simp] theorem State.setMailbox_health (c : Nat) (x : Mailbox) : (s.setMailbox c x).health = s.health := rfl
@[simp] theorem State.setMailbox_cat_force (c : Nat) (x : Mailbox) : (s.setMailbox c x).cat.force = s.cat.force := rfl
@[simp] theorem State.setMailbox_cat_staged (c : Nat) (x : Mailbox) : (s.setMailbox c x).cat.staged = s.cat.staged := rfl
@[simp] theorem State.setMailbox_cat_regs (c : Nat) (x : Mailbox) : (s.setMailbox c x).cat.regs = s.cat.regs := rfl
@[simp] theorem State.setMailbox_cat_ctx (c : Nat) (x : Mailbox) : (s.setMailbox c x).cat.ctx = s.cat.ctx := rfl
@[simp] theorem State.setMailbox_cat_sessions (c : Nat) (x : Mailbox) : (s.setMailbox c x).cat.sessions = s.cat.sessions := rfl
@[simp] theorem State.setMailbox_cat_failedProve (c : Nat) (x : Mailbox) : (s.setMailbox c x).cat.failedProve = s.cat.failedProve := rfl
@[simp] theorem State.setMailbox_cat_lastReqs (c : Nat) (x : Mailbox) : (s.setMailbox c x).cat.lastReqs = s.cat.lastReqs := rfl
@[simp] theorem State.setMailbox_cat_transfers (c : Nat) (x : Mailbox) : (s.setMailbox c x).cat.transfers = s.cat.transfers := rfl
@[simp] theorem State.setMailbox_cat_outstanding (c : Nat) (x : Mailbox) : (s.setMailbox c x).cat.outstanding = s.cat.outstanding := rfl
@[simp] theorem State.setMailbox_cat_provs (c : Nat) (x : Mailbox) : (s.setMailbox c x).cat.provs = s.cat.provs := rfl
@[simp] theorem State.setMailbox_cat_provQueue (c : Nat) (x : Mailbox) : (s.setMailbox c x).cat.provQueue = s.cat.provQueue := rfl
@[simp] theorem State.setMailbox_cat_blocks (c : Nat) (x : Mailbox) : (s.setMailbox c x).cat.blocks = s.cat.blocks := rfl
@[simp] theorem State.setMailbox_cat_acc (c : Nat) (x : Mailbox) : (s.setMailbox c x).cat.acc = s.cat.acc := rfl
@[simp] theorem State.setMailbox_cat_last (c : Nat) (x : Mailbox) : (s.setMailbox c x).cat.last = s.cat.last := rfl
@[simp] theorem State.setMailbox_cat_writes (c : Nat) (x : Mailbox) : (s.setMailbox c x).cat.writes = s.cat.writes := rfl

/-! ### State.setCtxReg -/

@[simp] theorem State.setCtxReg_now (c k v : Nat) : (s.setCtxReg c k v).now = s.now := rfl
@[simp] theorem State.setCtxReg_pending (c k v : Nat) : (s.setCtxReg c k v).pending = s.pending := rfl
@[simp] theorem State.setCtxReg_free (c k v : Nat) : (s.setCtxReg c k v).free = s.free := rfl
@[simp] theorem State.setCtxReg_dev (c k v : Nat) : (s.setCtxReg c k v).dev = s.dev := rfl
@[simp] theorem State.setCtxReg_boot (c k v : Nat) : (s.setCtxReg c k v).boot = s.boot := rfl
@[simp] theorem State.setCtxReg_vault (c k v : Nat) : (s.setCtxReg c k v).vault = s.vault := rfl
@[simp] theorem State.setCtxReg_rings (c k v : Nat) : (s.setCtxReg c k v).rings = s.rings := rfl
@[simp] theorem State.setCtxReg_bus (c k v : Nat) : (s.setCtxReg c k v).bus = s.bus := rfl
@[simp] theorem State.setCtxReg_ports (c k v : Nat) : (s.setCtxReg c k v).ports = s.ports := rfl
@[simp] theorem State.setCtxReg_wire (c k v : Nat) : (s.setCtxReg c k v).wire = s.wire := rfl
@[simp] theorem State.setCtxReg_search (c k v : Nat) : (s.setCtxReg c k v).search = s.search := rfl
@[simp] theorem State.setCtxReg_bays (c k v : Nat) : (s.setCtxReg c k v).bays = s.bays := rfl
@[simp] theorem State.setCtxReg_tables (c k v : Nat) : (s.setCtxReg c k v).tables = s.tables := rfl
@[simp] theorem State.setCtxReg_pfx (c k v : Nat) : (s.setCtxReg c k v).pfx = s.pfx := rfl
@[simp] theorem State.setCtxReg_em (c k v : Nat) : (s.setCtxReg c k v).em = s.em := rfl
@[simp] theorem State.setCtxReg_mem (c k v : Nat) : (s.setCtxReg c k v).mem = s.mem := rfl
@[simp] theorem State.setCtxReg_arb (c k v : Nat) : (s.setCtxReg c k v).arb = s.arb := rfl
@[simp] theorem State.setCtxReg_guar (c k v : Nat) : (s.setCtxReg c k v).guar = s.guar := rfl
@[simp] theorem State.setCtxReg_ed (c k v : Nat) : (s.setCtxReg c k v).ed = s.ed := rfl
@[simp] theorem State.setCtxReg_cas (c k v : Nat) : (s.setCtxReg c k v).cas = s.cas := rfl
@[simp] theorem State.setCtxReg_health (c k v : Nat) : (s.setCtxReg c k v).health = s.health := rfl
@[simp] theorem State.setCtxReg_cat_force (c k v : Nat) : (s.setCtxReg c k v).cat.force = s.cat.force := rfl
@[simp] theorem State.setCtxReg_cat_staged (c k v : Nat) : (s.setCtxReg c k v).cat.staged = s.cat.staged := rfl
@[simp] theorem State.setCtxReg_cat_regs (c k v : Nat) : (s.setCtxReg c k v).cat.regs = s.cat.regs := rfl
@[simp] theorem State.setCtxReg_cat_sessions (c k v : Nat) : (s.setCtxReg c k v).cat.sessions = s.cat.sessions := rfl
@[simp] theorem State.setCtxReg_cat_failedProve (c k v : Nat) : (s.setCtxReg c k v).cat.failedProve = s.cat.failedProve := rfl
@[simp] theorem State.setCtxReg_cat_lastReqs (c k v : Nat) : (s.setCtxReg c k v).cat.lastReqs = s.cat.lastReqs := rfl
@[simp] theorem State.setCtxReg_cat_transfers (c k v : Nat) : (s.setCtxReg c k v).cat.transfers = s.cat.transfers := rfl
@[simp] theorem State.setCtxReg_cat_outstanding (c k v : Nat) : (s.setCtxReg c k v).cat.outstanding = s.cat.outstanding := rfl
@[simp] theorem State.setCtxReg_cat_mailboxes (c k v : Nat) : (s.setCtxReg c k v).cat.mailboxes = s.cat.mailboxes := rfl
@[simp] theorem State.setCtxReg_cat_provs (c k v : Nat) : (s.setCtxReg c k v).cat.provs = s.cat.provs := rfl
@[simp] theorem State.setCtxReg_cat_provQueue (c k v : Nat) : (s.setCtxReg c k v).cat.provQueue = s.cat.provQueue := rfl
@[simp] theorem State.setCtxReg_cat_blocks (c k v : Nat) : (s.setCtxReg c k v).cat.blocks = s.cat.blocks := rfl
@[simp] theorem State.setCtxReg_cat_acc (c k v : Nat) : (s.setCtxReg c k v).cat.acc = s.cat.acc := rfl
@[simp] theorem State.setCtxReg_cat_last (c k v : Nat) : (s.setCtxReg c k v).cat.last = s.cat.last := rfl
@[simp] theorem State.setCtxReg_cat_writes (c k v : Nat) : (s.setCtxReg c k v).cat.writes = s.cat.writes := rfl

/-! ### State.setProv -/

@[simp] theorem State.setProv_now (c : Nat) (x : Prov) : (s.setProv c x).now = s.now := rfl
@[simp] theorem State.setProv_pending (c : Nat) (x : Prov) : (s.setProv c x).pending = s.pending := rfl
@[simp] theorem State.setProv_free (c : Nat) (x : Prov) : (s.setProv c x).free = s.free := rfl
@[simp] theorem State.setProv_dev (c : Nat) (x : Prov) : (s.setProv c x).dev = s.dev := rfl
@[simp] theorem State.setProv_boot (c : Nat) (x : Prov) : (s.setProv c x).boot = s.boot := rfl
@[simp] theorem State.setProv_vault (c : Nat) (x : Prov) : (s.setProv c x).vault = s.vault := rfl
@[simp] theorem State.setProv_rings (c : Nat) (x : Prov) : (s.setProv c x).rings = s.rings := rfl
@[simp] theorem State.setProv_bus (c : Nat) (x : Prov) : (s.setProv c x).bus = s.bus := rfl
@[simp] theorem State.setProv_ports (c : Nat) (x : Prov) : (s.setProv c x).ports = s.ports := rfl
@[simp] theorem State.setProv_wire (c : Nat) (x : Prov) : (s.setProv c x).wire = s.wire := rfl
@[simp] theorem State.setProv_search (c : Nat) (x : Prov) : (s.setProv c x).search = s.search := rfl
@[simp] theorem State.setProv_bays (c : Nat) (x : Prov) : (s.setProv c x).bays = s.bays := rfl
@[simp] theorem State.setProv_tables (c : Nat) (x : Prov) : (s.setProv c x).tables = s.tables := rfl
@[simp] theorem State.setProv_pfx (c : Nat) (x : Prov) : (s.setProv c x).pfx = s.pfx := rfl
@[simp] theorem State.setProv_em (c : Nat) (x : Prov) : (s.setProv c x).em = s.em := rfl
@[simp] theorem State.setProv_mem (c : Nat) (x : Prov) : (s.setProv c x).mem = s.mem := rfl
@[simp] theorem State.setProv_arb (c : Nat) (x : Prov) : (s.setProv c x).arb = s.arb := rfl
@[simp] theorem State.setProv_guar (c : Nat) (x : Prov) : (s.setProv c x).guar = s.guar := rfl
@[simp] theorem State.setProv_ed (c : Nat) (x : Prov) : (s.setProv c x).ed = s.ed := rfl
@[simp] theorem State.setProv_cas (c : Nat) (x : Prov) : (s.setProv c x).cas = s.cas := rfl
@[simp] theorem State.setProv_health (c : Nat) (x : Prov) : (s.setProv c x).health = s.health := rfl
@[simp] theorem State.setProv_cat_force (c : Nat) (x : Prov) : (s.setProv c x).cat.force = s.cat.force := rfl
@[simp] theorem State.setProv_cat_staged (c : Nat) (x : Prov) : (s.setProv c x).cat.staged = s.cat.staged := rfl
@[simp] theorem State.setProv_cat_regs (c : Nat) (x : Prov) : (s.setProv c x).cat.regs = s.cat.regs := rfl
@[simp] theorem State.setProv_cat_ctx (c : Nat) (x : Prov) : (s.setProv c x).cat.ctx = s.cat.ctx := rfl
@[simp] theorem State.setProv_cat_sessions (c : Nat) (x : Prov) : (s.setProv c x).cat.sessions = s.cat.sessions := rfl
@[simp] theorem State.setProv_cat_failedProve (c : Nat) (x : Prov) : (s.setProv c x).cat.failedProve = s.cat.failedProve := rfl
@[simp] theorem State.setProv_cat_lastReqs (c : Nat) (x : Prov) : (s.setProv c x).cat.lastReqs = s.cat.lastReqs := rfl
@[simp] theorem State.setProv_cat_transfers (c : Nat) (x : Prov) : (s.setProv c x).cat.transfers = s.cat.transfers := rfl
@[simp] theorem State.setProv_cat_outstanding (c : Nat) (x : Prov) : (s.setProv c x).cat.outstanding = s.cat.outstanding := rfl
@[simp] theorem State.setProv_cat_mailboxes (c : Nat) (x : Prov) : (s.setProv c x).cat.mailboxes = s.cat.mailboxes := rfl
@[simp] theorem State.setProv_cat_provQueue (c : Nat) (x : Prov) : (s.setProv c x).cat.provQueue = s.cat.provQueue := rfl
@[simp] theorem State.setProv_cat_blocks (c : Nat) (x : Prov) : (s.setProv c x).cat.blocks = s.cat.blocks := rfl
@[simp] theorem State.setProv_cat_acc (c : Nat) (x : Prov) : (s.setProv c x).cat.acc = s.cat.acc := rfl
@[simp] theorem State.setProv_cat_last (c : Nat) (x : Prov) : (s.setProv c x).cat.last = s.cat.last := rfl
@[simp] theorem State.setProv_cat_writes (c : Nat) (x : Prov) : (s.setProv c x).cat.writes = s.cat.writes := rfl

/-! ### State.setBlock -/

@[simp] theorem State.setBlock_now (n : Nat) (b : Block) : (s.setBlock n b).now = s.now := rfl
@[simp] theorem State.setBlock_pending (n : Nat) (b : Block) : (s.setBlock n b).pending = s.pending := rfl
@[simp] theorem State.setBlock_free (n : Nat) (b : Block) : (s.setBlock n b).free = s.free := rfl
@[simp] theorem State.setBlock_dev (n : Nat) (b : Block) : (s.setBlock n b).dev = s.dev := rfl
@[simp] theorem State.setBlock_boot (n : Nat) (b : Block) : (s.setBlock n b).boot = s.boot := rfl
@[simp] theorem State.setBlock_vault (n : Nat) (b : Block) : (s.setBlock n b).vault = s.vault := rfl
@[simp] theorem State.setBlock_rings (n : Nat) (b : Block) : (s.setBlock n b).rings = s.rings := rfl
@[simp] theorem State.setBlock_bus (n : Nat) (b : Block) : (s.setBlock n b).bus = s.bus := rfl
@[simp] theorem State.setBlock_ports (n : Nat) (b : Block) : (s.setBlock n b).ports = s.ports := rfl
@[simp] theorem State.setBlock_wire (n : Nat) (b : Block) : (s.setBlock n b).wire = s.wire := rfl
@[simp] theorem State.setBlock_search (n : Nat) (b : Block) : (s.setBlock n b).search = s.search := rfl
@[simp] theorem State.setBlock_bays (n : Nat) (b : Block) : (s.setBlock n b).bays = s.bays := rfl
@[simp] theorem State.setBlock_tables (n : Nat) (b : Block) : (s.setBlock n b).tables = s.tables := rfl
@[simp] theorem State.setBlock_pfx (n : Nat) (b : Block) : (s.setBlock n b).pfx = s.pfx := rfl
@[simp] theorem State.setBlock_em (n : Nat) (b : Block) : (s.setBlock n b).em = s.em := rfl
@[simp] theorem State.setBlock_mem (n : Nat) (b : Block) : (s.setBlock n b).mem = s.mem := rfl
@[simp] theorem State.setBlock_arb (n : Nat) (b : Block) : (s.setBlock n b).arb = s.arb := rfl
@[simp] theorem State.setBlock_guar (n : Nat) (b : Block) : (s.setBlock n b).guar = s.guar := rfl
@[simp] theorem State.setBlock_ed (n : Nat) (b : Block) : (s.setBlock n b).ed = s.ed := rfl
@[simp] theorem State.setBlock_cas (n : Nat) (b : Block) : (s.setBlock n b).cas = s.cas := rfl
@[simp] theorem State.setBlock_health (n : Nat) (b : Block) : (s.setBlock n b).health = s.health := rfl
@[simp] theorem State.setBlock_cat_force (n : Nat) (b : Block) : (s.setBlock n b).cat.force = s.cat.force := rfl
@[simp] theorem State.setBlock_cat_staged (n : Nat) (b : Block) : (s.setBlock n b).cat.staged = s.cat.staged := rfl
@[simp] theorem State.setBlock_cat_regs (n : Nat) (b : Block) : (s.setBlock n b).cat.regs = s.cat.regs := rfl
@[simp] theorem State.setBlock_cat_ctx (n : Nat) (b : Block) : (s.setBlock n b).cat.ctx = s.cat.ctx := rfl
@[simp] theorem State.setBlock_cat_sessions (n : Nat) (b : Block) : (s.setBlock n b).cat.sessions = s.cat.sessions := rfl
@[simp] theorem State.setBlock_cat_failedProve (n : Nat) (b : Block) : (s.setBlock n b).cat.failedProve = s.cat.failedProve := rfl
@[simp] theorem State.setBlock_cat_lastReqs (n : Nat) (b : Block) : (s.setBlock n b).cat.lastReqs = s.cat.lastReqs := rfl
@[simp] theorem State.setBlock_cat_transfers (n : Nat) (b : Block) : (s.setBlock n b).cat.transfers = s.cat.transfers := rfl
@[simp] theorem State.setBlock_cat_outstanding (n : Nat) (b : Block) : (s.setBlock n b).cat.outstanding = s.cat.outstanding := rfl
@[simp] theorem State.setBlock_cat_mailboxes (n : Nat) (b : Block) : (s.setBlock n b).cat.mailboxes = s.cat.mailboxes := rfl
@[simp] theorem State.setBlock_cat_provs (n : Nat) (b : Block) : (s.setBlock n b).cat.provs = s.cat.provs := rfl
@[simp] theorem State.setBlock_cat_provQueue (n : Nat) (b : Block) : (s.setBlock n b).cat.provQueue = s.cat.provQueue := rfl
@[simp] theorem State.setBlock_cat_acc (n : Nat) (b : Block) : (s.setBlock n b).cat.acc = s.cat.acc := rfl
@[simp] theorem State.setBlock_cat_last (n : Nat) (b : Block) : (s.setBlock n b).cat.last = s.cat.last := rfl
@[simp] theorem State.setBlock_cat_writes (n : Nat) (b : Block) : (s.setBlock n b).cat.writes = s.cat.writes := rfl

/-! ### State.setSession -/

@[simp] theorem State.setSession_now (n : Nat) (x : Session) : (s.setSession n x).now = s.now := rfl
@[simp] theorem State.setSession_pending (n : Nat) (x : Session) : (s.setSession n x).pending = s.pending := rfl
@[simp] theorem State.setSession_free (n : Nat) (x : Session) : (s.setSession n x).free = s.free := rfl
@[simp] theorem State.setSession_dev (n : Nat) (x : Session) : (s.setSession n x).dev = s.dev := rfl
@[simp] theorem State.setSession_boot (n : Nat) (x : Session) : (s.setSession n x).boot = s.boot := rfl
@[simp] theorem State.setSession_vault (n : Nat) (x : Session) : (s.setSession n x).vault = s.vault := rfl
@[simp] theorem State.setSession_rings (n : Nat) (x : Session) : (s.setSession n x).rings = s.rings := rfl
@[simp] theorem State.setSession_bus (n : Nat) (x : Session) : (s.setSession n x).bus = s.bus := rfl
@[simp] theorem State.setSession_ports (n : Nat) (x : Session) : (s.setSession n x).ports = s.ports := rfl
@[simp] theorem State.setSession_wire (n : Nat) (x : Session) : (s.setSession n x).wire = s.wire := rfl
@[simp] theorem State.setSession_search (n : Nat) (x : Session) : (s.setSession n x).search = s.search := rfl
@[simp] theorem State.setSession_bays (n : Nat) (x : Session) : (s.setSession n x).bays = s.bays := rfl
@[simp] theorem State.setSession_tables (n : Nat) (x : Session) : (s.setSession n x).tables = s.tables := rfl
@[simp] theorem State.setSession_pfx (n : Nat) (x : Session) : (s.setSession n x).pfx = s.pfx := rfl
@[simp] theorem State.setSession_em (n : Nat) (x : Session) : (s.setSession n x).em = s.em := rfl
@[simp] theorem State.setSession_mem (n : Nat) (x : Session) : (s.setSession n x).mem = s.mem := rfl
@[simp] theorem State.setSession_arb (n : Nat) (x : Session) : (s.setSession n x).arb = s.arb := rfl
@[simp] theorem State.setSession_guar (n : Nat) (x : Session) : (s.setSession n x).guar = s.guar := rfl
@[simp] theorem State.setSession_ed (n : Nat) (x : Session) : (s.setSession n x).ed = s.ed := rfl
@[simp] theorem State.setSession_cas (n : Nat) (x : Session) : (s.setSession n x).cas = s.cas := rfl
@[simp] theorem State.setSession_health (n : Nat) (x : Session) : (s.setSession n x).health = s.health := rfl
@[simp] theorem State.setSession_cat_force (n : Nat) (x : Session) : (s.setSession n x).cat.force = s.cat.force := rfl
@[simp] theorem State.setSession_cat_staged (n : Nat) (x : Session) : (s.setSession n x).cat.staged = s.cat.staged := rfl
@[simp] theorem State.setSession_cat_regs (n : Nat) (x : Session) : (s.setSession n x).cat.regs = s.cat.regs := rfl
@[simp] theorem State.setSession_cat_ctx (n : Nat) (x : Session) : (s.setSession n x).cat.ctx = s.cat.ctx := rfl
@[simp] theorem State.setSession_cat_failedProve (n : Nat) (x : Session) : (s.setSession n x).cat.failedProve = s.cat.failedProve := rfl
@[simp] theorem State.setSession_cat_lastReqs (n : Nat) (x : Session) : (s.setSession n x).cat.lastReqs = s.cat.lastReqs := rfl
@[simp] theorem State.setSession_cat_transfers (n : Nat) (x : Session) : (s.setSession n x).cat.transfers = s.cat.transfers := rfl
@[simp] theorem State.setSession_cat_outstanding (n : Nat) (x : Session) : (s.setSession n x).cat.outstanding = s.cat.outstanding := rfl
@[simp] theorem State.setSession_cat_mailboxes (n : Nat) (x : Session) : (s.setSession n x).cat.mailboxes = s.cat.mailboxes := rfl
@[simp] theorem State.setSession_cat_provs (n : Nat) (x : Session) : (s.setSession n x).cat.provs = s.cat.provs := rfl
@[simp] theorem State.setSession_cat_provQueue (n : Nat) (x : Session) : (s.setSession n x).cat.provQueue = s.cat.provQueue := rfl
@[simp] theorem State.setSession_cat_blocks (n : Nat) (x : Session) : (s.setSession n x).cat.blocks = s.cat.blocks := rfl
@[simp] theorem State.setSession_cat_acc (n : Nat) (x : Session) : (s.setSession n x).cat.acc = s.cat.acc := rfl
@[simp] theorem State.setSession_cat_last (n : Nat) (x : Session) : (s.setSession n x).cat.last = s.cat.last := rfl
@[simp] theorem State.setSession_cat_writes (n : Nat) (x : Session) : (s.setSession n x).cat.writes = s.cat.writes := rfl

/-! ### State.setTransfer -/

@[simp] theorem State.setTransfer_now (x : Transfer) : (s.setTransfer x).now = s.now := rfl
@[simp] theorem State.setTransfer_pending (x : Transfer) : (s.setTransfer x).pending = s.pending := rfl
@[simp] theorem State.setTransfer_free (x : Transfer) : (s.setTransfer x).free = s.free := rfl
@[simp] theorem State.setTransfer_dev (x : Transfer) : (s.setTransfer x).dev = s.dev := rfl
@[simp] theorem State.setTransfer_boot (x : Transfer) : (s.setTransfer x).boot = s.boot := rfl
@[simp] theorem State.setTransfer_vault (x : Transfer) : (s.setTransfer x).vault = s.vault := rfl
@[simp] theorem State.setTransfer_rings (x : Transfer) : (s.setTransfer x).rings = s.rings := rfl
@[simp] theorem State.setTransfer_bus (x : Transfer) : (s.setTransfer x).bus = s.bus := rfl
@[simp] theorem State.setTransfer_ports (x : Transfer) : (s.setTransfer x).ports = s.ports := rfl
@[simp] theorem State.setTransfer_wire (x : Transfer) : (s.setTransfer x).wire = s.wire := rfl
@[simp] theorem State.setTransfer_search (x : Transfer) : (s.setTransfer x).search = s.search := rfl
@[simp] theorem State.setTransfer_bays (x : Transfer) : (s.setTransfer x).bays = s.bays := rfl
@[simp] theorem State.setTransfer_tables (x : Transfer) : (s.setTransfer x).tables = s.tables := rfl
@[simp] theorem State.setTransfer_pfx (x : Transfer) : (s.setTransfer x).pfx = s.pfx := rfl
@[simp] theorem State.setTransfer_em (x : Transfer) : (s.setTransfer x).em = s.em := rfl
@[simp] theorem State.setTransfer_mem (x : Transfer) : (s.setTransfer x).mem = s.mem := rfl
@[simp] theorem State.setTransfer_arb (x : Transfer) : (s.setTransfer x).arb = s.arb := rfl
@[simp] theorem State.setTransfer_guar (x : Transfer) : (s.setTransfer x).guar = s.guar := rfl
@[simp] theorem State.setTransfer_ed (x : Transfer) : (s.setTransfer x).ed = s.ed := rfl
@[simp] theorem State.setTransfer_cas (x : Transfer) : (s.setTransfer x).cas = s.cas := rfl
@[simp] theorem State.setTransfer_health (x : Transfer) : (s.setTransfer x).health = s.health := rfl
@[simp] theorem State.setTransfer_cat_force (x : Transfer) : (s.setTransfer x).cat.force = s.cat.force := rfl
@[simp] theorem State.setTransfer_cat_staged (x : Transfer) : (s.setTransfer x).cat.staged = s.cat.staged := rfl
@[simp] theorem State.setTransfer_cat_regs (x : Transfer) : (s.setTransfer x).cat.regs = s.cat.regs := rfl
@[simp] theorem State.setTransfer_cat_ctx (x : Transfer) : (s.setTransfer x).cat.ctx = s.cat.ctx := rfl
@[simp] theorem State.setTransfer_cat_sessions (x : Transfer) : (s.setTransfer x).cat.sessions = s.cat.sessions := rfl
@[simp] theorem State.setTransfer_cat_failedProve (x : Transfer) : (s.setTransfer x).cat.failedProve = s.cat.failedProve := rfl
@[simp] theorem State.setTransfer_cat_lastReqs (x : Transfer) : (s.setTransfer x).cat.lastReqs = s.cat.lastReqs := rfl
@[simp] theorem State.setTransfer_cat_outstanding (x : Transfer) : (s.setTransfer x).cat.outstanding = s.cat.outstanding := rfl
@[simp] theorem State.setTransfer_cat_mailboxes (x : Transfer) : (s.setTransfer x).cat.mailboxes = s.cat.mailboxes := rfl
@[simp] theorem State.setTransfer_cat_provs (x : Transfer) : (s.setTransfer x).cat.provs = s.cat.provs := rfl
@[simp] theorem State.setTransfer_cat_provQueue (x : Transfer) : (s.setTransfer x).cat.provQueue = s.cat.provQueue := rfl
@[simp] theorem State.setTransfer_cat_blocks (x : Transfer) : (s.setTransfer x).cat.blocks = s.cat.blocks := rfl
@[simp] theorem State.setTransfer_cat_acc (x : Transfer) : (s.setTransfer x).cat.acc = s.cat.acc := rfl
@[simp] theorem State.setTransfer_cat_last (x : Transfer) : (s.setTransfer x).cat.last = s.cat.last := rfl
@[simp] theorem State.setTransfer_cat_writes (x : Transfer) : (s.setTransfer x).cat.writes = s.cat.writes := rfl

/-! ### State.storeReq -/

@[simp] theorem State.storeReq_now (l : LastReq) : (s.storeReq l).now = s.now := rfl
@[simp] theorem State.storeReq_pending (l : LastReq) : (s.storeReq l).pending = s.pending := rfl
@[simp] theorem State.storeReq_free (l : LastReq) : (s.storeReq l).free = s.free := rfl
@[simp] theorem State.storeReq_dev (l : LastReq) : (s.storeReq l).dev = s.dev := rfl
@[simp] theorem State.storeReq_boot (l : LastReq) : (s.storeReq l).boot = s.boot := rfl
@[simp] theorem State.storeReq_vault (l : LastReq) : (s.storeReq l).vault = s.vault := rfl
@[simp] theorem State.storeReq_rings (l : LastReq) : (s.storeReq l).rings = s.rings := rfl
@[simp] theorem State.storeReq_bus (l : LastReq) : (s.storeReq l).bus = s.bus := rfl
@[simp] theorem State.storeReq_ports (l : LastReq) : (s.storeReq l).ports = s.ports := rfl
@[simp] theorem State.storeReq_wire (l : LastReq) : (s.storeReq l).wire = s.wire := rfl
@[simp] theorem State.storeReq_search (l : LastReq) : (s.storeReq l).search = s.search := rfl
@[simp] theorem State.storeReq_bays (l : LastReq) : (s.storeReq l).bays = s.bays := rfl
@[simp] theorem State.storeReq_tables (l : LastReq) : (s.storeReq l).tables = s.tables := rfl
@[simp] theorem State.storeReq_pfx (l : LastReq) : (s.storeReq l).pfx = s.pfx := rfl
@[simp] theorem State.storeReq_em (l : LastReq) : (s.storeReq l).em = s.em := rfl
@[simp] theorem State.storeReq_mem (l : LastReq) : (s.storeReq l).mem = s.mem := rfl
@[simp] theorem State.storeReq_arb (l : LastReq) : (s.storeReq l).arb = s.arb := rfl
@[simp] theorem State.storeReq_guar (l : LastReq) : (s.storeReq l).guar = s.guar := rfl
@[simp] theorem State.storeReq_ed (l : LastReq) : (s.storeReq l).ed = s.ed := rfl
@[simp] theorem State.storeReq_cas (l : LastReq) : (s.storeReq l).cas = s.cas := rfl
@[simp] theorem State.storeReq_health (l : LastReq) : (s.storeReq l).health = s.health := rfl
@[simp] theorem State.storeReq_cat_force (l : LastReq) : (s.storeReq l).cat.force = s.cat.force := rfl
@[simp] theorem State.storeReq_cat_staged (l : LastReq) : (s.storeReq l).cat.staged = s.cat.staged := rfl
@[simp] theorem State.storeReq_cat_regs (l : LastReq) : (s.storeReq l).cat.regs = s.cat.regs := rfl
@[simp] theorem State.storeReq_cat_ctx (l : LastReq) : (s.storeReq l).cat.ctx = s.cat.ctx := rfl
@[simp] theorem State.storeReq_cat_sessions (l : LastReq) : (s.storeReq l).cat.sessions = s.cat.sessions := rfl
@[simp] theorem State.storeReq_cat_failedProve (l : LastReq) : (s.storeReq l).cat.failedProve = s.cat.failedProve := rfl
@[simp] theorem State.storeReq_cat_transfers (l : LastReq) : (s.storeReq l).cat.transfers = s.cat.transfers := rfl
@[simp] theorem State.storeReq_cat_outstanding (l : LastReq) : (s.storeReq l).cat.outstanding = s.cat.outstanding := rfl
@[simp] theorem State.storeReq_cat_mailboxes (l : LastReq) : (s.storeReq l).cat.mailboxes = s.cat.mailboxes := rfl
@[simp] theorem State.storeReq_cat_provs (l : LastReq) : (s.storeReq l).cat.provs = s.cat.provs := rfl
@[simp] theorem State.storeReq_cat_provQueue (l : LastReq) : (s.storeReq l).cat.provQueue = s.cat.provQueue := rfl
@[simp] theorem State.storeReq_cat_blocks (l : LastReq) : (s.storeReq l).cat.blocks = s.cat.blocks := rfl
@[simp] theorem State.storeReq_cat_acc (l : LastReq) : (s.storeReq l).cat.acc = s.cat.acc := rfl
@[simp] theorem State.storeReq_cat_last (l : LastReq) : (s.storeReq l).cat.last = s.cat.last := rfl
@[simp] theorem State.storeReq_cat_writes (l : LastReq) : (s.storeReq l).cat.writes = s.cat.writes := rfl

/-! ### State.outcome -/

@[simp] theorem State.outcome_now (k : Nat) (m : Master) (c : Nat) (v : List Byte) (old : Option Nat) (ran : Bool) : (s.outcome k m c v old ran).now = s.now := rfl
@[simp] theorem State.outcome_pending (k : Nat) (m : Master) (c : Nat) (v : List Byte) (old : Option Nat) (ran : Bool) : (s.outcome k m c v old ran).pending = s.pending := rfl
@[simp] theorem State.outcome_free (k : Nat) (m : Master) (c : Nat) (v : List Byte) (old : Option Nat) (ran : Bool) : (s.outcome k m c v old ran).free = s.free := rfl
@[simp] theorem State.outcome_dev (k : Nat) (m : Master) (c : Nat) (v : List Byte) (old : Option Nat) (ran : Bool) : (s.outcome k m c v old ran).dev = s.dev := rfl
@[simp] theorem State.outcome_boot (k : Nat) (m : Master) (c : Nat) (v : List Byte) (old : Option Nat) (ran : Bool) : (s.outcome k m c v old ran).boot = s.boot := rfl
@[simp] theorem State.outcome_vault (k : Nat) (m : Master) (c : Nat) (v : List Byte) (old : Option Nat) (ran : Bool) : (s.outcome k m c v old ran).vault = s.vault := rfl
@[simp] theorem State.outcome_rings (k : Nat) (m : Master) (c : Nat) (v : List Byte) (old : Option Nat) (ran : Bool) : (s.outcome k m c v old ran).rings = s.rings := rfl
@[simp] theorem State.outcome_bus (k : Nat) (m : Master) (c : Nat) (v : List Byte) (old : Option Nat) (ran : Bool) : (s.outcome k m c v old ran).bus = s.bus := rfl
@[simp] theorem State.outcome_ports (k : Nat) (m : Master) (c : Nat) (v : List Byte) (old : Option Nat) (ran : Bool) : (s.outcome k m c v old ran).ports = s.ports := rfl
@[simp] theorem State.outcome_wire (k : Nat) (m : Master) (c : Nat) (v : List Byte) (old : Option Nat) (ran : Bool) : (s.outcome k m c v old ran).wire = s.wire := rfl
@[simp] theorem State.outcome_search (k : Nat) (m : Master) (c : Nat) (v : List Byte) (old : Option Nat) (ran : Bool) : (s.outcome k m c v old ran).search = s.search := rfl
@[simp] theorem State.outcome_bays (k : Nat) (m : Master) (c : Nat) (v : List Byte) (old : Option Nat) (ran : Bool) : (s.outcome k m c v old ran).bays = s.bays := rfl
@[simp] theorem State.outcome_tables (k : Nat) (m : Master) (c : Nat) (v : List Byte) (old : Option Nat) (ran : Bool) : (s.outcome k m c v old ran).tables = s.tables := rfl
@[simp] theorem State.outcome_pfx (k : Nat) (m : Master) (c : Nat) (v : List Byte) (old : Option Nat) (ran : Bool) : (s.outcome k m c v old ran).pfx = s.pfx := rfl
@[simp] theorem State.outcome_em (k : Nat) (m : Master) (c : Nat) (v : List Byte) (old : Option Nat) (ran : Bool) : (s.outcome k m c v old ran).em = s.em := rfl
@[simp] theorem State.outcome_mem (k : Nat) (m : Master) (c : Nat) (v : List Byte) (old : Option Nat) (ran : Bool) : (s.outcome k m c v old ran).mem = s.mem := rfl
@[simp] theorem State.outcome_arb (k : Nat) (m : Master) (c : Nat) (v : List Byte) (old : Option Nat) (ran : Bool) : (s.outcome k m c v old ran).arb = s.arb := rfl
@[simp] theorem State.outcome_guar (k : Nat) (m : Master) (c : Nat) (v : List Byte) (old : Option Nat) (ran : Bool) : (s.outcome k m c v old ran).guar = s.guar := rfl
@[simp] theorem State.outcome_ed (k : Nat) (m : Master) (c : Nat) (v : List Byte) (old : Option Nat) (ran : Bool) : (s.outcome k m c v old ran).ed = s.ed := rfl
@[simp] theorem State.outcome_cas (k : Nat) (m : Master) (c : Nat) (v : List Byte) (old : Option Nat) (ran : Bool) : (s.outcome k m c v old ran).cas = s.cas := rfl
@[simp] theorem State.outcome_health (k : Nat) (m : Master) (c : Nat) (v : List Byte) (old : Option Nat) (ran : Bool) : (s.outcome k m c v old ran).health = s.health := rfl
@[simp] theorem State.outcome_cat_force (k : Nat) (m : Master) (c : Nat) (v : List Byte) (old : Option Nat) (ran : Bool) : (s.outcome k m c v old ran).cat.force = s.cat.force := rfl
@[simp] theorem State.outcome_cat_staged (k : Nat) (m : Master) (c : Nat) (v : List Byte) (old : Option Nat) (ran : Bool) : (s.outcome k m c v old ran).cat.staged = s.cat.staged := rfl
@[simp] theorem State.outcome_cat_regs (k : Nat) (m : Master) (c : Nat) (v : List Byte) (old : Option Nat) (ran : Bool) : (s.outcome k m c v old ran).cat.regs = s.cat.regs := rfl
@[simp] theorem State.outcome_cat_ctx (k : Nat) (m : Master) (c : Nat) (v : List Byte) (old : Option Nat) (ran : Bool) : (s.outcome k m c v old ran).cat.ctx = s.cat.ctx := rfl
@[simp] theorem State.outcome_cat_sessions (k : Nat) (m : Master) (c : Nat) (v : List Byte) (old : Option Nat) (ran : Bool) : (s.outcome k m c v old ran).cat.sessions = s.cat.sessions := rfl
@[simp] theorem State.outcome_cat_failedProve (k : Nat) (m : Master) (c : Nat) (v : List Byte) (old : Option Nat) (ran : Bool) : (s.outcome k m c v old ran).cat.failedProve = s.cat.failedProve := rfl
@[simp] theorem State.outcome_cat_lastReqs (k : Nat) (m : Master) (c : Nat) (v : List Byte) (old : Option Nat) (ran : Bool) : (s.outcome k m c v old ran).cat.lastReqs = s.cat.lastReqs := rfl
@[simp] theorem State.outcome_cat_transfers (k : Nat) (m : Master) (c : Nat) (v : List Byte) (old : Option Nat) (ran : Bool) : (s.outcome k m c v old ran).cat.transfers = s.cat.transfers := rfl
@[simp] theorem State.outcome_cat_outstanding (k : Nat) (m : Master) (c : Nat) (v : List Byte) (old : Option Nat) (ran : Bool) : (s.outcome k m c v old ran).cat.outstanding = s.cat.outstanding := rfl
@[simp] theorem State.outcome_cat_mailboxes (k : Nat) (m : Master) (c : Nat) (v : List Byte) (old : Option Nat) (ran : Bool) : (s.outcome k m c v old ran).cat.mailboxes = s.cat.mailboxes := rfl
@[simp] theorem State.outcome_cat_provs (k : Nat) (m : Master) (c : Nat) (v : List Byte) (old : Option Nat) (ran : Bool) : (s.outcome k m c v old ran).cat.provs = s.cat.provs := rfl
@[simp] theorem State.outcome_cat_provQueue (k : Nat) (m : Master) (c : Nat) (v : List Byte) (old : Option Nat) (ran : Bool) : (s.outcome k m c v old ran).cat.provQueue = s.cat.provQueue := rfl
@[simp] theorem State.outcome_cat_blocks (k : Nat) (m : Master) (c : Nat) (v : List Byte) (old : Option Nat) (ran : Bool) : (s.outcome k m c v old ran).cat.blocks = s.cat.blocks := rfl
@[simp] theorem State.outcome_cat_acc (k : Nat) (m : Master) (c : Nat) (v : List Byte) (old : Option Nat) (ran : Bool) : (s.outcome k m c v old ran).cat.acc = s.cat.acc := rfl

/-! ### Reading what was written -/

@[simp] theorem State.reg_setReg (o : Obj) (i off ext v : Nat) : (s.setReg o i off ext v).reg o i off ext = v := sget_sput_self _ _ _
@[simp] theorem State.port_setPort (p : Nat) (q : Port) : (s.setPort p q).port p = q := sget_sput_self _ _ _
@[simp] theorem State.ring_setRing (r : Nat) (g : Ring) : (s.setRing r g).ring r = g := sget_sput_self _ _ _
@[simp] theorem State.table_setTable (n : Nat) (x : Table) : (s.setTable n x).table n = x := sget_sput_self _ _ _
@[simp] theorem State.region_setRegion (d : Nat) (r : Region) : (s.setRegion d r).region d = r := sget_sput_self _ _ _
@[simp] theorem State.mailbox_setMailbox (c : Nat) (x : Mailbox) : (s.setMailbox c x).mailbox c = x := sget_sput_self _ _ _
@[simp] theorem State.prov_setProv (c : Nat) (x : Prov) : (s.setProv c x).prov c = x := sget_sput_self _ _ _
@[simp] theorem State.block_setBlock (n : Nat) (b : Block) : (s.setBlock n b).block n = b := sget_sput_self _ _ _
@[simp] theorem State.session_setSession (n : Nat) (x : Session) : (s.setSession n x).session n = x := sget_sput_self _ _ _
@[simp] theorem State.ctxReg_setCtxReg (c k v : Nat) : (s.setCtxReg c k v).ctxReg c k = v := sget_sput_self _ _ _
@[simp] theorem State.carWord_setCarWord (room w : Nat) (x : BitVec 64) : (s.setCarWord room w x).carWord room w = x := sget_sput_self _ _ _
@[simp] theorem State.secWord_setSecWord (w : Nat) (x : BitVec 64) : (s.setSecWord w x).secWord w = x := sget_sput_self _ _ _

theorem State.port_setPort_ne (p j : Nat) (q : Port) (h : j ≠ p) :
    (s.setPort p q).port j = s.port j := sget_sput_ne _ _ _ _ h
theorem State.ring_setRing_ne (r j : Nat) (g : Ring) (h : j ≠ r) :
    (s.setRing r g).ring j = s.ring j := sget_sput_ne _ _ _ _ h
theorem State.table_setTable_ne (n j : Nat) (x : Table) (h : j ≠ n) :
    (s.setTable n x).table j = s.table j := sget_sput_ne _ _ _ _ h
theorem State.region_setRegion_ne (d j : Nat) (r : Region) (h : j ≠ d) :
    (s.setRegion d r).region j = s.region j := sget_sput_ne _ _ _ _ h
theorem State.mailbox_setMailbox_ne (c j : Nat) (x : Mailbox) (h : j ≠ c) :
    (s.setMailbox c x).mailbox j = s.mailbox j := sget_sput_ne _ _ _ _ h
theorem State.prov_setProv_ne (c j : Nat) (x : Prov) (h : j ≠ c) :
    (s.setProv c x).prov j = s.prov j := sget_sput_ne _ _ _ _ h
theorem State.block_setBlock_ne (n j : Nat) (b : Block) (h : j ≠ n) :
    (s.setBlock n b).block j = s.block j := sget_sput_ne _ _ _ _ h
theorem State.session_setSession_ne (n j : Nat) (x : Session) (h : j ≠ n) :
    (s.setSession n x).session j = s.session j := sget_sput_ne _ _ _ _ h

/-- A register reads as before after a write of another. -/
theorem State.regs_setReg_ne (o : Obj) (i off ext v k : Nat) (h : k ≠ o.key i off ext) :
    sget regDefault (s.setReg o i off ext v).cat.regs k = sget regDefault s.cat.regs k := sget_sput_ne _ _ _ _ h

end Sys2Proof.Machine
end

