-- ==== Sys2Proof/Laws/Records.lean ====
section
/-! SUPPORT. What the daybook's operations can do: they leave everything but rings, their counters, queued pushes, FAULT_CAUSE
and the wake of the management core, and they lose no record. -/

namespace Sys2Proof.Machine

/-! ### States that differ by records alone -/

theorem OnlyRecords.refl (s : State) : OnlyRecords s s := by
  constructor <;> intros <;> first | exact List.Sublist.refl _ | rfl

theorem OnlyRecords.trans {a b c : State} (h : OnlyRecords a b) (k : OnlyRecords b c) : OnlyRecords a c :=
  { now := k.now.trans h.now, pending := k.pending.trans h.pending, free := k.free.trans h.free,
    dev := k.dev.trans h.dev, boot := k.boot.trans h.boot, vault := k.vault.trans h.vault, cat := k.cat.trans h.cat,
    regs := fun i hi => (k.regs i hi).trans (h.regs i hi), rseq := fun r => (k.rseq r).trans (h.rseq r),
    recs := fun r => (h.recs r).trans (k.recs r), bus := k.bus.trans h.bus, ports := fun p => (k.ports p).trans (h.ports p),
    wire := k.wire.trans h.wire, search := k.search.trans h.search, bays := k.bays.trans h.bays,
    tables := k.tables.trans h.tables, pfx := k.pfx.trans h.pfx, em := k.em.trans h.em, mem := k.mem.trans h.mem,
    arb := k.arb.trans h.arb, guar := k.guar.trans h.guar, ed := k.ed.trans h.ed, cas := k.cas.trans h.cas,
    health := k.health.trans h.health }

/-- A command that ends in `done` leaves what it did but for records, once `settleFaults` is known to. -/
theorem RunsTo.of_eq {c : Instr} {s u t : State} (h : exec c s = .next t) (r : OnlyRecords u t) : RunsTo c s u := ⟨t, h, r⟩

/-- Records leave the frame of what came before them. -/
theorem Touches.of_records {l : List Piece} {s u t : State} (h : Touches l s u) (r : OnlyRecords u t) : Touches l s t := by
  intro p hp
  have := h p hp
  cases p <;> simp only [Piece.same] at this ⊢
  case now => exact r.now.trans this
  case pending => exact r.pending.trans this
  case free => exact r.free.trans this
  case dev => exact r.dev.trans this
  case boot => exact r.boot.trans this
  case vault => exact r.vault.trans this
  case regs => exact fun k hk => (r.regs k hk).trans (this k hk)
  case catalogue => exact r.cat.trans this
  case rings => exact fun i => ⟨(r.rseq i).trans (this i).1, (this i).2.trans (r.recs i)⟩
  case bus => exact r.bus.trans this
  case ports => exact fun i => (r.ports i).trans (this i)
  case wire => exact r.wire.trans this
  case search => exact r.search.trans this
  case bays => exact r.bays.trans this
  case tables => exact r.tables.trans this
  case pfx => exact r.pfx.trans this
  case em => exact r.em.trans this
  case mem => exact r.mem.trans this
  case arb => exact r.arb.trans this
  case guar => exact r.guar.trans this
  case ed => exact r.ed.trans this
  case cas => exact r.cas.trans this
  case health => exact r.health.trans this

theorem Touches.refl (l : List Piece) (s : State) : Touches l s s := by
  intro p _
  cases p <;> simp [Piece.same]

theorem Touches.trans {l : List Piece} {a b c : State} (h : Touches l a b) (k : Touches l b c) : Touches l a c := by
  intro p hp
  have h := h p hp
  have k := k p hp
  cases p <;> simp only [Piece.same] at h k ⊢
  case regs => exact fun i hi => (k i hi).trans (h i hi)
  case rings => exact fun i => ⟨(k i).1.trans (h i).1, (h i).2.trans (k i).2⟩
  case ports => exact fun i => (k i).trans (h i)
  all_goals exact k.trans h

theorem Touches.mono {l m : List Piece} {a b : State} (h : Touches l a b) (hl : ∀ p ∈ l, p ∈ m) : Touches m a b :=
  fun p hp => h p fun x => hp (hl p x)

/-- A daybook record touches no piece. -/
theorem OnlyRecords.touches {s t : State} (l : List Piece) (r : OnlyRecords s t) : Touches l s t :=
  (Touches.refl l s).of_records r

/-! ### The pieces -/

/-- Putting a port back with the same core changes only records. -/
theorem onlyRecords_setPort (s : State) (p : Nat) (q : Port) (h : q.core = (s.port p).core) :
    OnlyRecords s (s.setPort p q) := by
  have hp : ∀ j, ((s.setPort p q).port j).core = (s.port j).core := by
    intro j
    by_cases hj : j = p
    · rw [hj, State.port_setPort, h]
    · rw [State.port_setPort_ne _ _ _ _ hj]
  constructor <;> intros <;> first | rfl | exact List.Sublist.refl _ | exact hp _

/-- Changing the bus controller outside its core changes only records. -/
theorem onlyRecords_bus (s : State) (b : Bus) (h : b.core = s.bus.core) : OnlyRecords s { s with bus := b } := by
  constructor <;> intros <;> first | rfl | exact List.Sublist.refl _ | exact h

/-- Changing the pins outside their core changes only records. -/
theorem onlyRecords_dev (s : State) (d : Dev) (h : d.core = s.dev.core) : OnlyRecords s { s with dev := d } := by
  constructor <;> intros <;> first | rfl | exact List.Sublist.refl _ | exact h

/-- Writing one of the daybook's counters changes only records. -/
theorem onlyRecords_setReg (s : State) (o : Obj) (i off ext v : Nat) (h : o.key i off ext ∈ daybookKeys) :
    OnlyRecords s (s.setReg o i off ext v) := by
  have hr : ∀ k, k ∉ daybookKeys → sget regDefault (s.setReg o i off ext v).cat.regs k = sget regDefault s.cat.regs k :=
    fun k hk => State.regs_setReg_ne _ _ _ _ _ _ _ fun e => hk (e ▸ h)
  constructor <;> intros <;> first | rfl | exact List.Sublist.refl _ | exact hr _ ‹_›

/-- A ring that keeps its RSEQ and every record changes only records. -/
theorem onlyRecords_setRing (s : State) (r : Nat) (g : Ring) (h1 : g.rseq = (s.ring r).rseq)
    (h2 : (s.ring r).recs.Sublist g.recs) : OnlyRecords s (s.setRing r g) := by
  have hq : ∀ j, ((s.setRing r g).ring j).rseq = (s.ring j).rseq := by
    intro j
    by_cases hj : j = r
    · rw [hj, State.ring_setRing, h1]
    · rw [State.ring_setRing_ne _ _ _ _ hj]
  have hs : ∀ j, ((s.ring j).recs).Sublist ((s.setRing r g).ring j).recs := by
    intro j
    by_cases hj : j = r
    · rw [hj, State.ring_setRing]; exact h2
    · rw [State.ring_setRing_ne _ _ _ _ hj]
  constructor <;> intros <;> first | rfl | exact hq _ | exact hs _

/-! ### The shared operations -/

theorem Bus.pushRec_core (b : Bus) (x : Push) : (b.pushRec x).core = b.core := by
  simp only [Bus.pushRec]
  split <;> split <;> rfl

/-- Delivery queues pushes and nothing else (R371 to R373). -/
theorem onlyRecords_deliver (s : State) (r : Nat) (q : BitVec 16) (x : Rec) : OnlyRecords s (s.deliver r q x) := by
  simp only [State.deliver]
  have h1 : OnlyRecords s (if nbit (s.reg .dbCfg r) 31 && decide (bits (s.reg .dbCfg r) 21 20 ≤ x.cls.toNat) then
      if (s.port (bits (s.reg .dbCfg r) 28 24)).st = .up ∧ s.role (bits (s.reg .dbCfg r) 28 24) = 1 ∧
          (s.port (bits (s.reg .dbCfg r) 28 24)).push.length < 64 then
        s.setPort (bits (s.reg .dbCfg r) 28 24) { s.port (bits (s.reg .dbCfg r) 28 24) with
          push := addPush ⟨r, q, x⟩ (s.port (bits (s.reg .dbCfg r) 28 24)).push }
      else s.setPort (bits (s.reg .dbCfg r) 28 24) ((s.port (bits (s.reg .dbCfg r) 28 24)).loseRec r)
      else s) := by
    split
    · split
      · exact onlyRecords_setPort _ _ _ rfl
      · exact onlyRecords_setPort _ _ _ rfl
    · exact OnlyRecords.refl s
  split
  · exact h1.trans (onlyRecords_bus _ _ (Bus.pushRec_core _ _))
  · exact h1

@[simp] theorem Ring.settled_recs (g : Ring) (now : Nat) : (g.settled now).recs = g.recs := by
  simp only [Ring.settled]
  repeat' split
  all_goals rfl

@[simp] theorem Ring.settled_rseq (g : Ring) (now : Nat) : (g.settled now).rseq = g.rseq := by
  simp only [Ring.settled]
  repeat' split
  all_goals rfl

/-- A record that arrives at a ring is kept or dropped; no other is lost (R365, R366). -/
theorem onlyRecords_toRing (s : State) (r : Nat) (x : Rec) (hr : r < 17) : OnlyRecords s (s.toRing r x) := by
  have hk : Obj.dbDropped.key r 0 0 ∈ daybookKeys := by
    simp only [daybookKeys, List.mem_cons, List.mem_map, List.mem_range]
    exact .inr ⟨r, hr, rfl⟩
  simp only [State.toRing]
  split
  · refine OnlyRecords.trans ?_ (onlyRecords_setReg _ _ _ _ _ _ hk)
    exact onlyRecords_setRing s r _ (Ring.settled_rseq _ _) (by simp)
  split
  · refine OnlyRecords.trans ?_ (onlyRecords_setReg _ _ _ _ _ _ hk)
    exact onlyRecords_setRing s r _ (Ring.settled_rseq _ _) (by simp)
  · refine OnlyRecords.trans ?_ (onlyRecords_deliver _ _ _ _)
    refine onlyRecords_setRing s r _ (Ring.settled_rseq _ _) ?_
    simp only [Ring.settled_recs]
    have h := List.take_append_drop (((s.ring r).settled s.now).place x) (s.ring r).recs
    conv_lhs => rw [← h]
    exact List.Sublist.append (List.Sublist.refl _) (List.sublist_cons_self _ _)

theorem onlyRecords_wakeMgmt (s : State) : OnlyRecords s s.wakeMgmt := onlyRecords_dev s _ rfl

/-- Writing a record changes only records (R364, R370). -/
theorem onlyRecords_record (s : State) (c : Code) (room : Option Nat) (src : Nat) (f : List (Nat × Nat)) (dir : Nat)
    (hr : ∀ r, room = some r → r < 16) : OnlyRecords s (s.record c room src f dir) := by
  have h16 : ∀ (t : State) (x : Rec), OnlyRecords t (t.toRing 16 x) := fun t x => onlyRecords_toRing t 16 x (by omega)
  simp only [State.record]
  split
  · refine OnlyRecords.trans ?_ (onlyRecords_wakeMgmt _)
    split
    · exact onlyRecords_toRing _ _ _ (by have := hr _ rfl; omega)
    · exact (onlyRecords_toRing _ _ _ (by have := hr _ rfl; omega)).trans (h16 _ _)
    · exact h16 _ _
  · split
    · exact onlyRecords_toRing _ _ _ (by have := hr _ rfl; omega)
    · exact (onlyRecords_toRing _ _ _ (by have := hr _ rfl; omega)).trans (h16 _ _)
    · exact h16 _ _

/-- A cause bit that follows its cause changes only records (R375). -/
theorem onlyRecords_settleBit (s : State) (b : Nat) (p : Bool) : OnlyRecords s (s.settleBit b p) := by
  simp only [State.settleBit]
  split
  · exact OnlyRecords.refl s
  · refine OnlyRecords.trans ?_ (onlyRecords_record _ _ _ _ _ _ (by simp))
    refine OnlyRecords.trans (onlyRecords_dev s _ ?_) (onlyRecords_setReg _ _ _ _ _ _ ?_)
    · rfl
    · exact List.mem_cons_self

theorem onlyRecords_settleBits (s : State) (b : Nat) (l : List Bool) : OnlyRecords s (s.settleBits b l) := by
  induction l generalizing s b with
  | nil => exact OnlyRecords.refl s
  | cons p t ih => exact (onlyRecords_settleBit s b p).trans (ih _ _)

/-- FAULT_CAUSE follows its causes by records alone (R375). -/
theorem onlyRecords_settleFaults (s : State) : OnlyRecords s s.settleFaults := onlyRecords_settleBits s 0 _

/-- A command that ends in `done u` leaves `u` but for records. -/
theorem RunsTo.of_done {c : Instr} {s u v : State} (h : exec c s = done u) (r : OnlyRecords v u) : RunsTo c s v :=
  ⟨_, h, r.trans (onlyRecords_settleFaults u)⟩

/-- A write that meets no obstacle but those of its value is refused by its value's code, or runs its own checks and effect;
the arbiter notes it (R320). -/
theorem State.writeObj_of_canWrite (s : State) (m : Master) (o : Obj) (i : Nat) (l : List Byte) (h : s.CanWrite m o i)
    (hk : s.keyAt m ⟨o, i, 0⟩ = o.key i) :
    s.writeObj m ⟨o, i, 0⟩ l = if s.writeCode m ⟨o, i, 0⟩ l = 0 then
        (s.performWrite m ⟨o, i, 0⟩ l).1.outcome (o.key i) m (s.performWrite m ⟨o, i, 0⟩ l).2 l (s.oldValue m ⟨o, i, 0⟩)
          true
      else s.outcome (o.key i) m (s.writeCode m ⟨o, i, 0⟩ l) l none false := by
  by_cases hc : s.writeCode m ⟨o, i, 0⟩ l = 0 <;>
    simp [State.writeObj, State.guarded, hk, hc, h.up, h.session, h.free, h.first]

/-- The write command of an object that passes its value's checks leaves its effect, which the arbiter notes (R320). -/
theorem Writes.of_performed {c : Instr} {s u : State} {m : Master} {o : Obj} {i code : Nat} {r : Request}
    (hc : requestOf c = some r) (he : exec c s = done (s.writeObj m ⟨o, i, 0⟩ r.bytes)) (w : s.CanWrite m o i)
    (hk : s.keyAt m ⟨o, i, 0⟩ = o.key i) (hv : s.writeCode m ⟨o, i, 0⟩ r.bytes = 0)
    (hr : s.performWrite m ⟨o, i, 0⟩ r.bytes = (u, code)) : Writes c s m o i code u := by
  refine ⟨s.oldValue m ⟨o, i, 0⟩, true, RunsTo.of_done ?_ (OnlyRecords.refl _)⟩
  rw [he, State.writeObj_of_canWrite s m o i r.bytes w hk, if_pos hv, hr, hc]

/-- The write command of an object whose value is refused changes nothing but what the arbiter notes (R320). -/
theorem Writes.of_refused {c : Instr} {s : State} {m : Master} {o : Obj} {i code : Nat} {r : Request}
    (hc : requestOf c = some r) (he : exec c s = done (s.writeObj m ⟨o, i, 0⟩ r.bytes)) (w : s.CanWrite m o i)
    (hk : s.keyAt m ⟨o, i, 0⟩ = o.key i) (hv : s.writeCode m ⟨o, i, 0⟩ r.bytes = code) (h0 : code ≠ 0) :
    Writes c s m o i code s := by
  refine ⟨none, false, RunsTo.of_done ?_ (OnlyRecords.refl _)⟩
  rw [he, State.writeObj_of_canWrite s m o i r.bytes w hk, hv, if_neg h0, hc]

end Sys2Proof.Machine
end

