-- ==== Sys2Proof/Laws/Requests.lean ====
section
/-! SUPPORT. What a request of the host and a start slot can do: an accepted request runs its service and is answered, and a
granted command runs. -/

namespace Sys2Proof.Machine

/-! ### Start slots -/

/-- A start slot whose granted command is one of the operations runs it (R183, R242). -/
theorem State.startSlot_of_starts {s s1 : State} {op : Nat} {c : MqCmd} (ops : List Nat) (run : MqCmd → State → State)
    (h : s.Starts op c s1) (ho : ops.contains op = true) : s.startSlot ops run = run c s1 := by
  obtain ⟨h1, _, s', room, before, c0, hg, hh, hc, hs⟩ := h
  have hop : c0.hdr.op = op := by rw [← h1, hc]; rfl
  simp only [State.startSlot, hg, hh, hop, ho, if_true]
  rw [← hc, ← hs]

/-- At a start slot that grants nothing no room holds the grant any longer (R242). -/
theorem State.startSlot_of_idle {s : State} (ops : List Nat) (run : MqCmd → State → State) (h : s.atSlot.grant = none) :
    s.startSlot ops run = { s with arb := { s.arb with holder := none } } := by
  simp [State.startSlot, h]

/-! ### Time -/

theorem State.record_now (s : State) (c : Code) (room : Option Nat) (src : Nat) (f : List (Nat × Nat)) (dir : Nat)
    (hr : ∀ r, room = some r → r < 16) : (s.record c room src f dir).now = s.now := (onlyRecords_record s c room src f dir hr).now

@[simp] theorem State.takeCat_now (s : State) (p : Fin 32) (q : Pdu) : (s.takeCat p q).now = s.now := by
  simp only [State.takeCat]
  split <;> rfl

@[simp] theorem State.busHeard_now (s : State) (ident : Nat) : (s.busHeard ident).now = s.now := by
  simp only [State.busHeard]
  split
  · exact State.record_now _ _ _ _ _ _ (by simp)
  · rfl

/-- A PDU that arrives takes no time (R330, R342). -/
theorem State.reach_now (s : State) (q : Pdu) (service : Nat) : (s.reach q service).1.now = s.now := by
  simp only [State.reach]
  split
  · rfl
  · split
    · split
      · rfl
      · split <;> simp
    · split <;> simp

@[simp] theorem State.inUse_now (s : State) (m : Master) : (s.inUse m).now = s.now := by
  simp only [State.inUse]
  split <;> rfl

@[simp] theorem State.sendPdu_now (s : State) (p : Pdu) : (s.sendPdu p).now = s.now := by
  simp only [State.sendPdu, State.send1, State.txDrop]
  repeat' split
  all_goals rfl

/-- The state in which an accepted request acts is of the same cycle. -/
theorem State.Accepts.now {s s1 : State} {q : Pdu} {service layout : Nat} {tagged : Bool}
    (h : s.Accepts q service layout tagged s1) : s1.now = s.now := by
  obtain ⟨_, _, h⟩ := h
  split at h
  · rw [h.2, State.inUse_now, State.reach_now]
  · rw [h.2.2.2, State.inUse_now]
    exact State.reach_now s q service

/-! ### Accepted requests -/

/-- An accepted request runs its service: the responses are queued, and a proved session stores them (R326, R334). -/
theorem Answers.of_onPdu {c : Instr} {s s1 w : State} {q : Pdu} {service layout : Nat} {tagged : Bool} {i b : Nat}
    {rsp : List Pdu} {v : State → Service} (hc : exec c s = s.onPdu q service v)
    (hv : (v (s.reach q service).1).layout = layout ∧ (v (s.reach q service).1).tagged = tagged ∧
      (v (s.reach q service).1).index = i ∧ (v (s.reach q service).1).sub = b)
    (ha : s.Accepts q service layout tagged s1)
    (hr : (v (s.reach q service).1).run s1 (q.bytes.take layout) = (w, rsp)) :
    Answers c s q service layout tagged i b w rsp := by
  obtain ⟨hreach, hfew, ha⟩ := ha
  obtain ⟨rfl, rfl, rfl, rfl⟩ := hv
  have hr0 := State.reach_now s q service
  simp only [Answers]
  refine RunsTo.of_done ?_ (OnlyRecords.refl _)
  rw [hc]
  simp only [State.onPdu, hreach, if_true]
  congr 1
  simp only [State.serve, Nat.not_le.mpr hfew, if_false]
  split at ha
  · rename_i hp
    obtain ⟨hl, rfl⟩ := ha
    try rw [hp]
    simp only [Nat.not_lt.mpr hl, if_false, hr]
  · rename_i n hp
    obtain ⟨hl, ht, hs, rfl⟩ := ha
    try rw [hp]
    rw [ht] at hs
    simp only [Nat.not_lt.mpr hl, if_false, ht, hs, ne_eq, not_true_eq_false, hr]
    rw [← hr0]

end Sys2Proof.Machine
end

