-- ==== Sys2Proof/Tests/Base.lean ====
section
/-! SUPPORT. Small states and frames for the tests and the witnesses: a running device with a Keeper on the bus, a HOST
port, tables of the three kinds, pools and a program. -/

namespace Sys2Proof.Tests

open Sys2Proof Sys2Proof.Machine

/-! ### Running commands -/

/-- The state that a command leaves. -/
def run (c : Instr) (s : State) : State :=
  match exec c s with
  | .next t => t
  | _ => s

/-- The command leaves the state as it is. -/
def idles (c : Instr) (s : State) : Bool :=
  match exec c s with
  | .next t => decide (t = s)
  | _ => false

/-- The abort code of the last access. -/
def code (s : State) : Nat := s.lastCode

/-- Codes of the records of a ring, oldest first. -/
def log (s : State) (r : Nat) : List Nat := (s.ring r).recs.map fun x => x.code.toNat

/-! ### States -/

/-- Values in force. -/
def force (l : List (Nat × Nat)) (s : State) : State :=
  { s with cat := { s.cat with force := l.foldl (fun m e => sput regDefault m e.1 e.2) s.cat.force } }

/-- Values of registers. -/
def regs (l : List (Nat × Nat)) (s : State) : State :=
  { s with cat := { s.cat with regs := l.foldl (fun m e => sput regDefault m e.1 e.2) s.cat.regs } }

/-- The bus node and the port that the tests use. -/
def host : Master := .bus 9
def peer : Master := .port 0

/-- An open session. -/
def opened : Session := { Session.none with isOpen := true, node := 9 }

/-- A Keeper's session: every byte of its key is 7. -/
def keeper : Session := { opened with proved := true, askLevel := 3, keyNo := 17, sk := List.replicate 32 7 }

/-- The device after a start, at cycle 1,000,000, without a session. -/
def calm : State :=
  { State.reset with now := 1000000, dev := { Dev.reset with phase := .running, started := true, straps := ⟨5, 0⟩ },
                     boot := { Boot.reset with attempt := { Attempt.reset with active := false, ended := true, step := 9 } } }

/-- The same with a Keeper on bus node 9. -/
def base : State := calm.setSession 0 keeper

/-- The same in an attempt under way. -/
def starting (step : Nat) : State :=
  { base with dev := { base.dev with phase := .starting, started := false },
              boot := { base.boot with attempt := { Attempt.reset with step := step } } }

/-- A port that is UP. -/
def upPort : Port := { Port.reset with st := .up, everUp := true, step := 6, txSlot := 5000000, lastIdle := 5000000 }

/-- Fields of the headers (R77, R110, R141). -/
def trnHdr (room : Nat) (direct : Bool) (k base nbkt nopen copies rmax : Nat) : Nat :=
  pack [(4, room), (1, 1), (2, 0), (2, k), (1, b2n direct), (4, 0), (12, 0), (6, base), (6, nbkt), (3, nopen), (3, 0),
    (3, 0), (4, copies), (3, rmax), (61, 0)] * 2 ^ 13

def pfxHdr (room : Nat) (direct : Bool) : Nat :=
  pack [(4, room), (1, 1), (2, 1), (2, 0), (1, b2n direct), (2, 0), (2, 0), (8, 0), (1, 0), (1, 0), (1, 0), (4, 3), (6, 8),
    (32, 0), (61, 0)]

def emHdr (room width : Nat) (inline : Bool) (weed : Nat) : Nat :=
  pack [(4, room), (1, 1), (2, 2), (1, 0), (8, width), (1, b2n inline), (2, 0), (2, 0), (8, 0), (5, 3), (16, 0), (2, weed),
    (1, 1), (5, 0), (3, 7), (32, 0), (35, 0)]

def poolHdr (room : Nat) (owner : Bool) (base : Nat) : Nat :=
  pack [(4, room), (1, 1), (1, b2n owner), (2, 0), (22, base), (23, 1024), (23, 1024), (23, 1024), (23, 1024), (6, 0)]

/-- A program of room 0 with one stage and one lookup of a kind in a table, its key the first bits of the instruction key
(R50 to R52). -/
def program (kind table : Nat) (len : Nat := 32) (miss : Nat := 0) (endOnErr : Bool := false) : List (Nat × Nat) :=
  [(Obj.progHdr.key 0, pack [(4, 0), (1, 1), (2, 0), (1, b2n endOnErr), (8, 4), (4, 0), (12, 0), (32, 1), (64, 0)]),
   (Obj.progLkp.key 0, pack [(1, 1), (2, kind), (8, table), (3, miss), (2, 1), (48, 0)]),
   (Obj.progSeg.key 0, pack [(4, 0), (11, 0), (10, len), (7, 0)])]

/-- Lane (port 0, lookup 0) on a unit in every phase that a frame can arrive in. -/
def laned (unit : Nat) : List (Nat × Nat) :=
  (List.range 64).map fun f => (Obj.rotaData.key 0 0 (unit * 64 + f), rotaLane 0 0 0)

/-- Tables 1 (ternary, edition), 2 (ternary, direct), 3 (prefix, edition), 4 (prefix, direct), 5 (exact, inline), 6
(exact, pointers), pools 0 and 1, port 0 a HOST that acts as Keeper, blocks 0 and 1 allocated. -/
def lab : State :=
  let s := force [(Obj.tblHdr.key 1, trnHdr 0 false 0 0 1 1 0 0), (Obj.tblHdr.key 2, trnHdr 0 true 1 4 1 0 0 0),
    (Obj.tblHdr.key 3, pfxHdr 0 false), (Obj.tblHdr.key 4, pfxHdr 0 true), 
    (Obj.pfxStride.key 3, pack [(5, 16), (5, 14), (5, 2), (49, 0)]), (Obj.pfxStride.key 4, pack [(5, 16), (5, 14), (5, 2), (49, 0)]),
    (Obj.tblHdr.key 5, emHdr 0 32 true 2),
    (Obj.tblHdr.key 6, emHdr 0 32 false 0), (Obj.poolDesc.key 0, poolHdr 0 false 0), (Obj.poolDesc.key 1, poolHdr 0 true 1024),
    (Obj.portRole.key 0, 1), (Obj.portAuth.key 0, 0xC0000000)] base
  let s := force ([(3, 0), (3, 1), (3, 2), (3, 3), (4, 0), (4, 1), (4, 2), (4, 3)].map fun x =>
    (Obj.pfxGroup.key x.1 x.2, pack [(8, 8 * x.2 + 8), (5, 4), (19, 0)])) s
  let s := regs [(Obj.roomQuota.key 0, 1000), (Obj.edCurrent.key 0, 100), (Obj.portPeerLimit.key 0, 0x4040)] s
  ((s.setPort 0 upPort).setAlloc 0 ⟨true, true, 0, 0, 0⟩).setAlloc 1 ⟨true, true, 0, 0, 0⟩

/-! ### Commands waiting -/

/-- A command header (R170). -/
def tab (table op : Nat) (addr aux : Nat := 0) (byaddr placed : Bool := false) : Granule :=
  granule [(16, 0), (4, 0), (8, table), (4, op), (16, 7), (1, b2n byaddr), (1, b2n placed), (2, 0), (32, addr), (16, aux), (28, 0)]

/-- A state with one command in room 0's queue, written to its command registers. -/
def waiting (s : State) (hdr : Granule) (body : List Granule := []) : State :=
  s.setQueue 0 [⟨0, 0, linkFrame 4 1 ⟨hdr, body⟩, .reg, 0, false, none, [], [], [], [], [], [], none⟩]

/-- The command that the present start slot starts, with the state in which it runs (R183, R242). -/
def startOf (s : State) : Option (MqCmd × State) :=
  match s.atSlot.grant with
  | none => none
  | some (s', room) => match s'.head room with
    | none => none
    | some (_, c0) =>
      let c := { c0 with started := true }
      some (c, ({ s' with arb := { s'.arb with nextAt := s'.now + 2 } } : State).setCmd c)

theorem starts_of_startOf {s s1 : State} {c : MqCmd} (h : startOf s = some (c, s1)) : s.Starts c.hdr.op c s1 := by
  unfold startOf at h
  split at h
  · cases h
  · rename_i s' room hg
    split at h
    · cases h
    · rename_i b c0 hh
      cases h
      exact ⟨rfl, rfl, s', room, b, c0, hg, hh, rfl, rfl⟩

/-- A command that starts and meets a test has a witness of `State.Starts`. -/
theorem starts_of {s : State} {op : Nat} {P : MqCmd → State → Bool}
    (h : (match startOf s with | some x => decide (x.1.hdr.op = op) && P x.1 x.2 | none => false) = true) :
    ∃ c s1, s.Starts op c s1 ∧ P c s1 = true := by
  cases hx : startOf s with
  | none => simp [hx] at h
  | some x =>
    simp only [hx, Bool.and_eq_true, decide_eq_true_eq] at h
    exact ⟨x.1, x.2, h.1 ▸ starts_of_startOf hx, h.2⟩

/-- A write that meets no obstacle. -/
theorem canWrite_of {s : State} {m : Master} {o : Obj} {i : Nat}
    (h : (s.reached m && !s.unserved o i && decide (s.writeGrant m ⟨o, i, 0⟩ = 0) && (s.endedNow m).isNone &&
      !s.locked m (o.key i) && !s.loses m (o.key i)) = true) : s.CanWrite m o i := by
  simp only [Bool.and_eq_true, Bool.not_eq_true', decide_eq_true_eq, Option.isNone_iff_eq_none] at h
  exact ⟨h.1.1.1.1.1, h.1.1.1.1.2, h.1.1.1.2, h.1.1.2, h.1.2, h.2⟩

/-! ### Instructions in flight -/

/-- Program 0 looks table 1 up. -/
def searchable : State := force (program 0 1) lab

/-- An instruction of tag 9 in flight, due in a cycle. -/
def flight (s : State) (due : Nat) : Inflight :=
  ⟨0, 0, 0, 0, 9, 0, 100, false, 0, 10, [0, 0, 0, 77, 0, 0, 0, 0, 0, 7], 1000000, 1000007, due, s.view, 0, none, 0, false, 0, false,
    [], none, false⟩

def withFlight (s : State) (x : Inflight) : State := { s with search := { s.search with flight := [x] } }

/-! ### Requests -/

/-- A PDU from node 9 to the device. -/
def pdu (service : Nat) (bytes : List Nat) : Pdu :=
  ⟨host, 5, BitVec.ofNat 5 service, 9, 5, 0, bytes.map byte⟩

/-- The state in which an accepted request acts. -/
def acceptOf (s : State) (q : Pdu) (service layout : Nat) (tagged : Bool) : Option State :=
  let r := (s.reach q service).1
  if (s.reach q service).2 = true ∧ r.outstanding q.master < 4 then
    match if tagged then r.provedOf q.master else none with
    | none => if layout ≤ q.bytes.length then some (r.inUse q.master) else none
    | some n =>
      if layout + 4 ≤ q.bytes.length ∧ (q.bytes.drop layout).take 4 = (r.session n).tag (pduIdent q) (q.bytes.take layout) ∧
          r.repeats (r.session n) q (q.bytes.take layout) ((q.bytes.drop layout).take 4) = none then
        some ((r.setSession n { r.session n with cnt := (r.session n).cnt + 1, macFails := 0 }).inUse q.master)
      else none
  else none

theorem accepts_of_acceptOf {s s1 : State} {q : Pdu} {service layout : Nat} {tagged : Bool}
    (h : acceptOf s q service layout tagged = some s1) : s.Accepts q service layout tagged s1 := by
  unfold acceptOf at h
  simp only at h
  split at h
  · rename_i h0
    refine ⟨h0.1, h0.2, ?_⟩
    split at h
    · rename_i hn
      split at h
      · rename_i hl
        try rw [hn]
        exact ⟨hl, (Option.some.inj h).symm⟩
      · cases h
    · rename_i n hn
      split at h
      · rename_i hl
        try rw [hn]
        exact ⟨hl.1, hl.2.1, hl.2.2, (Option.some.inj h).symm⟩
      · cases h
  · cases h

/-- An accepted request that meets a test has a witness of `State.Accepts`. -/
theorem accepts_of {s : State} {q : Pdu} {service layout : Nat} {tagged : Bool} {P : State → Bool}
    (h : (match acceptOf s q service layout tagged with | some x => P x | none => false) = true) :
    ∃ s1, s.Accepts q service layout tagged s1 ∧ P s1 = true := by
  cases hx : acceptOf s q service layout tagged with
  | none => simp [hx] at h
  | some x =>
    simp only [hx] at h
    exact ⟨x, accepts_of_acceptOf hx, h⟩

end Sys2Proof.Tests
end

