-- ==== Sys2Proof/Tests/Witness2.lean ====
section
/-! SUPPORT. Witnesses of the statements about table commands, editions, maintenance, prefix modes and learning. -/

namespace Sys2Proof.Tests

open Sys2Proof Sys2Proof.Machine

set_option Elab.async false

/-! ### Queueing -/

/-- A frame for room 0 as port 0 sends it. -/
def tabFrame (room : Nat) : Frame := linkFrame 4 1 ⟨granule [(16, 0), (4, room), (8, 1), (4, 9), (96, 0)], []⟩

/-- 512 commands wait in room 0's queue. -/
def stuffed : State :=
  lab.setQueue 0 ((List.range 512).map fun i => ⟨i, 0, ⟨0, []⟩, .reg, 0, false, none, [], [], [], [], [], [], none⟩)

theorem witness_CommandsQueue : lab.dieHeld (dieOfPort 0) = false ∧ lab.outFull 0 = false ∧
    [lab.portActs 0 0, lab.portActs 1 0, lab.queueFull 0, stuffed.portActs 0 0, stuffed.queueFull 0] =
      [true, false, false, true, true] ∧ (tabHdr (tabFrame 0).hdr).room = 0 := by decide +kernel

/-- A command of port `p` that came at cycle `came`. -/
def queued (p : Fin 32) (came : Nat) : MqCmd := ⟨p, 0, ⟨0, []⟩, .port p, came, false, none, [], [], [], [], [], [], none⟩

/-- A command of an earlier cycle, and commands of ports 1 and 5 of the present one; a frame of port 3 comes between these. -/
def jostling : State := lab.setQueue 0 ([queued 31 0, queued 1 1000000] ++ [queued 5 1000000])

theorem witness_CommandsQueue_between : jostling.portActs 0 0 = true ∧ jostling.queueFull 0 = false ∧
    jostling.queue 0 = [queued 31 0, queued 1 1000000] ++ [queued 5 1000000] ∧
    (∀ x ∈ [queued 31 0, queued 1 1000000], x.came ≠ jostling.now ∨ x.started = true ∨ x.src.order ≤ 3) ∧
    (queued 5 1000000).came = jostling.now ∧ (queued 5 1000000).started = false ∧ 3 < (queued 5 1000000).src.order := by
  decide +kernel

/-- 512 commands wait, the last one of port 5 of the present cycle: one of port 3 takes its place. -/
def crowdedOut : State := stuffed.setQueue 0 ((stuffed.queue 0).drop 1 ++ [queued 5 1000000])

theorem witness_CommandsQueue_displaced : stuffed.displaced 0 (.port 0) = none ∧ crowdedOut.queueFull 0 = true ∧
    crowdedOut.displaced 0 (.port 0) = some (queued 5 1000000) ∧ crowdedOut.portActs 0 0 = true := by decide +kernel

/-- Command registers of room 0 BUSY, and an ADVANCE of the catalogue path waiting. -/
def busyRegs : State :=
  (regs [(Obj.tblStatus.key 0, 2 ^ 31)] lab).setQueue 0 [⟨0, 0, ⟨0, []⟩, .catalogue, 0, false, none, [], [], [], [], [], [], none⟩]

theorem witness_CommandsQueue_reg : lab.CanWrite host .tblCmd (0 : Fin 16) ∧ busyRegs.CanWrite host .tblCmd (0 : Fin 16) ∧
    lab.CanWrite host .edAdvance (0 : Fin 16) ∧ busyRegs.CanWrite host .edAdvance (0 : Fin 16) ∧
    stuffed.CanWrite host .tblCmd (0 : Fin 16) ∧ stuffed.CanWrite host .edAdvance (0 : Fin 16) ∧
    (∀ x ∈ jostling.queue 0, x.src.order ≤ 32) ∧ jostling.CanWrite host .tblCmd (0 : Fin 16) :=
  ⟨canWrite_of (by decide +kernel), canWrite_of (by decide +kernel), canWrite_of (by decide +kernel),
    canWrite_of (by decide +kernel), canWrite_of (by decide +kernel), canWrite_of (by decide +kernel), by decide +kernel,
    canWrite_of (by decide +kernel)⟩

theorem witness_CommandsQueue_busy :
    [lab.regBusy 0, busyRegs.regBusy 0, lab.queueFull 0, stuffed.regBusy 0, stuffed.queueFull 0] =
      [false, true, false, false, true] ∧
    (regs [(Obj.edAdvStatus.key 0, 2 ^ 31)] lab).advBusy 0 = true ∧ lab.advBusy 0 = false := by decide +kernel

/-! ### Failing checks -/

/-- A command of the kind `kind` fails a check with status `st`. -/
def fails (kind st : Nat) (c : MqCmd) (s1 : State) : Bool :=
  let d := s1.view.tbl c.hdr.table
  decide (d.kind = kind) &&
    decide (s1.tableStatus c (if d.kind = 0 then trnBad (s1.view.trn c.hdr.table) c.hdr c.body
      else if d.kind = 1 then pfxBad (s1.view.pfx c.hdr.table) c.hdr c.body
      else emBad (s1.view.em c.hdr.table) c.hdr c.body) = some st)

theorem witness_FailedChecksChangeNothing :
    (∃ c s1, (waiting lab (tab 1 opInsert) []).Starts opInsert c s1 ∧ fails 0 0x53 c s1 = true) ∧
    (∃ c s1, (waiting lab (tab 3 opScan) []).Starts opScan c s1 ∧ fails 1 0x53 c s1 = true) ∧
    (∃ c s1, (waiting lab (tab 5 opRead) []).Starts opRead c s1 ∧ fails 2 0x53 c s1 = true) :=
  ⟨starts_of (by decide +kernel), starts_of (by decide +kernel), starts_of (by decide +kernel)⟩

/-! ### Ternary tables -/

/-- An entry word of PRIO 5, FIRST, RETIRING and RSET, at block 0 (R173). -/
def entry (first : Nat) (rset : Bool := false) (retiring : Nat := 0) (ptr : Nat := 0) : Granule :=
  granule [(24, 5), (16, first), (16, retiring), (1, b2n rset), (1, 1), (22, ptr), (3, 0), (45, 0)]

/-- The checks of a new ternary entry pass, its rows chosen by the device. -/
def insertOk (c : MqCmd) (s1 : State) : Bool :=
  let t := c.hdr.table
  let d := s1.view.trn t
  let e := entryWord (c.body.headD 0)
  decide ((s1.view.tbl t).kind = 0) && (s1.tableStatus c (trnBad d c.hdr c.body)).isNone && (s1.table t).filling.isEmpty &&
    (d.direct || (s1.newEdition c.hdr.room e.rset e.first e.retiring).isNone) &&
    (s1.ptrCheck s1.view c.hdr.room e.ptr (e.plen + 1)).isNone

def chosen (c : MqCmd) (s1 : State) : Bool :=
  let d := s1.view.trn c.hdr.table
  let kv := keyOf d.k (c.body.drop 1)
  match s1.choose d kv.1 kv.2 with
  | .ok rs => rs.head?.isSome
  | .error _ => false

/-- VALUE and MASK of one atom: 7 and all positions compared. -/
def key1 : List Granule := keyImage 1 7 (2 ^ 80 - 1)

/-- The first replica descriptor in use at row 3 of bucket 0. -/
def atRow3 : List Granule := [granule [(1, 1), (1, 0), (6, 0), (6, 0), (10, 3), (104, 0)], 0]

theorem witness_TernaryInserts_insert : ∃ c s1, (waiting lab (tab 1 opInsert) (entry 101 :: key1)).Starts opInsert c s1 ∧
    (insertOk c s1 && chosen c s1) = true := starts_of (by decide +kernel)

theorem witness_TernaryInserts_write :
    ∃ c s1, (waiting lab (tab 1 opWrite 0 0 false true) (entry 101 :: (key1 ++ atRow3))).Starts opWrite c s1 ∧
      (insertOk c s1 && c.hdr.placed &&
        (let d := s1.view.trn c.hdr.table
         let kv := keyOf d.k (c.body.drop 1)
         let l := repDescs (c.body.drop (1 + keyGranules d.k))
         (s1.namedStatus d kv.1 kv.2 l []).isNone && (namedReps d l).head?.isSome)) = true := starts_of (by decide +kernel)

/-- Table 1 with one entry of `key1` in row 0 of its bucket; table 2 (two atoms) with one in its own bay rows. -/
def filled (t : Nat) (first : Nat) (retiring : Option Nat := none) : State :=
  let d := lab.view.trn t
  let e := entryWord (entry first retiring.isSome (retiring.getD 0))
  let r : Replica := ⟨0, 0, 0⟩
  let value := if d.k = 1 then 7 else 7 * 2 ^ 80 + 9
  let s := (newOps d [r] e value (2 ^ (80 * d.k) - 1) 0).foldl State.rowOp lab
  s.setTable t { Table.none with placed := [[r]] }

/-- The checks of a command at a handle pass. -/
def handleOk (c : MqCmd) (s1 : State) : Bool :=
  let t := c.hdr.table
  let d := s1.view.trn t
  decide ((s1.view.tbl t).kind = 0) && (s1.tableStatus c (trnBad d c.hdr c.body)).isNone && (s1.table t).filling.isEmpty &&
    (match s1.entryAt t d c.hdr.addr with | some rs => rs.head?.isSome | none => false) && decide (0 < d.ncopy)

def oldOf (c : MqCmd) (s1 : State) : EntryWord :=
  let d := s1.view.trn c.hdr.table
  (s1.repSide d (s1.readCopy d ⟨0, 0, 0⟩) ⟨0, 0, 0⟩).entry

/-- Handles of the entries: mat 0 of bay 0 for table 1, mat 4 for table 2. -/
def h1 : Nat := 0
def h2 : Nat := 4 * 1024

theorem witness_TernaryEntries_delete : ∃ c s1, (waiting (filled 1 101) (tab 1 opDelete h1)).Starts opDelete c s1 ∧
    (handleOk c s1 && s1.deletable c.hdr.room (s1.view.trn 1).direct (oldOf c s1).rset (oldOf c s1).first (oldOf c s1).retiring) =
      true := starts_of (by decide +kernel)

theorem witness_TernaryEntries_move : ∃ c s1, (waiting (filled 1 50) (tab 1 opMove h1 0 false true) atRow3).Starts opMove c s1 ∧
    (handleOk c s1 && !(s1.view.trn 1).direct && !(oldOf c s1).rset &&
      decide (s1.ptrCheck s1.view c.hdr.room (oldOf c s1).ptr ((oldOf c s1).plen + 1) ≠ some 0x64) &&
      (let d := s1.view.trn 1
       let kv := s1.shadowKey d ⟨0, 0, 0⟩
       decide (kv = (7, 2 ^ 80 - 1)) && (s1.namedStatus d kv.1 kv.2 (repDescs c.body) []).isNone)) = true :=
  starts_of (by decide +kernel)

/-- Block 0 has as many references as it can take. -/
def brimful (s : State) : State := s.setAlloc 0 { s.alloc 0 with count := 16777215 }

theorem witness_TernaryEntries_move_refused :
    (∃ c s1, (waiting (brimful (filled 1 50)) (tab 1 opMove h1 0 false true) atRow3).Starts opMove c s1 ∧
      (handleOk c s1 && !(s1.view.trn 1).direct && !(oldOf c s1).rset &&
        decide (s1.ptrCheck s1.view c.hdr.room (oldOf c s1).ptr ((oldOf c s1).plen + 1) = some 0x64) &&
        (let d := s1.view.trn 1
         let kv := s1.shadowKey d ⟨0, 0, 0⟩
         (s1.namedStatus d kv.1 kv.2 (repDescs c.body) []).isNone)) = true) ∧
    (∃ c s1, (waiting (filled 1 50 (some 102)) (tab 1 opMove h1 0 false true) atRow3).Starts opMove c s1 ∧
      (handleOk c s1 && !(s1.view.trn 1).direct && (oldOf c s1).rset) = true) :=
  ⟨starts_of (by decide +kernel), starts_of (by decide +kernel)⟩

theorem witness_TernaryEntries_read : ∃ c s1, (waiting (filled 1 50) (tab 1 opRead h1)).Starts opRead c s1 ∧
    handleOk c s1 = true := starts_of (by decide +kernel)

/-- SCAN BY = ALL, from START, MAXREC = 1 (R176). -/
def scanFrom (start : Nat) : Granule := granule [(2, 0), (32, start), (12, 1), (82, 0)]
def scanAll : Granule := scanFrom 0

/-- The scan finds a head from its START, and may answer one record. -/
def scanMore (c : MqCmd) (s1 : State) : Bool :=
  (s1.headFrom c.hdr.table (s1.view.trn c.hdr.table) (scanWord (c.body.headD 0)).start).isSome &&
    decide (0 < walkMax (c.src = .reg) (scanWord (c.body.headD 0)).maxrec (trnPer (s1.view.trn c.hdr.table)))

theorem witness_TernaryEntries_scan :
    (∃ c s1, (waiting (filled 1 50) (tab 1 opScan) [scanAll]).Starts opScan c s1 ∧
      (handleOk c s1 && scanMore c s1) = true) ∧
    (∃ c s1, (waiting (filled 1 50) (tab 1 opScan) [scanFrom 1]).Starts opScan c s1 ∧
      (handleOk c s1 && !scanMore c s1) = true) := ⟨starts_of (by decide +kernel), starts_of (by decide +kernel)⟩

/-- The checks of a rewrite at the handle: the same key or not, the pointer, and in an edition table what may change. -/
def rewriteOk (same : Bool) (c : MqCmd) (s1 : State) : Bool :=
  let d := s1.view.trn c.hdr.table
  let old := oldOf c s1
  let e := entryWord (c.body.headD 0)
  let kv := keyOf d.k (c.body.drop 1)
  let held := s1.shadowKey d ⟨0, 0, 0⟩
  handleOk c s1 && !c.hdr.placed && decide (kv = held) == same &&
    (s1.pointerStatus c.hdr.room (some (old.ptr, old.plen)) e.ptr e.plen).isNone &&
    (if d.direct then same || (rewriteStatus d [⟨0, 0, 0⟩] kv.1 kv.2).isNone
     else decide (e.prio = old.prio ∧ e.first = old.first ∧ e.ptr = old.ptr ∧ e.plen = old.plen) &&
      (s1.rewriteEdition c.hdr.room old.rset old.retiring e.rset e.retiring).isNone)

theorem witness_TernaryEntries_retire :
    ∃ c s1, (waiting (filled 1 50) (tab 1 opWrite h1 0 true) (entry 50 true 102 :: key1)).Starts opWrite c s1 ∧
      rewriteOk true c s1 = true := starts_of (by decide +kernel)

/-- Keys of two atoms in table 2: the one held, and another. -/
def key2 (v : Nat) : List Granule := keyImage 2 (7 * 2 ^ 80 + v) (2 ^ 160 - 1)

theorem witness_TernaryEntries_direct :
    (∃ c s1, (waiting (filled 2 0) (tab 2 opWrite h2 0 true) (entry 0 false 0 1 :: key2 9)).Starts opWrite c s1 ∧
      (rewriteOk true c s1 && (s1.view.trn 2).direct) = true) ∧
    (∃ c s1, (waiting (filled 2 0) (tab 2 opWrite h2 0 true) (entry 0 :: key2 8)).Starts opWrite c s1 ∧
      (rewriteOk false c s1 && (s1.view.trn 2).direct && decide ((s1.view.trn 2).k ≠ 1)) = true) ∧
    (∃ c s1, (waiting (filled 2 0) (tab 2 opMove h2 0 false true) atRow3).Starts opMove c s1 ∧
      (handleOk c s1 && (s1.view.trn 2).direct &&
        (let d := s1.view.trn 2
         let kv := s1.shadowKey d ⟨0, 0, 0⟩
         (s1.namedStatus d kv.1 kv.2 (repDescs c.body) [⟨0, 0, 0⟩]).isNone)) = true) :=
  ⟨starts_of (by decide +kernel), starts_of (by decide +kernel), starts_of (by decide +kernel)⟩

end Sys2Proof.Tests
end

