-- ==== Sys2Proof/Tests/Witness3.lean ====
section
/-! SUPPORT. Witnesses of the statements about prefix and exact-match commands, pools, editions, maintenance, modes, banks,
stamps and learning. -/

namespace Sys2Proof.Tests

open Sys2Proof Sys2Proof.Machine

set_option Elab.async false

/-! ### Prefix tables -/

/-- An entry image of 10.0.0.0 and LEN, at block `ptr` (R116). -/
def pent (len first : Nat) (rset : Bool := false) (retiring : Nat := 0) (ptr : Nat := 0) : List Granule :=
  [granule [(8, 10), (120, 0)],
   granule [(8, len), (1, 1), (1, b2n rset), (16, first), (16, retiring), (22, ptr), (3, 0), (61, 0)]]

/-- The checks of a command on a prefix table pass. -/
def pfxOk (c : MqCmd) (s1 : State) : Bool :=
  let d := s1.view.pfx c.hdr.table
  decide ((s1.view.tbl c.hdr.table).kind = 1) && (s1.tableStatus c (pfxBad d c.hdr c.body)).isNone &&
    decide ((pfxEntryOf c.body).len ≤ d.w)

/-- A new prefix entry finds its place. -/
def pfxNew (c : MqCmd) (s1 : State) : Bool :=
  let t := c.hdr.table
  let d := s1.view.pfx t
  let s2 := s1.pfxSettle t
  let es := (s2.table t).entries
  let e := { pfxEntryOf c.body with record := freeRec es }
  pfxOk c s1 && (if d.direct then (es.find? e.same).isNone
    else (s2.pfxNewEdition c.hdr.room e).isNone && es.all (fun x => !(e.same x && e.overlaps x)) &&
      !s2.pfxPending t e (es ++ [e]) es) &&
    (s2.ptrCheck s2.view c.hdr.room e.ptr (e.plen + 1)).isNone && !s2.pfxFull d e && (s2.cellsFor t e).isSome

/-- A prefix table with one entry, as its INSERT left it. -/
def prefixed (t : Nat) (g : List Granule) : State :=
  let s := run .insert (waiting lab (tab t opInsert) g)
  (lab.setTable t (s.table t)).setAlloc 0 (s.alloc 0)

theorem witness_PrefixCommands_insert :
    (∃ c s1, (waiting lab (tab 3 opInsert) (pent 8 101)).Starts opInsert c s1 ∧ pfxNew c s1 = true) ∧
    (∃ c s1, (waiting lab (tab 4 opInsert) (pent 32 0)).Starts opInsert c s1 ∧ pfxNew c s1 = true) ∧
    (∃ c s1, (waiting (prefixed 4 (pent 8 0)) (tab 4 opInsert) (pent 8 0 false 0 1)).Starts opInsert c s1 ∧
      (pfxOk c s1 && (match ((s1.pfxSettle 4).table 4).entries.find? (pfxEntryOf c.body).same with
        | some old => ((s1.pfxSettle 4).pointerStatus 0 (some (old.ptr, old.plen)) 1 0).isNone
        | none => false)) = true) :=
  ⟨starts_of (by decide +kernel), starts_of (by decide +kernel), starts_of (by decide +kernel)⟩

/-- The entry that AT names. -/
def atNames (c : MqCmd) (s1 : State) : Bool :=
  !((s1.pfxSettle c.hdr.table).pfxNamed c.hdr.table c.hdr.room (pfxEntryOf c.body) 0 (BitVec.ofNat 16 c.hdr.addr)).isEmpty

/-- A WRITE in an edition table may change the entry so. -/
def pfxRewritten (c : MqCmd) (s1 : State) : Bool :=
  let t := c.hdr.table
  let s2 := s1.pfxSettle t
  let es := (s2.table t).entries
  match s2.pfxNamed t c.hdr.room (pfxEntryOf c.body) 0 (BitVec.ofNat 16 c.hdr.addr) with
  | [] => false
  | old :: _ =>
    let e := { pfxEntryOf c.body with record := old.record, recs := old.recs, valid := old.valid }
    (s2.pfxRewrite c.hdr.room old e).isNone && es.all (fun x => x.record = e.record || !(e.same x && e.overlaps x)) &&
      (s2.pointerStatus c.hdr.room (some (old.ptr, old.plen)) e.ptr e.plen).isNone &&
      !s2.pfxPending t e (putEntry e es) (if old.rset then putEntry { old with rset := false } es else es)

/-- An entry inserted for edition 101, with the room's current edition and its floor moved on to 110 since. -/
def settledEntry : State :=
  let s := prefixed 3 (pent 8 101)
  { regs [(Obj.edCurrent.key 0, 111)] s with search := { s.search with flight := [] } }

theorem witness_PrefixCommands_write :
    (∃ c s1, (waiting (prefixed 4 (pent 8 0)) (tab 4 opWrite) (pent 8 0 false 0 1)).Starts opWrite c s1 ∧
      (pfxOk c s1 && atNames c s1 && ((s1.pfxSettle 4).pointerStatus 0 (some (0, 0)) 1 0).isNone) = true) ∧
    (∃ c s1, (waiting settledEntry (tab 3 opWrite 112) (pent 8 101 true 113)).Starts opWrite c s1 ∧
      (pfxOk c s1 && pfxRewritten c s1) = true) ∧
    (∃ c s1, (waiting (prefixed 3 (pent 8 101)) (tab 3 opRead 101) (pent 8 101)).Starts opRead c s1 ∧
      (pfxOk c s1 && atNames c s1) = true) :=
  ⟨starts_of (by decide +kernel), starts_of (by decide +kernel), starts_of (by decide +kernel)⟩

/-- A DELETE names entries and may take them. -/
def pfxGone (c : MqCmd) (s1 : State) : Bool :=
  let t := c.hdr.table
  let d := s1.view.pfx t
  let s2 := s1.pfxSettle t
  let w := pfxEntryOf c.body
  let es := (s2.table t).entries
  let gone := s2.pfxNamed t c.hdr.room w (bits c.hdr.addr 31 30) (BitVec.ofNat 16 c.hdr.addr)
  let after := es.filter fun x => !gone.contains x
  pfxOk c s1 && !gone.isEmpty && gone.all (fun x => s2.deletable c.hdr.room d.direct x.rset x.first x.retiring) &&
    (d.direct || gone.all (fun x => !s2.later c.hdr.room x.first) || !s2.pfxPending t w after after)

/-- An entry retired at edition 50, dead at the floor 99. -/
def deadEntry : State := lab.setTable 3 { Table.none with entries := [pfxEntryOf (pent 8 40 true 50)] }

/-- SCAN BY = ALL, from START (R176). -/
def scanRec (start : Nat) : Granule := granule [(2, 0), (32, start), (12, 1), (82, 0)]

/-- The scan finds an entry from its START. -/
def recMore (c : MqCmd) (s1 : State) : Bool :=
  ((s1.pfxSettle 3).recFrom 3 (s1.view.pfx 3) (scanWord (c.body.headD 0)).start).isSome

theorem witness_PrefixCommands_delete :
    (∃ c s1, (waiting (prefixed 4 (pent 8 0)) (tab 4 opDelete) (pent 8 0)).Starts opDelete c s1 ∧ pfxGone c s1 = true) ∧
    (∃ c s1, (waiting (prefixed 3 (pent 8 101)) (tab 3 opDelete 101) (pent 8 101)).Starts opDelete c s1 ∧
      pfxGone c s1 = true) ∧
    (∃ c s1, (waiting deadEntry (tab 3 opDelete (2 ^ 30)) (pent 8 0)).Starts opDelete c s1 ∧ pfxGone c s1 = true) ∧
    (∃ c s1, (waiting (prefixed 3 (pent 8 101)) (tab 3 opScan) [scanRec 0]).Starts opScan c s1 ∧
      (pfxOk c s1 && recMore c s1) = true) ∧
    (∃ c s1, (waiting lab (tab 3 opScan) [scanRec 0]).Starts opScan c s1 ∧ (pfxOk c s1 && !recMore c s1) = true) :=
  ⟨starts_of (by decide +kernel), starts_of (by decide +kernel), starts_of (by decide +kernel), starts_of (by decide +kernel),
    starts_of (by decide +kernel)⟩

/-! ### Exact-match tables -/

/-- A head slot with DATA and a key of 32 bits (R143). -/
def slot (data key : Nat) (static : Bool := false) : Granule :=
  granule [(1, 1), (1, b2n static), (1, 0), (5, 0), (24, data), (32, key), (64, 0)]

def em (t : Nat) : EmDesc := lab.view.em t

/-- Table 5 or 6 with the key 77 at the position where an INSERT puts it, and that position. -/
def posOf (t : Nat) : Nat := (lab.emPlace (em t) 77).getD 0
def keyed (t : Nat) (static : Bool := false) : State :=
  { (lab.emNew (em t) 77 (posOf t) 0 static false).1 with arb := lab.arb, health := lab.health }

/-- The checks of a command on an exact-match table pass. -/
def emOk (c : MqCmd) (s1 : State) : Bool :=
  let d := s1.view.em c.hdr.table
  decide ((s1.view.tbl c.hdr.table).kind = 2) && (s1.tableStatus c (emBad d c.hdr c.body)).isNone &&
    !s1.copyFilling c.hdr.table

def emAbsent (c : MqCmd) (s1 : State) : Bool :=
  let d := s1.view.em c.hdr.table
  let k := d.bodyKey c.body
  (s1.emFind d (d.owner 0 k) k).isNone && (s1.dataStatus d c.hdr.room none (slotData (c.body.headD 0))).isNone

def emAt (c : MqCmd) (s1 : State) (i : Nat) : Bool :=
  let d := s1.view.em c.hdr.table
  let k := d.bodyKey c.body
  decide (s1.emFind d (d.owner 0 k) k = some i) &&
    (s1.dataStatus d c.hdr.room (some (slotData (s1.emSlot i))) (slotData (c.body.headD 0))).isNone

theorem witness_ExactCommands_new :
    (∃ c s1, (waiting lab (tab 5 opInsert) [slot 9 77]).Starts opInsert c s1 ∧
      (emOk c s1 && emAbsent c s1 && (s1.emPlace (s1.view.em 5) 77).isSome) = true) ∧
    (∃ c s1, (waiting lab (tab 6 opInsert) [slot 4 77]).Starts opInsert c s1 ∧
      (emOk c s1 && emAbsent c s1 && (s1.emPlace (s1.view.em 6) 77).isSome) = true) ∧
    (∃ c s1, (waiting lab (tab 5 opWrite) [slot 9 77]).Starts opWrite c s1 ∧
      (emOk c s1 && emAbsent c s1 && (s1.emPlace (s1.view.em 5) 77).isSome && !c.hdr.byaddr) = true) ∧
    (∃ c s1, (waiting lab (tab 5 opWrite (posOf 5) 0 true) [slot 9 77]).Starts opWrite c s1 ∧
      (emOk c s1 && emAbsent c s1 && c.hdr.byaddr &&
        ((s1.view.em 5).candidates ((s1.view.em 5).owner 0 77) 77).contains c.hdr.addr &&
        !slotValid (s1.emSlot c.hdr.addr)) = true) :=
  ⟨starts_of (by decide +kernel), starts_of (by decide +kernel), starts_of (by decide +kernel), starts_of (by decide +kernel)⟩

/-- A SCAN of every entry from START, MAXREC 1 (R166). -/
def emScanFrom (start : Nat) : Granule := granule [(16, 0), (2, 0), (3, 4), (23, start), (12, 1), (72, 0)]
def emScanAll : Granule := emScanFrom 0

theorem witness_ExactCommands_present :
    (∃ c s1, (waiting (keyed 5) (tab 5 opWrite) [slot 8 77]).Starts opWrite c s1 ∧ (emOk c s1 && emAt c s1 (posOf 5)) = true) ∧
    (∃ c s1, (waiting (keyed 6) (tab 6 opWrite (posOf 6) 0 true) [slot 4 77]).Starts opWrite c s1 ∧
      (emOk c s1 && emAt c s1 (posOf 6) && decide (c.hdr.addr = posOf 6)) = true) ∧
    (∃ c s1, (waiting (keyed 5) (tab 5 opDelete) [slot 0 77]).Starts opDelete c s1 ∧
      (emOk c s1 && decide (s1.emNamed c (s1.view.em 5) = .ok (posOf 5)) &&
        decide (c.hdr.aux ≤ (s1.soundStamp (posOf 5)).guardAge (stampLast ((s1.soundStamp (posOf 5)).stamp (posOf 5))))) = true) ∧
    (∃ c s1, (waiting (keyed 5) (tab 5 opDelete (posOf 5) 1 true)).Starts opDelete c s1 ∧
      (emOk c s1 && decide (s1.emNamed c (s1.view.em 5) = .ok (posOf 5)) &&
        decide ((s1.soundStamp (posOf 5)).guardAge (stampLast ((s1.soundStamp (posOf 5)).stamp (posOf 5))) < c.hdr.aux)) = true) ∧
    (∃ c s1, (waiting (keyed 5) (tab 5 opRead) [slot 0 77]).Starts opRead c s1 ∧
      (emOk c s1 && decide (s1.emNamed c (s1.view.em 5) = .ok (posOf 5))) = true) ∧
    (∃ c s1, (waiting (keyed 5) (tab 5 opScan) [emScanAll]).Starts opScan c s1 ∧
      (emOk c s1 && ((s1.view.em 5).from_ (emScan (c.body.headD 0)).start).isSome) = true) ∧
    (∃ c s1, (waiting lab (tab 5 opScan) [emScanFrom (2 ^ 23 - 1)]).Starts opScan c s1 ∧
      (emOk c s1 && ((s1.view.em 5).from_ (emScan (c.body.headD 0)).start).isNone) = true) :=
  ⟨starts_of (by decide +kernel), starts_of (by decide +kernel), starts_of (by decide +kernel), starts_of (by decide +kernel),
    starts_of (by decide +kernel), starts_of (by decide +kernel), starts_of (by decide +kernel)⟩

/-- Another free candidate of the key. -/
def elsewhere : Nat := (((em 5).candidates ((em 5).owner 0 77) 77).find? fun i => i ≠ posOf 5).getD 0

theorem witness_ExactCommands_move :
    ∃ c s1, (waiting (keyed 5) (tab 5 opMove elsewhere) [slot 0 77]).Starts opMove c s1 ∧
      (emOk c s1 && emAt c s1 (posOf 5) && decide (c.hdr.addr ≠ posOf 5) &&
        ((s1.view.em 5).candidates ((s1.view.em 5).owner 0 77) 77).contains c.hdr.addr &&
        !slotValid (s1.emSlot c.hdr.addr)) = true := starts_of (by decide +kernel)

/-! ### Pools -/

/-- A pool word (R211). -/
def poolW (cls urgency : Nat) (at_ : Bool) (index owner : Nat) : List Granule :=
  [granule [(2, cls), (2, urgency), (1, b2n at_), (1, 0), (22, index), (16, owner), (84, 0)]]

theorem witness_PoolCommands :
    (∃ c s1, (waiting lab (tab 0 opAlloc) (poolW 1 0 false 0 0)).Starts opAlloc c s1 ∧
      ((s1.poolStatusOf c).isNone && (s1.allocStatus 0 (poolWord (c.body.headD 0))).isNone) = true) ∧
    (∃ c s1, (waiting lab (tab 0 opAlloc) (poolW 0 0 true 0 0)).Starts opAlloc c s1 ∧
      ((s1.poolStatusOf c).isNone && (s1.allocStatus 0 (poolWord (c.body.headD 0))).isSome && decide (c.room < 16)) = true) ∧
    (∃ c s1, (waiting lab (tab 0 opFree) (poolW 0 0 false 1 0)).Starts opFree c s1 ∧
      ((s1.poolStatusOf c).isNone && (s1.alloc 1).allocated && (s1.alloc 1).hold && !(s1.view.pool 0).owner &&
        (s1.view.pool 0).holds 1 (s1.alloc 1).blocks && !s1.frozen 1) = true) ∧
    (∃ c s1, (waiting (lab.setAlloc 1024 ⟨true, true, 0, 0, 3⟩) (tab 1 opFree) (poolW 0 0 false 1024 3)).Starts opFree c s1 ∧
      ((s1.poolStatusOf c).isNone && (s1.alloc 1024).allocated && (s1.view.pool 1).owner &&
        decide ((s1.alloc 1024).owner = 3 ∧ (s1.alloc 1024).count = 0) &&
        (s1.view.pool 1).holds 1024 (s1.alloc 1024).blocks && !s1.frozen 1024) = true) ∧
    (let s := { lab with mem := { lab.mem with releasing := [⟨8, 1, 0, []⟩] } }
     (s.mem.releasing.find? fun x => decide (x.block = (8 : BitVec 22).toNat) && x.waits.isEmpty) = some ⟨8, 1, 0, []⟩) :=
  ⟨starts_of (by decide +kernel), starts_of (by decide +kernel), starts_of (by decide +kernel), starts_of (by decide +kernel),
    by decide +kernel⟩

/-- A release that waits for an instruction of tag 9 in flight. -/
def releasing : State :=
  let s := withFlight lab (flight lab 1000172)
  { s with mem := { s.mem with releasing := [⟨8, 1, 0, [0]⟩] } }

theorem witness_PoolCommands_unsent :
    (releasing.mem.releasing.find? fun x => decide (x.block = (8 : BitVec 22).toNat)) = some ⟨8, 1, 0, [0]⟩ ∧
    releasing.unsent 0 = true := by decide +kernel

/-! ### Editions -/

/-- A prefix table with a requested switch, and a port that is told of editions. -/
def advancing : State := (regs [(Obj.edNotify.key 0, 1)] lab).setTable 4 { Table.none with switch := .requested true }

theorem witness_AdvanceCommand :
    (∃ c s1, (waiting advancing (tab 0 opAdvance 0 100)).Starts opAdvance c s1 ∧
      (c.hdr.plain && c.body.isEmpty && decide (c.room = c.hdr.room ∧ c.hdr.aux = (s1.current 0).toNat) &&
        decide ((s1.current 0 + 1 - BitVec.ofNat 16 (s1.reg .edMark 0)).toNat < 12288) &&
        s1.view.tablesOf 1 == [3, 4]) = true) ∧
    (∃ c s1, (waiting lab (tab 0 opAdvance 0 99)).Starts opAdvance c s1 ∧ (s1.advanceStatus c).isSome = true) ∧
    nbit (advancing.reg .edNotify 0) 0 = true ∧ (advancing.port 0).keeps = true :=
  ⟨starts_of (by decide +kernel), starts_of (by decide +kernel), by decide +kernel, by decide +kernel⟩

theorem witness_FloorsAndClamps :
    [lab.floor 0, lab.floor 1, sget (fun _ => (0 : BitVec 16)) lab.ed.notified 0] = [99, 0, 0] ∧
    nbit (advancing.reg .edNotify 0) 0 = true ∧ (advancing.port 0).keeps = true ∧
    (lab.view.tablesOf 1).map (fun t => (lab.view.pfx t).direct) = [false, true] := by decide +kernel

/-- Table 1 has a head in row 0 of bay 0; table 3 an entry with a record on die 0, held or not. -/
def sweeping (pos : Nat) (held : Bool) : State :=
  let s := { lab.setTable 1 { Table.none with placed := [[⟨0, 0, 0⟩]] } with ed := { lab.ed with clampPos := [(0, pos)] } }
  let s := s.setTable 3 { Table.none with entries := [{ pfxEntryOf (pent 8 101) with recs := [(0, 0)] }] }
  s.setRegion 0 { s.region 0 with held := held }

theorem witness_FloorsAndClamps_pass :
    ((sweeping 0 false).view.tablesOf 0).map (sweeping 0 false).headsLeft = [true, false] ∧
    ((sweeping 1 true).view.tablesOf 1).map (sweeping 1 true).recsHeld = [true, false] ∧
    ((sweeping 1 false).view.tablesOf 0).map (sweeping 1 false).headsLeft = [false, false] ∧
    ((sweeping 1 false).view.tablesOf 1).map (sweeping 1 false).recsHeld = [false, false] := by decide +kernel

end Sys2Proof.Tests
end

