-- ==== Sys2Proof/Tests/Witness5.lean ====
section
/-! SUPPORT. Witnesses of the statements about searches, lookups, tallies, results and memory requests. -/

namespace Sys2Proof.Tests

open Sys2Proof Sys2Proof.Machine

set_option Elab.async false

/-! ### Intake -/

/-- A SEARCH frame of tag 7 with a key of 4 bytes, asking for a program with CTX (R35). -/
def searchFrame (prog ctx : Nat) : Frame :=
  linkFrame 1 0 ⟨granule [(16, 0), (4, 0), (8, prog), (8, 7), (16, 0), (8, 4), (1, 0), (3, 0), (32, ctx), (32, 0)],
    [granule [(32, 77), (96, 0)]]⟩

/-- The instruction of a frame as intake finds it: its state, its cycle, the status that intake gives it, and whether its
window clashes. -/
def intakeOf (s : State) (f : Frame) : Option Nat × Bool :=
  let h := searchHdr f.hdr
  let r := s.fromLink 0 f 7
  let t := intakeCycle 0 r.1
  let s0 := r.2.at t
  let v := s0.viewAt t
  let last := sget (fun _ => 0) s.search.lastAt 0
  let budget := match v.progSet h.prog with | some n => (v.set n).budget | none => 0
  (s0.intakeStatus v 0 t h (frameLen f) (decide (last ≠ 0 ∧ r.1 + 1 < last + 2)),
    s0.windowClash 0 (r.1 + latency (v.prog h.prog).stages + budget))

/-- The set of program 0's table: owned by device `owner`, members 0 and 1. -/
def setted (owner : Nat) : State :=
  force [(Obj.casSet.key 0, pack [(4, 0), (1, 1), (2, 0), (8, 1), (1, 0), (1, 0), (12, owner), (14, 0), (8, 0), (77, 0)]),
    (Obj.casSetCl.key 0, pack [(8, 0), (4, 0), (16, 3), (4, 0)])] searchable

def partNow (s : State) : Part := (s.view.set 0).partOf (s.view.device s.dev.straps) ((s.view.set 0).ownerOf 0)

/-- The set barred by a fence and by CAS_SELF, and a program of a set that is not enabled. -/
def fencedSet : State := { setted 0 with cas := { (setted 0).cas with quarantined := true } }
def quietSet : State := force [(Obj.casSelf.key, 2 ^ 14)] (setted 0)

/-- Room 0 is shed; an older instruction's window stands where the frame's would. -/
def shedSet (owner : Nat) : State := { setted owner with guar := { lab.guar with shed := [0] } }
def clashing (s : State) (due : Nat) : State := withFlight s (flight s due)

theorem witness_SearchIntake :
    intakeOf searchable (searchFrame 0 0) = (none, false) ∧ searchable.view.progSet 0 = none ∧
    intakeOf (clashing searchable 1000105) (searchFrame 0 0) = (none, true) ∧
    searchable.dieHeld (dieOfPort 0) = false ∧
    (searchable.setRegion 0 { Region.reset with held := true }).dieHeld (dieOfPort 0) = true ∧
    [partNow (setted 0), partNow (setted 1), partNow (setted 5)] = [.owner, .member, .nobody] ∧
    (setted 0).view.progSet 0 = some 0 ∧ (intakeOf (setted 0) (searchFrame 0 0)).1 = none ∧
    (intakeOf (setted 1) (searchFrame 0 0)).1 = none ∧ (intakeOf (setted 5) (searchFrame 0 0)).1 = none ∧
    [(intakeOf (shedSet 1) (searchFrame 0 0)).1, (intakeOf (shedSet 5) (searchFrame 0 0)).1] = [some 8, some 8] ∧
    ((setted 1).view.prog 0).enable = true := by decide +kernel

theorem witness_SearchIntake_barred :
    (fencedSet.cas.quarantined = true ∧ nbit (((quietSet.fromLink 0 (searchFrame 0 0) 7).2.viewAt 1000000).obj .casSelf) 14 = true) ∧
    ((setted 0).cas.quarantined = false ∧ nbit ((setted 0).view.obj .casSelf) 14 = false) ∧
    ((searchable.at 1000007).viewAt 1000007).progSet 3 = none ∧
    (intakeOf searchable (searchFrame 3 0)).1 = some 4 ∧
    [searchable.windowClash 0 1000105, (clashing searchable 1000105).windowClash 0 1000105] = [false, true] := by
  decide +kernel

/-! ### Stages and lookups -/

theorem witness_StagesRun :
    (withFlight searchable (flight searchable 1000112)).running 0 9 = some (flight searchable 1000112) ∧
    (let x := { flight searchable 1000112 with ended := true }
     (withFlight searchable x).running 0 9 = some x) ∧
    (let x := { flight searchable 1000112 with ahead := 1 }
     (withFlight searchable x).running 0 9 = some x) ∧ searchable.running 0 9 = none := by decide +kernel

/-- Table 1 served in bay 0, table 3 in slice 0, table 5 in slice 0, each by a program of its own state. -/
def trnServed (miss : Nat := 0) (endOnErr : Bool := false) : State :=
  force (program 0 1 80 miss endOnErr ++ laned 0) lab

def pfxServed : State := force (program 1 3 ++ laned 64) lab
def emServed : State := force (program 2 5 ++ laned 68) lab

/-- A ternary entry of table 1 that the key of `flight` hits, at a block. -/
def trnHolding (ptr : Nat) : State :=
  let e : EntryWord := ⟨5, 50, 0, false, true, ptr, 0⟩
  (newOps (lab.view.trn 1) [⟨0, 0, 0⟩] e 0 0 0).foldl State.rowOp (trnServed)

def lkpOf (s : State) : Lkp := s.view.lkp 0 0
def keyIn (s : State) : Nat := (flight s 0).lookupKey 0

/-- The winner of a ternary lookup. -/
def bestIn (s : State) : Option Best :=
  let e := s.view.trn 1
  s.trnBest e (s.view.device s.dev.straps) ((e.bays 0).filterMap s.view.phys) (keyIn s) 100

theorem witness_LookupOutcomes_ternary :
    ((searchable.view.lkp 0 1).valid = false ∧ (lkpOf (trnServed)).valid = true ∧ (lkpOf (trnServed)).miss = 0 ∧
      (lkpOf (trnServed 1)).miss = 1 ∧ (lkpOf (trnServed 2)).miss = 2) ∧
    (flight (trnServed) 0).condOk 0 = true ∧
    (trnServed).view.setOfTable 1 = none ∧
    trnCopy searchable.view.rotaFn (searchable.view.trn 1) [] 0 0 0 = none ∧
    trnCopy (trnServed).view.rotaFn ((trnServed).view.trn 1) [] 0 0 0 = some 0 ∧
    (trnServed).bayFault (trnServed).view 0 = none ∧
    (trnServed).sideUncorr ((trnServed).view.trn 1) [0] (keyIn (trnServed)) = false ∧
    bestIn (trnServed) = none ∧ (bestIn (trnHolding 1)).map (fun b => (b.prio, b.call, b.n, b.ptr)) = some (5, 0, 1, 1) ∧
    ((trnHolding 1).dieHeld (dieOfBlock 1) = false ∧ (trnHolding 1).adsBad 1 = false) ∧
    ({ trnHolding 1 with health := { lab.health with poison := [⟨.ads, 0, 0⟩] } }).adsBad 1 = true ∧
    ((trnServed 0 true).view.prog 0).endOnErr = true := by decide +kernel

/-- Condition: lookup 0 runs only when lookup 0 hit, which it has not. -/
def conditioned : State :=
  force [(Obj.progLkp.key 0, pack [(1, 1), (2, 0), (8, 1), (3, 0), (2, 1), (1, 0), (1, 1), (4, 0), (1, 1), (41, 0)])] (trnServed)

/-- A held die, an uncorrectable word. -/
def dieLost (s : State) : State := s.setRegion 0 { Region.reset with held := true }
def marked (s : State) (w : MemWord) : State := { s with health := { s.health with poison := [w] } }

/-- Table 3 with the entry 0.0.0.77/32 first live in edition 50, inserted while both images were kept. -/
def pfxTable (hash : Bool) : Table :=
  let s := (regs [(Obj.edCurrent.key 0, 40)] lab).setTable 3 { Table.none with trieReady := true, buildingHash := true }
  let g := [granule [(32, 77), (96, 0)], granule [(8, 32), (1, 1), (1, 0), (16, 50), (16, 0), (22, 1), (64, 0)]]
  { (run .insert (waiting s (tab 3 opInsert) g)).table 3 with hash := hash, hashReady := true, buildingHash := false }

/-- The tables served by the lane, with and without an entry. -/
def pfxHolding (hash : Bool) : State :=
  (force (program 1 3 ++ laned 64 ++ laned 65 ++ laned 66 ++ laned 67) lab).setTable 3 (pfxTable hash)

/-- What a prefix lookup of `flight` finds: the length of the record's entry. -/
def foundLen : PfxFound → Option Nat
  | .entry e => some e.len
  | _ => none

def trieFound (s : State) : PfxFound := s.trieFind 3 (s.view.pfx 3) 0 77 s.now 100
def hashFound (s : State) : PfxFound := s.hashFind 3 (s.view.pfx 3) (key128 32 77) s.now 100

theorem witness_LookupOutcomes_prefix :
    (lkpOf pfxServed).kind = 1 ∧ keyIn pfxServed = 77 ∧ pfxServed.view.setOfTable 3 = none ∧
    (pfxServed.table 3).hashMode 100 = false ∧ pfxCopy pfxServed.view.rotaFn (pfxServed.view.pfx 3) [] 0 0 0 = some 0 ∧
    pfxCopy searchable.view.rotaFn (searchable.view.pfx 3) [] 0 0 0 = none ∧
    (pfxServed.view.pfx 3).owner 0 77 = 0 ∧ pfxServed.dieHeld 0 = false ∧ (dieLost pfxServed).dieHeld 0 = true ∧
    trieFound pfxServed = .miss ∧ foundLen (trieFound (pfxHolding false)) = some 32 ∧
    trieFound (marked (pfxHolding false) ⟨.pfxRecord, 0, pfxAddr 3 11 0⟩) = .bad ∧
    ((pfxHolding true).table 3).hashMode 100 = true ∧ hashServed (pfxHolding true).view.rotaFn 0 0 0 = true ∧
    (((pfxHolding true).view.pfx 3).hashSlices).all (fun sl => !(pfxHolding true).dieHeld sl) = true ∧
    hashServed pfxServed.view.rotaFn 0 0 0 = false ∧
    hashFound pfxServed = .miss ∧ foundLen (hashFound (pfxHolding true)) = some 32 ∧
    hashFound (marked (pfxHolding true) ⟨.pfxRecord, 3, pfxAddr 3 11 0⟩) = .bad ∧
    ((pfxHolding true).dieHeld (dieOfBlock 1) = false ∧ (pfxHolding true).adsBad 1 = false ∧
      (marked (pfxHolding true) ⟨.ads, 0, 0⟩).adsBad 1 = true) := by decide +kernel

def emHolding (inline : Bool) : State :=
  let s := force [(Obj.tblHdr.key 5, emHdr 0 32 inline 2)] emServed
  (s.emNew (s.view.em 5) 77 ((s.emPlace (s.view.em 5) 77).getD 0) 4 false false).1

theorem witness_LookupOutcomes_others :
    (flight conditioned 0).condOk 0 = false ∧ (lkpOf emServed).kind = 2 ∧
    emCopy emServed.view.rotaFn (emServed.view.em 5) [] 0 0 0 = some 0 ∧
    emCopy searchable.view.rotaFn (searchable.view.em 5) [] 0 0 0 = none ∧
    keyIn emServed = 77 ∧ emServed.emFind (emServed.view.em 5) ((emServed.view.em 5).owner 0 77) 77 = none ∧
    (emServed.view.em 5).owner 0 77 = 0 ∧ emServed.emBad (emServed.view.em 5) 0 77 = false ∧
    (marked emServed ⟨.emSlot, 0, ((emServed.emPlace (emServed.view.em 5) 77).getD 0)⟩).emBad (emServed.view.em 5) 0 77 = true ∧
    ((emHolding true).emFind ((emHolding true).view.em 5) 0 77).isSome = true ∧
    ((emHolding false).view.em 5).inline = false ∧ ((emHolding true).view.em 5).inline = true := by decide +kernel

/-- The program's table is sharded; its DEFAULT's block can be read, or not. -/
theorem witness_LookupOutcomes_sharded :
    ((setted 0).view.setOfTable 1).isSome = true ∧ ((setted 0).view.lkp 0 0).valid = true ∧
    (lkpOf (trnServed 1)).defptr = 0 ∧ (trnServed 1).dieHeld (dieOfBlock 0) = false ∧ (trnServed 1).adsBad 0 = false ∧
    (marked (trnServed 1) ⟨.ads, 0, 0⟩).adsBad 0 = true := by decide +kernel

/-- Two entries: one settled, one first live in edition 60; a lookup at edition 61 of a word written from 55 on. -/
def twoEntries : List PfxEntry := [⟨0, [(0, 1)], 0, 8, true, false, 50, 0, 1, 0⟩, ⟨1, [(0, 2)], 0, 16, true, false, 60, 0, 1, 0⟩]

theorem witness_WinnersOfLookups : edLe 55 61 = true ∧ (changes twoEntries 55 77).length ≤ 1 ∧
    (∀ x ∈ twoEntries, ∀ n, n ≤ ((61 : Edition) - 55).toNat → (55 : Edition) + BitVec.ofNat 16 n ≠ x.first + 16384 ∧
      (55 : Edition) + BitVec.ofNat 16 n ≠ x.retiring + 16384) := by decide +kernel

theorem witness_TernaryCompare : 1 ≤ 8 ∧ (trnHolding 1).entryHit 1 0 0 0 ((77 : BitVec 640).toNat % 2 ^ (80 * 1)) = true := by
  decide +kernel

/-! ### Tallies, results, memory -/

/-- An instruction whose tally names carrel word 3 and adds 2, of an action that lookup 0 supplied. -/
def tallying (inc : Nat) : State :=
  force [(Obj.progTally.key 0, pack [(1, 1), (4, 0), (8, 0), (2, 0), (11, 0), (16, inc), (22, 0)])] searchable

def supplied (s : State) : Inflight :=
  let o : LookupOut := { LookupOut.none with performed := true, hit := true, supplied := true, b0 := BitVec.ofNat 128 (3 * 2 ^ 112) }
  { flight s 1000112 with outs := [(0, o)] }

theorem witness_TalliesAdd : ((tallying 2).view.tally 0 0).en = true ∧ ((supplied (tallying 2)).out 0).supplied = true ∧
    sliceAt ((supplied (tallying 2)).out 0).carry 256 0 16 = 3 ∧ (tallying 2).dieHeld (dieOfWord 3) = false ∧
    (tallying 2).mem.clearing = [] ∧
    ((tallying 2).setRegion 0 { Region.reset with held := true }).dieHeld (dieOfWord 3) = true ∧
    2 ^ 64 ≤ (BitVec.ofNat 64 (2 ^ 64 - 1)).toNat + 2 := by decide +kernel

/-- A clear of carrel 0 that began in cycle 1,000,000; a tally reached word 5 in the cycle in which its line goes. -/
def clearing : State :=
  { lab with mem := { lab.mem with clearing := [⟨0, 1000000, 0, []⟩], carrel := [(3, 7), (5, 9)], talliedAt := 1000004, tallied := [(5, 8)] } }

theorem witness_TalliesAdd_clear : clearing.mem.clearing = [⟨0, 1000000, 0, []⟩] ∧
    (⟨0, 1000000, 0, []⟩ : Clear).cycle (3 / 32) = 1000004 ∧
    [(clearing.clearTo 1000004).carWord 0 3, (clearing.clearTo 1000004).carWord 0 5, (clearing.clearTo 1000003).carWord 0 3] = [0, 9, 7] := by
  decide +kernel

/-- What port 0 has due. -/
def erring : State := { searchable with search := { searchable.search with errs := [⟨0, 1000112, 5⟩] } }
def ready (noResult : Bool) : Inflight := { flight searchable 1000112 with nextStage := 1, ended := true, noResult := noResult }

theorem witness_ResultsLeave : searchable.firstDue 0 = none ∧ erring.firstDue 0 = some (.err ⟨0, 1000112, 5⟩) ∧
    (withFlight searchable (ready false)).firstDue 0 = some (.flight (ready false)) ∧
    (withFlight searchable (ready true)).firstDue 0 = some (.flight (ready true)) ∧
    (withFlight searchable (ready true)).flight? 0 = some (ready true) ∧
    ((ready true).view.prog 0).stages ≤ (ready true).nextStage ∧ (ready true).cas = none ∧ (searchable.port 0).st = .up := by
  decide +kernel

/-- A MEM frame of room 0 for a space, an OP, LEN bytes at ADDR (R227). -/
def memFrame (space op len addr : Nat) (body : List Granule := []) : Frame :=
  linkFrame 6 1 ⟨granule [(16, 0), (4, 0), (2, space), (2, op), (16, 3), (8, len), (32, addr), (48, 0)], body⟩

theorem witness_MemoryRequests : lab.memStatus 0 (memFrame 0 0 1 0) = none ∧
    lab.memStatus 0 (memFrame 0 0 1 524287) = none ∧ lab.memStatus 0 (memFrame 0 0 1 524288) = some 0x71 ∧
    lab.memStatus 0 (memFrame 0 1 1 524287 [5]) = none ∧ lab.memStatus 0 (memFrame 2 0 64 0) = none ∧
    (lab.portLevel 0 = 3 ∧ lab.mem.clearing = [] ∧ lab.outFull 0 = false ∧ (lab.port 0).keeps = true) ∧
    lab.memStatus 0 (memFrame 1 1 32 16 [5, 6]) = some 0x73 ∧ lab.memStatus 0 (memFrame 1 1 16 0 [5]) = none := by decide +kernel

end Sys2Proof.Tests
end

