-- ==== Sys2Proof/Tests/Witness6.lean ====
section
/-! SUPPORT. Witnesses of the statements about carrels, the cascade and the links. -/

namespace Sys2Proof.Tests

open Sys2Proof Sys2Proof.Machine

set_option Elab.async false

/-! ### Carrels and probes -/

/-- Die 0 held; a clear of room 0's carrel; a tally that won word 0 in this cycle. -/
def held0 : State := lab.setRegion 0 { Region.reset with held := true }
def clearing0 : State := { lab with mem := { lab.mem with clearing := [⟨0, 1000000, 0, []⟩] } }
def won0 : State := { lab with mem := { lab.mem with talliedAt := 1000000, tallied := [(0, 0)] } }

theorem witness_CarrelsAndProbes : lab.CanWrite host .carData (0 : Fin 16) ∧ held0.CanWrite host .carData (0 : Fin 16) ∧
    clearing0.CanWrite host .carClear (0 : Fin 16) ∧ lab.CanWrite host .carClear (0 : Fin 16) ∧
    held0.CanWrite host .carClear (0 : Fin 16) ∧ lab.CanWrite host .poolProbeSel (63 : Fin 64) ∧
    held0.CanWrite host .poolProbeSel (0 : Fin 64) :=
  ⟨canWrite_of (by decide +kernel), canWrite_of (by decide +kernel), canWrite_of (by decide +kernel),
    canWrite_of (by decide +kernel), canWrite_of (by decide +kernel), canWrite_of (by decide +kernel), canWrite_of (by decide +kernel)⟩

theorem witness_CarrelsAndProbes_clauses : lab.ownReg host .carAddr 0 = 0 ∧ held0.dieHeld (dieOfWord 0) = true ∧
    [lab.clearing 0, clearing0.clearing 0, lab.tallyWon 0 0] = [false, true, false] ∧
    [held0.anyHeld, lab.anyHeld] = [true, false] ∧ clearing0.mem.clearing = [⟨0, 1000000, 0, []⟩] ∧
    clearing0.mem.talliedAt ≤ 1000000 ∧ held0.dieHeld (dieOfBlock 1048575) = true ∧ (lab.takeCtx host).isSome = true := by
  decide +kernel

theorem witness_CarrelsAndProbes_won : won0.tallyWon 0 0 = true ∧ won0.CanWrite host .carData (0 : Fin 16) :=
  ⟨by decide +kernel, canWrite_of (by decide +kernel)⟩

/-! ### The cascade -/

/-- Records of two devices. -/
def rec1 (dev prio : Nat) (hit : Bool) : CandRec := { CandRec.miss with device := dev, prio := prio, hit := hit }

theorem witness_MergeOrderFree : (rec1 0 5 true).call ≠ (rec1 1 5 true).call ∧ (rec1 1 5 true).call ≠ (rec1 2 4 true).call ∧
    (rec1 0 5 true).call ≠ (rec1 2 4 true).call := by decide

/-- Device 0 of generation 2, device 1 LIVE of generation 3, CLUSTER written. -/
def cluster : State :=
  let s := force [(Obj.casSelf.key, 2 * 2 ^ 15), (Obj.casMember.key 0 0 1, 0x8003),
    (Obj.casSet.key 0, pack [(4, 0), (1, 1), (2, 0), (8, 1), (1, 0), (1, 0), (12, 0), (14, 0), (8, 0), (77, 0)]),
    (Obj.casSetCl.key 0, pack [(8, 0), (4, 0), (16, 3), (4, 0)]), (Obj.casRoute.key 0 1, 1), (Obj.casRoute.key 0 0, 1)]
    (force (program 0 1) lab)
  { s with cas := { s.cas with clvalid := true } }

/-- Before CLUSTER; in quarantine; with the instruction not QUIET. -/
def unclustered : State := { cluster with cas := { cluster.cas with clvalid := false } }
def quarantinedNow : State := { cluster with cas := { cluster.cas with quarantined := true } }

/-- A MEMBER frame from device 1 to a destination (R291). -/
def cand (sender gen dest : Nat) : Frame := candFrame ⟨0, 0, 0, 0, 9, 4, sender, gen, dest, 0, 1⟩ [recImage 0 CandRec.miss]

/-- An instruction of set 0 in flight in which this device has a part. -/
def casFlying (part : Part) (closed sent : Bool) (senders : List Nat) (stage : Nat := 0) : Inflight :=
  let c : CasPart := ⟨0, part, if part = .owner then 0 else 1, 4, 60, [0], senders, [], closed, sent, 0⟩
  ⟨0, 0, 0, 0, 9, 0, 0, false, 0, 4, [0, 0, 0, 77], 1000000, 1000007, 1000172, cluster.view, stage, none, 0, false, 0, false, [], some c, true⟩

def flying (x : Inflight) : State := { cluster with search := { cluster.search with flight := [x] } }

/-- The instructions that a frame matches, and those that still take it. -/
def matching (s : State) (h : CandHdr) : List Bool :=
  (s.search.flight.filter fun x => x.matchesCand h).map fun x => x.open? s.now && x.fresh h.sender

/-- The state and header of the frame as the merge unit has it. -/
def seen (s : State) (f : Frame) : State × CandHdr :=
  let r := s.fromLink 0 f 4
  (r.2.at (r.1 + 4), candHdr f.hdr)

/-- The instructions that the frame meets: how many match it, still take it, and take it from its sender. -/
def meets (s : State) (f : Frame) : Nat × Nat × Nat :=
  let x := seen s f
  let ms := x.1.search.flight.filter fun y => y.matchesCand x.2
  let opens := ms.filter fun y => y.open? ((s.fromLink 0 f 4).1 + 4)
  let fresh := opens.filter fun y => y.fresh x.2.sender
  (ms.length, opens.length, fresh.length)

/-- The row of a CANDIDATE frame up to its sender's standing: 0 held, 1 before CLUSTER, 2 barred, 3 another device's, 4 the
device's own number, newer, 5 an unknown sender, 6 a live member. -/
def candRow (s : State) (f : Frame) : Nat :=
  let (s0, h) := seen s f
  let newer := (h.smgen + 256 - s0.mgen) % 256
  let m := (s0.viewAt s0.now).obj .casMember 0 0 h.sender
  if s0.dieHeld (dieOfPort 0) then 0 else if !s0.cas.clvalid then 1 else if s0.cas.quarantined || s0.quiet then 2
  else if h.dest ≠ s0.device then 3 else if h.sender = s0.device ∧ 1 ≤ newer ∧ newer ≤ 127 then 4
  else if nbit m 15 && decide (m % 256 = h.smgen) then 6 else 5

theorem witness_CandidateRows :
    [candRow (cluster.setRegion 0 { Region.reset with held := true }) (cand 1 3 0), candRow unclustered (cand 1 3 0),
      candRow quarantinedNow (cand 1 3 0), candRow cluster (cand 1 3 5), candRow cluster (cand 0 3 0), candRow cluster (cand 2 3 0),
      candRow cluster (cand 1 3 0)] = [0, 1, 2, 3, 4, 5, 6] ∧
    [meets (flying (casFlying .owner false false [])) (cand 1 3 0), meets (flying (casFlying .owner false false [1])) (cand 1 3 0),
      meets (flying (casFlying .owner true false [])) (cand 1 3 0), meets cluster (cand 1 3 0),
      meets { cluster with search := { cluster.search with
        flight := [casFlying .owner false false [], { casFlying .owner false false [] with id := 1 }] } } (cand 1 3 0)] =
      [(1, 1, 1), (1, 1, 0), (1, 0, 0), (0, 0, 0), (2, 2, 2)] ∧
    cluster.cas.pend.length < 4096 ∧
    [(candHdr (cand 1 3 0).hdr).kind, (candHdr (fenceFrame 1 3 0 2 3).hdr).kind,
      (candHdr (candFrame ⟨3, 0, 0, 0, 9, 4, 1, 3, 0, 0, 1⟩ []).hdr).kind] = [0, 2, 3] ∧
    ((earliest [casFlying .owner false false []]).map fun x => x.cas.isSome) = some true := by decide +kernel

/-- A frame that a close of its cycle took in; the flight of a frame that came after its result began to leave. -/
def tookEarly (f : Frame) : State := cluster.setPort 0 { cluster.port 0 with early := [f] }
def leaving : State :=
  let x := casFlying .owner true true []
  { cluster with search := { cluster.search with tails := [⟨0, 0, 0, 0, 9, 0, x.cas, 1000100⟩] } }

theorem witness_CandidateRows_early : ((tookEarly (cand 1 3 0)).port 0).early.contains (cand 1 3 0) = true ∧
    ((tookEarly (fenceFrame 1 3 0 2 3)).port 0).early.contains (fenceFrame 1 3 0 2 3) = true ∧
    (cluster.port 0).early.contains (cand 1 3 0) = false ∧
    (let x := seen leaving (cand 1 3 0)
     x.1.search.tails.any (fun e => decide (x.1.now < e.last) && e.matchesCand x.2) = true) := by decide +kernel

/-- 4,096 frames wait. -/
theorem witness_CandidateRows_full :
    4096 ≤ ({ cluster.cas with pend := List.replicate 4096 ⟨0, 0, ⟨0, []⟩⟩ } : Cas).pend.length := by decide +kernel

/-- FENCE bodies: STALE the generation of device 0, EXPECTED newer, unknown, or older; another device. -/
def fenced (dest stale expected : Nat) : Bool × Bool :=
  let g := (fenceFrame 1 3 dest stale expected).body.headD 0
  let newer := (fld g 107 100 + 256 - cluster.mgen) % 256
  (fld g 127 116 = cluster.device, fld g 115 108 = cluster.mgen && (fld g 107 100 = 0 || decide (1 ≤ newer ∧ newer ≤ 127)))

theorem witness_FencesAndOrphans : [fenced 5 2 3, fenced 0 2 0, fenced 0 2 3, fenced 0 2 129, fenced 0 2 130, fenced 0 2 2] =
    [(false, true), (true, true), (true, true), (true, true), (true, false), (true, false)] ∧
    cluster.cas.pend = [] ∧ [cluster.cas.clvalid, unclustered.cas.clvalid] = [true, false] ∧
    [cluster.dieHeld (dieOfPort 0), (cluster.setRegion 0 { Region.reset with held := true }).dieHeld (dieOfPort 0)] =
      [false, true] ∧
    ({ cluster with cas := { cluster.cas with pend := [⟨5, 0, cand 1 3 0⟩] } } : State).cas.pend = [⟨5, 0, cand 1 3 0⟩] := by
  decide +kernel

theorem witness_CandidatesLeave :
    ((flying (casFlying .member false false [] 1)).casFlight 0 9 (fun c => c.part = .member && !c.sent)).isSome = true ∧
    ((flying (casFlying .collector false false [] 1)).casFlight 0 9 (fun c => c.part = .collector && !c.closed)).isSome = true ∧
    ((flying (casFlying .collector true false [] 1)).casFlight 0 9
      (fun c => c.part = .collector && c.closed && !c.sent)).isSome = true ∧
    ((casFlying .member false false [] 1).view.prog 0).stages ≤ 1 ∧
    routePort (routeMask cluster.view 0 ((cluster.view.set 0).target 0 1 .member)) 0 = some 0 ∧
    (flying (casFlying .member false false [] 1)).flight? 0 = some (casFlying .member false false [] 1) ∧
    [cluster.casBarred, unclustered.casBarred] = [false, true] ∧
    (cluster.port 0).keeps = true := by decide +kernel

/-- The record that device 1 sent: a hit at PRIO 4 with a block, or an error. -/
def sentRec (error : Bool) (ptr : Nat) : Nat × CandRec := (0, { rec1 1 4 (!error) with mgen := 3, error := error, ptr := ptr })

def closing (r : List (Nat × CandRec)) : Inflight :=
  let x := casFlying .owner false false [1] 1
  { x with cas := x.cas.map (fun c => { c with recs := r }), outs := [(0, LookupOut.begun)] }

/-- The instruction as the owner's close finds it, after the records that arrive in the close cycle or before. -/
def atClose (x : Inflight) : Option Inflight :=
  match x.cas with
  | some c =>
    let t := x.arrived + x.lat + c.budget - 44
    ((List.range 32).foldl (State.earlyOn t) ((flying x).at t)).flight? x.id
  | none => none

/-- The merge of lookup 0 at the owner's close. -/
def mergedIn (x : Inflight) : Option CandRec :=
  x.cas.map fun c => mergedRec (x.view.set c.set) 0 c (ownRec x.view 0 x.view.mgen x c.status 0) 0

theorem witness_OwnersClose :
    ((flying (closing [])).casFlight 0 9 fun c => c.part = .owner && !c.closed).isSome = true ∧
    atClose (closing []) = some (closing []) ∧ atClose (closing [sentRec false 1]) = some (closing [sentRec false 1]) ∧
    (((closing []).out 0).performed = true ∧ ((closing []).out 1).performed = false ∧ ((closing []).out 1).skipped = false) ∧
    ((closing []).view.prog 0).stages ≤ (closing []).nextStage ∧ (closing []).cas.map (fun c => decide c.lookups.Nodup) = some true ∧
    ((mergedIn (closing [sentRec true 0])).map (·.error) = some true ∧
      (mergedIn (closing [])).map (fun w => (w.error, w.hit)) = some (false, false)) ∧
    (mergedIn (closing [sentRec false 1])).map (fun w => (w.error, w.hit, w.device, w.ptr)) = some (false, true, 1, 1) ∧
    cluster.ptrCheck cluster.view 0 1 1 = none ∧ cluster.ptrCheck cluster.view 0 2 1 = some 0x63 ∧
    (cluster.dieHeld (dieOfBlock 1) = false ∧ cluster.adsBad 1 = false) ∧ (cluster.view.lkp 0 0).miss = 0 := by decide +kernel

/-- A candidate that entered its link too late to arrive by cycle 1,000,000 keeps the buffer as it is. -/
theorem witness_CandidatesLeave_late :
    let s := cluster.setPort 0 { cluster.port 0 with inbound := [(999999, cand 1 3 0)] }
    fld (cand 1 3 0).hdr 127 124 = 3 ∧ (candHdr (cand 1 3 0).hdr).kind < 2 ∧
    (∀ e ∈ (s.port 0).inbound, (1000000 : Nat) < e.1 + 4) ∧ s.dieHeld (dieOfPort 0) = false := by decide +kernel

/-! ### Links -/

/-- Port 0 in a state of bring-up. -/
def ported (st : PortState) (helloValid helloErr : Bool := false) : State :=
  lab.setPort 0 { upPort with st := st, helloValid := helloValid, helloErr := helloErr }

/-- A HELLO of a HOST peer with a version. -/
def hi (version role limit : Nat) : Frame := creditFrame ⟨1, 0, 0, 0, 0, limit, limit, 9, 0, role, version⟩

/-- What training found: the lanes in order, in reverse, or otherwise; its skew in ps; its step. -/
def aligned (lanes : List (Fin 8)) (skew : Nat) (reached : Fin 6) : Alignment := ⟨reached, lanes, 0, 0, skew⟩

def straight : List (Fin 8) := [0, 1, 2, 3, 4, 5, 6, 7]

/-- Every die of the device is held. -/
def heldPort (st : PortState) : State := (ported st).setRegion 0 { Region.reset with held := true }

theorem witness_LinksComeUp_steps :
    [alignStep (aligned straight 4000 5), alignStep (aligned straight.reverse 0 5), alignStep (aligned straight 4001 5),
      alignStep (aligned [1, 0, 2, 3, 4, 5, 6, 7] 0 5), alignStep (aligned straight 0 2)] = [5, 5, 4, 3, 2] ∧
    [((ported .training).port 0).st, ((ported .aligning).port 0).st] = [.training, .aligning] ∧
    (heldPort .hello).dieHeld (dieOfPort 0) = true ∧ (ported .hello).dieHeld (dieOfPort 0) = false := by decide +kernel

theorem witness_LinksComeUp :
    ((ported .off).port 0).st = .off ∧ (ported .off).role 0 ≠ 0 ∧ lab.dev.diesUp = true ∧
    [helloCheck 1 (credit (hi 1 1 16).hdr), helloCheck 1 (credit (hi 2 1 64).hdr), helloCheck 1 (credit (hi 1 2 64).hdr),
      helloCheck 1 (credit (hi 1 1 15).hdr)] = [0, 1, 2, 3] ∧
    ((ported .hello false true).port 0).helloErr = true ∧ ((ported .hello true).port 0).helloValid = true ∧
    lab.boot.attempt.active = false ∧ (lab.port 0).st = .up ∧ ((ported .held).port 0).st = .held ∧
    [lostCredit 3 1, lostCredit 1 1, lostCredit 0 1] = [2, 0, 0] ∧
    ((ported .training).required 0 && (ported .training).boot.attempt.active) = false ∧
    ((regs [(Obj.portCtrl.key 0, 2)] (starting 8)).required 0 && (starting 8).boot.attempt.active) = true ∧
    ((ported .failed).port 0).st = .failed := by decide +kernel

/-- A codeword with a number of symbols in error. -/
def errors (n : Nat) : List SymbolError := (List.range n).map fun i => ⟨0, Fin.ofNat 68 i⟩

theorem witness_LinksGoDown_fec : (errors 15).length = 15 ∧ [uncorrectable (errors 15), uncorrectable (errors 16)] = [false, true] ∧
    ([errors 16, errors 3].filter uncorrectable).length = 1 ∧ (regs [(Obj.portUncorrLimit.key 0, 1)] lab).reg .portUncorrLimit 0 = 1 ∧
    ([errors 16, errors 16].filter uncorrectable).length = 2 := by decide +kernel

theorem witness_LinksGoDown : (lab.port 0).keeps = true ∧ ((ported .off).port 0).keeps = false ∧
    ((regs [(Obj.portUncorrLimit.key 0, 5)] lab).reg .portUncorrLimit 0 = 5 ∧ lab.reg .portUncorrLimit 0 = 64) ∧
    (({ upPort with drops := [1, 0, 0, 0, 0] }).drops.all (· = 0) = false ∧ upPort.drops.all (· = 0) = true) ∧
    ((lab.setSession 16 keeper).session 16).isOpen = true ∧ (lab.session 16).isOpen = false := by decide +kernel

theorem witness_LinksGoDown_retrain : lab.CanWrite host .portCtrl (0 : Fin 32) ∧
    ((4 : Nat) % 65536 &&& ((0x00040004 : Nat) / 65536) &&& 0xFFFC) ≠ 0 ∧
    (nbit 0x00010001 16 = true ∧ nbit 0x00010001 0 = true) := ⟨canWrite_of (by decide +kernel), by decide, by decide⟩

/-- A frame of one granule, TYPE and CLASS as given, as the link carries it. -/
def one (ty cls : Nat) : Frame := linkFrame ty cls ⟨0, []⟩

/-- An arrival whose one link block marks a slot, or no frame (254); with symbols in error, or with a wrong CRC; its
slots are cut short to two of zeros. -/
def arrives (slot : Fin 80) (first wrong : Nat) (badCrc : Bool) : Arrival :=
  let zeros := List.replicate 2 (0 : Granule)
  let crc := frameCrc (zeros.flatMap fun g => bytesBE 16 g.toNat)
  ⟨slot, [⟨[errors wrong], zeros, BitVec.ofNat 40 (pack [(8, first), (32, if badCrc then crc + 1 else crc)])⟩]⟩

/-- No block of the arrival is damaged, and its header is marked. -/
def clean : Arrival := ⟨0, []⟩

theorem witness_FramesInAndOut_rows :
    [rxCheck 1 upPort (one 4 1) (arrives 0 0 16 false), rxCheck 1 upPort (one 4 1) (arrives 0 0 0 true),
      rxCheck 1 upPort (one 4 1) (arrives 0 16 0 false), rxCheck 1 { upPort with resync := true } (one 4 1) (arrives 3 0 0 false),
      rxCheck 1 upPort ⟨(one 4 1).hdr, [0]⟩ clean, rxCheck 1 upPort (linkFrame 4 1 ⟨0, [0]⟩) (arrives 3 4 0 false),
      rxCheck 1 upPort (one 4 0) clean, rxCheck 1 { upPort with rxcount1 := 128 } (one 4 1) clean,
      rxCheck 1 { upPort with resync := true } (one 4 1) (arrives 3 3 15 false), rxCheck 1 upPort (one 4 1) clean] =
      [some 0, some 1, some 1, some 2, some 2, some 2, some 3, some 4, none, none] ∧
    [inFill (arrives 0 254 0 false), inFill (arrives 0 254 16 false), inFill (arrives 0 0 0 false), inFill clean] =
      [true, false, false, false] := by decide +kernel

theorem witness_FramesInAndOut_in :
    [rxCheck 1 upPort (one 7 3) clean, rxCheck 1 upPort (one 1 0) clean, rxCheck 2 upPort (one 3 2) clean,
      rxCheck 1 upPort (one 0 0) clean] = [none, none, none, none] ∧
    [catDropped 0 (one 4 1), catDropped 0 (catFrame (pdu 2 [0, 0, 0, 0]))] = [false, true] ∧
    rxCheck 1 upPort (catFrame (pdu 2 [0, 0, 0, 0])) clean = none ∧
    fld (hi 1 1 16).hdr 111 108 = 1 ∧ rxCheck 1 upPort (hi 1 1 16) clean = none ∧
    ((ported .held).port 0).st = .held ∧ (ported .up).dieHeld (dieOfPort 0) = false ∧
    (heldPort .up).dieHeld (dieOfPort 0) = true := by decide +kernel

/-- A result leaves port 0 in this very slot. -/
def dueNow : State := { lab with search := { lab.search with errs := [⟨0, 1000000, 5⟩] } }

/-- What the transmitter picks with frames waiting. -/
def pickOf (q : Port) (role : Nat) : TxPick := q.pick role 0x4040 (lab.roomAt 0 5000000) 5000000

theorem witness_FramesInAndOut_out :
    lab.roomAt 0 5000000 = 16 ∧ pickOf upPort 1 = .idle ∧ pickOf { upPort with txc := [⟨one 3 2, .none⟩] } 2 = .cand ∧
    pickOf { upPort with tx1 := [⟨one 5 1, .none⟩] } 1 = .one ∧ pickOf { upPort with tx3 := [⟨one 9 3, .none⟩] } 1 = .three ∧
    upPort.pick 1 0x4040 0 5000000 = .none ∧ upPort.creditDue 5000000 = false ∧
    dueNow.roomAt 0 5000000 = 0 ∧ (upPort.txsent1 - upPort.peerFreed1).toNat + frameLen (one 5 1) ≤ 0x4040 / 256 := by
  decide +kernel

theorem witness_FramesInAndOut_hello :
    [({ upPort with st := .hello, helloValid := true, helloSent := true } : Port).helloSent, upPort.helloSent] = [true, false] ∧
    (regs [(Obj.dbCfg.key 3, 0x80000000)] lab).reg .dbCfg 3 = 0x80000000 ∧
    ({ upPort with push := [⟨3, 0, ⟨0, 0, 0, 0, false, 0, 0, 0⟩⟩] } : Port).push.length = 1 := by decide +kernel

/-- A port whose block has sixteen slots with no first frame; one that is UP and has a HELLO yet to send. -/
theorem witness_FramesInAndOut_zero :
    let q : Port := { upPort with blk := List.replicate 16 0 }
    [q.mayBegin, ({ q with blkFirst := some 3 } : Port).mayBegin, upPort.mayBegin] = [false, true, true] ∧
    [({ upPort with helloValid := true, helloSent := false } : Port).owesHello, upPort.owesHello] = [true, false] ∧
    [lab.dieHeld (dieOfPort 0), (heldPort .held).dieHeld (dieOfPort 0)] = [false, true] ∧
    ((ported .held).port 0).st = .held ∧ (lab.port 0).blk.length < 80 ∧ lab.quiet = false := by decide +kernel

/-- An IDLE after the 200 ms that began at cycle 0, and one within them; a required port that is OFF or HELD in an attempt. -/
theorem witness_LinksComeUp_late :
    let late : State := { ported .hello true with now := 1000000000 }
    (late.port 0).helloValid = true ∧ (late.port 0).begun + 200 * Config.msec < late.now ∧ late.boot.attempt.active = false ∧
    (ported .hello true).now ≤ ((ported .hello true).port 0).begun + 200 * Config.msec ∧
    (let s := (regs [(Obj.portCtrl.key 0, 2)] (starting 8)).setPort 0 { upPort with st := .off }
     (s.required 0 && s.boot.attempt.active) = true ∧ (s.port 0).st = .off) := by decide +kernel

end Sys2Proof.Tests
end

