-- ==== Sys2Proof/Tests/Witness7.lean ====
section
/-! SUPPORT. Witnesses of the statements about requests, transfers, sessions and the dictionary bus. -/

namespace Sys2Proof.Tests

open Sys2Proof Sys2Proof.Machine

set_option Elab.async false

/-! ### Guard -/

/-- A PDU with the TAG of session 0. -/
def signed (s : State) (service : Nat) (bytes : List Nat) : Pdu :=
  let q := pdu service bytes
  { q with bytes := q.bytes ++ (s.session 0).tag (pduIdent q) q.bytes }

/-- The Keeper has sent a request before, and its response is stored. -/
def served (q : Pdu) (layout : Nat) : State :=
  (base.setSession 0 { keeper with cnt := 1 }).storeReq ⟨host, pduIdent q, q.bytes.take layout, (q.bytes.drop layout).take 4, 1000000, [pdu 2 [0, 0]]⟩

/-- Seven wrong TAGs in a row. -/
def suspect : State := base.setSession 0 { keeper with macFails := 7 }

/-- Four responses are not queued yet. -/
def crowdedBus : State := { calm with cat := { calm.cat with outstanding := List.replicate 4 (host, 1000001) } }

/-- How a request is judged: 0 not reached, 1 four outstanding, 2 short, 3 short under a session, 4 repeated, 5 a wrong TAG,
6 the eighth wrong TAG, 7 accepted. -/
def judged (s : State) (q : Pdu) (service layout : Nat) : Nat :=
  let r := (s.reach q service).1
  let tag := (q.bytes.drop layout).take 4
  if (s.reach q service).2 = false then 0
  else if 4 ≤ r.outstanding q.master then 1
  else match r.provedOf q.master with
    | none => if q.bytes.length < layout then 2 else 7
    | some n =>
      if q.bytes.length < layout + 4 then 3
      else match r.repeats (r.session n) q (q.bytes.take layout) tag with
        | some _ => 4
        | none =>
          if tag ≠ (r.session n).tag (pduIdent q) (q.bytes.take layout) then if 7 ≤ (r.session n).macFails then 6 else 5
          else 7

/-- All of them, for a request of a service whose layout is the bytes given. -/
def allJudged (service : Nat) (bytes : List Nat) : List Nat :=
  let q := pdu service bytes
  let n := bytes.length
  let more := pdu service (bytes ++ [1, 2, 3, 4])
  [judged calm { q with dst := 6 } service n, judged crowdedBus q service n, judged calm { q with bytes := q.bytes.drop 1 } service n,
    judged base q service n, judged (served more n) more service n, judged base more service n, judged suspect more service n]

theorem witness_RequestsGuarded_read : allJudged 1 [0, 0x10, 3, 0] = [0, 1, 2, 3, 4, 5, 6] := by decide +kernel

theorem witness_RequestsGuarded_write : allJudged 3 [0x21, 0x30, 0, 2, 9, 9] = [0, 1, 2, 3, 4, 5, 6] := by decide +kernel

theorem witness_RequestsGuarded_mbx : allJudged 9 [0, 0x10, 1, 0] = [0, 1, 2, 3, 4, 5, 6] := by decide +kernel

theorem witness_RequestsGuarded_segInit : allJudged 5 [1, 0, 0x10, 3, 0, 0, 0, 0] = [0, 1, 2, 3, 4, 5, 6] := by decide +kernel

theorem witness_RequestsGuarded_abort : allJudged 0xB [0, 0x10, 3, 0] = [0, 1, 2, 3, 4, 5, 6] := by decide +kernel

/-! ### Accesses -/

/-- The outcome of a READ_REQ: a place error, refused, zeros, an MBX object, too long, a plain value. -/
def readCase (s : State) (i b : Nat) : Nat :=
  match s.place i b with
  | .error _ => 0
  | .ok p =>
    let ty := p.obj.row.ty
    match s.readGrant host p with
    | .refuse _ => 1
    | .zero => if p.obj.readSize ≤ 32 then 2 else 9
    | .ok =>
      if ty = .mbx then 3 else if 32 < ty.size then 4
      else if (s.readOwn host p).isNone && (s.readRooms p).isNone && (s.readDevice host p).isNone then
        if p.obj.row.s then 5 else if p.obj.perContext then 6 else 7
      else 8

/-- An accepted READ_REQ of an object, which is met as the case says. -/
def reads (s : State) (n : Nat) (i b : Nat) : Bool :=
  let q := pdu 1 [i % 256, i / 256, b, 0]
  match acceptOf s q 1 4 true with
  | some s1 => readCase (s1.settled i b) i b == n
  | none => false

theorem witness_AccessesByPdu_read :
    [reads calm 0 0x2222 0, reads calm 1 0x2000 1, reads calm 2 0x3000 1, reads calm 3 0x1000 6, reads calm 4 0x1100 1,
      reads calm 5 0x2100 1, reads calm 6 0x1100 0x10, reads calm 7 0x1000 3] = List.replicate 8 true := by decide +kernel

theorem witness_AccessesByPdu_tagged : ∃ s1, base.Accepts (signed base 1 [0, 0x10, 3, 0]) 1 4 true s1 ∧
    (readCase s1 0x1000 3 == 7) = true := accepts_of (by decide +kernel)

/-- A Keeper on port 0 wrote ROOM_QUOTA of room 0 in this cycle, where 5 stood. -/
def written : State :=
  { base with cat := { base.cat with writes := [⟨Obj.roomQuota.key 0, peer, 0, [], 1000000, some 5, true⟩] } }

/-- A read of ROOM_QUOTA meets the write. -/
def meetsWrite (s1 : State) : Bool :=
  let s2 := s1.settled 0x3000 0x20
  match s2.place 0x3000 0x20 with
  | .error _ => false
  | .ok p => decide (s2.readGrant host p = .ok) && !p.obj.byFirmware && !p.obj.row.s && sharedKey (s2.keyAt host p) &&
      (match s2.readObj host p with | .ok _ => true | .error _ => false) &&
      (match s2.sameCycle host with | w :: _ => decide (w.key = s2.keyAt host p ∧ w.old = some 5) | [] => false)

/-- WEAR_LIFE comes from the management core, so that its answer may be late; the other reads above do not. -/
theorem witness_AccessesByPdu_same :
    (∃ s1, written.Accepts (signed written 1 [0, 0x30, 0x20, 0]) 1 4 true s1 ∧ meetsWrite s1 = true) ∧
    calm.sameCycle host = [] ∧ [Obj.wearLife.byFirmware, Obj.roomQuota.byFirmware] = [true, false] :=
  ⟨accepts_of (by decide +kernel), by decide +kernel, by decide +kernel⟩

/-- A WRITE_REQ of more bytes than an expedited access has, to an object that the master may write. -/
def longWrite (s1 : State) : Bool :=
  match s1.place 0x3000 0x20 with
  | .error _ => false
  | .ok p => s1.reached host && decide (s1.writeGrant host p = 0 ∧ p.obj.row.ty ≠ .mbx)

theorem witness_AccessesByPdu_write :
    (∃ s1, base.Accepts (signed base 3 [0, 0x30, 0x20, 4, 0, 0, 0, 0]) 3 8 true s1 ∧ longWrite s1 = true) ∧
    (∃ s1, base.Accepts (signed base 3 ([0, 0x30, 0x20, 33] ++ List.replicate 33 0)) 3 37 true s1 ∧ longWrite s1 = true) :=
  ⟨accepts_of (by decide +kernel), accepts_of (by decide +kernel)⟩

/-- A SESSION_REQ with a reserved OP, and one of no bytes. -/
theorem witness_AccessesByPdu_bad : byteOf (pdu 0x11 [0]) 0 ∉ [1, 2, 3] ∧ (pdu 0x11 []).bytes = [] ∧
    byteOf (pdu 0x11 [2]) 0 ∈ [1, 2, 3] ∧ (calm.reach (pdu 0x11 [0]) 0x11).2 = true ∧
    (calm.reach { pdu 0x1F [] with dst := 6 } 0x1F).2 = false := by decide +kernel

/-- An accepted MBX_REQ of an object: 0 refused, 1 zeros, 2 taken. -/
def picks (s : State) (i b : Nat) : Nat :=
  let q := pdu 9 [i % 256, i / 256, b, 0]
  match acceptOf s q 9 4 true with
  | some s1 => match s1.mbxPick host i b with
    | .refuse _ => 0
    | .zeros _ => 1
    | .take _ => 2
  | none => 3

theorem witness_AccessesByPdu_others : [picks calm 0x1000 3, picks calm 0x9100 7, picks calm 0x1000 6] = [0, 1, 2] ∧
    (acceptOf calm (pdu 3 [0x21, 0x30, 0, 2, 9, 9]) 3 6 true).isSome = true ∧
    (calm.reach (pdu 0x1F [1, 2, 3]) 0x1F).2 = true ∧ deviceService 0x1F = false ∧ deviceService 2 = true := by decide +kernel

/-! ### Transfers -/

/-- The state in which an untagged request acts. -/
def acts (s : State) (q : Pdu) (service layout : Nat) : State := (acceptOf s q service layout true).getD State.reset

/-- A SEG_INIT of an object. -/
def init (dir i b size : Nat) : Pdu := pdu 5 [dir, i % 256, i / 256, b, size, 0, 0, 0]
def initiated (s : State) (dir i b size : Nat) : State := acts s (init dir i b size) 5 8

/-- Node 9 downloads PROV_NONCE with `got` bytes received, or uploads PROV_REPORT with `sent` segments out. -/
def downloads (got next last : Nat) (image : Bool := false) : State :=
  calm.setTransfer ⟨host, true, if image then 0xF000 else 0x1100, if image then 0x21 else 0x10, 32, next, 1000000,
    List.replicate got 1, last, pdu 7 []⟩
def uploads (sent : Nat) : State :=
  calm.setTransfer ⟨host, false, 0x1100, 0x13, 1024, sent, 1000000, List.replicate 1024 1, 0, pdu 7 []⟩

theorem witness_Transfers_init :
    [(init 2 0x1100 0x10 32), (init 0 0x1100 0x10 32), (init 0 0x1100 0x10 31), (init 1 0x1100 0x13 0), (init 1 0x2222 0 0)].map
      (fun q => (acceptOf calm q 5 8 true).isSome) = List.replicate 5 true ∧
    ((initiated (downloads 0 0 0) 0 0x1100 0x10 32).transferOf host).isSome = true ∧
    (calm.downloadCode host 0x1100 0x10 32 = 0 ∧ calm.downloadCode host 0x1100 0x10 31 ≠ 0) ∧
    ((initiated calm 0 0x1100 0x10 32).downloadCode host 0x1100 0x10 32 = 0 ∧ (initiated calm 0 0x1100 0x10 32).transferOf host = none) ∧
    [((initiated calm 1 0x1100 0x13 0).readAt host false 0x1100 0x13).1.code, ((initiated calm 1 0x2222 0 0).readAt host false 0x2222 0).1.code] =
      [0, Ab.noObject] ∧
    (findObj 0x1100 0x13).map (fun p => p.obj.row.ty.segmented) = some true := by decide +kernel

/-- A Keeper may update the firmware, whose target is erased. -/
def erased : State :=
  { base with boot := { base.boot with upd := { base.boot.upd with ready := true, busy := false } } }

theorem witness_Transfers_image :
    (∃ s1, erased.Accepts (signed erased 5 [0, 0, 0xF0, 0x21, 0, 0, 0x40, 0]) 5 8 true s1 ∧
      (decide (s1.downloadCode host 0xF000 0x21 4194304 = 0) && (s1.transferOf host).isNone) = true) ∧
    ofBytesLE ([0, 0, 0x40, 0].map byte) = 4194304 :=
  ⟨accepts_of (by decide +kernel), by decide⟩

/-- An upload that is refused, of an object that is not segmented, of one that is. -/
def uploadCase (i b : Nat) : Option (Nat × Option Bool) :=
  (acceptOf calm (init 1 i b 0) 5 8 true).map fun s1 =>
    ((s1.readAccess host false i b).2.code, (findObj i b).map fun p => p.obj.row.ty.segmented)

theorem witness_Transfers_upload : [uploadCase 0x2222 0, uploadCase 0x1000 3, uploadCase 0x1100 0x13] =
    [some (Ab.noObject, none), some (0, some false), some (0, some true)] := by decide +kernel

/-- A SEG_DATA with a number and a body, accepted under the transfer of a state. -/
def segment (seq : Nat) (bytes : List Nat) : Pdu := { pdu 7 bytes with seq := BitVec.ofNat 5 seq }
def segmented (s : State) (seq : Nat) (bytes : List Nat) : Bool :=
  let q := segment seq bytes
  (acceptOf s q 7 (max 1 q.bytes.length) true).isSome &&
    (((s.reach q 7).1.provedOf host).isNone && decide ((acts s q 7 (max 1 q.bytes.length)).transferOf host = s.transferOf host))

theorem witness_Transfers_data :
    [segmented (downloads 0 0 0) 1 [0, 1], segmented (downloads 0 0 64 true) 0 [0, 1],
      segmented (uploads 8) 8 [0, 1], segmented (downloads 0 0 0) 0 [0, 1, 2],
      segmented (downloads 0 7 7) 7 [0, 1, 2], segmented (downloads 32 1 1) 1 [0, 1],
      segmented (downloads 0 0 0) 0 (0x80 :: List.replicate 32 1), segmented (downloads 0 32 0) 0 [0]] =
      List.replicate 8 true := by decide +kernel

/-- A SEG_ACK of a number of bytes, and how it is met: 0 no, 1 ends, 2 out of order, 3 the whole upload came, 4 goes on. -/
def ackCase (s : State) (code received : Nat) : Nat :=
  let q := pdu 8 (((bytesLE 4 received).map fun x => x.toNat) ++ [code])
  match acceptOf s q 8 5 true with
  | none => 0
  | some s1 => match s1.transferOf host with
    | none => 0
    | some t =>
      if code ≠ 0 then 1
      else if t.download || received ≠ min t.size (63 * t.next) then 2
      else if segments t.size ≤ t.next then 3 else 4

theorem witness_Transfers_ack : [ackCase (uploads 8) 1 504, ackCase (uploads 8) 0 503,
    ackCase (downloads 0 0 0) 0 0, ackCase (uploads 17) 0 1024, ackCase (uploads 8) 0 504] =
    [1, 2, 2, 3, 4] := by decide +kernel

theorem witness_Transfers_end : (acceptOf (uploads 8) (pdu 0xB [0, 0x11, 0x13, 1]) 0xB 4 true).isSome = true ∧
    calm.transferOf host = none ∧ ((downloads 0 0 64 true).transferOf host).map (·.last) = some 64 ∧
    ((uploads 8).transferOf host).map (·.last) = some 0 := by decide +kernel

/-! ### Sessions -/

/-- Steward key 16 holds a value; an unproved session of node 9 asks for the level. -/
def provisioned : State := calm.setVaultWord (0x20 + 12 * 16) 7
def asking : State := provisioned.setSession 0 { opened with askLevel := 2, keyNo := 16, nonce := List.replicate 16 3 }

/-- Every bus session in use by other nodes. -/
def fullHouse : State := (List.range 16).foldl (fun s n => s.setSession n { opened with node := BitVec.ofNat 8 (100 + n) }) provisioned

/-- An OPEN, and what it meets: its code, an old session, a free number. -/
def openCase (s : State) (level : Nat) : Option (Nat × Option Nat × Option Nat) :=
  (acceptOf s (pdu 0x11 [1, level, 0, 0]) 0x11 4 false).map fun s1 =>
    (s1.openCode host level 0, s1.sessionOf host, s1.freeSession host)

theorem witness_Sessions_open : openCase calm 2 = some (Ab.noKey, none, some 0) ∧ openCase provisioned 2 = some (0, none, some 0) ∧
    openCase fullHouse 2 = some (0, none, none) ∧ openCase asking 2 = some (0, some 0, some 1) := by decide +kernel

/-- A PROVE with the proof of the session's nonce. -/
def proving : Pdu := { pdu 0x11 [2, 2, 0, 0] with bytes := [2, 2, 0, 0] ++ asking.proofOf host (asking.session 0) }

/-- What a PROVE meets: no session, a wrong proof, a good one. -/
def proveCase (s : State) (q : Pdu) : Nat :=
  match acceptOf s q 0x11 52 false with
  | none => 0
  | some s1 => match s1.sessionOf host with
    | none => 1
    | some n =>
      let x := s1.session n
      if x.proved = false ∧ byteOf q 1 = x.askLevel ∧ byteOf q 2 = x.askRoom ∧ (q.bytes.take 52).drop 4 = s1.proofOf host x then 3
      else 2

theorem witness_Sessions_prove : [proveCase provisioned proving, proveCase asking { proving with bytes := proving.bytes.take 51 ++ [0, 0] },
    proveCase asking proving] = [1, 2, 3] := by decide +kernel

theorem witness_Sessions_close : (acceptOf calm (pdu 0x11 [3, 0, 0, 0]) 0x11 4 true).isSome = true ∧
    (acts asking (pdu 0x11 [3, 0, 0, 0]) 0x11 4).sessionOf host = some 0 ∧
    (byteOf (pdu 0x11 [0]) 0 ≠ 1 ∧ byteOf (pdu 0x11 [0]) 0 ≠ 2 ∧ byteOf (pdu 0x11 [0]) 0 ≠ 3) ∧
    (base.session (0 : Fin 48)).isOpen = true ∧ (base.session (47 : Fin 48)).isOpen = false ∧ base.ringOpen 16 :=
  ⟨by decide +kernel, by decide +kernel, by decide +kernel, by decide +kernel, by decide +kernel, by decide +kernel, by decide +kernel⟩

/-! ### Sleep and the bus -/

/-- The bus in a state of sleep, or as a change leaves it. -/
def sleeping (x : Sleep) (due : Bool := false) : State :=
  let b := calm.bus
  { calm with bus := { b with sleep := x, wakeDue := due } }
def onBus (f : Bus → Bus) : State := { calm with bus := f calm.bus }

theorem witness_SleepAndWake :
    (acceptOf calm (pdu 0xE [0, 0, 0, 0]) 0xE 4 true).map (fun s => s.sleepCode host) = some Ab.access ∧
    (acceptOf base (signed base 0xE [0, 0, 0, 0]) 0xE 4 true).map (fun s => s.sleepCode host) = some 0 ∧
    (lab.reach { pdu 0xE [] with master := peer } 0xE).2 = true ∧
    [(sleeping (.waiting 5)).onBus, (sleeping .asleep).onBus] = [true, false] ∧ (sleeping .asleep true).catalogueUp = true ∧
    (sleeping .asleep true).bus.wakeDue = true ∧ (sleeping .waking).bus.sleep = .waking := by decide +kernel

theorem witness_BusEvents_counts : (calm.bus.recv = 0 ∧ calm.bus.tec = 0) ∧
    (onBus fun b => { b with recv := 127 }).bus.recv.toNat ≤ 127 ∧ 127 < (onBus fun b => { b with recv := 130 }).bus.recv.toNat ∧
    (onBus fun b => { b with tec := 5 }).bus.tec ≠ 0 ∧ 256 ≤ (onBus fun b => { b with tec := 300 }).bus.tec.toNat ∧
    (calm.dev.vin = true ∧ calm.dev.vio = true ∧ calm.inReset = false) := by decide +kernel

theorem witness_BusEvents : calm.onBus = true ∧ (onBus fun b => { b with busOff := true }).onBus = false ∧
    (onBus fun b => { b with busOff := true }).catalogueUp = true ∧
    (onBus fun b => { b with rateNext := some 1 }).onBus = true ∧ (onBus fun b => { b with exception := true }).catalogueUp = true ∧
    (onBus fun b => { b with clash := true, clashRec := some 999999 }).onBus = true ∧
    (calm.reg .dbusHbMs ≠ 0 ∧ (regs [(Obj.dbusHbMs.key, 0)] calm).reg .dbusHbMs = 0) ∧
    (onBus fun b => { b with push := [⟨3, 0, ⟨0, 0, 0, 0, false, 0, 0, 0⟩⟩] }).bus.sleep = .awake ∧
    (onBus fun b => { b with withheld := 65536 }).onBus = true ∧ calm.ringOpen 16 := by
  refine ⟨?_, ?_, ?_, ?_, ?_, ?_, ?_, ?_, ?_, ?_, ?_⟩ <;> decide +kernel

end Sys2Proof.Tests
end

