-- ==== Sys2Proof/Tests/Witness8.lean ====
section
/-! SUPPORT. Witnesses of the statements about starts, firmware, the vault, reductions, repair and regions. -/

namespace Sys2Proof.Tests

open Sys2Proof Sys2Proof.Machine

set_option Elab.async false

/-! ### Resets and attempts -/

/-- The pins and supplies changed. -/
def pins (f : Dev → Dev) : State := { base with dev := f base.dev }

theorem witness_Resets :
    [base.dev.porn, (pins fun d => { d with porn := true }).dev.porn] = [false, true] ∧
    (base.dev.sysrstn = false ∧ base.dev.boundary = false ∧ base.hubPowered = true) ∧
    (pins fun d => { d with sysrstn := true }).dev.sysrstn = true ∧ (pins fun d => { d with boundary := true }).dev.boundary = true ∧
    (pins fun d => { d with vin := false }).hubPowered = false ∧
    [base.dev.supply .vin, (pins fun d => { d with vin := false }).dev.supply .vin, (pins fun d => { d with vin := false }).dev.supply .vio] =
      [true, false, true] ∧
    (base.dev.vin = true ∧ base.dev.vio = true ∧ base.tapUp = true ∧ base.dev.tap.instr = .idcode ∧
      (pins fun d => { d with porn := true }).tapUp = false) := by
  decide +kernel

/-- The test port in a state, with an instruction. -/
def tapAt (st : TapState) (instr : TapInstr) : State := pins fun d => { d with tap := { d.tap with st := st, instr := instr } }

/-- A boundary test holds the device, and BYPASS has been shifted in; a boundary test that does not hold it yet. -/
def leavingTest : State := pins fun d =>
  { d with boundary := true, tap := { d.tap with st := .exit1Ir, sr := List.replicate 8 true, instr := .test .extest } }

theorem witness_AttemptsBegin_tap : leavingTest.tapUp = true ∧ leavingTest.dev.boundary = true ∧
    (leavingTest.dev.tap.clock ⟨true, false⟩ leavingTest.drawn).instr.isTest = false ∧
    ((tapAt .idle (.test .extest)).dev.tap.clock ⟨false, false⟩ 0).instr.isTest = true ∧ base.dev.boundary = false ∧
    ((tapAt .idle .idcode).dev.tap.clock ⟨true, false⟩ 0).instr.isTest = false ∧
    (tapAt .captureDr .bypass).dev.tap.st = .captureDr ∧ (tapAt .shiftDr .idcode).dev.tap.st = .shiftDr := by decide +kernel

theorem witness_AttemptsBegin :
    (pins fun d => { d with porn := true }).hubPowered = true ∧ (pins fun d => { d with porn := true, vio := false }).hubPowered = false ∧
    ((pins fun d => { d with vin := false }).dev.setSupply .vin true).vin = true ∧
    (pins fun d => { d with vin := false, vio := false }).dev.supply .vio = false ∧
    (State.reset.setAttempt fun a => { a with restartDue := some 5 }).boot.attempt.restartDue = some 5 ∧
    base.boot.attempt.restartDue = none := by decide +kernel

/-- An attempt that waits at step 2 for ACLK. -/
def input : BootInput := ⟨⟨true, 64, true, true, true, true, true, 8, false, 0⟩, false, [], [], [], []⟩
def masked : State := base.setVault fun v => { v with clockMasked := true }
def waitingAclk : State := (starting 2).setAttempt fun a => { a with waiting := some input }

theorem witness_AttemptsBegin_clock : (masked.dev.vaon = true ∧ masked.vault.clockMasked = true) ∧
    waitingAclk.boot.attempt.waiting = some input ∧ waitingAclk.boot.attempt.active = true ∧ base.boot.attempt.waiting = none ∧
    waitingAclk.dev.vaon = true := by decide +kernel

/-- REQUIRED port 1 is not UP. -/
def unlinked : State := regs [(Obj.portCtrl.key 1, 2)] (starting 8)

theorem witness_AttemptsEnd : (starting 8).starting = true ∧ 8 ≤ (starting 8).boot.attempt.step ∧
    (starting 8).now ≤ (starting 8).boot.attempt.begun + 2 * Config.sec ∧ (starting 8).linksReady = true ∧
    (starting 6).boot.attempt.step < 7 ∧ (starting 6).starting = true ∧ base.starting = false ∧
    (base.runs = true ∧ base.fwWork = false ∧ base.justWoken = false) ∧ (starting 8).fwWork = true ∧
    (pins fun d => { d with vin := false }).runs = false ∧ (starting 8).ringOpen 16 ∧
    ({ starting 8 with now := 6000000000 }).boot.attempt.begun + 2 * Config.sec < 6000000000 := by
  refine ⟨?_, ?_, ?_, ?_, ?_, ?_, ?_, ?_, ?_, ?_, ⟨?_, ?_⟩, ?_⟩ <;> decide +kernel

theorem witness_AttemptsEnd_links : unlinked.linksReady = false := by decide +kernel

/-! ### Firmware -/

/-- Whether the core answers in time is free (log 94): in every state one of the two clauses of its objects is met. -/
theorem witness_late (s : State) : Config.freeBool s.free = true ∨ Config.freeBool s.free = false := by
  cases Config.freeBool s.free <;> simp

/-- Update-engine states on a device whose active image is A. -/
def updating (f : FwUpd → FwUpd) : State := base.setUpd f

/-- A life-cycle state by its fuses. -/
def aged (fuses : Nat) : State :=
  { base with boot := { base.boot with otp := { base.boot.otp with fuses := BitVec.ofNat 4 fuses } } }

theorem witness_Firmware_target : base.CanWrite host .fwUpdTarget (0 : Nat) ∧ (aged 15).CanWrite host .fwUpdTarget (0 : Nat) ∧
    (updating fun u => { u with busy := true }).CanWrite host .fwUpdTarget (0 : Nat) ∧
    ((aged 15).lcState = 4 ∧ base.lcState ≠ 4) ∧ base.boot.upd.busy = false ∧ base.dev.phase ≠ .minimal ∧ base.boot.active = false ∧
    (updating fun u => { u with erasing := true }).boot.upd.erasing = true :=
  ⟨canWrite_of (by decide +kernel), canWrite_of (by decide +kernel), canWrite_of (by decide +kernel), by decide +kernel,
    by decide +kernel, by decide +kernel, by decide +kernel, by decide +kernel⟩

/-- The header of an image whose body is four erased bytes. -/
def header : List Byte :=
  [0x4F, 0x5A, 0x46, 0x57, 1, 0, 0, 0, 4, 0, 0, 0] ++ List.replicate 4 0 ++ List.replicate 16 0xFF ++
    sha384 (List.replicate 4 0xFF) ++ List.replicate 192 0xFF ++ List.replicate 236 0

/-- The whole image has come; its region B holds the header. -/
def imaged (hdr : List Byte) : State :=
  let s := base.setUpd fun u => { u with busy := true, ready := true, target := true, received := 4194304 }
  let mem : Store Byte := (((List.range hdr.length).zip hdr).filter fun e => e.2 ≠ 0xFF)
  (s.setImage true mem).setTransfer ⟨host, true, 0xF000, 0x21, 4194304, 0, 1000000, [], 64, pdu 7 []⟩

theorem witness_Firmware_image : ((imaged header).transferOf host).map (fun t => (t.image, t.last)) = some (true, 64) ∧
    (imaged header).imageCode true = 0 ∧ (imaged []).imageCode true ≠ 0 ∧ (imaged header).dev.vaon = true ∧
    base.transferOf host = none := by decide +kernel

/-- A firmware-signing key digest is provisioned; a provenance build waits for another behind it. -/
def signer0 : State := base.setVaultWord 0x11C 5
def building : State :=
  let s := base.setMailbox 32 { Mailbox.none with holder := 10 }
  let s := s.setProv 32 { Prov.none with busy := true }
  { s with cat := { s.cat with provQueue := [32, 0] } }

theorem witness_Firmware_policy : base.CanWrite host .fwPolicy (0 : Nat) ∧ base.tamperActive = false ∧
    base.fwKeyDigest.all (· = 0) = true ∧ base.CanWrite host .provReq (0 : Nat) ∧
    (aged 15).CanWrite host .provReq (0 : Nat) ∧ (base.takeCtx host).map (fun x => ((x.1).prov x.2).busy) = some false ∧
    (building.takeCtx host).map (fun x => ((x.1).prov x.2).busy) = some true ∧
    (building.cat.provQueue = [32, 0] ∧ building.boot.attempt.active = false) ∧ base.cat.provQueue = [] :=
  ⟨canWrite_of (by decide +kernel), by decide +kernel, by decide +kernel, canWrite_of (by decide +kernel),
    canWrite_of (by decide +kernel), by decide +kernel, by decide +kernel, by decide +kernel, by decide +kernel⟩

/-! ### The vault -/

/-- The bus node's context addresses a vault word; a posted write is under way. -/
def addressing (a : Nat) : State :=
  (base.setMailbox 32 { Mailbox.none with holder := 10 }).setCtxReg 32 Obj.vaultAddr.key a
def posted : State := base.setBlock 0xA100 { Block.none with busy := true, addr := 0xF8, value := 9 }

/-- An enabled tamper cause is present; VAON is off. -/
def tampered : State := base.setVault fun v => { v with cause := 1 }
def unsupplied : State := { base with dev := { base.dev with vaon := false } }

theorem witness_VaultCommands_data : (addressing 0xF8).CanWrite host .vaultData (0 : Nat) ∧
    ((addressing 0xF8).ownReg host .vaultAddr = 0xF8 ∧ (addressing 0x20).ownReg host .vaultAddr = 0x20) ∧
    ((posted.block 0xA100).busy = true ∧ ((addressing 0xF8).block 0xA100).busy = false) ∧
    (tampered.tamperActive = true ∧ posted.tamperActive = false) ∧
    ((addressing 0x10).verifyPolicy && (addressing 0x10).clearsDigest 0x10 0) = false :=
  ⟨canWrite_of (by decide +kernel), by decide +kernel, by decide +kernel, by decide +kernel, by decide +kernel⟩

theorem witness_VaultCommands_keys : (aged 1).CanWrite host .keyLoad (0 : Nat) ∧ (aged 1).CanWrite host .lcReq (0 : Nat) ∧
    ((aged 1).lcState = 1 ∧ base.lcState = 0) ∧ (lcTargets 1).contains 2 = true ∧ (lcTargets 0).contains 2 = false ∧
    (aged 1).vault.lcTarget = none ∧ ((aged 1).setVault fun v => { v with lcTarget := some 2 }).vault.lcTarget = some 2 ∧
    ((aged 1).setVault fun v => { v with cause := 1 }).tamperActive = true :=
  ⟨canWrite_of (by decide +kernel), canWrite_of (by decide +kernel), by decide +kernel, by decide, by decide, by decide +kernel,
    by decide +kernel, by decide +kernel⟩

theorem witness_Tamper : unsupplied.dev.vaon = false ∧ nbit tampered.vault.cause.toNat 0 = true ∧
    (base.vault.clockMasked = true ∧ nbit base.vault.cause.toNat 1 = false) ∧ nbit base.vault.cfg.toNat 0 = true ∧
    (base.setVault fun v => { v with cfg := 0 }).vault.cfg = 0 ∧ base.CanWrite host .tamperCfg (0 : Nat) ∧
    (pins fun d => { d with vio := false }).hubPowered = false ∧
    (setBits 5 (1 &&& 0x1F)).filter (fun i => !nbit (1 &&& 0x1E) i) = [0] :=
  ⟨by decide +kernel, by decide +kernel, by decide +kernel, by decide +kernel, by decide +kernel, canWrite_of (by decide +kernel),
    by decide +kernel, by decide⟩

/-! ### Reductions and repair -/

/-- A reduction waits for its switch, with one rota or two, or for its second switch. -/
def reducing (g : Guar) : State := { base with guar := g }

theorem witness_Reductions : base.guar.active = false ∧ base.guar.second = none ∧
    (reducing { Guar.reset with active := true, final := [(64, 1)], toShed := [(3, 1, 0, 0)], toReduce := [4] }).guar.active = true ∧
    srising 0 [(64, 1)] = true ∧
    (reducing { Guar.reset with active := true, second := some 1000264, final := [(64, 1)] }).guar.second = some 1000264 := by
  decide

/-- Whether the rota in force serves every enabled lane after a loss of units; `lab` has no program, `searchable` one of
room 0 on bay 0. -/
def servedAfter (s : State) (units : List Nat) : Bool :=
  let u := s.loseUnits units 1 0
  feasible s.view.rotaFn s.view.phases s.view s.table s.guar.shed u.guar.lost s.heldDies

theorem witness_Reductions_plan : lab.dev.phase ≠ .minimal ∧ lab.guar.second = none ∧ servedAfter lab [0] = true ∧
    servedAfter searchable [0] = false ∧ searchable.guar.active = false ∧ searchable.view.phases ≤ 64 ∧
    (repair searchable.view (searchable.table 1) [] searchable.view.phases [] [] 0 1 0 0 0).isSome = true ∧
    rankOrder searchable.view [] (List.replicate 16 0) = [0] ∧
    (match repairSlots searchable.view searchable.table [0] [] searchable.view.phases [] 0 [0] [] false with
      | .ok _ => false
      | .error _ => true) = true ∧
    withinShares searchable.view.rotaFn searchable.view.phases searchable.view 0 = true := by decide +kernel

/-- A rebuild of physical bay 0 onto the spare 16, and one that has switched. -/
def rebuilding (switched : Bool) : State :=
  base.setBays fun b => { b with rebuilds := [⟨0, 16, 0, 1000000, 1050000, switched, true, 1⟩] }

/-- A region's test runs on unit 0; bay 0 of die 0 is next. -/
def shelving : State := base.setHealth fun h => { h with srSteps := [(0, 5)] }
def nextBay : State := base.setHealth fun h => { h with srDie := 0, srRegion := 0 }

theorem witness_ShelfAndBays_bay : shelving.srBusy = true ∧ nextBay.srBusy = false ∧
    (nextBay.srPick.map fun x => (x.2, x.1.catchUp.logicalOf 0)) = some ((0, 0), some 0) ∧ regionBay 0 0 = some 0 := by
  decide +kernel

/-- The next region has redundant rows left; a finding of another region is none of its own; die 0 has a spare. -/
theorem witness_ShelfAndBays_rows : (nextBay.srPick.map fun x => (x.1.catchUp.rowsLeft 0 0, (x.1.catchUp.spareOf 0).isSome)) =
      some (4, true) ∧ 1 ≤ nextBay.rowsLeft 0 0 ∧ nextBay.rowsLeft 0 0 < [0, 1, 2, 3, 4].length ∧
    (dieOfMem ⟨.side, 0, 0⟩ = 0 ∧ dieOfMem ⟨.side, 17, 0⟩ ≠ 0) ∧ nextBay.bays.shadow = [] ∧ nextBay.health.poison = [] := by
  decide +kernel

theorem witness_ShelfAndBays :
    (base.catalogueUp = true ∧ base.dev.phase = .running ∧ (base.srPick.map fun x => x.2) = some (4, 0)) ∧
    regionBay 4 0 = none ∧ (starting 8).dev.phase = .starting ∧ base.firstRebuild = none ∧
    ((rebuilding false).firstRebuild.map (·.spare)) = some 16 ∧ (rebuilding false).logicalOf 16 = none ∧
    ((rebuilding true).bays.rebuilds.find? fun r => r.switched).isSome = true ∧
    (base.setBays fun b => { b with retests := [(16, 2000000)] }).bays.retests = [((16 : Fin 68).val, 2000000)] ∧
    (base.logicalOf 16 = none ∧ base.logicalOf 0 ≠ none) ∧ base.ringOpen 16 := by
  refine ⟨?_, ?_, ?_, ?_, ?_, ?_, ?_, ?_, ?_, ?_, ?_⟩ <;> decide +kernel

/-! ### Regions -/

/-- Readings with the rail of region 0 and the Tj of region 1 as given. -/
def readings (rail tj : Int) : RegionReading := ⟨[rail, 700, 700, 700, 700], [30000, tj, 30000, 30000, 30000], []⟩

/-- A region in ALARM, or held. -/
def region0 (f : Region → Region) : State := base.setRegion 0 (f (base.region 0))

/-- The difference of rails 0 and 1 has been past a limit since the cycle before `t`. -/
def past (lim t : Nat) : State := base.setHealth fun h => { h with exceeded := [(limitKey lim 0 1, t)] }

theorem witness_RegionsAndWear :
    (base.catalogueUp = true ∧ base.dev.diesUp = true) ∧ (pins fun d => { d with diesUp := false }).dev.diesUp = false ∧
    [((past 0 1).alarmOf (readings 790 30000) 0).isSome, (base.alarmOf (readings 790 30000) 0).isSome,
      permitted (readings 790 30000) 0, permitted (readings 700 30000) 0] = [true, false, false, true] ∧
    (((past 1 1).holdsOf (readings 800 30000)).map (·.1) = [[0]] ∧ base.holdsOf (readings 700 30000) = []) ∧
    ((region0 fun g => { g with alarm := true }).region 0).alarm = true ∧
    (base.region 0).badAt + 100 * Config.msec ≤ 250000001 ∧ base.now + 1 < 1000000 + 100 * Config.msec ∧
    (112000 < reading [112001] 0 ∧ (region0 fun g => { g with hotOnce := true }).region 0 ≠ Region.reset) ∧
    (base.ringOpen 16 ∧ base.reg .wearShift 0 0 / 100 < 100 / 100) := by
  refine ⟨?_, ?_, ?_, ?_, ?_, ?_, ?_, ?_, ⟨?_, ?_⟩, ?_⟩ <;> decide +kernel

/-- Rail targets below, above and at their median. -/
theorem witness_RegionsAndWear_targets :
    let s := [(0, 690), (1, 700), (2, 710), (3, 700), (4, 700)].foldl
      (fun (s : State) x => s.setRegion x.1 { s.region x.1 with targetMv := x.2 }) base
    ((median ([0, 1, 2, 3, 4].map fun x => (s.railTarget x : Int))).toNat, s.railTarget 0, s.railTarget 2, s.railTarget 1) =
      (700, 690, 710, 700) := by decide +kernel

/-- A held die: long calm, or out of its limits a moment ago; and one that RELEASE has named. -/
def heldDie (badAt : Nat) : State :=
  { (region0 fun g => { g with held := true, badAt := badAt }) with now := 1000000000 }

theorem witness_RegionsAndWear_release : base.CanWrite host .rgnCtrl (0 : Fin 5) ∧ base.CanWrite host .rgnCtrl (4 : Fin 5) ∧
    ((heldDie 0).region 0).held = true ∧ (heldDie 0).releasable 0 = true ∧ (heldDie 1000000000).releasable 0 = false ∧
    (heldDie 0).CanWrite host .rgnCtrl (0 : Fin 5) ∧ (base.region 0).held = false ∧
    (nbit 0x00010001 16 = true ∧ nbit 0x00010001 0 = true) ∧
    ((region0 fun g => { g with held := true, releasing := true }).region 0).releasing = true ∧ base.guar.active = false ∧
    (0x00020002 : Nat) % 65536 &&& (0x00020002 / 65536) &&& 0xFFFE ≠ 0 :=
  ⟨canWrite_of (by decide +kernel), canWrite_of (by decide +kernel), by decide +kernel, by decide +kernel, by decide +kernel,
    canWrite_of (by decide +kernel), by decide +kernel, by decide, by decide +kernel, by decide +kernel, by decide⟩

/-- No bay of die 0 has an atom that differs from its shadow, and every logical bay has a bay of its own that is not fenced. -/
theorem witness_RegionsAndWear_bays : (∀ i < 64, base.view.phys i = some (17 * (i / 16) + i % 16)) ∧ base.bays.fenced = [] ∧
    base.health.colBad = [] ∧ base.bays.atoms = base.bays.shadow ∧ base.mismatches 0 0 = [] := by decide +kernel

end Sys2Proof.Tests
end

