-- ==== Sys2Proof/WellFormed.lean ====
section
/-! DEFINITION. Well-formed commands: the shapes that the links, the dictionary bus and the monitors give the operands
before a rule of the spec judges them. The meanings are total: an ill-formed command still has its effect. -/

namespace Sys2Proof

open Sys2Proof.Machine

/-- A frame as its header claims: GCNT counts its granules, 1 to 16 (R264, R265). -/
def Frame.sized (f : Frame) : Bool := decide (f.body.length ≤ 15) && decide (fld f.hdr 121 117 = f.body.length + 1)

/-- A sized frame of a TYPE and CLASS (R264, R265). -/
def Frame.typed (f : Frame) (ty cls : Nat) : Bool :=
  f.sized && decide (fld f.hdr 127 124 = ty) && decide (fld f.hdr 123 122 = cls)

/-- A PDU as it can reach the device: at most 64 bytes (R327, R340), and on the bus from the node that its identifier
names as SRC (R330, R332). -/
def Pdu.shaped (q : Pdu) : Bool :=
  decide (q.bytes.length ≤ 64) && (match q.master with
    | .bus n => q.src = n && n ≠ 0 && n ≠ 0xFF
    | .port _ => true)

/-- A shaped PDU of a SERVICE (R333). -/
def Pdu.of (q : Pdu) (service : Nat) : Bool := q.shaped && decide (q.service.toNat = service)

/-- A SESSION_REQ with an OP (R333). -/
def Pdu.op (q : Pdu) (op : Nat) : Bool := q.of 0x11 && decide ((q.bytes.getD 0 0).toNat = op)

/-- A memory word inside its memory (R144, R201, R223, R235, R445): side words by physical bay, shadow words by logical bay,
carrel words by room, ADS words by die. -/
def MemWord.inside (w : MemWord) : Bool :=
  match w.kind with
  | .side => decide (w.unit < 68 ∧ w.index < 36864)
  | .shadow => decide (w.unit < 64 ∧ w.index < 36864)
  | .carrel => decide (w.unit < 16 ∧ w.index < 65536)
  | .secure => decide (w.index < 16384)
  | .ads => decide (w.unit < 4 ∧ w.index < 2097152)
  | .emSlot => decide (w.index < 8388608)
  | .stamp => decide (w.index < 8388608)
  | _ => true

/-- Rows of the 68 bays of 36 mats of 1,024 rows (R16, R439), and words that the die has. -/
def DieFinding.fit (f : DieFinding) : Bool :=
  (f.flips.all fun x => decide (x.1 < 68 * 36864)) &&
    (f.stuck.all fun k => decide (k < 68 * 36864)) && f.uncorr.all MemWord.inside

/-- Readings of all five regions (R453). -/
def RegionReading.full (r : RegionReading) : Bool :=
  decide (r.rails.length = 5 ∧ r.tj.length = 5) &&
    r.drift.all fun d => decide (d.1 < 5 ∧ d.2.1 < 5)

/-- The configuration that an attempt applies (R397): bytes of the widest object, and no bay named twice. -/
def BootInput.fit (b : BootInput) : Bool :=
  decide (b.failedBays.Nodup) && b.config.all fun c => decide (c.value < 2 ^ 512)

/-- The bytes of a catalogue value: 1 to 64 (R318). -/
def valueSized (l : List Byte) : Bool := decide (1 ≤ l.length ∧ l.length ≤ 64)

/-- The slots of a frame's granules in its blocks hold them: blocks of 80 slots, as many as the frame lies in, with the three
codewords that carry a block and its trailer (R263, R266). -/
def Arrival.fits (a : Arrival) (f : Frame) : Bool :=
  decide (f.body.length ≤ 15) && (a.blocks.isEmpty ||
    (decide (a.blocks.length = (a.slot.val + f.body.length) / 80 + 1) &&
      a.blocks.all (fun b => decide (b.slots.length = 80 ∧ b.codewords.length = 3)) &&
      decide (((a.blocks.flatMap LinkBlock.slots).drop a.slot.val).take (f.body.length + 1) = f.hdr :: f.body)))

/-- The shape of a command's operands. -/
def Instr.wf : Instr → Bool
  | .search _ f => f.typed 1 0
  | .programStage _ _ u _ => u.all MemWord.inside
  | .tableFrame _ f => f.typed 4 1
  | .learn _ f => f.typed 7 3
  | .mem _ f u => f.typed 6 1 && u.all MemWord.inside
  | .registerWrite _ _ _ l => valueSized l
  | .hello _ f => f.typed 0 0
  | .idle _ f => f.typed 0 0
  | .frameReceive _ f a => a.fits f
  | .candidate _ f => f.typed 3 2
  | .fence _ f => f.typed 3 2 && decide (fld f.hdr 111 110 = 2)
  | .readReq q => q.of 0x01
  | .writeReq q => q.of 0x03
  | .segInit q => q.of 0x05
  | .segData q => q.of 0x07
  | .segAck q => q.of 0x08
  | .mbxReq q => q.of 0x09
  | .abort q => q.of 0x0B
  | .sleepReq q => q.of 0x0E
  | .openSession q => q.op 1
  | .prove q => q.op 2
  | .close q => q.op 3
  | .badPdu q => q.shaped
  | .keyLoad _ l => decide (l.length = 49)
  | .fwUpdImage _ l _ _ => decide (l.length ≤ 59)
  | .pornRelease _ b => b.fit
  | .sysrstnRelease b => b.fit
  | .internalRestart b => b.fit
  | .tapExit r => r.boot.fit
  | .trstn b => b.fit
  | .supplyRise _ _ b => b.fit
  | .srRegionStart _ u => u.all MemWord.inside
  | .regionRelease _ f => f.fit
  | .regionSample r => r.full
  | .thermalSample tj => decide (tj.length = 5)
  | .canError tec rec => decide (tec.toNat < 256 ∧ rec.toNat < 256)
  | .porn low => decide (0 < low)
  | .sysrstn low => decide (0 < low)
  | .result _ => true
  | .tblCmd _ _ _ => true
  | .insert => true
  | .write => true
  | .read => true
  | .delete => true
  | .move => true
  | .scan => true
  | .alloc => true
  | .free => true
  | .advance => true
  | .edAdvance _ _ _ => true
  | .editionFloor _ => true
  | .maintSlot _ _ => true
  | .clampPassEnd => true
  | .pfxSettle _ => true
  | .buildTrie _ _ => true
  | .buildHash _ _ => true
  | .trie _ _ => true
  | .hash _ _ => true
  | .pfxBuildDone _ => true
  | .pfxBuildFail _ _ _ => true
  | .bankTestRequest _ _ => true
  | .bankTest _ _ _ => true
  | .copyFillDone _ => true
  | .learnApply _ => true
  | .emNowTick => true
  | .emTick _ _ => true
  | .emLfsrSeed _ _ => true
  | .stampSweep _ _ => true
  | .releaseWaitEnd _ => true
  | .poolProbeSel _ _ _ => true
  | .carData _ _ _ => true
  | .carClear _ _ _ => true
  | .carClearDone _ => true
  | .accession _ _ => true
  | .accessionSwitch => true
  | .accDiscard _ _ => true
  | .reductionSwitch => true
  | .reductionSecondSwitch => true
  | .linkBringUp _ => true
  | .linkFail _ => true
  | .linkRestart _ => true
  | .linkDown _ _ => true
  | .uncorrWindow _ _ => true
  | .retrain _ _ _ => true
  | .linkDrop _ => true
  | .slotFill _ => true
  | .memberSend _ _ => true
  | .collectorClose _ _ => true
  | .mergedSend _ _ => true
  | .ownerClose _ _ => true
  | .casOrphan => true
  | .timeout _ => true
  | .sessionIdle _ => true
  | .dbusNodeClash => true
  | .nodeClashClear => true
  | .dbusBusoff => true
  | .busoffRecovery => true
  | .heartbeat => true
  | .eventPdu => true
  | .eventFrame _ => true
  | .dbusSleep => true
  | .deviceWake => true
  | .busWake => true
  | .busActive => true
  | .postedDone _ => true
  | .mbxSel _ _ => true
  | .mbxSnapshot _ => true
  | .mbxContextRelease _ => true
  | .dbAck _ _ _ => true
  | .dbCodeCfg _ _ => true
  | .startComplete => true
  | .fwTimeout => true
  | .provReq _ _ => true
  | .provBuildDone => true
  | .fwUpdTarget _ _ => true
  | .fwEraseDone _ => true
  | .fwPolicy _ _ => true
  | .lcReq _ _ => true
  | .lcFuseDone _ => true
  | .vaultData _ _ => true
  | .tamperCauseChange _ _ => true
  | .tamperCfg _ _ => true
  | .vaonRise => true
  | .vaonLoss => true
  | .aclkQualified => true
  | .bayRebuilt _ => true
  | .bayFence => true
  | .bayRetest _ _ => true
  | .release _ _ _ => true
  | .wearSample _ _ => true
  | .mgmtWait => true
  | .mgmtWake _ => true
  | .supplyLoss _ => true
  | .extest _ => true
  | .linkAligned _ a _ _ => decide (a.laneOf.length = 8)
  | .fwFault _ => true
  | .fwAbort _ => true
  | .bistFail _ _ => true
  | .pllLockFail _ => true
  | .canFrameDiscard _ => true
  | .protocolException => true
  | .protocolExceptionEnd => true
  | .dbusRateSwitch => true

end Sys2Proof
end

