-- ==== Sys2Proof/Tests/Slice0.lean ====
section
/-! SUPPORT. Tests of single steps and formulas. Expected values come from the spec's worked examples and rules, named at
each test, or from the published vectors of CRC-32, SHA-384 and HMAC. -/

namespace Sys2Proof.Tests

open Sys2Proof Sys2Proof.Machine

set_option Elab.async false

/-! ### Formulas -/

/-- The check value of the CRC of R266 over the digits 1 to 9. -/
theorem test_crc : frameCrc [0x31, 0x32, 0x33, 0x34, 0x35, 0x36, 0x37, 0x38, 0x39] = 0xCBF43926 := by decide +kernel

/-- FIPS 180-4: SHA-384 of "abc". -/
theorem test_sha384 : ofBytesBE (sha384 [0x61, 0x62, 0x63]) =
    0xcb00753f45a35e8bb5a03d699ac65007272c32ab0eded1631a8b605a43ff5bed8086072ba1e7cc2358baeca134c825a7 := by decide +kernel

/-- RFC 4231, case 2: the key "Jefe". -/
theorem test_hmac : ofBytesBE (hmac [0x4a, 0x65, 0x66, 0x65] ([0x77, 0x68, 0x61, 0x74, 0x20, 0x64, 0x6f, 0x20, 0x79, 0x61,
      0x20, 0x77, 0x61, 0x6e, 0x74, 0x20, 0x66, 0x6f, 0x72, 0x20, 0x6e, 0x6f, 0x74, 0x68, 0x69, 0x6e, 0x67, 0x3f])) =
    0xaf45d2e376484031617f78d2b58a6b1b9c7ef464f5a01b47e42ec3736322445e8e2240ca5e69e2c78b3239ecfab21649 := by decide +kernel

/-- Chapter 11, example: identifiers of WRITE_REQ and WRITE_RSP. -/
theorem test_identifiers : pduIdent ⟨.bus 0x10, 3, 3, 0x10, 0x2A, 5, []⟩ = 0x0C620545 ∧
    pduIdent ⟨.bus 0x10, 3, 4, 0x2A, 0x10, 5, []⟩ = 0x0C854205 := by decide

/-- R17 and chapter 1, example: bays 24 to 31 and 16 to 23 after reset. -/
theorem test_bay_map : (List.range 8).map (fun j => State.reset.view.phys (24 + j)) = (List.range 8).map (fun j => some (25 + j)) ∧
    (List.range 8).map (fun j => State.reset.view.phys (16 + j)) = (List.range 8).map (fun j => some (17 + j)) := by decide +kernel

/-- Chapter 3, example: NBKT 17, SEED 0x3C1. -/
theorem test_bucket_hash : [0x0A4, 0x0A5, 0x0A6, 0x0A7].map
    (bucketOf { lab.view.trn 1 with seed := 0x3C1, nbkt := 17 }) = [1, 7, 5, 11] := by decide +kernel

/-- Chapter 4, example: units of the hash image of table 14 on each slice. -/
theorem test_hash_units : (List.range 4).map ({ lab.view.pfx 3 with
      w := 32, groups := [(8, 7), (12, 10), (16, 14), (20, 15), (22, 16), (24, 18), (28, 13), (32, 14)] } : Pfx).hashUnits =
    [262656, 1052672, 98304, 196608] := by decide +kernel

/-- Chapter 5, example: the slot of entry B. -/
theorem test_slot_index : slotIndex 2 1 20000 5 = 0x4A7105 := by decide

/-- Chapter 2, example: port 13 takes frames that end in cycles 1,000 and 1,003 at 1,007 and 1,011. -/
theorem test_intake_cycle : [intakeCycle 13 1000, intakeCycle 13 1003] = [1007, 1011] ∧ latency 2 = 200 := by decide

/-- A two-stage result due at 1,200 on port 0. -/
def due1200 : State := { lab with search := { lab.search with errs := [⟨0, 1200, 0⟩] } }

/-- Chapter 2, example: one-stage frames that end at 1,089, 1,090 and 1,086. -/
theorem test_window : [1089, 1090, 1086].map (fun a => due1200.windowClash 0 (a + latency 1)) = [true, false, false] := by
  decide +kernel

/-- Chapter 16, example: region 338 of die 0 is a mat of physical bay 9. -/
theorem test_region : regionBay 0 338 = some 9 ∧ 338 % 36 = 14 := by decide

/-- R64: a window of 16,384 editions, modulo 65,536. -/
theorem test_edition_window : edLe 0xFFF0 0x0005 = true ∧ edLe 5 0xFFF0 = false ∧ edLe 0 16383 = true ∧ edLe 0 16384 = false := by
  decide

/-- R13, R318: a granule's bytes are sent most significant first; an OCT value of R318 likewise. -/
theorem test_byte_order : (granuleBytes (granule [(8, 0x12), (120, 0x34)])).head? = some 0x12 ∧
    (OType.oct 2).bytes 0x1234 = [0x12, 0x34] ∧ OType.u16.bytes 0x1234 = [0x34, 0x12] := by decide

/-! ### Well-formed commands: one ill-formed term for each check -/

/-- A SEARCH frame of one granule after its header. -/
def framed : Frame := linkFrame 1 0 ⟨0, [0]⟩

theorem test_wf_frames : (Instr.search 0 framed).wf = true ∧ (Instr.search 0 { framed with body := [] }).wf = false ∧
    (Instr.tableFrame 0 framed).wf = false ∧ (Instr.learn 0 framed).wf = false ∧ (Instr.mem 0 framed []).wf = false ∧
    (Instr.hello 0 framed).wf = false ∧ (Instr.idle 0 framed).wf = false ∧ (Instr.candidate 0 framed).wf = false ∧
    (Instr.fence 0 (linkFrame 3 2 ⟨0, [0]⟩)).wf = false ∧
    (Instr.frameReceive 0 ⟨0, List.replicate 16 0⟩ ⟨0, []⟩).wf = false ∧
    (Instr.frameReceive 0 (one 4 1) (arrives 0 0 0 false)).wf = false ∧ (Instr.frameReceive 0 (one 4 1) ⟨0, []⟩).wf = true ∧
    (Instr.linkAligned 0 (aligned [0] 0 5) 1 1).wf = false ∧ (Instr.linkAligned 0 (aligned straight 0 5) 1 1).wf = true := by
  decide +kernel

theorem test_wf_words : (Instr.programStage 0 0 [⟨.side, 68, 0⟩] []).wf = false ∧
    (Instr.mem 0 (linkFrame 6 1 ⟨0, []⟩) [⟨.ads, 4, 0⟩]).wf = false ∧ (Instr.srRegionStart .pass [⟨.shadow, 64, 0⟩]).wf = false ∧
    (Instr.regionRelease 0 ⟨[], [], [⟨.carrel, 16, 0⟩]⟩).wf = false ∧ (Instr.regionRelease 0 ⟨[], [], [⟨.side, 67, 36863⟩]⟩).wf = true := by decide

theorem test_wf_pdus : (Instr.readReq (pdu 1 [])).wf = true ∧ (Instr.readReq { pdu 1 [] with src := 8 }).wf = false ∧
    (Instr.writeReq (pdu 1 [])).wf = false ∧ (Instr.segInit (pdu 1 [])).wf = false ∧ (Instr.segData (pdu 1 [])).wf = false ∧
    (Instr.segAck (pdu 1 [])).wf = false ∧ (Instr.mbxReq (pdu 1 [])).wf = false ∧ (Instr.abort (pdu 1 [])).wf = false ∧
    (Instr.sleepReq (pdu 1 [])).wf = false ∧ (Instr.openSession (pdu 0x11 [2])).wf = false ∧
    (Instr.prove (pdu 0x11 [1])).wf = false ∧ (Instr.close (pdu 0x11 [1])).wf = false ∧
    (Instr.badPdu (pdu 0x1F (List.replicate 65 0))).wf = false := by decide

theorem test_wf_values : (Instr.registerWrite host 0 0 []).wf = false ∧ (Instr.keyLoad host [1]).wf = false ∧
    (Instr.fwUpdImage host (List.replicate 60 0) true false).wf = false ∧ (Instr.porn 0).wf = false ∧ (Instr.sysrstn 0).wf = false ∧
    (Instr.thermalSample [0]).wf = false ∧ (Instr.regionSample ⟨[], [], []⟩).wf = false ∧
    (Instr.canError 256 0).wf = false ∧ (Instr.sysrstnRelease { input with failedBays := [3, 3] }).wf = false ∧
    (Instr.trstn { input with config := [⟨0, 0, 2 ^ 255 * 2 ^ 255 * 4⟩] }).wf = false := by decide +kernel

/-! ### The queue -/

/-- A step runs the front command and leaves the rest waiting. -/
theorem test_step_front : (match step { calm with pending := [.trstn input, .casOrphan] } with
    | .next t => decide (t.pending = [.casOrphan] ∧ t.dev.tap.st = .reset) | _ => false) = true := by decide +kernel

/-! ### Catalogue and daybook -/

/-- Chapter 11, example: a Steward sets `MQ_PRIO` of room 1 (0x3100.08) to 6; another write of the cycle is superseded. -/
theorem test_mq_prio : let s := run (.registerWrite host 0x3100 0x08 [6]) ((calm.setSession 0 { keeper with askLevel := 2 }).setSession 16 { keeper with askLevel := 2 })
    s.reg .mqPrio 1 = 6 ∧ code s = 0 ∧ code (run (.registerWrite peer 0x3100 0x08 [2]) s) = Ab.superseded ∧
    (run (.registerWrite peer 0x3100 0x08 [2]) s).reg .mqPrio 1 = 6 := by decide +kernel

/-- Chapter 13, example: `BAY_MAP_SEL` = 24 and a read of `BAY_MAP` gives physical bay 25; another master's does not. -/
theorem test_bay_map_sel : let s := run (.registerWrite host 0x8400 0x01 [24]) base
    code s = 0 ∧ (s.readAt host true 0x8400 0x02).1 = ⟨0, [25]⟩ ∧ (s.ownReg (.bus 8) .bayMapSel) = 0 := by decide +kernel

/-- Chapter 12, example: ring 5 is full from SEQ 1,000, two records were dropped, and `DB_ACK` = 1,500 leaves 524 and a
DB_OVERFLOW. -/
def ring5 : State :=
  base.setRing 5 { Ring.empty with rseq := 1000, recs := List.replicate 1024 ⟨0, 0x0603, 0, 5, true, 1, 0, 0⟩, dropped := 2,
                                   firstDrop := 22500, lastDrop := 27500 }

theorem test_db_ack : let s := run (.dbAck host 5 1500) ring5
    (s.ring 5).rseq = 1500 ∧ (s.ring 5).recs.length = 525 ∧ (log s 5).getLast? = some Code.dbOverflow.num ∧ (s.ring 5).dropped = 0 := by
  decide +kernel

/-- R367: a SEQ past WSEQ is refused with RANGE. -/
theorem test_db_ack_range : let s := run (.dbAck host 5 2025) ring5
    code s = Ab.range ∧ (s.ring 5).rseq = 1000 := by decide +kernel

/-- R352: ACC_DISCARD of group 6 reverts a staged allotment, and one of group 0 leaves it. -/
theorem test_acc_discard : let s := base.stage (Obj.roomBaysLo.key 0) 1
    [run (.accDiscard host 0x40) s, run (.accDiscard host 1) s].map (fun u => u.stagedKey (Obj.roomBaysLo.key 0)) = [0, 1] := by
  decide +kernel

/-- R33, R354: an allotment is in force only from the switch cycle. -/
theorem test_accession : let s := run (.accession host 0x40) (base.stage (Obj.roomBaysLo.key 0) 1)
    s.view.obj .roomBaysLo 0 = 0 ∧ s.cat.acc.busy = true ∧ s.cat.acc.values = [(Obj.roomBaysLo.key 0, 1)] := by decide +kernel

/-- Values asked for, to be switched at cycle 1,000,100. -/
def switching1 : State :=
  { base with cat := { base.cat with acc := { base.cat.acc with
      busy := true, groups := 0x40, switchAt := 1000100, values := [(Obj.roomBaysLo.key 0, 1)] } } }

theorem test_accession_switch : let s := run .accessionSwitch switching1
    s.view.obj .roomBaysLo 0 = 1 ∧ s.now = 1000100 ∧ s.cat.acc.busy = false ∧ log s 16 = [Code.accApplied.num] := by decide +kernel

/-- R370: the class of a code that DB_CODE_SEL names. -/
theorem test_db_code_cfg : let s := run (.registerWrite host 0x9000 0x01 [0x01, 0x01]) base
    code (run (.dbCodeCfg host 7) s) = 0 ∧ (run (.dbCodeCfg host 7) s).reg .dbCodeCfg 0 0 0x0101 = 7 ∧
    code (run (.dbCodeCfg host 8) s) = Ab.range ∧ code (run (.dbCodeCfg host 7) base) = Ab.range := by decide +kernel

/-! ### Table commands -/

/-- Statuses of the TCOMP frames that wait on port 0 (R177). -/
def tcomps (s : State) : List Nat := (s.port 0).tx1.map fun x => fld x.frame.hdr 79 72

/-- The STATUS of a command of the command registers (R180). -/
def regStatus (s : State) : Nat := s.reg .tblStatus 0

/-- R178, R187: an INSERT of a ternary entry takes its rows; its row writes wait for maintenance slots. -/
theorem test_insert_ternary : let s := run .insert (waiting lab (tab 1 opInsert) (entry 101 :: key1))
    (s.queue 0).map (fun c => (c.started, c.ops.length, c.adds.length)) = [(true, 1, 1)] := by decide +kernel

/-- R126, R178: an INSERT of a prefix entry, and one with a prefix that stands already. -/
theorem test_insert_prefix : ((run .insert (waiting lab (tab 3 opInsert) (pent 8 101))).table 3).entries.length = 1 ∧
    ((run .insert (waiting lab (tab 3 opInsert) (pent 8 101))).queue 0).map (fun c => (c.started, c.ops.length)) =
      [(true, 0)] := by decide +kernel

/-- R143, R150: an exact-match INSERT stands in a candidate slot of its key. -/
theorem test_insert_exact : let s := run .insert (waiting lab (tab 5 opInsert) [slot 4 77])
    s.emFind (em 5) ((em 5).owner 0 77) 77 = some (posOf 5) ∧ slotData (s.emSlot (posOf 5)) = 4 := by decide +kernel

/-- R150: DELETE by key empties the slot. -/
theorem test_delete_exact : let s := run .delete (waiting (keyed 5) (tab 5 opDelete) [slot 0 77])
    s.emFind (em 5) ((em 5).owner 0 77) 77 = none := by decide +kernel

/-- R205, R217: ALLOC of class 1 takes two blocks with HOLD, and FREE of block 1 clears its HOLD. -/
theorem test_alloc_free : let s := run .alloc (waiting lab (tab 0 opAlloc) (poolW 1 0 false 0 0))
    ((List.range 8).map fun b => (s.alloc b).allocated) = [true, true, true, false, false, false, false, false] ∧
    ((s.alloc 2).hold = true ∧ (s.alloc 2).cls = 1) ∧
    ((run .free (waiting lab (tab 0 opFree) (poolW 0 0 false 1 0))).alloc 1).hold = false := by decide +kernel

/-- R192, R195: ADVANCE moves the room on by one; with another EXPECT nothing moves. -/
theorem test_advance : (run .advance (waiting lab (tab 0 opAdvance 0 100))).current 0 = 101 ∧
    (run .advance (waiting lab (tab 0 opAdvance 0 99))).current 0 = 100 := by decide +kernel

/-- R181, R323: a TABLE frame joins its room's queue; a room that port 0 has no authority for is refused. -/
theorem test_table_frame : ((run (.tableFrame 0 (tabFrame 0)) lab).queue 0).length = 1 ∧
    ((run (.tableFrame 1 (tabFrame 0)) lab).queue 0).length = 0 := by decide +kernel

/-- R180: TBL_CMD with GO queues the staged image and shows BUSY; a second one meets CMD_BUSY. -/
theorem test_tbl_cmd : let s := run (.tblCmd host 0 0x80000000) lab
    (s.queue 0).length = 1 ∧ nbit (regStatus s) 31 = true ∧ code (run (.tblCmd host 0 0x80000000) s) = Ab.cmdBusy := by decide +kernel

/-- R184, R198: a maintenance slot of logical bay 0 writes the row that the command at the head names. -/
theorem test_maint_slot : let s := run (.maintSlot 0 ⟨0, false, false, false⟩) (run .insert (waiting lab (tab 1 opInsert) (entry 101 :: key1)))
    s.queue 0 = [] ∧ (s.table 1).placed.length = 1 ∧ (sideOf (s.sideWord (rowKey 0 0 0))).prio = 5 := by decide +kernel

/-! ### Searches and memory -/

/-- R37 to R41: the last granule of a frame handed over at cycle 1,000,000 came at 999,993; port 0 takes it in at A + 7, an even
cycle, and its result is due 112 cycles after A. -/
theorem test_search : let s := run (.search 0 (searchFrame 0 5)) searchable
    s.search.flight.map (fun x => (x.tag, x.accepted, x.due, x.edition)) = [(7, 1000000, 1000105, 100)] := by decide +kernel

/-- R37: a program that is not enabled for the port is answered NO_PROG by an error result. -/
theorem test_search_refused : let s := run (.search 0 (searchFrame 3 5)) searchable
    s.search.flight = [] ∧ s.search.errs.map (·.due) = [1000105] := by decide +kernel

/-- R60, R65: the stage hits the entry at PRIO 5. -/
theorem test_program_stage : let s := run (.programStage 0 9 [] []) (withFlight (trnHolding 1) (flight (trnHolding 1) 1000112))
    s.search.flight.map (fun x => ((x.out 0).hit, (x.out 0).prio, (x.out 0).ptr)) = [(true, 5, 1)] := by decide +kernel

/-- R44, R48: a result leaves in its due cycle and frees its tag. -/
theorem test_result : let s := run (.result 0) (withFlight searchable (ready false))
    s.wire.head?.map (fun w => (w.slot, w.port)) = some (5000560, 0) ∧ s.search.flight = [] := by decide +kernel

/-- R227 to R230: a byte written to the carrel reads back; A WRITE of half an ADS word leaves the other half. -/
theorem test_mem : let s := run (.mem 0 (memFrame 0 1 1 9 [granule [(8, 0xAB), (120, 0)]]) []) lab
    s.carWord 0 1 = 0x00AB000000000000 ∧ (s.port 0).tx1.length = 1 := by decide +kernel

/-- R233: CAR_DATA writes the word at CAR_ADDR, and CAR_CLEAR empties the carrel, which takes 8,192 cycles. -/
theorem test_car_data : (run (.carData host 0 0x1122334455667788)
      (run (.registerWrite host 0x3000 0x24 [16, 0, 0, 0]) lab)).carWord 0 16 = 0x1122334455667788 ∧
    (let s := run (.carClearDone 0) (run (.carClear host 0 1) (lab.setCarWord 0 2 5))
     s.carWord 0 2 = 0 ∧ s.now = 1008192) := by decide +kernel

/-! ### Links -/

/-- R271, R274: frames lost on the link give their credit back with the peer's TXSENT1. -/
theorem test_idle_credit : let s := run (.idle 0 (creditFrame ⟨0, 45, 0, 0, 0, 0, 0, 0, 0, 0, 0⟩)) lab
    (s.port 0).rxcount1 = 45 ∧ (s.port 0).rxfreed1 = 45 ∧ s.reg .portCreditLost 0 = 45 := by decide +kernel

/-- R280, R283: a HELLO of a HOST peer of version 1 is valid, one with another version is not. -/
theorem test_hello : ((run (.hello 0 (hi 1 1 16)) (ported .hello)).port 0).helloValid = true ∧
    ((run (.hello 0 (hi 2 1 16)) (ported .hello)).port 0).helloValid = false := by decide +kernel

/-- R267: an uncorrectable codeword drops its frame and counts it. -/
theorem test_frame_damage : (run (.frameReceive 0 (one 4 1) (arrives 0 0 16 false)) lab).reg .portFrameDrop 0 = 1 ∧
    ((run (.frameReceive 0 (one 4 1) (arrives 0 0 15 false)) lab).port 0).rxcount1 = 1 := by decide +kernel

/-- R260, R278: a port that leaves UP trains again, and what waits is discarded. -/
theorem test_link_down : ((run (.linkDown 0 5) lab).port 0).st = .training ∧ (run (.linkDown 0 5) lab).reg .portRetrain 0 = 1 := by
  decide +kernel

/-! ### The dictionary bus -/

/-- R320, R333: READ_REQ of ID_DEVICE (0x1000.03) by a Public master. -/
theorem test_read_req : ((run (.readReq (pdu 1 [0, 0x10, 3, 0])) calm).bus.out.map fun f => (f.pdu.service, f.pdu.dst, f.pdu.bytes)) =
    [(2, 9, [0, 0x10, 3, 0, 2, 0x40, 0x64])] := by decide +kernel

/-- R320: a Public master may not write ROOM_QUOTA: ACCESS. -/
theorem test_write_req : ((run (.writeReq (pdu 3 [0, 0x30, 0x20, 4, 1, 0, 0, 0])) calm).bus.out.map fun f => (f.pdu.service, f.pdu.bytes)) =
    [(4, [0, 0x30, 0x20, BitVec.ofNat 8 Ab.access])] := by decide +kernel

/-- R330: a PDU for another node is not answered. -/
theorem test_other_node : (run (.readReq { pdu 1 [0, 0x10, 3, 0] with dst := 6 }) calm).bus.out = [] ∧
    (run (.readReq { pdu 1 [0, 0x10, 3, 0] with dst := 6 }) calm).cat = calm.cat := by decide +kernel

/-- R335: the first segment of a download in order, and one out of order. -/
theorem test_seg_data : ((run (.segData (segment 0 [0, 1, 2])) (downloads 0 0 0)).transferOf host).map (·.data) = some [1, 2] ∧
    (run (.segData (segment 1 [0, 1, 2])) (downloads 0 0 0)).transferOf host = none := by decide +kernel

/-- R335: 100 ms without a segment. -/
theorem test_timeout : let s := run (.timeout host) (downloads 0 0 0)
    s.transferOf host = none ∧ s.now = 251000000 ∧ s.bus.out.map (·.pdu.service) = [0xB] := by decide +kernel

/-- R324: an OPEN gets an unproved session, and a PROVE with a wrong proof is counted. -/
theorem test_sessions : (run (.openSession (pdu 0x11 [1, 2, 0, 0])) provisioned).sessionOf host = some 0 ∧
    (run (.prove (pdu 0x11 (2 :: List.replicate 51 0))) asking).reg .sesFails = 1 := by decide +kernel

/-- R326: a session ends 60 s after its last request. -/
theorem test_session_idle : (run (.sessionIdle 0) base).now = 150000000000 ∧ ((run (.sessionIdle 0) base).session 0).isOpen = false ∧
    log (run (.sessionIdle 0) base) 16 = [Code.sesEnd.num] := by decide +kernel

/-- R327: error-passive from 128 on; R331: a clash is shown and ends after 10 s. -/
theorem test_bus_faults : (run (.canError 127 0) calm).bus.passive = false ∧ (run (.canError 127 128) calm).bus.passive = true ∧
    (run .nodeClashClear (run .dbusNodeClash calm)).now = 25001000000 := by decide +kernel

/-- R342: 5 ms of idle bus; R344: a dominant phase wakes it. -/
theorem test_sleep : (run .dbusSleep (sleeping (.waiting 1000000))).now = 13500000 ∧
    (run .dbusSleep (sleeping (.waiting 1000000))).bus.sleep = .asleep ∧ (run .busWake (sleeping .asleep)).bus.sleep = .waking := by
  decide +kernel

/-- R338: the first heartbeat, and the next 100 ms later. -/
theorem test_heartbeat : (run .heartbeat calm).bus.out.map (fun f => (f.pdu.service, f.pdu.prio, f.pdu.bytes.take 2)) = [(0xD, 6, [1, 0])] ∧
    (run .heartbeat calm).bus.nextBeat = 500000000 := by decide +kernel

/-! ### Starts, the vault, health -/

/-- A start 760 ms after it began, in which required port 5 has not come up within 200 ms. -/
def lateLink : State :=
  let s := regs [(Obj.portCtrl.key 5, 2)] (force [(Obj.portRole.key 5, 1)] (starting 8))
  ({ s with now := 1400000000 }).setPort 5 { Port.reset with st := .training, begun := 1400000000 }

/-- Chapter 14, example: LINK_REQUIRED, DETAIL 5, ELAPSED 760, FAILS 1. -/
theorem test_link_required : let b := (run (.linkFail 5) lateLink).slotBytes 0
    (b.getD 2 0, b.getD 3 0, b.getD 4 0, (b.drop 5).take 2, (b.drop 8).take 2) = (3, 1, 0x40, [0, 5], [0x02, 0xF8]) := by decide +kernel

/-- R400: two seconds without start-complete. -/
theorem test_fw_timeout : let s := run .fwTimeout (starting 7)
    s.now = 5000000000 ∧ s.boot.attempt.active = false ∧ s.boot.attempt.fails = 1 ∧ s.boot.attempt.restartDue.isSome = true := by
  decide +kernel

/-- R478: SYSRSTn low for 3 µs resets all but the vault. -/
theorem test_sysrstn : let s := run (.sysrstn 3000) lab
    s.ports = [] ∧ s.catalogueUp = false ∧ s.vault = lab.vault ∧ s.dev.sysrstn = true := by decide +kernel

/-- Chapter 15, example: TAMPER_IN0 rises while the hub is unpowered. -/
theorem test_tamper : let s := run (.tamperCauseChange 2 true) { (pins fun d => { d with vin := false, vio := false }) with vault :=
      { base.vault with words := [(0x20, 7)] } }
    s.vault.words = [] ∧ s.vault.tamperCnt = 1 ∧ s.vault.latchCount = 1 ∧ s.vault.latchSource = 2 := by decide +kernel

/-- R426, R432: a Keeper loads key 3 in a device that is not Blank; with a tamper cause present it may not. -/
theorem test_key_load : ((aged 1).wrKeyLoad host (3 :: List.replicate 48 7)).1.keyBytes 3 = List.replicate 48 7 ∧
    (base.wrKeyLoad host (3 :: List.replicate 48 7)).2 = Ab.lcKeys := by decide +kernel

/-- R429, R430: from Factory to Provisioned; the fuses blow at LC_FUSE_DONE. -/
theorem test_lc_req : ((aged 1).wrLcReq 2).1.vault.lcTarget = some 2 ∧ (base.wrLcReq 2).2 = Ab.lcTransition ∧
    (run (.lcFuseDone true) ((aged 1).wrLcReq 2).1).lcState = 2 := by decide +kernel

/-- R348, R425: a posted vault write takes effect at POSTED_DONE. -/
theorem test_vault_data : let s := run (.vaultData host 9) (addressing 0xF8)
    s.vaultWord 0xF8 = 0 ∧ (run (.postedDone 0xA100) s).vaultWord 0xF8 = 9 := by decide +kernel

/-- Chapter 16, example: the spare of die 0 takes the place of bay 0, which is fenced 264 cycles later. -/
theorem test_rebuild : let s := run .bayFence (rebuilding true)
    s.now = 1050264 ∧ s.bays.fenced = [0] ∧ s.bays.retests = [(0, 2501050264)] := by decide +kernel

/-- R453 to R455: a rail 90 mV away from the others for more than 10 µs raises ALARM, and one 100 mV away holds its die. -/
theorem test_region_sample : (past 0 1).alarmOf (readings 790 30000) 0 = some (1, 1, 790, 700) ∧
    (past 0 1).holdsOf (readings 790 30000) = [] ∧
    (past 1 1).holdsOf (readings 800 30000) = [([0], 1, 0, 1, 800, 700)] ∧
    ((base.holdDie false 0).region 0).held = true ∧ ((base.holdDie false 0).region 1).held = false := by decide +kernel

/-- R481: Tj above 112 °C in one sample holds no die yet; a die held for heat remembers it. -/
theorem test_thermal : let s := run (.thermalSample [112001, 0, 0, 0, 0]) base
    (s.region 0).held = false ∧ (s.region 0).hotOnce = true ∧ ((s.holdDie true 0).region 0).byHeat = true := by decide +kernel

/-- R457: 25 mV of wear raise the target by two steps. -/
theorem test_wear : let s := region0 fun g => { g with targetMv := 700 }
    (run (.wearSample 0 25) s).reg .wearShift 0 0 = 25 := by decide +kernel

/-- R25 to R29: MCLK stops when nothing waits, and runs after any cause. -/
theorem test_mgmt : (run .mgmtWait base).dev.mclk = false ∧ (run (.mgmtWake .timer) (run .mgmtWait (starting 8))).dev.mclk = true := by
  decide +kernel

end Sys2Proof.Tests
end

