-- ==== Sys2Proof/Tests/Witness1.lean ====
section
/-! SUPPORT. Witnesses of the statements about the queue, the daybook and the catalogue: concrete states and operands
that meet the hypotheses of each clause. -/

namespace Sys2Proof.Tests

open Sys2Proof Sys2Proof.Machine

set_option Elab.async false

theorem witness_QueueIsFifo : (∃ t, step { base with pending := [.emNowTick, .casOrphan] } = .next t) ∧ base.pending = [] :=
  ⟨⟨_, rfl⟩, rfl⟩

theorem witness_MemoriesStayCanonical : base.mem.wf = true ∧ ∃ t, step base = .next t := ⟨by decide, _, rfl⟩

theorem witness_FaultCauseFollows : ∃ t, exec (.registerWrite host 0x9000 1 [1, 2]) base = .next t := ⟨_, rfl⟩

/-- A ring with 1,024 records. -/
def fullRing : Ring := { Ring.empty with recs := List.replicate 1024 ⟨0, 0, 0, 0, false, 0, 0, 0⟩ }

theorem witness_RingsFillAndDrop : ((base.setRing 3 fullRing).ring 3).recs.length = 1024 ∧ base.ringOpen 16 ∧
    (base.setRing 3 { fullRing with recs := fullRing.recs.drop 1 }).ringOpen 3 :=
  ⟨by decide +kernel, ⟨by decide +kernel, by decide +kernel⟩, by decide +kernel, by decide +kernel⟩

/-- Two records acknowledged up to SEQ 1, one more dropped. -/
def dropping : State :=
  base.setRing 16 { Ring.empty with rseq := 1, recs := List.replicate 2 ⟨0, 0, 0, 0, false, 0, 0, 0⟩, dropped := 1 }

theorem witness_DaybookWrites : base.CanWrite host .dbAck 0 ∧ dropping.CanWrite host .dbAck (16 : Fin 17) ∧
    ((dropping.ring 16).wseq dropping.now = 3 ∧ (dropping.ring 16).dropped ≠ 0) ∧ base.CanWrite host .dbCodeCfg 0 ∧
    (regs [(Obj.dbCodeSel.key 0 0, 0x0101)] base).CanWrite host .dbCodeCfg 0 :=
  ⟨canWrite_of (by decide +kernel), canWrite_of (by decide +kernel), by decide +kernel, canWrite_of (by decide +kernel),
    canWrite_of (by decide +kernel)⟩

/-- The bus node's context selects a code: 0x0101 is assigned, 0 is not. -/
def selecting (v : Nat) : State :=
  (base.setMailbox 32 { Mailbox.none with holder := 10 }).setCtxReg 32 Obj.dbCodeSel.key v

/-- The Keeper of node 9 acknowledges SEQ 2 of ring 16 in the cycle in which port 0 does. -/
def acking : State := { dropping.setSession 16 keeper with pending := [.dbAck host 16 2] }

theorem witness_DaybookWrites_rivals : acking.CanWrite peer .dbAck (16 : Fin 17) ∧ acking.sameCycle peer = [] ∧
    ((acking.rivals peer (Obj.dbAck.key 16)).filter fun x => acking.ranks1 x.m peer).map
      (fun x => (BitVec.ofNat 16 (ofBytesLE x.bytes) - (acking.ring 16).rseq).toNat) = [1] :=
  ⟨canWrite_of (by decide +kernel), by decide +kernel, by decide +kernel⟩

theorem witness_DaybookWrites_code : (selecting 0x0101).CanWrite host .dbCodeCfg 0 ∧
    (codeOf ((selecting 0x0101).ownReg host .dbCodeSel)).isSome = true :=
  ⟨canWrite_of (by decide +kernel), by decide +kernel⟩

theorem witness_CodeSelection : base.CanWrite host .dbCodeSel 0 ∧ (base.takeCtx host).isSome = true ∧
    (selecting 0).CanWrite host .dbCodeCfg 0 ∧ codeOf ((selecting 0).ownReg host .dbCodeSel) = none ∧
    (selecting 0).readGrant host ⟨.dbCodeCfg, 0, 0⟩ = .ok :=
  ⟨canWrite_of (by decide +kernel), by decide +kernel, canWrite_of (by decide +kernel), by decide +kernel, by decide +kernel⟩

/-- A write of an object without behaviour of its own passes its checks. -/
def plainWrite (s : State) (m : Master) (i b : Nat) (l : List Byte) : Bool :=
  match s.place i b with
  | .error _ => false
  | .ok p => s.reached m && decide (s.writeCode m p l = 0) && (s.endedNow m).isNone && !s.locked m (s.keyAt m p) &&
      !s.loses m (s.keyAt m p) && (s.writeRooms m p (p.obj.row.ty.value l)).isNone &&
      (s.writeDevice m p (p.obj.row.ty.value l)).isNone

/-- The object of an index, by its attributes: shadowed, held per context. -/
def objIs (i b : Nat) (shadowed own : Bool) : Bool :=
  match base.place i b with
  | .error _ => false
  | .ok p => p.obj.row.s == shadowed && p.obj.perContext == own

/-- Every bus context held by another node. -/
def crowded : State := (List.range 16).foldl (fun s i => s.setMailbox (32 + i) { Mailbox.none with holder := 100 }) base

/-- ROOM_BAYS_LO is shadowed, DB_CODE_SEL is held per context, ROOM_QUOTA is a plain register. -/
theorem witness_RegisterWrites : (plainWrite base host 0x3000 0x02 [1, 0, 0, 0] && objIs 0x3000 0x02 true false) = true ∧
    (plainWrite base host 0x9000 0x01 [1, 1] && objIs 0x9000 0x01 false true && (base.takeCtx host).isSome) = true ∧
    (plainWrite crowded host 0x9000 0x01 [1, 1] && (crowded.takeCtx host).isNone) = true ∧
    (plainWrite base host 0x3000 0x20 [1, 0, 0, 0] && objIs 0x3000 0x20 false false) = true := by decide +kernel

/-- Another node downloads DBUS_NODE. -/
def downloading : State :=
  { base with cat := { base.cat with transfers := [⟨.bus 8, true, 0x3000, 0x20, 4, 0, 1000000, [], 0, pdu 5 []⟩] } }

/-- Node 9 as a Steward, and a Keeper on port 0. -/
def steward : State := (calm.setSession 0 { keeper with askLevel := 2 }).setSession 16 keeper

/-- The Keeper wrote ROOM_QUOTA in this cycle. -/
def contended : State :=
  { steward with cat := { steward.cat with writes := [⟨Obj.roomQuota.key 0, peer, 0, [], 1000000, none, true⟩] } }

/-- The session of node 9 ended in this cycle. -/
def endedSession : State := calm.setSession 0 { keeper with isOpen := false, lastUse := 1000001 }

/-- Die 0 is held. -/
def heldLab : State := base.setRegion 0 { base.region 0 with held := true }

/-- What stops a write, in the order of R320. -/
def obstacle (s : State) (m : Master) (i b : Nat) (l : List Byte) : Nat :=
  if s.reached m = false then 9
  else match s.place i b with
  | .error c => if c ≠ 0 then 1 else 0
  | .ok p =>
    let k := s.keyAt m p
    let x := p.obj.row.ty.value l
    if s.writeGrant m p ≠ 0 then 2 else if s.valueCode p l ≠ 0 then 3
    else if fieldDenied p.obj (s.writer m).level (s.stagedKey k) x then 4 else if s.onHeldDie m p x then 5
    else if s.writeCode m p l ≠ 0 then 0 else if (s.endedNow m).isSome then 6 else if s.locked m k then 7
    else if s.loses m k then 8 else 0

theorem witness_RegisterWrites_refused :
    [obstacle base host 0x2222 0 [], obstacle calm host 0x3000 0x20 [0, 0, 0, 0], obstacle base host 0x3000 0x20 [0],
      obstacle steward host 0x5100 0x20 [0, 0, 0, 0xC0], obstacle heldLab host 0x3000 0x26 [1, 0, 0, 0],
      obstacle endedSession host 0x3000 0x20 [0, 0, 0, 0], obstacle downloading host 0x3000 0x20 [0, 0, 0, 0],
      obstacle contended host 0x3000 0x20 [0, 0, 0, 0],
      obstacle { base with dev := { base.dev with phase := .minimal } } peer 0x3000 0x20 []] =
      [1, 2, 3, 4, 5, 6, 7, 8, 9] := by decide +kernel

/-- An MBX object is selected in the bus context 32. -/
def snapping : State :=
  base.setMailbox 32 { Mailbox.none with holder := 10, busy := true, sel := Obj.guarLost.key 0 / 65536 * 256 }

theorem witness_Mailboxes : base.CanWrite host .mbxSel 0 ∧
    (match base.takeCtx host with
      | some (s1, _) => (match s1.mbxPick host (Obj.guarLost.key 0 / 16777216) 2 with | .take _ => true | _ => false)
      | none => false) = true ∧
    snapping.ctxOf host = some 32 ∧ (snapping.mailbox 32).busy = true ∧ (findObj ((snapping.mailbox 32).sel / 65536) 2).isSome = true ∧
    (snapping.mailbox (32 + (0 : Fin 16))).holder ≠ 0 :=
  ⟨canWrite_of (by decide +kernel), by decide +kernel, by decide +kernel, by decide +kernel, by decide +kernel, by decide +kernel⟩

/-- A Keeper staged ROOM_BAYS_LO; on the second device room 0 would lose the bay of its table 1. -/
def staged : State := base.stage (Obj.roomBaysLo.key 0) 1
def robbed : State := (lab.stage (Obj.roomBaysLo.key 0) 2).setSession 0 keeper

/-- The result of the checks of an ACCESSION. -/
def asked (s : State) (m : Master) (v : Nat) : Option Bool :=
  let b := s.before m
  let taken := b.taken (s.who m) v
  let vals := b.adjusted taken
  let restore := b.restoreAsked (s.who m) v
  (b.checkAll (b.after vals restore) vals restore (takes taken .casSelf)).map fun r => r.log.isNone

/-- An accession waits already. -/
def accBusy : State := { base with cat := { base.cat with acc := { base.cat.acc with busy := true, switchAt := 1000100 } } }

/-- Port 0 staged ROOM_BAYS_LO in this cycle, where 1 was staged. -/
def stagedNow : State :=
  { staged with cat := { staged.cat with writes := [⟨Obj.roomBaysLo.key 0, peer, 0, [], 1000000, some 1, true⟩] } }

theorem witness_AccessionsAsked : staged.CanWrite host .accession 0 ∧ asked staged host 0x40 = none ∧ staged.sameCycle host = [] ∧
    asked base host 0x1FF = none ∧ robbed.CanWrite host .accession 0 ∧ asked robbed host 0x40 = some true ∧
    base.CanWrite host .accDiscard 0 ∧ base.cat.acc.busy = false ∧ base.guar.active = false :=
  ⟨canWrite_of (by decide +kernel), by decide +kernel, by decide +kernel, by decide +kernel, canWrite_of (by decide +kernel),
    by decide +kernel, canWrite_of (by decide +kernel), rfl, rfl⟩

theorem witness_AccessionsAsked_same : accBusy.CanWrite host .accession 0 ∧ accBusy.sameCycle host = [] ∧
    stagedNow.CanWrite host .accession 0 ∧ asked stagedNow host 0x40 = none ∧ srising 0 stagedNow.cat.staged = true ∧
    (stagedNow.sameCycle host).map (fun w => decide (w.key ∈ stagedNow.cat.staged.map Prod.fst)) = [true] :=
  ⟨canWrite_of (by decide +kernel), by decide +kernel, canWrite_of (by decide +kernel), by decide +kernel, by decide +kernel,
    by decide +kernel⟩

/-- An accession that waits for its switch cycle with a value of group 0 and one of group 8. -/
def switching : State :=
  let a : Accession := { base.cat.acc with busy := true, groups := 0x101, switchAt := 1000100,
                                           values := [(Obj.dbusNode.key, 9), (Obj.thermLimit.key, 90000)] }
  { base with cat := { base.cat with acc := a } }

theorem witness_AccessionTakesEffect : switching.cat.acc.busy = true ∧ switching.cat.acc.restore = [] ∧
    switching.cat.acc.rota = false ∧ (switching.cat.acc.values.all fun e => groupOf e.1 = some 0 || groupOf e.1 = some 8) = true ∧
    srising 0 switching.cat.acc.values = true ∧ switching.guar.degraded = [] := by decide +kernel

/-- An accession of every group from 1 on: port 0 no longer in use, tables 1 and 3 and pool 0 as they were, room 2 restored, and a
rota under which REDUCED room 0, whose program is not enabled, is served. -/
def regrouping : State :=
  let l := [(Obj.portRole.key 0, 0), (Obj.tblHdr.key 1, trnHdr 0 false 0 0 1 1 0 0), (Obj.tblHdr.key 3, pfxHdr 0 false),
    (Obj.poolDesc.key 0, poolHdr 0 false 0), (Obj.casSelf.key, 2 ^ 15), (Obj.rotaData.key 0 0 0, rotaMaint)]
  let a : Accession := { lab.cat.acc with busy := true, groups := 0x1FF, switchAt := 1000100, rota := true, restore := [2], cluster := true,
                                          values := l.foldl (fun m e => sput (fun _ => e.2 + 1) m e.1 e.2) [] }
  { lab with cat := { lab.cat with acc := a }, guar := { lab.guar with reduced := [0], shed := [2] },
             cas := { lab.cas with quarantined := true } }

theorem witness_AccessionTakesEffect_groups :
    let v := regrouping.cat.acc.values
    let t := run .accessionSwitch regrouping
    srising 0 v = true ∧ [instancesIn v 1, instancesIn v 4, instancesIn v 5] = [[0], [1, 3], [0]] ∧
    t.role 0 ≠ regrouping.role 0 ∧ (regrouping.view.put v).trn 1 = regrouping.view.trn 1 ∧
    [((regrouping.view.put v).tbl 1).kind, ((regrouping.view.put v).tbl 3).kind] = [0, 1] ∧
    ((t.port 0).st = .off ∧ t.guar.reduced = [] ∧ t.guar.shed = [] ∧ t.cas.clvalid = true ∧ t.cas.quarantined = false) := by
  decide +kernel

end Sys2Proof.Tests
end

