-- ==== Sys2Proof/Tests/Witness4.lean ====
section
/-! SUPPORT. Witnesses of the statements about maintenance slots, prefix modes, banks, copies, stamps and learning. -/

namespace Sys2Proof.Tests

open Sys2Proof Sys2Proof.Machine

set_option Elab.async false

/-! ### Maintenance slots -/

def noFind : RowFinding := ⟨0, false, false, false⟩

/-- Slot number and pending fix of logical bay 0. -/
def slotted (n fix : Nat) (s : State := lab) : State :=
  { s with bays := { s.bays with slotNo := [(0, n)] }, health := { s.health with colFix := [(0, fix)] } }

/-- What stands before every clause: the unit's next slot is in the present cycle. -/
def slotNow (s : State) (u : Nat) : Bool := s.catalogueUp && !s.dieHeld (dieOfUnit u) && decide (s.nextSlot u = some s.now)

/-- The slot goes to a claimant, or to none. -/
def slotGoes (s : State) (u : Nat) (k : Option Claimant) : Bool :=
  let s0 := (s.at s.now).catchUpSlot
  let s1 := s.inSlot u s.now
  let b := if u < 64 then s1.view.phys u else none
  slotNow s u && !s0.slotLost u s.now && (decide (sget (fun _ => 0) s1.health.colFix u = 0) || b.isNone) &&
    decide ((unitClaimants u (sget (fun _ => 0) s0.bays.slotNo u)).find? (s1.hasWork u b) = k)

/-- A started command of room 0. -/
def running (s : State) (hdr : Granule) (body : List Granule) (cur : Option Nat) (ops : List RowOp) (adds : List (List Replica)) :
    State :=
  s.setQueue 0 [⟨0, 0, linkFrame 4 1 ⟨hdr, body⟩, .reg, 0, true, cur, [], ops, [], adds, [], [], none⟩]

/-- A ternary command that writes row 3 of mat 0 of bay 0, then row 4. -/
def operating (last adds : Bool) : State :=
  let o := fun (r : Nat) => (⟨0, 0, r, some 5, some 6⟩ : RowOp)
  running (slotted 1 0) (tab 1 opInsert) [] none (if last then [o 3] else [o 3, o 4]) (if adds then [[⟨0, 0, 3⟩]] else [])

/-- A ternary command's operation on bay 0 as its slot finds it: the rest of its operations, whether it adds replicas. -/
def opSeen (s : State) : Option (Nat × Bool) := ((s.inSlot 0 s.now).opOn 0).map fun x => (x.2.2.length, x.1.adds.isEmpty)

theorem witness_MaintSlots_ops : slotGoes (operating true true) 0 (some .table) = true ∧
    slotGoes (operating true false) 0 (some .table) = true ∧ slotGoes (operating false true) 0 (some .table) = true ∧
    (opSeen (operating true true), opSeen (operating true false), opSeen (operating false true)) =
      (some (0, false), some (0, true), some (1, false)) := by decide +kernel

/-- The instruction in flight reaches bay 0 under the old rota in the present cycle. -/
def lateLane : State :=
  let s := force (laned 0) searchable
  { withFlight searchable { flight s 1000200 with accepted := 999976 } with now := 1000000 }

theorem witness_MaintSlots_lost : slotNow lateLane 0 = true ∧
    ((lateLane.at 1000000).catchUpSlot).slotLost 0 1000000 = true := by decide +kernel

/-- Collation has visited bay 0, the sweep of stamps has passed it, and no shelf-reading waits. -/
def idleBay : State :=
  let s := slotted 1 0
  { s with health := { s.health with colDone := [0] }, ed := { s.ed with clampPos := [(0, 36864)] } }

theorem witness_MaintSlots_none : slotGoes idleBay 0 none = true ∧ slotGoes lab 70 none = true := by
  decide +kernel

/-- Entries of table 1 in rows 0 and 1 of bay 0, of table 3, and of table 5. -/
def twoRows : State := (slotted 1 0).setTable 1 { Table.none with placed := [[⟨0, 0, 0⟩], [⟨0, 0, 1⟩]] }

/-- Copy 1 of a table fills: table 1 has copies in bays 0 and 1, of which the second is new. -/
def filling : State :=
  (force [(Obj.tblHdr.key 1, trnHdr 0 false 0 0 1 1 1 0)] (slotted 1 0)).setTable 1
    { Table.none with placed := [[⟨0, 0, 0⟩], [⟨0, 0, 1⟩]], filling := [1] }

/-- A new copy of table 1 on a bay. -/
def fillBay : Nat := ((filling.view.trn 1).bays 1).headD 0

theorem witness_MaintSlots_fill : slotGoes filling fillBay (some .table) = true ∧ fillBay < 76 ∧
    (filling.inSlot fillBay 1000000).opOn fillBay = none ∧
    ((filling.inSlot fillBay 1000000).fillOn fillBay).isSome = true := by decide +kernel

/-- A read that a unit makes in its slot. -/
def visits (s : State) (u : Nat) : Bool :=
  let s1 := s.inSlot u s.now
  slotGoes s u (some .table) && (s1.opOn u).isNone && (s1.fillOn u).isNone && (s1.readOn u).isSome

/-- READ of table 1 by handle, SCAN with BY = 1 (dead entries) and BY = 0. -/
def reading : State := running twoRows (tab 1 opRead) [] (some 0) [] []
def scanning (by_ maxrec : Nat) : State :=
  running twoRows (tab 1 opScan) [granule [(2, by_), (32, 0), (12, maxrec), (82, 0)]] (some 0) [] []

/-- What the scan finds at its place in bay 0: whether the entry is one of those asked for, whether another follows, and whether
the reply has room for more. -/
def scanSees (s : State) (more : Nat) : Option (Bool × Bool × Bool) :=
  let s1 := s.inSlot 0 s.now
  match s1.readOn 0 with
  | none => none
  | some (c, cur) =>
    let d := s1.view.trn 1
    let w := scanWord (c.body.headD 0)
    match s1.headFrom 1 d cur with
    | some (h, r0 :: _) =>
      let e := (s1.repSide d (s1.readCopy d r0) r0).entry
      some (s1.scanMatch c.hdr.room w.by_ d.direct e.rset e.first e.retiring, (s1.headFrom 1 d (h + 1)).isSome,
        decide (c.found.length + more < walkMax (c.src = .reg) w.maxrec (trnPer d)))
    | _ => none

theorem witness_MaintSlots_ternary : [visits reading 0, visits (scanning 1 2) 0, visits (scanning 0 2) 0] = [true, true, true] ∧
    ((reading.inSlot 0 reading.now).entryAt 1 (reading.view.trn 1) 0 = some [⟨0, 0, 0⟩]) ∧
    scanSees (scanning 1 2) 0 = some (false, true, true) ∧ scanSees (scanning 0 2) 1 = some (true, true, true) := by
  decide +kernel

/-- READ of the only entry of table 3, its record good or lost, and of the only slot of table 5. -/
def preading (lost : Bool) : State :=
  let s := lab.setTable 3 { Table.none with entries := [⟨0, [], 10 * 2 ^ 120, 8, true, false, 101, 0, 0, 0⟩] }
  let s := { s with health := { s.health with poison := if lost then [⟨.pfxRecord, 0, 3 * 2 ^ 36 + 11 * 2 ^ 32⟩] else [] } }
  running s (tab 3 opRead 101) [granule [(8, 10), (120, 0)], granule [(8, 8), (1, 1), (1, 0), (16, 101), (102, 0)]] (some 0) [] []

def ereading : State :=
  let d := lab.view.em 5
  let s := (lab.emNew d 77 ((lab.emPlace d 77).getD 0) 9 false false).1
  running { s with arb := lab.arb } (tab 5 opRead) [granule [(8, 0x80), (24, 9), (32, 77), (64, 0)]] (some 0) [] []

/-- The only entry that a READ of table 3 names, and whether its record is lost. -/
def pSees (s : State) : Option Bool :=
  let s1 := s.inSlot 64 s.now
  match s1.readOn 64 with
  | none => none
  | some (c, _) => (s1.pfxNamed 3 0 (pfxEntryOf c.body) 0 (BitVec.ofNat 16 c.hdr.addr)).head?.map (s1.recLost 3 (s1.view.pfx 3))

theorem witness_MaintSlots_reads : [visits (preading false) 64, visits (preading true) 64] = [true, true] ∧
    (pSees (preading false), pSees (preading true)) = (some false, some true) ∧
    visits ereading (68 + 2 * (lab.view.em 5).owner 0 77) = true ∧
    (let s1 := ereading.inSlot (68 + 2 * (lab.view.em 5).owner 0 77) 1000000
     (match s1.readOn (68 + 2 * (lab.view.em 5).owner 0 77) with
      | some (c, _) => (match s1.emNamed c (s1.view.em 5) with | .ok _ => true | .error _ => false)
      | none => false) = true) := by decide +kernel

/-- Shelf-reading has steps left on bay 0. -/
def shelved : State := { slotted 0 0 with health := { (slotted 0 0).health with srSteps := [(0, 5)] } }

/-- Row 0 of bay 0 differs from its shadow. -/
def differing : State := { slotted 32 0 with bays := { (slotted 32 0).bays with shadow := [(0, 1)] } }

theorem witness_MaintSlots : (slotGoes shelved 0 (some .shelf) = true ∧ shelved.badSide 0 = none) ∧
    (slotGoes (slotted 32 0) 0 (some .collation) = true ∧ (slotted 32 0).colAt 0 + 1 < 36864 ∧ (slotted 32 0).atom 0 = 0) ∧
    (slotGoes differing 0 (some .collation) = true ∧
      (differing.atom 0 ≠ sget (fun _ => (0 : BitVec 160)) differing.bays.shadow 0 ∧
      sget (fun _ => 0) differing.health.colBad 0 + 1 ≠ 16)) ∧
    (slotNow (slotted 0 1) 0 = true ∧ ((slotted 0 1).at 1000000).catchUpSlot.slotLost 0 1000000 = false ∧
      sget (fun _ => 0) (slotted 0 1).health.colFix 0 = 2 * 0 + 1 ∧ sget (fun _ => 0) (slotted 0 2).health.colFix 0 = 2 * 0 + 2) ∧
    slotGoes (slotted 4 0) 0 (some .clamp) = true ∧ lab.view.phys 0 = some 0 := by decide +kernel

/-! ### Prefix modes -/

/-- Table 3 as the switch and the builds find it. -/
def moded (sw : PfxSwitch) (building : Option Bool) (trie hash : Bool) : State :=
  lab.setTable 3 { Table.none with switch := sw, buildingTrie := building == some false, buildingHash := building == some true,
                                   trieReady := trie, hashReady := hash }

/-- Table 3 looked up by the program of room 0, whose lanes only its trie serves. -/
def unserved : State := force (program 1 3) (moded .none none true true)

theorem witness_PrefixModes_can : (lab.CanWrite host .pfxModeReq (3 : Fin 256)) ∧ lab.CanWrite host .pfxModeReq (0 : Fin 256) ∧
    (moded (.requested true) none true false).CanWrite host .pfxModeReq (3 : Fin 256) ∧
    (moded .none (some false) false false).CanWrite host .pfxModeReq (3 : Fin 256) ∧
    (moded .none none true true).CanWrite host .pfxModeReq (3 : Fin 256) ∧
    unserved.CanWrite host .pfxModeReq (3 : Fin 256) :=
  ⟨canWrite_of (by decide +kernel), canWrite_of (by decide +kernel), canWrite_of (by decide +kernel),
    canWrite_of (by decide +kernel), canWrite_of (by decide +kernel), canWrite_of (by decide +kernel)⟩

theorem witness_PrefixModes : (lab.view.tbl 3).present = true ∧ (lab.view.tbl 3).kind = 1 ∧ (lab.view.tbl 0).present = false ∧
    ((moded (.requested true) none true false).table 3).switch ≠ .none ∧
    (let tb := (moded .none (some false) false false).table 3
     tb.building false = true ∧ tb.ready true = false ∧ tb.building true = false) ∧
    ((moded .none none true true).table 3).ready true = true ∧ ((moded .none none true false).table 3).ready true = false ∧
    (moded .none none true true).bothServed 3 = true ∧ unserved.bothServed 3 = false ∧ (lab.table 3).hash = false := by
  decide +kernel

/-- Table 3 building its trie with bank (0, 10) dead. -/
def deadBank : State := { moded .none (some false) false false with pfx := ⟨[], [(0, 10)], []⟩ }

/-- Table 3 building its hash image with an entry that found no place. -/
def overfull : State :=
  lab.setTable 3 { Table.none with buildingHash := true, entries := [⟨0, [], 10 * 2 ^ 120, 8, true, false, 50, 0, 0, 0⟩] }

/-- Nothing stands in the way of a build. -/
def buildable (s0 : State) (h : Bool) : Bool :=
  let s := s0.catchUp.pfxSettle 3
  (s.buildOver 3 h).isEmpty && (s.buildDead 3 h).isEmpty && !s.buildWaits 3 h && !s.buildTwice 3 h

theorem witness_PrefixModes_builds : buildable (moded .none (some false) false false) false = true ∧
    buildable (moded .none (some true) false false) true = true ∧
    (deadBank.buildDead 3 false).contains (0 : Fin 4).val = true ∧
    (overfull.buildOver 3 true).contains (0 : Fin 4).val = true :=
  ⟨by decide +kernel, by decide +kernel, by decide +kernel, by decide +kernel⟩

/-- Table 3 with a switch that has its edition, and a leaf that changes at an edition. -/
def unsettled (h : Bool) (e sw : Nat) : State :=
  lab.setTable 3 { Table.none with switch := .unsettled h (BitVec.ofNat 16 e),
                                   leaves := [⟨0, 10 * 2 ^ 120, 11 * 2 ^ 120, 1, 0, ⟨true, BitVec.ofNat 16 sw, false, 0, true, 0⟩⟩] }

/-- Editions of the changes that table 3 holds, and those of them that its room's floor has reached. -/
def swsDue (s0 : State) : List Edition × List Edition :=
  let s := s0.catchUp
  let l := (s.table 3).pendingSw.map Prod.fst
  (l, l.filter fun c => edLe c (s.floor 0))

/-- The floor of room 0 is 99. -/
theorem witness_PrefixModes_settle : (lab.view.tbl 0).kind ≠ 1 ∧ lab.catchUp.floor 0 = 99 ∧
    edLe 99 99 = true ∧ edLe 100 99 = false ∧
    swsDue (unsettled true 99 99) = ([99], [99]) ∧ swsDue (unsettled false 100 99) = ([99], [99]) ∧
    swsDue (unsettled false 99 100) = ([100], []) ∧ swsDue (unsettled true 100 100) = ([100], []) := by decide +kernel

/-! ### Banks and copies -/

/-- An uncorrectable word of table 3 in bank (0, 10), where it has a leaf, with a program that looks the table up or without. -/
def badWord (needed : Bool) : State :=
  let s := lab.setTable 3 { Table.none with trieReady := true, leaves := [⟨0, 10 * 2 ^ 120, 11 * 2 ^ 120, 1, 0, ⟨false, 0, false, 0, true, 0⟩⟩] }
  let s := if needed then force (program 1 3 ++ laned 64) s else s
  { s with health := { s.health with poison := [⟨.trieNode, 0, 3 * 2 ^ 36 + 10 * 2 ^ 32⟩] } }

theorem witness_BanksAndCopies :
    (badWord true).health.poison.map bankOf = [some ((0 : Fin 4).val, (10 : Fin 12).val)] ∧
    (badWord true).bankUser (0, 10) = some 3 ∧ (badWord false).bankUser (0, 10) = none ∧
    (badWord true).pfx = ⟨[], [], []⟩ ∧ lab.health.poison = [] ∧ (badWord false).inBank (0, 10) = [3] ∧
    ((0 : Fin 4).val, (10 : Fin 12).val) ∈ ({ lab with pfx := ⟨[(0, 10)], [], []⟩ } : State).pfx.testing := by decide +kernel

/-- Tables 1, 3 and 5 with a copy that fills. -/
def copying (t : Nat) : State := lab.setTable t { Table.none with filling := [0], trieReady := true }

/-- Table 5 with copies on slices 0 and 1, an entry on the first, and the second filling. -/
def copying2 : State :=
  let hdr := pack [(4, 0), (1, 1), (2, 2), (1, 0), (8, 32), (1, 1), (2, 0), (2, 1), (8, 0b00010000), (5, 3), (16, 0), (2, 2), (1, 1),
    (5, 0), (3, 7), (32, 0), (35, 0)]
  let s := keyed5 (force [(Obj.tblHdr.key 5, hdr)] lab)
  s.setTable 5 { Table.none with filling := [1] }
where
  keyed5 (s : State) : State :=
    let d := s.view.em 5
    s.emPut d [(d.owner 0 77, s.now)] ((s.emPlace d 77).getD 0) (d.head true false true 9 77) (some 0)

theorem witness_BanksAndCopies_fill :
    [(copying 1).fillWaits 1, (copying 3).fillWaits 3, (copying 5).fillWaits 5] = [false, false, false] ∧
    [(lab.view.tbl 1).kind, (lab.view.tbl 3).kind, (lab.view.tbl 5).kind] = [0, 1, 2] ∧
    (lab.table 1).filling = [] ∧ ((copying 3).catchUp.table 3).trieReady = true ∧
    (copying2.fillWaits 5 = false ∧ (copying2.table 5).filling = [1] ∧ (copying2.view.em 5).wide = false ∧
      srising 0 copying2.catchUp.em.slots = true ∧ (copying2.catchUp.emEntries (copying2.view.em 5)).length = 1 ∧
      (copying2.catchUp.emEntries (copying2.view.em 5)).all (fun e =>
        decide ((copying2.view.em 5).slices.getD 1 0 + (e.1 / 2097152 - (copying2.view.em 5).slices.getD 0 0) ≠ e.1 / 2097152)) =
          true) := by decide +kernel

/-! ### Stamps, seeds and learning -/

theorem witness_StampsAndSeeds : lab.CanWrite host .emTick 0 ∧ lab.CanWrite host .emLfsrSeed 0 ∧
    lab.catchUp.poisoned .stamp (0 / 2097152) 0 = false ∧
    ({ lab with health := { lab.health with poison := [⟨.stamp, 0, 0⟩] } } : State).catchUp.poisoned .stamp (0 / 2097152) 0 = true ∧
    ({ lab with em := { lab.em with hits := [⟨8, 1000006⟩] } } : State).em.hits = [⟨8, 1000006⟩] :=
  ⟨canWrite_of (by decide +kernel), canWrite_of (by decide +kernel), by decide +kernel, by decide +kernel, by decide +kernel⟩

/-- A LEARN frame of room 0 for table 5 with DATA 9 and key 77 (R156). -/
def learnFrame (room table : Nat) : Frame :=
  linkFrame 7 3 ⟨granule [(16, 0), (4, room), (8, table), (24, 9), (16, 3), (60, 0)], [granule [(32, 77), (96, 0)]]⟩

def lrn (data : Nat) : Learn := ⟨0, 5, data, 3, [granule [(32, 77), (96, 0)]], 0⟩

/-- The slice that owns key 77, and its queue full. -/
def own77 : Nat := (lab.view.em 5).owner 0 ((lab.view.em 5).learnKey (learnFrame 0 5).body)
def fullLearn : State := lab.setLearnQueue own77 (List.replicate 4096 (lrn 9))

theorem witness_Learning_frame : lab.dieHeld (dieOfPort 0) = false ∧ [lab.portActs 0 0, lab.portActs 1 0] = [true, false] ∧
    lab.learnCause 5 0 (frameLen (learnFrame 0 5)) = none ∧ lab.learnCause 4 0 (frameLen (learnFrame 0 4)) = some 1 ∧
    4096 ≤ (fullLearn.learnQueue own77).length ∧ (lab.learnQueue own77).length < 4096 := by decide +kernel

/-- Table 5 with WEED and its candidates of key 77 filled with other keys. -/
def crammed (weed : Nat) (n : Nat) : State :=
  let s := force [(Obj.tblHdr.key 5, emHdr 0 32 true weed)] lab
  let d := s.view.em 5
  (((d.candidates (d.owner 0 77) 77).take n).zip (List.range n)).foldl (fun s x =>
    s.emPut d [(d.owner 0 77, s.now)] x.1 (d.head true false true 1 (1000 + x.2)) (some 0)) s

/-- The queue of the owner slice with one learn, in a state of the table. -/
def learning (s : State) (data : Nat) : State := s.setLearnQueue own77 [lrn data]

/-- The state in which the learn is taken. -/
def taken (s : State) (data : Nat) : State :=
  let u := learning s data
  (u.at (max (u.limitAt 2 own77) (u.limitAt 2 7))).catchUp

/-- What stands before a learn of key 77. -/
def learnMeets (s0 : State) (data : Nat) : Bool :=
  let s := learning s0 data
  let x := lrn data
  let d := s.view.em x.table
  decide (s.noticesHeld ≤ 8188) && (s.learnCause x.table x.room (1 + x.key.length)).isNone && !s.learnHeld d &&
    decide (s.learnQueue own77 = [x])

def fresh (s : State) : Bool :=
  let d := s.view.em 5
  (s.emFind d own77 77).isNone && !s.emBad d own77 77 && (s.dataStatus d 0 none 9).isNone

/-- Table 5 with key 77 at its place. -/
def learnt (data : Nat) (static : Bool) : State :=
  (lab.emNew (lab.view.em 5) 77 ((lab.emPlace (lab.view.em 5) 77).getD 0) data static true).1

theorem witness_Learning_new :
    (let s := taken lab 9
     (learnMeets lab 9 && fresh s && (s.emPlace (s.view.em 5) 77).isSome) = true) ∧
    (let s := taken (crammed 0 64) 9
     (learnMeets (crammed 0 64) 9 && fresh s && (s.emPlace (s.view.em 5) 77).isNone && decide ((s.view.em 5).weed = 0)) =
       true) ∧
    (let s := taken (crammed 2 64) 9
     (learnMeets (crammed 2 64) 9 && fresh s && (s.emPlace (s.view.em 5) 77).isNone &&
       (s.oldest (s.weedable (s.view.em 5) 77)).isSome && decide ((s.view.em 5).weed = 2)) = true) ∧
    (let s := taken (crammed 1 64) 9
     let l := s.weedable (s.view.em 5) 77
     (learnMeets (crammed 1 64) 9 && fresh s && (s.emPlace (s.view.em 5) 77).isNone && decide ((s.view.em 5).weed = 1) &&
       (l[(lfsrStep (s.lfsr own77)).toNat * l.length / 2 ^ 32]?).isSome) = true) := by decide +kernel

/-- The learn finds its key at a place with these DATA and STATIC, its stamp sound. -/
def finds (s : State) (data : Nat) (static : Bool) : Bool :=
  match s.emFind (s.view.em 5) own77 77 with
  | none => false
  | some i => decide (slotData (s.emSlot i) = data ∧ slotStatic (s.emSlot i) = static) && !s.poisoned .stamp (i / 2097152) i &&
      (s.dataStatus (s.view.em 5) 0 (some (slotData (s.emSlot i))) 9).isNone

theorem witness_Learning_present :
    [learnMeets (learnt 9 false) 9 && finds (taken (learnt 9 false) 9) 9 false,
     learnMeets (learnt 8 true) 9 && finds (taken (learnt 8 true) 9) 8 true,
     learnMeets (learnt 8 false) 9 && finds (taken (learnt 8 false) 9) 8 false] = [true, true, true] := by decide +kernel

end Sys2Proof.Tests
end

section
/-! The queue of waiting commands. `step` alone takes a command from it: every operation of the machine leaves `pending`
as it is, so a command ends with the rest of the queue on which it ran (R11; log 1). One lemma for each operation, in
the order of the model's files; the updates of the state have theirs in Laws/State. Where `simp` runs with
`-implicitDefEqProofs` it rewrites by explicit proofs: else the kernel compares arguments that hold large numbers. -/

namespace Sys2Proof.Machine

variable (s : State)

/-! ### Choices and folds -/

@[simp] theorem ite_pending (c : Prop) [Decidable c] (t u : State) :
    (if c then t else u).pending = if c then t.pending else u.pending :=
  apply_ite State.pending c t u

@[simp] theorem ite_fst_pending {α : Type} (c : Prop) [Decidable c] (t u : State × α) :
    (if c then t else u).1.pending = if c then t.1.pending else u.1.pending :=
  apply_ite (fun x : State × α => x.1.pending) c t u

@[simp] theorem ite_snd_pending {α : Type} (c : Prop) [Decidable c] (t u : α × State) :
    (if c then t else u).2.pending = if c then t.2.pending else u.2.pending :=
  apply_ite (fun x : α × State => x.2.pending) c t u

@[simp] theorem foldl_pending {α : Type} {f : State → α → State} (h : ∀ u a, (f u a).pending = u.pending)
    (l : List α) (s : State) : (l.foldl f s).pending = s.pending := by
  induction l generalizing s with
  | nil => rfl
  | cons a l ih => exact (ih _).trans (h s a)

@[simp] theorem foldr_pending {α : Type} {f : α → State → State} (h : ∀ a u, (f a u).pending = u.pending)
    (l : List α) (s : State) : (l.foldr f s).pending = s.pending := by
  induction l with
  | nil => rfl
  | cons a l ih => exact (h a _).trans ih

@[simp] theorem foldl_fst_pending {α β : Type} {f : State × β → α → State × β}
    (h : ∀ x a, (f x a).1.pending = x.1.pending) (l : List α) (x : State × β) :
    (l.foldl f x).1.pending = x.1.pending := by
  induction l generalizing x with
  | nil => rfl
  | cons a l ih => exact (ih _).trans (h x a)

/-! ### Outcomes and services -/

/-- A next state that the outcome gives has the queue of `s`. -/
def KeepsQueue (s : State) (o : Host.Outcome State Fault Refusal) : Prop := ∀ t, o = .next t → t.pending = s.pending

@[simp] theorem keepsQueue_next (u : State) : KeepsQueue s (.next u) ↔ u.pending = s.pending := by simp [KeepsQueue]

@[simp] theorem keepsQueue_ite (c : Prop) [Decidable c] (o q : Host.Outcome State Fault Refusal) :
    KeepsQueue s (if c then o else q) ↔ if c then KeepsQueue s o else KeepsQueue s q := by split <;> rfl

/-- What the service of a request does leaves the queue alone. -/
def Service.KeepsQueue (v : Service) : Prop := ∀ u l, (v.run u l).1.pending = u.pending

/-! ### Shared operations -/

@[simp] theorem State.fromLink_pending (p : Nat) (f : Frame) (age : Nat) :
    (s.fromLink p f age).2.pending = s.pending := by
  simp only [State.fromLink]
  split <;> simp

@[simp] theorem State.txDrop_pending (p : Nat) : (s.txDrop p).pending = s.pending := by simp [State.txDrop]

@[simp] theorem State.send1_pending (p : Nat) (f : Frame) (done : TxDone) : (s.send1 p f done).pending = s.pending := by
  simp [State.send1]

@[simp] theorem State.send2_pending (p : Nat) (f : Frame) (done : TxDone) : (s.send2 p f done).pending = s.pending := by
  simp [State.send2]

@[simp] theorem State.send3_pending (p : Nat) (f : Frame) : (s.send3 p f).pending = s.pending := by simp [State.send3]

@[simp] theorem State.deliver_pending (ring : Nat) (seq : BitVec 16) (x : Rec) :
    (s.deliver ring seq x).pending = s.pending := by
  simp [State.deliver]

@[simp] theorem State.toRing_pending (r : Nat) (x : Rec) : (s.toRing r x).pending = s.pending := by simp [State.toRing]

@[simp] theorem State.record_pending (c : Code) (room : Option Nat) (source : Nat) (fields : List (Nat × Nat))
    (dir : Nat) : (s.record c room source fields dir).pending = s.pending := by
  simp only [State.record]
  (repeat' split) <;> simp

@[simp] theorem State.overflow_pending (r : Nat) : (s.overflow r).pending = s.pending := by simp [State.overflow]

@[simp] theorem State.ackRing_pending (r : Nat) (seq : BitVec 16) : (s.ackRing r seq).pending = s.pending := by
  simp -implicitDefEqProofs only [State.ackRing, ite_pending, ite_self, foldl_pending, State.toRing_pending,
    State.setReg_pending, State.setRing_pending, State.overflow_pending, implies_true]

/-! ### Fault causes -/

@[simp] theorem State.settleBit_pending (b : Nat) (present : Bool) : (s.settleBit b present).pending = s.pending := by
  simp [State.settleBit]

@[simp] theorem State.settleBits_pending (b : Nat) (l : List Bool) : (s.settleBits b l).pending = s.pending := by
  induction l generalizing s b with
  | nil => rfl
  | cons p t ih => simp [State.settleBits, ih]

@[simp] theorem State.settleFaults_pending : s.settleFaults.pending = s.pending := s.settleBits_pending 0 _

@[simp] theorem keepsQueue_done (u : State) : KeepsQueue s (done u) ↔ u.pending = s.pending := by simp [done]

/-! ### Lookups -/

@[simp] theorem State.emAsOf_pending (c : Nat) : (s.emAsOf c).pending = s.pending := by
  rw [State.emAsOf]
  apply foldr_pending
  intros; rfl

/-! ### Lanes -/

@[simp] theorem State.closeBlock_pending (p : Nat) : (s.closeBlock p).pending = s.pending := by simp [State.closeBlock]

@[simp] theorem State.fillRun_pending (p : Nat) (f : Granule × Bool) (n : Nat) :
    (s.fillRun p f n).pending = s.pending := by
  simp [State.fillRun]

@[simp] theorem State.fillBlocks_pending (p : Nat) (f : Granule × Bool) (n : Nat) :
    (s.fillBlocks p f n).pending = s.pending := by
  simp [State.fillBlocks]

@[simp] theorem State.fillTo_pending (p k : Nat) : (s.fillTo p k).pending = s.pending := by
  simp only [State.fillTo]
  split <;> simp

@[simp] theorem State.payHello_pending (p k : Nat) : (s.payHello p k).pending = s.pending := by simp [State.payHello]

@[simp] theorem State.padTo_pending (p k : Nat) : (s.padTo p k).pending = s.pending := by simp [State.padTo]

@[simp] theorem State.putGranule_pending (p : Nat) (g : Granule) (head : Bool) :
    (s.putGranule p g head).pending = s.pending := by
  simp [State.putGranule]

@[simp] theorem State.putBody_pending (p : Nat) (l : List Granule) : (s.putBody p l).pending = s.pending := by
  induction l generalizing s with
  | nil => rfl
  | cons g t ih => simp [State.putBody, ih]

@[simp] theorem State.putOn_pending (p k : Nat) (f : Frame) : (s.putOn p k f).pending = s.pending := by
  simp [State.putOn]

/-! ### Cascade records -/

@[simp] theorem takeRec_pending (c : CasPart) (ed : Edition) (g : Granule) :
    (takeRec c ed g s).2.pending = s.pending := by
  simp [takeRec]

@[simp] theorem takeRecs_pending (c : CasPart) (ed : Edition) (l : List Granule) :
    (takeRecs c ed l s).2.pending = s.pending := by
  induction l generalizing c s with
  | nil => rfl
  | cons g t ih => simp [takeRecs, ih]

@[simp] theorem Inflight.absorb_pending (x : Inflight) (h : CandHdr) (body : List Granule) :
    (x.absorb h body s).2.pending = s.pending := by
  simp only [Inflight.absorb]
  split <;> simp

@[simp] theorem absorbPending_pending (x : Inflight) (l : List PendCand) :
    (absorbPending x l s).2.2.pending = s.pending := by
  induction l generalizing x s with
  | nil => rfl
  | cons p t ih =>
    simp only [absorbPending]
    (repeat' split) <;> simp [ih]

/-! ### Rooms and reductions -/

@[simp] theorem State.planReduction_pending : s.planReduction.pending = s.pending := by simp [State.planReduction]

@[simp] theorem State.degradeRoom_pending (room : Nat) : (s.degradeRoom room).pending = s.pending := by
  simp only [State.degradeRoom]
  split <;> simp

@[simp] theorem State.undegrade_pending (die room : Nat) : (State.undegrade die s room).pending = s.pending := by
  simp [State.undegrade]

@[simp] theorem State.updateDegraded_pending (die : Nat) : (s.updateDegraded die).pending = s.pending := by
  simp [State.updateDegraded]

@[simp] theorem State.loseUnits_pending (units : List Nat) (cause what : Nat) :
    (s.loseUnits units cause what).pending = s.pending := by
  simp [State.loseUnits]

@[simp] theorem State.applyRota_pending (q : Store Nat) : (s.applyRota q).pending = s.pending := by
  simp [State.applyRota]

@[simp] theorem State.unreduce_pending (room : Nat) : (s.unreduce room).pending = s.pending := by simp [State.unreduce]

@[simp] theorem State.shedRoom_pending (x : Nat × Nat × Nat × Nat) : (s.shedRoom x).pending = s.pending := by
  simp [State.shedRoom]

@[simp] theorem State.reduceMark_pending (room : Nat) : (s.reduceMark room).pending = s.pending := by
  simp [State.reduceMark]

@[simp] theorem State.rotaApplied_pending (cause : Nat) : (s.rotaApplied cause).pending = s.pending := by
  simp [State.rotaApplied]

@[simp] theorem execReductionSwitch_keepsQueue : KeepsQueue s (execReductionSwitch s) := by simp [execReductionSwitch]

@[simp] theorem execReductionSecondSwitch_keepsQueue : KeepsQueue s (execReductionSecondSwitch s) := by
  simp only [execReductionSecondSwitch]
  split <;> simp

/-! ### Repair -/

@[simp] theorem State.fence_pending (b : Nat) : (s.fence b).pending = s.pending := by simp [State.fence]

@[simp] theorem State.updateWaits_pending : s.updateWaits.pending = s.pending := by simp [State.updateWaits]

@[simp] theorem State.endColPass_pending : s.endColPass.pending = s.pending := by simp [State.endColPass]

@[simp] theorem State.dropTest_pending (l : Nat) : (s.dropTest l).pending = s.pending := by simp [State.dropTest]

@[simp] theorem State.loseBay_pending (l b cause : Nat) : (s.loseBay l b cause).pending = s.pending := by
  simp [State.loseBay]

@[simp] theorem State.failBay_pending (b cause : Nat) : (s.failBay b cause).pending = s.pending := by
  simp only [State.failBay]
  (repeat' split) <;> simp

@[simp] theorem State.pfxUncorr_pending (w : MemWord) : (s.pfxUncorr w).pending = s.pending := by
  simp only [State.pfxUncorr]
  split <;> simp

@[simp] theorem State.loseRecord_pending (ring : Nat) (seq : BitVec 16) :
    (s.loseRecord ring seq).pending = s.pending := by
  simp only [State.loseRecord]
  split <;> simp

@[simp] theorem State.treatUncorr_pending (w : MemWord) : (s.treatUncorr w).pending = s.pending := by
  simp only [State.treatUncorr]
  (repeat' split) <;> simp

@[simp] theorem State.foundUncorr_pending (w : MemWord) : (s.foundUncorr w).pending = s.pending := by
  simp [State.foundUncorr]

@[simp] theorem State.foundAll_pending (l : List MemWord) : (s.foundAll l).pending = s.pending := by
  simp [State.foundAll]

/-! ### Search pipelines -/

@[simp] theorem State.clash_pending (port : Nat) (h : SearchHdr) (status : Nat) :
    (s.clash port h status).pending = s.pending := by
  simp [State.clash]

@[simp] theorem State.errorResult_pending (v : View) (port a : Nat) (h : SearchHdr) (status : Nat) :
    (s.errorResult v port a h status).pending = s.pending := by
  simp [State.errorResult]

@[simp] theorem State.launch_pending (x : Inflight) : (s.launch x).pending = s.pending := by simp [State.launch]

@[simp] theorem State.reject_pending (v : View) (port a t status : Nat) (h : SearchHdr) (set : Option Nat) :
    (s.reject v port a t status h set).pending = s.pending := by
  simp only [State.reject]
  split <;> simp

@[simp] theorem State.accept_pending (v : View) (port a t : Nat) (h : SearchHdr) (key : List Byte) (set : Option Nat) :
    (s.accept v port a t h key set).pending = s.pending := by
  simp only [State.accept]
  (repeat' split) <;> simp

@[simp] theorem State.intake_pending (port a t : Nat) (f : Frame) : (s.intake port a t f).pending = s.pending := by
  simp only [State.intake]
  (repeat' split) <;> simp

@[simp] theorem execSearch_keepsQueue (port : Fin 32) (frame : Frame) : KeepsQueue s (execSearch port frame s) := by
  simp [execSearch]

@[simp] theorem State.stampHit_pending (c : Nat) (d : EmDesc) (n key : Nat) :
    (s.stampHit c d n key).pending = s.pending := by
  simp [State.stampHit]

@[simp] theorem State.putStamp_pending (i : Nat) (hit : Bool) (ins last : Nat) :
    (s.putStamp i hit ins last).pending = s.pending := by
  simp -implicitDefEqProofs [State.putStamp]

@[simp] theorem State.fixStamp_pending (i : Nat) : (s.fixStamp i).pending = s.pending := by
  simp -implicitDefEqProofs [State.fixStamp]

@[simp] theorem State.soundStamp_pending (i : Nat) : (s.soundStamp i).pending = s.pending := by simp [State.soundStamp]

@[simp] theorem State.stampHits_pending (t : Nat) : (s.stampHits t).pending = s.pending := by simp [State.stampHits]

@[simp] theorem State.lookupError_pending (x : Inflight) (i cause unit : Nat) :
    (s.lookupError x i cause unit).pending = s.pending := by
  simp [State.lookupError]

@[simp] theorem State.settle_pending (x : Inflight) (i : Nat) (f : Found) : (s.settle x i f).1.pending = s.pending := by
  simp only [State.settle]
  (repeat' split) <;> simp

@[simp] theorem State.settleShard_pending (x : Inflight) (i : Nat) (f : Found) :
    (s.settleShard x i f).1.pending = s.pending := by
  simp only [State.settleShard]
  split <;> simp

@[simp] theorem compareLookup_pending (c : Nat) (x : Inflight) (r : State × List (Nat × Found)) (i : Nat) :
    (compareLookup c x r i).1.pending = r.1.pending := by
  simp only [compareLookup]
  (repeat' split) <;> simp

@[simp] theorem runLookup_pending (c : Nat) (front : List (Nat × Found)) (r : State × Inflight) (i : Nat) :
    (runLookup c front r i).1.pending = r.1.pending := by
  simp only [runLookup]
  (repeat' split) <;> simp

@[simp] theorem State.clearLines_pending (c : Clear) (t : Nat) : (s.clearLines c t).pending = s.pending := by
  simp [State.clearLines]

@[simp] theorem State.clearTo_pending (t : Nat) : (s.clearTo t).pending = s.pending := by simp [State.clearTo]

@[simp] theorem State.tally_pending (c room prog stage word inc : Nat) :
    (s.tally c room prog stage word inc).pending = s.pending := by
  simp [State.tally]

@[simp] theorem State.stageTally_pending (c : Nat) (x : Inflight) (stage : Nat) :
    (s.stageTally c x stage).pending = s.pending := by
  simp [State.stageTally]

@[simp] theorem State.strayHits_pending (v : View) (stray : List (Fin 68)) :
    (s.strayHits v stray).pending = s.pending := by
  simp only [State.strayHits]
  split <;> simp

@[simp] theorem State.compareStage_pending (x : Inflight) (uncorr : List MemWord) (stray : List (Fin 68)) :
    (s.compareStage x uncorr stray).1.pending = s.pending := by
  simp only [State.compareStage]
  split <;> simp

@[simp] theorem State.runStage_pending (x : Inflight) (uncorr : List MemWord) (stray : List (Fin 68)) :
    (s.runStage x uncorr stray).pending = s.pending := by
  simp [State.runStage]

@[simp] theorem execProgramStage_keepsQueue (port : Fin 32) (tag : BitVec 8) (uncorr : List MemWord)
    (stray : List (Fin 68)) : KeepsQueue s (execProgramStage port tag uncorr stray s) := by
  simp only [execProgramStage]
  split <;> simp

@[simp] theorem State.finish_pending (id n : Nat) : (s.finish id n).pending = s.pending := by
  induction n generalizing s with
  | zero => rfl
  | succ n ih =>
    simp only [State.finish]
    split <;> simp [ih]

@[simp] theorem State.handCand_pending (x : Inflight) (c : CasPart) (f : Frame) :
    (s.handCand x c f).pending = s.pending := by
  simp only [State.handCand]
  split <;> simp

@[simp] theorem State.mergeOut_pending (x : Inflight) (w : CandRec) (i : Nat) (ptrOk : Bool) :
    (s.mergeOut x w i ptrOk).1.pending = s.pending := by
  simp [State.mergeOut]

@[simp] theorem State.retire_pending (x : Inflight) : (s.retire x).pending = s.pending := by simp [State.retire]

@[simp] theorem State.sendResult_pending (port due : Nat) (f : Frame) :
    (s.sendResult port due f).pending = s.pending := by
  simp [State.sendResult]

/-! ### Pools -/

@[simp] theorem State.crossing_pending (n m : Nat) (rise : Bool) (level : Nat) :
    (s.crossing n m rise level).pending = s.pending := by
  simp [State.crossing]

@[simp] theorem State.markRise_pending (n m : Nat) : (s.markRise n m).pending = s.pending := by simp [State.markRise]

@[simp] theorem State.markFall_pending (n m : Nat) : (s.markFall n m).pending = s.pending := by simp [State.markFall]

@[simp] theorem State.evalMarks_pending (n : Nat) : (s.evalMarks n).pending = s.pending := by simp [State.evalMarks]

@[simp] theorem State.addRef_pending (ptr : Nat) : (s.addRef ptr).pending = s.pending := by simp [State.addRef]

@[simp] theorem State.release_pending (ptr : Nat) : (s.release ptr).pending = s.pending := by
  simp only [State.release]
  split <;> simp

@[simp] theorem State.dropRef_pending (ptr : Nat) : (s.dropRef ptr).pending = s.pending := by simp [State.dropRef]

@[simp] theorem State.doAlloc_pending (n : Nat) (w : PoolWord) : (s.doAlloc n w).1.pending = s.pending := by
  simp only [State.doAlloc]
  split <;> simp

@[simp] theorem State.doFree_pending (n : Nat) (w : PoolWord) : (s.doFree n w).1.pending = s.pending := by
  simp [State.doFree]

@[simp] theorem execReleaseWaitEnd_keepsQueue (block : BitVec 22) : KeepsQueue s (execReleaseWaitEnd block s) := by
  simp only [execReleaseWaitEnd]
  split <;> simp

/-! ### Replies of table commands -/

@[simp] theorem State.dequeue_pending (room id : Nat) : (s.dequeue room id).pending = s.pending := by
  simp [State.dequeue]

@[simp] theorem State.sendTcomps_pending (p room id : Nat) (l : List Frame) :
    (s.sendTcomps p room id l).pending = s.pending := by
  induction l generalizing s with
  | nil => rfl
  | cons f t ih => cases t <;> simp [State.sendTcomps, ih]

@[simp] theorem State.replyReg_pending (room status : Nat) (f : Frame) :
    (s.replyReg room status f).pending = s.pending := by
  simp -implicitDefEqProofs [State.replyReg]

@[simp] theorem State.replyAdv_pending (room status : Nat) : (s.replyAdv room status).pending = s.pending := by
  simp -implicitDefEqProofs [State.replyAdv]

@[simp] theorem State.answer_pending (c : MqCmd) (r : Reply) : (s.answer c r).pending = s.pending := by
  simp only [State.answer]
  split <;> simp

@[simp] theorem State.refuse_pending (c : MqCmd) (status result : Nat) :
    (s.refuse c status result).pending = s.pending := by
  simp [State.refuse]

@[simp] theorem State.complete_pending (c : MqCmd) (r : Reply) : (s.complete c r).pending = s.pending := by
  simp [State.complete]

@[simp] theorem State.finishAt_pending (c : MqCmd) (t : Nat) (drops : List Nat) (result : Nat) :
    (s.finishAt c t drops result).pending = s.pending := by
  simp [State.finishAt]

@[simp] theorem State.completeDue_pending : s.completeDue.pending = s.pending := by simp [State.completeDue]

/-! ### Merges of shard sets -/

@[simp] theorem closeLookup_pending (c : CasPart) (r : State × Inflight) (i : Nat) :
    (closeLookup c r i).1.pending = r.1.pending := by
  simp [closeLookup]

@[simp] theorem State.closeOwner_pending (x : Inflight) : (s.closeOwner x).pending = s.pending := by
  simp only [State.closeOwner]
  split <;> simp

@[simp] theorem State.quarantine_pending (cause who gen expected : Nat) :
    (s.quarantine cause who gen expected).pending = s.pending := by
  simp [State.quarantine]

@[simp] theorem State.sendFence_pending (port sender stale : Nat) :
    (s.sendFence port sender stale).pending = s.pending := by
  simp [State.sendFence]

@[simp] theorem State.staleFrame_pending (port : Nat) (h : CandHdr) : (s.staleFrame port h).pending = s.pending := by
  simp [State.staleFrame]

@[simp] theorem State.lateFrame_pending (h : CandHdr) : (s.lateFrame h).pending = s.pending := by simp [State.lateFrame]

@[simp] theorem State.matchCand_pending (port : Nat) (h : CandHdr) (f : Frame) (arrived : Nat) :
    (s.matchCand port h f arrived).pending = s.pending := by
  simp only [State.matchCand]
  split <;> simp

@[simp] theorem State.takeCand_pending (port : Nat) (f : Frame) (arrived : Nat) :
    (s.takeCand port f arrived).pending = s.pending := by
  simp [State.takeCand]

@[simp] theorem State.takeFence_pending (f : Frame) : (s.takeFence f).pending = s.pending := by simp [State.takeFence]

@[simp] theorem State.candidateFrame_pending (port : Nat) (f : Frame) (arrived : Nat) :
    (s.candidateFrame port f arrived).pending = s.pending := by
  simp [State.candidateFrame]

@[simp] theorem State.arriveCand_pending (port : Nat) (f : Frame) {run : State → Nat → State}
    (h : ∀ u a, (run u a).pending = u.pending) : (s.arriveCand port f run).pending = s.pending := by
  simp [State.arriveCand, h]

@[simp] theorem execCandidate_keepsQueue (port : Fin 32) (frame : Frame) :
    KeepsQueue s (execCandidate port frame s) := by
  simp [execCandidate]

@[simp] theorem execFence_keepsQueue (port : Fin 32) (frame : Frame) : KeepsQueue s (execFence port frame s) := by
  simp [execFence]

@[simp] theorem State.earlyOn_pending (t p : Nat) : (State.earlyOn t s p).pending = s.pending := by simp [State.earlyOn]

@[simp] theorem State.closeMerge_pending (x : Inflight) (c : CasPart) : (s.closeMerge x c).pending = s.pending := by
  unfold State.closeMerge
  extract_lets u
  have hu : u.pending = s.pending :=
    (State.finish_pending _ _ _).trans (foldl_pending (fun v p => v.earlyOn_pending _ p) _ _)
  clear_value u
  split
  · exact hu
  · simp [hu]

@[simp] theorem execMemberSend_keepsQueue (port : Fin 32) (tag : BitVec 8) :
    KeepsQueue s (execMemberSend port tag s) := by
  simp only [execMemberSend]
  split <;> simp

@[simp] theorem execCollectorClose_keepsQueue (port : Fin 32) (tag : BitVec 8) :
    KeepsQueue s (execCollectorClose port tag s) := by
  simp only [execCollectorClose]
  split <;> simp

@[simp] theorem execMergedSend_keepsQueue (port : Fin 32) (tag : BitVec 8) :
    KeepsQueue s (execMergedSend port tag s) := by
  simp only [execMergedSend]
  split <;> simp

@[simp] theorem execOwnerClose_keepsQueue (port : Fin 32) (tag : BitVec 8) :
    KeepsQueue s (execOwnerClose port tag s) := by
  simp only [execOwnerClose]
  split <;> simp

@[simp] theorem State.sendDue_pending (x : Inflight) : (s.sendDue x).pending = s.pending := by
  simp only [State.sendDue]
  split <;> simp

@[simp] theorem execResult_keepsQueue (port : Fin 32) : KeepsQueue s (execResult port s) := by
  simp only [execResult]
  split <;> simp

@[simp] theorem execCasOrphan_keepsQueue : KeepsQueue s (execCasOrphan s) := by
  simp only [execCasOrphan]
  split <;> simp

@[simp] theorem State.runDue_pending (n : Nat) : (s.runDue n).pending = s.pending := by
  induction n generalizing s with
  | zero => rfl
  | succ n ih =>
    simp only [State.runDue]
    split <;> simp [ih]

@[simp] theorem State.closeDue_pending : s.closeDue.pending = s.pending := by
  refine foldl_pending (fun s x => ?_) _ _
  split <;> simp

@[simp] theorem State.searchesDone_pending : s.searchesDone.pending = s.pending := by simp [State.searchesDone]

@[simp] theorem State.catchUp_pending : s.catchUp.pending = s.pending := by simp [State.catchUp]

@[simp] theorem State.catchUpSlot_pending : s.catchUpSlot.pending = s.pending := by simp [State.catchUpSlot]

/-! ### Start-up state -/

@[simp] theorem State.setVaultWord_pending (a v : Nat) : (s.setVaultWord a v).pending = s.pending := by
  simp [State.setVaultWord]

@[simp] theorem State.putWords_pending (n : Nat) (b : List Byte) : (s.putWords n b).pending = s.pending := by
  simp [State.putWords]

@[simp] theorem State.putSlot_pending (n : Nat) (b : List Byte) (late : Bool) :
    (s.putSlot n b late).pending = s.pending := by
  simp [State.putSlot]

@[simp] theorem State.mirrorSlot_pending (b : List Byte) : (s.mirrorSlot b).pending = s.pending := by
  simp [State.mirrorSlot]

@[simp] theorem State.writeSlot_pending (b : List Byte) : (s.writeSlot b).pending = s.pending := by
  simp [State.writeSlot]

@[simp] theorem State.diesDown_pending : s.diesDown.pending = s.pending := by simp [State.diesDown]

@[simp] theorem State.enterMinimal_pending : s.enterMinimal.pending = s.pending := by simp [State.enterMinimal]

@[simp] theorem State.failStart_pending (reason detail : Nat) : (s.failStart reason detail).pending = s.pending := by
  simp [State.failStart]

@[simp] theorem State.trySucceed_pending : s.trySucceed.pending = s.pending := by simp [State.trySucceed]

/-! ### PDUs and sessions -/

@[simp] theorem State.sendPdu_pending (p : Pdu) : (s.sendPdu p).pending = s.pending := by
  simp only [State.sendPdu]
  split <;> simp

@[simp] theorem State.dropTransfer_pending (m : Master) : (s.dropTransfer m).pending = s.pending := by
  simp [State.dropTransfer]

@[simp] theorem State.abortTransfer_pending (m : Master) (code : Nat) :
    (s.abortTransfer m code).pending = s.pending := by
  simp only [State.abortTransfer]
  split <;> simp

@[simp] theorem State.endSession_pending (n cause : Nat) : (s.endSession n cause).pending = s.pending := by
  simp [State.endSession]

@[simp] theorem State.endSessions_pending (cause : Nat) (keep : Option Nat) :
    (s.endSessions cause keep).pending = s.pending := by
  simp [State.endSessions]

/-! ### Links -/

@[simp] theorem State.takeRx_pending (p cls : Nat) (f : Frame) : (s.takeRx p cls f).pending = s.pending := by
  simp [State.takeRx]

@[simp] theorem State.txDone_pending (d : TxDone) : (s.txDone d).pending = s.pending := by
  simp only [State.txDone]
  split <;> simp

@[simp] theorem State.candSent_pending (d : TxDone) (last : Nat) : (s.candSent d last).pending = s.pending := by
  simp only [State.candSent]
  split <;> simp

@[simp] theorem State.discardTx_pending (p : Nat) : (s.discardTx p).pending = s.pending := by simp [State.discardTx]

@[simp] theorem State.train_pending (p : Nat) : (s.train p).pending = s.pending := by simp [State.train]

@[simp] theorem State.leaveUp_pending (p cause lane : Nat) : (s.leaveUp p cause lane).pending = s.pending := by
  simp [State.leaveUp]

@[simp] theorem State.retrainFrom_pending (p cause lane : Nat) : (s.retrainFrom p cause lane).pending = s.pending := by
  simp [State.retrainFrom]

@[simp] theorem State.roleChange_pending (p : Nat) : (s.roleChange p).pending = s.pending := by simp [State.roleChange]

@[simp] theorem execLinkBringUp_keepsQueue (port : Fin 32) : KeepsQueue s (execLinkBringUp port s) := by
  simp [execLinkBringUp]

@[simp] theorem State.portLate_pending (p : Nat) : (s.portLate p).pending = s.pending := by simp [State.portLate]

@[simp] theorem State.linkFail_pending (p : Nat) : (s.linkFail p).pending = s.pending := by simp [State.linkFail]

@[simp] theorem execLinkFail_keepsQueue (port : Fin 32) : KeepsQueue s (execLinkFail port s) := by
  simp only [execLinkFail]
  split <;> simp

@[simp] theorem execLinkRestart_keepsQueue (port : Fin 32) : KeepsQueue s (execLinkRestart port s) := by
  simp [execLinkRestart]

@[simp] theorem execLinkAligned_keepsQueue (port : Fin 32) (lanes : Alignment) (rxLat txLat : Fin 3) :
    KeepsQueue s (execLinkAligned port lanes rxLat txLat s) := by
  simp only [execLinkAligned]
  split <;> simp -implicitDefEqProofs

@[simp] theorem State.helloBad_pending (p : Nat) (c : Credit) (why : Nat) :
    (s.helloBad p c why).pending = s.pending := by
  simp [State.helloBad]

@[simp] theorem State.takeHello_pending (p : Nat) (c : Credit) : (s.takeHello p c).pending = s.pending := by
  simp [State.takeHello]

@[simp] theorem State.helloFrame_pending (p : Nat) (f : Frame) : (s.helloFrame p f).pending = s.pending := by
  simp only [State.helloFrame]
  split <;> simp

@[simp] theorem State.takeCredit_pending (p : Nat) (c : Credit) : (s.takeCredit p c).pending = s.pending := by
  simp [State.takeCredit]

@[simp] theorem State.goUp_pending (p : Nat) : (s.goUp p).pending = s.pending := by simp [State.goUp]

@[simp] theorem State.idleFrame_pending (p : Nat) (f : Frame) : (s.idleFrame p f).pending = s.pending := by
  simp only [State.idleFrame]
  split <;> simp

@[simp] theorem State.receive_pending (p : Nat) {run : State → State} (h : ∀ u, (run u).pending = u.pending) :
    (s.receive p run).pending = s.pending := by
  simp [State.receive, h]

@[simp] theorem execHello_keepsQueue (port : Fin 32) (frame : Frame) : KeepsQueue s (execHello port frame s) := by
  simp [execHello]

@[simp] theorem execIdle_keepsQueue (port : Fin 32) (frame : Frame) : KeepsQueue s (execIdle port frame s) := by
  simp [execIdle]

@[simp] theorem execLinkDown_keepsQueue (port : Fin 32) (lane : Fin 8) : KeepsQueue s (execLinkDown port lane s) := by
  simp [execLinkDown]

@[simp] theorem execUncorrWindow_keepsQueue (port : Fin 32) (codewords : List (List SymbolError)) :
    KeepsQueue s (execUncorrWindow port codewords s) := by
  simp [execUncorrWindow]

@[simp] theorem State.retrainHost_pending (p : Nat) : (s.retrainHost p).pending = s.pending := by
  simp [State.retrainHost]

@[simp] theorem State.dropFrame_pending (p cause : Nat) : (s.dropFrame p cause).pending = s.pending := by
  simp [State.dropFrame]

@[simp] theorem execLinkDrop_keepsQueue (port : Fin 32) : KeepsQueue s (execLinkDrop port s) := by simp [execLinkDrop]

@[simp] theorem State.passFrame_pending (p : Nat) (f : Frame) : (s.passFrame p f).pending = s.pending := by
  simp [State.passFrame]

@[simp] theorem State.resyncs_pending (p : Nat) (b : Bool) : (s.resyncs p b).pending = s.pending := by
  simp [State.resyncs]

@[simp] theorem State.judge_pending (p : Nat) (f : Frame) (a : Arrival) : (s.judge p f a).pending = s.pending := by
  simp only [State.judge]
  (repeat' split) <;> simp

@[simp] theorem execFrameReceive_keepsQueue (port : Fin 32) (frame : Frame) (place : Arrival) :
    KeepsQueue s (execFrameReceive port frame place s) := by
  simp only [execFrameReceive]
  split <;> simp

@[simp] theorem State.putIdle_pending (p k : Nat) : (s.putIdle p k).pending = s.pending := by simp [State.putIdle]

@[simp] theorem State.putHello_pending (p k : Nat) : (s.putHello p k).pending = s.pending := by simp [State.putHello]

@[simp] theorem State.putPick_pending (p k : Nat) (t : TxPick) : (s.putPick p k t).pending = s.pending := by
  simp only [State.putPick]
  (repeat' split) <;> simp

@[simp] theorem State.putZero_pending (p k : Nat) : (s.putZero p k).pending = s.pending := by simp [State.putZero]

@[simp] theorem State.muzzle_pending (p : Nat) : (s.muzzle p).pending = s.pending := by simp [State.muzzle]

@[simp] theorem execSlotFill_keepsQueue (port : Fin 32) : KeepsQueue s (execSlotFill port s) := by
  simp only [execSlotFill]
  split <;> simp

/-! ### Trie and hash images -/

@[simp] theorem State.setImages_pending (t : Nat) (tb : Table) : (s.setImages t tb).pending = s.pending := by
  simp [State.setImages]

@[simp] theorem State.pfxSettle_pending (t : Nat) : (s.pfxSettle t).pending = s.pending := by simp [State.pfxSettle]

/-! ### Table commands -/

@[simp] theorem State.spend_pending (kind die n : Nat) : (s.spend kind die n).pending = s.pending := by
  simp [State.spend]

theorem State.grant_pending {u : State} {r : Nat} (h : s.grant = some (u, r)) : u.pending = s.pending := by
  simp only [State.grant] at h
  split at h
  · cases h; rfl
  · split at h
    · cases h
    · cases h; simp

@[simp] theorem State.atSlot_pending : s.atSlot.pending = s.pending := by simp [State.atSlot]

@[simp] theorem State.startSlot_pending (ops : List Nat) {run : MqCmd → State → State}
    (h : ∀ c u, (run c u).pending = u.pending) : (s.startSlot ops run).pending = s.pending := by
  simp only [State.startSlot]
  split
  · rfl
  · next hg => (repeat' split) <;> simp [h, State.grant_pending _ hg]

@[simp] theorem State.readNext_pending (c : MqCmd) (cursor : Nat) (found : List (Nat × List Granule)) :
    (s.readNext c cursor found).pending = s.pending := by
  simp [State.readNext]

@[simp] theorem State.authReject_pending (p room ty ctag : Nat) :
    (s.authReject p room ty ctag).pending = s.pending := by
  simp [State.authReject]

@[simp] theorem State.enqueue_pending (room : Nat) (f : Frame) (src : CmdSrc) :
    (s.enqueue room f src).pending = s.pending := by
  simp [State.enqueue]

@[simp] theorem State.turnAway_pending (room : Nat) (f : Frame) (src : CmdSrc) :
    (s.turnAway room f src).pending = s.pending := by
  simp only [State.turnAway]
  split <;> simp

@[simp] theorem State.submit_pending (room : Nat) (f : Frame) (src : CmdSrc) :
    (s.submit room f src).pending = s.pending := by
  simp only [State.submit]
  (repeat' split) <;> simp

@[simp] theorem execTableFrame_keepsQueue (port : Fin 32) (frame : Frame) :
    KeepsQueue s (execTableFrame port frame s) := by
  simp [execTableFrame]

@[simp] theorem runPool_pending {op : State → Nat → PoolWord → State × Nat × Nat} (c : MqCmd)
    (h : ∀ u n w, (op u n w).1.pending = u.pending) : (runPool op c s).pending = s.pending := by
  simp only [runPool]
  split <;> simp [h]

@[simp] theorem execAlloc_keepsQueue : KeepsQueue s (execAlloc s) := by simp [execAlloc]

@[simp] theorem execFree_keepsQueue : KeepsQueue s (execFree s) := by simp [execFree]

/-! ### Ternary commands -/

@[simp] theorem State.rowOp_pending (o : RowOp) : (s.rowOp o).pending = s.pending := by
  simp only [State.rowOp]
  (repeat' split) <;> simp

@[simp] theorem State.beginOps_pending (c : MqCmd) (ops : List RowOp) (drops : List Nat)
    (adds dels : List (List Replica)) (result : Nat) :
    (s.beginOps c ops drops adds dels result).pending = s.pending := by
  simp [State.beginOps]

@[simp] theorem State.failTrn_pending (c : MqCmd) (status result : Nat) :
    (s.failTrn c status result).pending = s.pending := by
  simp [State.failTrn]

@[simp] theorem trnInsert_pending (c : MqCmd) (d : Trn) : (trnInsert c s d).pending = s.pending := by
  simp only [trnInsert]
  (repeat' split) <;> simp

@[simp] theorem trnPlace_pending (c : MqCmd) (d : Trn) : (trnPlace c s d).pending = s.pending := by
  simp only [trnPlace]
  split <;> simp

@[simp] theorem trnRewrite_pending (c : MqCmd) (d : Trn) (rs : List Replica) (r0 : Replica) :
    (trnRewrite c s d rs r0).pending = s.pending := by
  simp only [trnRewrite]
  (repeat' split) <;> simp

@[simp] theorem trnDelete_pending (c : MqCmd) (d : Trn) (rs : List Replica) (r0 : Replica) :
    (trnDelete c s d rs r0).pending = s.pending := by
  simp [trnDelete]

@[simp] theorem trnMove_pending (c : MqCmd) (d : Trn) (rs : List Replica) (r0 : Replica) :
    (trnMove c s d rs r0).pending = s.pending := by
  simp only [trnMove]
  (repeat' split) <;> simp

@[simp] theorem trnRead_pending (c : MqCmd) (d : Trn) (rs : List Replica) (r0 : Replica) :
    (trnRead c s d rs r0).pending = s.pending := by
  simp [trnRead]

@[simp] theorem State.walkOn_pending (c : MqCmd) (n per : Nat) (next : Option Nat) (found : List (Nat × List Granule)) :
    (s.walkOn c n per next found).pending = s.pending := by
  simp only [State.walkOn]
  split <;> simp

@[simp] theorem trnScan_pending (c : MqCmd) (d : Trn) : (trnScan c s d).pending = s.pending := by simp [trnScan]

@[simp] theorem trnVisit_pending (c : MqCmd) (cur : Nat) (d : Trn) : (trnVisit c cur s d).pending = s.pending := by
  simp only [trnVisit]
  (repeat' split) <;> simp

@[simp] theorem trnCommand_pending (c : MqCmd) : (trnCommand c s).pending = s.pending := by
  simp only [trnCommand]
  (repeat' split) <;> simp

@[simp] theorem State.runOp_pending (c : MqCmd) (o : RowOp) (rest : List RowOp) :
    (s.runOp c o rest).pending = s.pending := by
  simp [State.runOp]

@[simp] theorem State.runFill_pending (t p : Nat) (o : RowOp) : (s.runFill t p o).pending = s.pending := by
  simp [State.runFill]

/-! ### Trie and hash commands -/

@[simp] theorem State.pfxStore_pending (t : Nat) (e : PfxEntry) (es : List PfxEntry) (cells : List Cell) :
    (s.pfxStore t e es cells).1.pending = s.pending := by
  simp [State.pfxStore]

@[simp] theorem State.cleanseRec_pending (t : Nat) (e : PfxEntry) : (s.cleanseRec t e).pending = s.pending := by
  simp -implicitDefEqProofs [State.cleanseRec]

@[simp] theorem State.pfxAdd_pending (c : MqCmd) (e : PfxEntry) (es : List PfxEntry) (cells : List Cell) :
    (s.pfxAdd c e es cells).pending = s.pending := by
  simp [State.pfxAdd]

@[simp] theorem pfxInsert_pending (c : MqCmd) (d : Pfx) : (pfxInsert c s d).pending = s.pending := by
  simp only [pfxInsert]
  (repeat' split) <;> simp

@[simp] theorem pfxWrite_pending (c : MqCmd) (d : Pfx) : (pfxWrite c s d).pending = s.pending := by
  simp only [pfxWrite]
  (repeat' split) <;> simp

@[simp] theorem pfxRead_pending (c : MqCmd) (d : Pfx) : (pfxRead c s d).pending = s.pending := by
  simp only [pfxRead]
  split <;> simp

@[simp] theorem pfxDelete_pending (c : MqCmd) (d : Pfx) : (pfxDelete c s d).pending = s.pending := by simp [pfxDelete]

@[simp] theorem pfxScan_pending (c : MqCmd) (d : Pfx) : (pfxScan c s d).pending = s.pending := by simp [pfxScan]

@[simp] theorem pfxVisit_pending (c : MqCmd) (cur : Nat) (d : Pfx) : (pfxVisit c cur s d).pending = s.pending := by
  simp only [pfxVisit]
  (repeat' split) <;> simp

@[simp] theorem pfxCommand_pending (c : MqCmd) : (pfxCommand c s).pending = s.pending := by
  simp only [pfxCommand]
  split <;> simp

@[simp] theorem execPfxSettle_keepsQueue (table : Fin 256) : KeepsQueue s (execPfxSettle table s) := by
  simp [execPfxSettle]

@[simp] theorem State.pfxModeApply_pending (t v : Nat) : (s.pfxModeApply t v).pending = s.pending := by
  simp [State.pfxModeApply]

@[simp] theorem State.cleanseImage_pending (t : Nat) (hash : Bool) : (s.cleanseImage t hash).pending = s.pending := by
  simp [State.cleanseImage]

@[simp] theorem execPfxBuildDone_keepsQueue (image : PfxImage) : KeepsQueue s (execPfxBuildDone image s) := by
  simp [execPfxBuildDone]

@[simp] theorem execPfxBuildFail_keepsQueue (image : PfxImage) (bank : Bool) (slice : Fin 4) :
    KeepsQueue s (execPfxBuildFail image bank slice s) := by
  simp [execPfxBuildFail]

@[simp] theorem State.pfxAdvance_pending (room : Nat) (e : Edition) : (s.pfxAdvance room e).pending = s.pending := by
  refine foldl_pending (fun s t => ?_) _ _
  (repeat' split) <;> simp

/-! ### Exact-match commands and learns -/

@[simp] theorem State.emTimes_pending (d : EmDesc) (k : Nat) : (s.emTimes d k).1.pending = s.pending := by
  simp [State.emTimes]

@[simp] theorem State.putEmSlot_pending (j t : Nat) (x : BitVec 128) : (s.putEmSlot j t x).pending = s.pending := by
  simp [State.putEmSlot]

@[simp] theorem State.emPut_pending (d : EmDesc) (w : List (Nat × Nat)) (i : Nat) (head : BitVec 128)
    (tail : Option (BitVec 128)) : (s.emPut d w i head tail).pending = s.pending := by
  simp only [State.emPut]
  split <;> simp

@[simp] theorem State.dropHits_pending (i : Nat) : (s.dropHits i).pending = s.pending := by simp [State.dropHits]

@[simp] theorem State.setStamp_pending (i : Nat) (hit : Bool) (ins last : Nat) :
    (s.setStamp i hit ins last).pending = s.pending := by
  simp [State.setStamp]

@[simp] theorem State.gainData_pending (d : EmDesc) (data : Nat) : (s.gainData d data).pending = s.pending := by
  simp [State.gainData]

@[simp] theorem State.loseData_pending (d : EmDesc) (data : Nat) : (s.loseData d data).pending = s.pending := by
  simp [State.loseData]

@[simp] theorem State.emNew_pending (d : EmDesc) (k i data : Nat) (static learnt : Bool) :
    (s.emNew d k i data static learnt).1.pending = s.pending := by
  simp [State.emNew]

@[simp] theorem State.emRewrite_pending (d : EmDesc) (k i data : Nat) (static learnt : Bool) :
    (s.emRewrite d k i data static learnt).1.pending = s.pending := by
  simp [State.emRewrite]

@[simp] theorem State.emInserted_pending (c : MqCmd) (d : EmDesc) (k i : Nat) (hd : BitVec 128) :
    (s.emInserted c d k i hd).pending = s.pending := by
  simp [State.emInserted]

@[simp] theorem emInsert_pending (c : MqCmd) (d : EmDesc) (k : Nat) : (emInsert c s d k).pending = s.pending := by
  simp only [emInsert]
  (repeat' split) <;> simp

@[simp] theorem emWriteAt_pending (c : MqCmd) (d : EmDesc) (k i : Nat) : (emWriteAt c s d k i).pending = s.pending := by
  simp only [emWriteAt]
  split <;> simp

@[simp] theorem emWriteSlot_pending (c : MqCmd) (d : EmDesc) (k : Nat) : (emWriteSlot c s d k).pending = s.pending := by
  simp only [emWriteSlot]
  (repeat' split) <;> simp

@[simp] theorem emWrite_pending (c : MqCmd) (d : EmDesc) : (emWrite c s d).pending = s.pending := by
  simp only [emWrite]
  (repeat' split) <;> simp

@[simp] theorem emRead_pending (c : MqCmd) (d : EmDesc) : (emRead c s d).pending = s.pending := by
  simp only [emRead]
  split <;> simp

@[simp] theorem emDelete_pending (c : MqCmd) (d : EmDesc) : (emDelete c s d).pending = s.pending := by
  simp only [emDelete]
  split <;> simp

@[simp] theorem emMove_pending (c : MqCmd) (d : EmDesc) : (emMove c s d).pending = s.pending := by
  simp only [emMove]
  split <;> simp

@[simp] theorem emExamine_pending (d : EmDesc) (w : EmScan) (n : Nat) (r : State × List (Nat × List Granule) × Nat)
    (i : Nat) : (emExamine d w n r i).1.pending = r.1.pending := by
  simp [emExamine]

@[simp] theorem emScanRun_pending (c : MqCmd) (d : EmDesc) : (emScanRun c s d).pending = s.pending := by
  simp only [emScanRun]
  split <;> simp

@[simp] theorem emVisit_pending (c : MqCmd) (cur : Nat) (d : EmDesc) : (emVisit c cur s d).pending = s.pending := by
  simp only [emVisit]
  (repeat' split) <;> simp

@[simp] theorem emCommand_pending (c : MqCmd) : (emCommand c s).pending = s.pending := by
  simp only [emCommand]
  split <;> simp

@[simp] theorem State.visit_pending (c : MqCmd) (cur : Nat) : (s.visit c cur).pending = s.pending := by
  simp only [State.visit]
  split <;> simp

@[simp] theorem tableCommand_pending (c : MqCmd) : (tableCommand c s).pending = s.pending := by
  simp only [tableCommand]
  split <;> simp

@[simp] theorem execInsert_keepsQueue : KeepsQueue s (execInsert s) := by simp [execInsert]

@[simp] theorem execWrite_keepsQueue : KeepsQueue s (execWrite s) := by simp [execWrite]

@[simp] theorem execRead_keepsQueue : KeepsQueue s (execRead s) := by simp [execRead]

@[simp] theorem execDelete_keepsQueue : KeepsQueue s (execDelete s) := by simp [execDelete]

@[simp] theorem execMove_keepsQueue : KeepsQueue s (execMove s) := by simp [execMove]

@[simp] theorem execScan_keepsQueue : KeepsQueue s (execScan s) := by simp [execScan]

@[simp] theorem State.backlogCross_pending (slice : Nat) (rise : Bool) :
    (s.backlogCross slice rise).pending = s.pending := by
  simp [State.backlogCross]

@[simp] theorem State.updateBacklog_pending (slice : Nat) : (s.updateBacklog slice).pending = s.pending := by
  simp [State.updateBacklog]

@[simp] theorem State.learnReject_pending (t room cause port : Nat) :
    (s.learnReject t room cause port).pending = s.pending := by
  simp [State.learnReject]

@[simp] theorem State.learnEnter_pending (x : Learn) : (s.learnEnter x).pending = s.pending := by
  simp [State.learnEnter]

@[simp] theorem execLearn_keepsQueue (port : Fin 32) (frame : Frame) : KeepsQueue s (execLearn port frame s) := by
  simp only [execLearn]
  (repeat' split) <;> simp

@[simp] theorem State.notice_pending (d : EmDesc) (x : Learn) (kind data old slot k stamps : Nat) :
    (s.notice d x kind data old slot k stamps).pending = s.pending := by
  simp [State.notice]

@[simp] theorem State.learnRefuse_pending (d : EmDesc) (x : Learn) (k status : Nat) :
    (s.learnRefuse d x k status).pending = s.pending := by
  simp [State.learnRefuse]

@[simp] theorem State.victim_pending (d : EmDesc) (k : Nat) : (s.victim d k).1.pending = s.pending := by
  simp [State.victim]

@[simp] theorem State.weed_pending (d : EmDesc) (x : Learn) (v : Nat) : (s.weed d x v).pending = s.pending := by
  simp [State.weed]

@[simp] theorem State.learnNew_pending (d : EmDesc) (x : Learn) (k : Nat) : (s.learnNew d x k).pending = s.pending := by
  simp only [State.learnNew]
  split
  · simp
  · split
    · simp -implicitDefEqProofs
    · have hv := s.victim_pending d k
      split <;> next h =>
        rw [h] at hv
        simpa -implicitDefEqProofs using hv

@[simp] theorem State.learn_pending (d : EmDesc) (x : Learn) : (s.learn d x).pending = s.pending := by
  simp only [State.learn]
  (repeat' split) <;> simp

@[simp] theorem execLearnApply_keepsQueue (slice : Fin 4) : KeepsQueue s (execLearnApply slice s) := by
  simp only [execLearnApply]
  (repeat' split) <;> simp

@[simp] theorem execEmNowTick_keepsQueue : KeepsQueue s (execEmNowTick s) := by simp [execEmNowTick]

@[simp] theorem execStampSweep_keepsQueue (slot : BitVec 23) (uncorr : Bool) :
    KeepsQueue s (execStampSweep slot uncorr s) := by
  simp [execStampSweep]

/-! ### Editions -/

@[simp] theorem State.notifyEdition_pending (room kind ctag : Nat) :
    (s.notifyEdition room kind ctag).pending = s.pending := by
  simp [State.notifyEdition]

@[simp] theorem State.advance_pending (room ctag path : Nat) : (s.advance room ctag path).pending = s.pending := by
  simp [State.advance]

@[simp] theorem runAdvance_pending (c : MqCmd) : (runAdvance c s).pending = s.pending := by
  simp only [runAdvance]
  split <;> simp

@[simp] theorem execAdvance_keepsQueue : KeepsQueue s (execAdvance s) := by simp [execAdvance]

@[simp] theorem State.queueAdvance_pending (room expect : Nat) :
    (s.queueAdvance room expect).1.pending = s.pending := by
  simp [State.queueAdvance]

@[simp] theorem execEditionFloor_keepsQueue (room : Fin 16) : KeepsQueue s (execEditionFloor room s) := by
  simp [execEditionFloor]

@[simp] theorem State.clampRow_pending (room bay mat row : Nat) :
    (s.clampRow room bay mat row).pending = s.pending := by
  simp [State.clampRow]

@[simp] theorem State.clampPfx_pending (t : Nat) : (s.clampPfx t).pending = s.pending := by simp [State.clampPfx]

@[simp] theorem State.endPass_pending : s.endPass.pending = s.pending := by
  simp -implicitDefEqProofs [State.endPass]

@[simp] theorem execClampPassEnd_keepsQueue : KeepsQueue s (execClampPassEnd s) := by simp [execClampPassEnd]

/-! ### Memories and carrels -/

@[simp] theorem State.setMemWord_pending (space room w : Nat) (l : List Byte) :
    (s.setMemWord space room w l).pending = s.pending := by
  simp [State.setMemWord]

@[simp] theorem State.memWriteWord_pending (h : MemHdr) (payload : List Byte) (w : Nat) :
    (s.memWriteWord h payload w).pending = s.pending := by
  simp [State.memWriteWord]

@[simp] theorem State.memWrite_pending (port : Nat) (h : MemHdr) (f : Frame) :
    (s.memWrite port h f).pending = s.pending := by
  simp [State.memWrite]

@[simp] theorem State.memRead_pending (port : Nat) (h : MemHdr) (uncorr : List MemWord) :
    (s.memRead port h uncorr).pending = s.pending := by
  simp only [State.memRead]
  split <;> simp

@[simp] theorem State.memReject_pending (port : Nat) (h : MemHdr) (status : Nat) :
    (s.memReject port h status).pending = s.pending := by
  simp [State.memReject]

@[simp] theorem execMem_keepsQueue (port : Fin 32) (frame : Frame) (uncorr : List MemWord) :
    KeepsQueue s (execMem port frame uncorr s) := by
  simp only [execMem]
  (repeat' split) <;> simp

@[simp] theorem State.startClear_pending (room : Nat) : (s.startClear room).pending = s.pending := by
  simp [State.startClear]

@[simp] theorem State.holdClears_pending (die : Nat) : (s.holdClears die).pending = s.pending := by
  simp [State.holdClears]

@[simp] theorem State.endClear_pending (room : Nat) : (s.endClear room).pending = s.pending := by
  simp only [State.endClear]
  split <;> simp

@[simp] theorem execCarClearDone_keepsQueue (room : Fin 16) : KeepsQueue s (execCarClearDone room s) := by
  simp [execCarClearDone]

/-! ### Contexts and guards -/

theorem State.takeCtx_pending {m : Master} {u : State} {c : Nat} (h : s.takeCtx m = some (u, c)) :
    u.pending = s.pending := by
  simp only [State.takeCtx] at h
  split at h
  · cases h; rfl
  · cases h; rfl
  · split at h <;> cases h; rfl

@[simp] theorem State.touchCtx_pending (m : Master) : (s.touchCtx m).pending = s.pending := by
  simp only [State.touchCtx]
  split <;> simp

@[simp] theorem State.nextBuild_pending (old : Option Nat) : (s.nextBuild old).pending = s.pending := by
  simp only [State.nextBuild]
  split <;> simp

@[simp] theorem State.releaseCtx_pending (c : Nat) : (s.releaseCtx c).pending = s.pending := by simp [State.releaseCtx]

@[simp] theorem State.before_pending (m : Master) : (s.before m).pending = s.pending := by simp [State.before]

@[simp] theorem State.byCore_pending {run : State → State × Nat} (h : ∀ u, (run u).1.pending = u.pending) :
    (s.byCore run).1.pending = s.pending := by
  simp [State.byCore, h]

/-! ### Accessions -/

@[simp] theorem State.refuseAcc_pending (r : Refused) : (s.refuseAcc r).pending = s.pending := by
  simp only [State.refuseAcc]
  split <;> simp

@[simp] theorem State.holdDefaults_pending (vals : Store Nat) : (s.holdDefaults vals).pending = s.pending := by
  simp [State.holdDefaults]

@[simp] theorem State.fixSwitch_pending (w : Who) (m groups : Nat) (vals : Store Nat) (restore : List Nat)
    (cluster : Bool) : (s.fixSwitch w m groups vals restore cluster).pending = s.pending := by
  simp [State.fixSwitch]

@[simp] theorem State.accede_pending (w : Who) (m groups : Nat) : (s.accede w m groups).1.pending = s.pending := by
  simp only [State.accede]
  (repeat' split) <;> simp

@[simp] theorem State.clearRegion_pending (d : Trn) (b : Nat) : (s.clearRegion d b).pending = s.pending := by
  simp [State.clearRegion]

@[simp] theorem State.clearBuckets_pending (d : EmDesc) (c : Nat) : (s.clearBuckets d c).pending = s.pending := by
  simp [State.clearBuckets]

@[simp] theorem State.takeCopies_pending (w : View) (t : Nat) : (s.takeCopies w t).pending = s.pending := by
  simp only [State.takeCopies]
  split
  · refine foldl_pending (fun s l => ?_) _ _
    split <;> simp
  · simp
  · rfl

@[simp] theorem State.retrie_pending (t : Nat) : (s.retrie t).pending = s.pending := by simp [State.retrie]

@[simp] theorem State.copiesDone_pending (t : Nat) : (s.copiesDone t).pending = s.pending := by simp [State.copiesDone]

@[simp] theorem State.dropDefaults_pending (o w : View) (ps : List Nat) :
    (s.dropDefaults o w ps).pending = s.pending := by
  simp [State.dropDefaults]

@[simp] theorem State.restoreRoom_pending (room : Nat) : (s.restoreRoom room).pending = s.pending := by
  simp [State.restoreRoom]

@[simp] theorem State.clearReduced_pending : s.clearReduced.pending = s.pending := by simp [State.clearReduced]

@[simp] theorem State.unquarantine_pending : s.unquarantine.pending = s.pending := by simp [State.unquarantine]

@[simp] theorem State.switchCas_pending (o : View) (cluster : Bool) : (s.switchCas o cluster).pending = s.pending := by
  simp [State.switchCas]

@[simp] theorem State.switchTables_pending (w : View) (ts : List Nat) :
    (s.switchTables w ts).pending = s.pending := by
  simp -implicitDefEqProofs [State.switchTables]

@[simp] theorem State.applyAccession_pending (vals : Store Nat) (restore : List Nat) (rota cluster : Bool) :
    (s.applyAccession vals restore rota cluster).pending = s.pending := by
  simp [State.applyAccession]

@[simp] theorem State.newRate_pending : s.newRate.pending = s.pending := by simp [State.newRate]

@[simp] theorem execAccessionSwitch_keepsQueue : KeepsQueue s (execAccessionSwitch s) := by simp [execAccessionSwitch]

@[simp] theorem State.discardStaged_pending (m : Master) (v : Nat) : (s.discardStaged m v).1.pending = s.pending := by
  simp [State.discardStaged]

@[simp] theorem State.fillEm_pending (d : EmDesc) (c : Nat) : (s.fillEm d c).pending = s.pending := by
  simp [State.fillEm]

@[simp] theorem execCopyFillDone_keepsQueue (table : Fin 256) : KeepsQueue s (execCopyFillDone table s) := by
  simp [execCopyFillDone]

/-! ### Control objects -/

@[simp] theorem State.queueImage_pending (room : Nat) (f : Frame) : (s.queueImage room f).pending = s.pending := by
  simp -implicitDefEqProofs [State.queueImage]

@[simp] theorem State.wrTblCmd_pending (room v : Nat) : (s.wrTblCmd room v).1.pending = s.pending := by
  simp [State.wrTblCmd]

@[simp] theorem State.wrMode_pending (t v : Nat) : (s.wrMode t v).1.pending = s.pending := by simp [State.wrMode]

@[simp] theorem State.wrTick_pending (v : Nat) : (s.wrTick v).1.pending = s.pending := by simp [State.wrTick]

@[simp] theorem State.wrSeed_pending (v : Nat) : (s.wrSeed v).1.pending = s.pending := by simp [State.wrSeed]

@[simp] theorem State.wrProbe_pending (m : Master) (pool block : Nat) :
    (s.wrProbe m pool block).1.pending = s.pending := by
  simp only [State.wrProbe]
  split
  · rfl
  · next hc => simp -implicitDefEqProofs only [State.setCtxReg_pending, State.takeCtx_pending _ hc]

@[simp] theorem State.wrCarData_pending (m : Master) (room : Nat) (x : BitVec 64) :
    (s.wrCarData m room x).1.pending = s.pending := by
  simp [State.wrCarData]

@[simp] theorem State.wrCarClear_pending (room : Nat) : (s.wrCarClear room).1.pending = s.pending := by
  simp [State.wrCarClear]

@[simp] theorem State.wrPortCtrl_pending (p v : Nat) : (s.wrPortCtrl p v).1.pending = s.pending := by
  simp [State.wrPortCtrl]

@[simp] theorem State.wrCodeCfg_pending (m : Master) (v : Nat) : (s.wrCodeCfg m v).1.pending = s.pending := by
  simp [State.wrCodeCfg]

/-! ### Vault -/

@[simp] theorem State.wrVaultData_pending (m : Master) (v : Nat) : (s.wrVaultData m v).1.pending = s.pending := by
  simp [State.wrVaultData]

@[simp] theorem State.endVaultWrite_pending : s.endVaultWrite.pending = s.pending := by simp [State.endVaultWrite]

@[simp] theorem execPostedDone_keepsQueue (index : BitVec 16) : KeepsQueue s (execPostedDone index s) := by
  simp only [execPostedDone]
  (repeat' split) <;> simp

@[simp] theorem State.wrPolicy_pending (v : Nat) : (s.wrPolicy v).1.pending = s.pending := by simp [State.wrPolicy]

@[simp] theorem State.putKey_pending (k : Nat) (key : List Byte) : (s.putKey k key).pending = s.pending := by
  simp [State.putKey]

@[simp] theorem State.endKeySessions_pending (m : Master) (k : Nat) (loaded : Bool) :
    (s.endKeySessions m k loaded).pending = s.pending := by
  simp [State.endKeySessions]

@[simp] theorem State.wrKeyLoad_pending (m : Master) (v : List Byte) : (s.wrKeyLoad m v).1.pending = s.pending := by
  simp [State.wrKeyLoad]

@[simp] theorem State.wipeSecure_pending : s.wipeSecure.pending = s.pending := by simp [State.wipeSecure]

@[simp] theorem State.wrLcReq_pending (v : Nat) : (s.wrLcReq v).1.pending = s.pending := by simp [State.wrLcReq]

@[simp] theorem State.blow_pending (t : Nat) : (s.blow t).pending = s.pending := by simp [State.blow]

@[simp] theorem execLcFuseDone_keepsQueue (blown : Bool) : KeepsQueue s (execLcFuseDone blown s) := by
  simp only [execLcFuseDone]
  split <;> simp

@[simp] theorem State.tamperEvent_pending (source : Nat) : (s.tamperEvent source).pending = s.pending := by
  simp [State.tamperEvent]

@[simp] theorem State.tamperBit_pending (source : Nat) (present : Bool) :
    (s.tamperBit source present).pending = s.pending := by
  simp [State.tamperBit]

@[simp] theorem execTamperCauseChange_keepsQueue (source : Fin 5) (present : Bool) :
    KeepsQueue s (execTamperCauseChange source present s) := by
  simp [execTamperCauseChange]

@[simp] theorem State.wrTamperCfg_pending (v : Nat) : (s.wrTamperCfg v).1.pending = s.pending := by
  simp [State.wrTamperCfg]

@[simp] theorem State.blankVault_pending : s.blankVault.pending = s.pending := by simp [State.blankVault]

@[simp] theorem execVaonLoss_keepsQueue : KeepsQueue s (execVaonLoss s) := by simp [execVaonLoss]

@[simp] theorem execVaonRise_keepsQueue : KeepsQueue s (execVaonRise s) := by simp [execVaonRise]

/-! ### Firmware update and provenance -/

@[simp] theorem State.setImage_pending (b : Bool) (m : Store Byte) : (s.setImage b m).pending = s.pending := by
  simp [State.setImage]

@[simp] theorem State.writeUpdated_pending (b mirrorFail : Bool) :
    (s.writeUpdated b mirrorFail).pending = s.pending := by
  simp [State.writeUpdated]

@[simp] theorem State.wrUpdTarget_pending (v : Nat) : (s.wrUpdTarget v).1.pending = s.pending := by
  simp [State.wrUpdTarget]

@[simp] theorem execFwEraseDone_keepsQueue (ok : Bool) : KeepsQueue s (execFwEraseDone ok s) := by
  simp [execFwEraseDone]

@[simp] theorem State.beginImage_pending : s.beginImage.pending = s.pending := by simp [State.beginImage]

@[simp] theorem State.program_pending (l : List Byte) : (s.program l).pending = s.pending := by simp [State.program]

@[simp] theorem State.endImage_pending (flashOk mirrorFail : Bool) :
    (s.endImage flashOk mirrorFail).pending = s.pending := by
  simp [State.endImage]

@[simp] theorem execFwUpdImage_keepsQueue (m : Master) (last : List Byte) (flashOk mirrorFail : Bool) :
    KeepsQueue s (execFwUpdImage m last flashOk mirrorFail s) := by
  simp only [execFwUpdImage]
  split <;> simp

@[simp] theorem State.wrProvReq_pending (m : Master) : (s.wrProvReq m).1.pending = s.pending := by
  simp only [State.wrProvReq]
  split
  · rfl
  · split
    · rfl
    · next hc => split <;> simp [State.takeCtx_pending _ hc]

@[simp] theorem execProvBuildDone_keepsQueue : KeepsQueue s (execProvBuildDone s) := by
  simp only [execProvBuildDone]
  split <;> simp

/-! ### Health -/

@[simp] theorem State.endRemoval_pending (r : Removal) : (s.endRemoval r).pending = s.pending := by
  simp [State.endRemoval]

@[simp] theorem State.loseEntry_pending (o : RowOwner) (l mat row : Nat) :
    (s.loseEntry o l mat row).pending = s.pending := by
  simp [State.loseEntry]

@[simp] theorem State.runRemoval_pending (r : Removal) (o : RowOp) (rest : List RowOp) :
    (s.runRemoval r o rest).pending = s.pending := by
  simp [State.runRemoval]

@[simp] theorem State.putSide_pending (b i : Nat) (w : BitVec 96) : (s.putSide b i w).pending = s.pending := by
  simp [State.putSide]

@[simp] theorem State.repairSide_pending (b i : Nat) : (s.repairSide b i).pending = s.pending := by
  simp only [State.repairSide]
  (repeat' split) <;> simp

@[simp] theorem State.repairShadow_pending (r : Rebuild) (i : Nat) : (s.repairShadow r i).pending = s.pending := by
  simp only [State.repairShadow]
  (repeat' split) <;> simp

@[simp] theorem State.readVisit_pending (u : Nat) (c : MqCmd) (cur : Nat) (bad : Bool) :
    (s.readVisit u c cur bad).pending = s.pending := by
  simp only [State.readVisit]
  cases s.visitWord u c cur <;> simp

@[simp] theorem State.colNext_pending (l : Nat) : (s.colNext l).pending = s.pending := by simp [State.colNext]

@[simp] theorem State.setFix_pending (l x : Nat) : (s.setFix l x).pending = s.pending := by simp [State.setFix]

@[simp] theorem State.findAtom_pending (k : Nat) (flip : BitVec 160) : (s.findAtom k flip).pending = s.pending := by
  simp [State.findAtom]

@[simp] theorem State.collate_pending (l b : Nat) (f : RowFinding) : (s.collate l b f).pending = s.pending := by
  simp [State.collate]

@[simp] theorem State.colRepair_pending (l b x : Nat) (f : RowFinding) : (s.colRepair l b x f).pending = s.pending := by
  simp [State.colRepair]

@[simp] theorem State.clampStep_pending (l b : Nat) (f : RowFinding) : (s.clampStep l b f).pending = s.pending := by
  simp only [State.clampStep]
  (repeat' split) <;> simp

@[simp] theorem State.shelfSlot_pending (u : Nat) (b : Option Nat) : (s.shelfSlot u b).pending = s.pending := by
  simp only [State.shelfSlot]
  split <;> simp

@[simp] theorem State.tableSlot_pending (u : Nat) (bad : Bool) : (s.tableSlot u bad).pending = s.pending := by
  simp only [State.tableSlot]
  (repeat' split) <;> simp

@[simp] theorem State.claimSlot_pending (u : Nat) (b : Option Nat) (f : RowFinding) (x : Claimant) :
    (s.claimSlot u b f x).pending = s.pending := by
  cases x <;> cases b <;> simp [State.claimSlot]

@[simp] theorem State.useSlot_pending (u : Nat) (f : RowFinding) : (s.useSlot u f).pending = s.pending := by
  simp only [State.useSlot]
  (repeat' split) <;> simp

@[simp] theorem execMaintSlot_keepsQueue (unit : Fin 76) (found : RowFinding) :
    KeepsQueue s (execMaintSlot unit found s) := by
  simp only [execMaintSlot]
  (repeat' split) <;> simp

theorem State.srPick_pending {u : State} {d r : Nat} (h : s.srPick = some (u, d, r)) : u.pending = s.pending := by
  simp only [State.srPick] at h
  split at h
  · cases h; rfl
  · split at h <;> cases h
    simp

@[simp] theorem State.srWrap_pending : s.srWrap.pending = s.pending := by simp [State.srWrap]

@[simp] theorem State.srTest_pending (d r : Nat) (o : SrOutcome) : (s.srTest d r o).pending = s.pending := by
  simp only [State.srTest]
  split <;> simp

@[simp] theorem State.srSettle_pending (d r : Nat) (passed : Bool) : (s.srSettle d r passed).pending = s.pending := by
  simp [State.srSettle]

@[simp] theorem State.assignRow_pending (d r row : Nat) : (s.assignRow d r row).pending = s.pending := by
  simp [State.assignRow]

@[simp] theorem State.srRows_pending (d r : Nat) (rows : List Nat) : (s.srRows d r rows).pending = s.pending := by
  simp [State.srRows]

@[simp] theorem State.freeRows_pending (d lo m n : Nat) : (s.freeRows d lo m n).pending = s.pending := by
  induction n generalizing s with
  | zero => rfl
  | succ n ih => simp [State.freeRows, ih]

@[simp] theorem State.srBeyond_pending (d r : Nat) : (s.srBeyond d r).pending = s.pending := by
  simp only [State.srBeyond]
  split <;> simp

@[simp] theorem execSrRegionStart_keepsQueue (outcome : SrOutcome) (uncorr : List MemWord) :
    KeepsQueue s (execSrRegionStart outcome uncorr s) := by
  simp only [execSrRegionStart]
  split
  · simp
  · split
    · simp
    · next hp => split <;> simp -implicitDefEqProofs [State.srPick_pending _ hp]

@[simp] theorem State.goodSides_pending (b n : Nat) : (s.goodSides b n).pending = s.pending := by
  induction n generalizing s with
  | zero => rfl
  | succ n ih =>
    simp only [State.goodSides]
    split <;> simp [ih]

@[simp] theorem State.fillSpare_pending (r : Rebuild) : (s.fillSpare r).pending = s.pending := by simp [State.fillSpare]

@[simp] theorem State.putRebuild_pending (failed : Nat) (r : Option Rebuild) :
    (s.putRebuild failed r).pending = s.pending := by
  simp [State.putRebuild]

@[simp] theorem execBayRebuilt_keepsQueue (spareFails : Bool) : KeepsQueue s (execBayRebuilt spareFails s) := by
  simp only [execBayRebuilt]
  split <;> simp

@[simp] theorem execBayFence_keepsQueue : KeepsQueue s (execBayFence s) := by
  simp only [execBayFence]
  split <;> simp

@[simp] theorem State.returnBay_pending (b : Nat) : (s.returnBay b).pending = s.pending := by simp [State.returnBay]

@[simp] theorem execBayRetest_keepsQueue (bay : Fin 68) (pass : Bool) : KeepsQueue s (execBayRetest bay pass s) := by
  simp only [execBayRetest]
  split <;> simp

@[simp] theorem State.bankGone_pending (t slice : Nat) : (s.bankGone t slice).pending = s.pending := by
  simp [State.bankGone]

@[simp] theorem execBankTestRequest_keepsQueue (slice : Fin 4) (level : Fin 12) :
    KeepsQueue s (execBankTestRequest slice level s) := by
  simp only [execBankTestRequest]
  (repeat' split) <;> simp

@[simp] theorem execBankTest_keepsQueue (slice : Fin 4) (level : Fin 12) (result : Fin 3) :
    KeepsQueue s (execBankTest slice level result s) := by
  simp [execBankTest]

@[simp] theorem State.holdPort_pending (p : Nat) : (s.holdPort p).pending = s.pending := by
  simp only [State.holdPort]
  split <;> simp

@[simp] theorem State.stopRebuilds_pending (d : Nat) : (s.stopRebuilds d).pending = s.pending := by
  simp [State.stopRebuilds]

@[simp] theorem State.holdDie_pending (heat : Bool) (d : Nat) : (s.holdDie heat d).pending = s.pending := by
  simp [State.holdDie]

@[simp] theorem State.holdDies_pending (ds : List Nat) (heat : Bool) (quantity a b : Nat) (ra rb : Int) :
    (s.holdDies ds heat quantity a b ra rb).pending = s.pending := by
  simp only [State.holdDies]
  (repeat' split) <;> simp -implicitDefEqProofs

@[simp] theorem State.track_pending (k : Nat) (past : Bool) : (s.track k past).pending = s.pending := by
  simp [State.track]

@[simp] theorem State.trackAll_pending (r : RegionReading) : (s.trackAll r).pending = s.pending := by
  simp [State.trackAll]

@[simp] theorem State.drawTogether_pending : s.drawTogether.pending = s.pending := by simp [State.drawTogether]

@[simp] theorem State.alarmRegion_pending (r : RegionReading) (d : Nat) : (s.alarmRegion r d).pending = s.pending := by
  simp only [State.alarmRegion]
  split <;> simp

@[simp] theorem State.measure_pending (r : RegionReading) : (s.measure r).pending = s.pending := by simp [State.measure]

@[simp] theorem State.sampleTime_pending : s.sampleTime.pending = s.pending := by simp [State.sampleTime]

@[simp] theorem execRegionSample_keepsQueue (r : RegionReading) : KeepsQueue s (execRegionSample r s) := by
  simp [execRegionSample]

@[simp] theorem execThermalSample_keepsQueue (tj : List ℤ) : KeepsQueue s (execThermalSample tj s) := by
  simp [execThermalSample]

@[simp] theorem State.wrRgnCtrl_pending (d v : Nat) : (s.wrRgnCtrl d v).1.pending = s.pending := by
  simp [State.wrRgnCtrl]

@[simp] theorem State.fixRow_pending (stuck : List Nat) (b l k : Nat) :
    (State.fixRow stuck b l s k).pending = s.pending := by
  simp [State.fixRow]

@[simp] theorem State.collateBay_pending (f : DieFinding) (l b : Nat) :
    (State.collateBay f s l b).pending = s.pending := by
  simp [State.collateBay]

@[simp] theorem State.regainUnits_pending (d : Nat) : (s.regainUnits d).pending = s.pending := by
  simp [State.regainUnits]

@[simp] theorem State.freePort_pending (p : Nat) : (s.freePort p).pending = s.pending := by simp [State.freePort]

@[simp] theorem execRegionRelease_keepsQueue (die : Fin 4) (found : DieFinding) :
    KeepsQueue s (execRegionRelease die found s) := by
  simp only [execRegionRelease]
  split
  · simp
  · rw [keepsQueue_done, State.updateDegraded_pending, foldl_pending State.freePort_pending]
    simp only [State.regainUnits_pending, State.record_pending, State.bump_pending, State.setRegion_pending,
      State.foundAll_pending]
    refine foldl_pending (fun u l => ?_) _ _
    split <;> simp

@[simp] theorem execWearSample_keepsQueue (region : Fin 5) (shift : BitVec 16) :
    KeepsQueue s (execWearSample region shift s) := by
  simp [execWearSample]

/-! ### Catalogue reads -/

@[simp] theorem State.afterRead_pending (m : Master) (p : Place) : (s.afterRead m p).pending = s.pending := by
  simp [State.afterRead]

@[simp] theorem State.settled_pending (index sub : Nat) : (s.settled index sub).pending = s.pending := by
  simp only [State.settled]
  split <;> simp

@[simp] theorem State.readAccess_pending (m : Master) (expedited : Bool) (index sub : Nat) :
    (s.readAccess m expedited index sub).1.pending = s.pending := by
  simp only [State.readAccess]
  split <;> simp

/-! ### Mailboxes -/

@[simp] theorem State.fillMailbox_pending (c : Nat) (a : Answer) : (s.fillMailbox c a).pending = s.pending := by
  simp [State.fillMailbox]

@[simp] theorem State.wrMbxSel_pending (m : Master) (v : Nat) : (s.wrMbxSel m v).1.pending = s.pending := by
  simp only [State.wrMbxSel]
  split
  · rfl
  · next hc => split <;> simp [State.takeCtx_pending _ hc]

@[simp] theorem execMbxSnapshot_keepsQueue (m : Master) : KeepsQueue s (execMbxSnapshot m s) := by
  simp only [execMbxSnapshot]
  (repeat' split) <;> simp

@[simp] theorem execMbxContextRelease_keepsQueue (ctx : Fin 16) : KeepsQueue s (execMbxContextRelease ctx s) := by
  simp [execMbxContextRelease]

/-! ### Contested accesses -/

@[simp] theorem State.busHeard_pending (ident : Nat) : (s.busHeard ident).pending = s.pending := by
  simp only [State.busHeard]
  split <;> simp

@[simp] theorem State.takeCat_pending (p : Fin 32) (q : Pdu) : (s.takeCat p q).pending = s.pending := by
  simp only [State.takeCat]
  split <;> simp

@[simp] theorem State.reach_pending (q : Pdu) (service : Nat) : (s.reach q service).1.pending = s.pending := by
  simp only [State.reach]
  (repeat' split) <;> simp

@[simp] theorem State.guarded_pending (m : Master) (k code : Nat) (l : List Byte) (old : Option Nat)
    {run : State → State × Nat} (h : ∀ u, (run u).1.pending = u.pending) :
    (s.guarded m k code l old run).pending = s.pending := by
  simp [State.guarded, h]

/-! ### Catalogue writes -/

theorem State.writeRooms_pending {m : Master} {p : Place} {v : Nat} {x : State × Nat}
    (h : s.writeRooms m p v = some x) : x.1.pending = s.pending := by
  simp only [State.writeRooms] at h
  split at h <;> simp only [Option.some.injEq, reduceCtorEq] at h <;> subst h <;> simp -implicitDefEqProofs

@[simp] theorem State.wrAck_pending (m : Master) (r v : Nat) : (s.wrAck m r v).1.pending = s.pending := by
  simp only [State.wrAck, ite_fst_pending, State.ackRing_pending, ite_self]

@[simp] theorem State.accedeAt_pending (m : Master) (v : Nat) : (s.accedeAt m v).1.pending = s.pending := by
  simp [State.accedeAt]

theorem State.writeDevice_pending {m : Master} {p : Place} {v : Nat} {x : State × Nat}
    (h : s.writeDevice m p v = some x) : x.1.pending = s.pending := by
  simp only [State.writeDevice] at h
  (repeat' split at h) <;> simp only [Option.some.injEq, reduceCtorEq] at h <;> subst h <;> simp -implicitDefEqProofs

@[simp] theorem State.notePrio_pending (room : Nat) : (s.notePrio room).pending = s.pending := by simp [State.notePrio]

@[simp] theorem State.writePlain_pending (m : Master) (p : Place) (v : Nat) :
    (s.writePlain m p v).1.pending = s.pending := by
  simp only [State.writePlain]
  split
  · rfl
  · split
    · split
      · rfl
      · next hc => simp [State.takeCtx_pending _ hc]
    · simp

@[simp] theorem State.performWrite_pending (m : Master) (p : Place) (l : List Byte) :
    (s.performWrite m p l).1.pending = s.pending := by
  simp only [State.performWrite]
  split
  · next hr => exact State.writeRooms_pending _ hr
  · split
    · next hd => exact State.writeDevice_pending _ hd
    · simp

@[simp] theorem State.writeObj_pending (m : Master) (p : Place) (l : List Byte) :
    (s.writeObj m p l).pending = s.pending := by
  simp [State.writeObj]

@[simp] theorem State.writeAccess_pending (m : Master) (index sub : Nat) (l : List Byte) :
    (s.writeAccess m index sub l).pending = s.pending := by
  simp only [State.writeAccess]
  split <;> simp

@[simp] theorem State.writeShort_pending (m : Master) (index sub : Nat) (l : List Byte) :
    (s.writeShort m index sub l).pending = s.pending := by
  simp only [State.writeShort]
  (repeat' split) <;> simp

@[simp] theorem execRegisterWrite_keepsQueue (m : Master) (index : BitVec 16) (sub : BitVec 8) (value : List Byte) :
    KeepsQueue s (execRegisterWrite m index sub value s) := by
  simp [execRegisterWrite]

@[simp] theorem State.control_keepsQueue (m : Master) (o : Obj) (i v : Nat) : KeepsQueue s (s.control m o i v) := by
  simp [State.control]

@[simp] theorem execTblCmd_keepsQueue (m : Master) (room : Fin 16) (value : BitVec 32) :
    KeepsQueue s (execTblCmd m room value s) := by
  simp [execTblCmd]

@[simp] theorem execEdAdvance_keepsQueue (m : Master) (room : Fin 16) (expect : BitVec 16) :
    KeepsQueue s (execEdAdvance m room expect s) := by
  simp [execEdAdvance]

@[simp] theorem execBuildTrie_keepsQueue (m : Master) (table : Fin 256) : KeepsQueue s (execBuildTrie m table s) := by
  simp [execBuildTrie]

@[simp] theorem execBuildHash_keepsQueue (m : Master) (table : Fin 256) : KeepsQueue s (execBuildHash m table s) := by
  simp [execBuildHash]

@[simp] theorem execTrie_keepsQueue (m : Master) (table : Fin 256) : KeepsQueue s (execTrie m table s) := by
  simp [execTrie]

@[simp] theorem execHash_keepsQueue (m : Master) (table : Fin 256) : KeepsQueue s (execHash m table s) := by
  simp [execHash]

@[simp] theorem execEmTick_keepsQueue (m : Master) (value : BitVec 16) : KeepsQueue s (execEmTick m value s) := by
  simp [execEmTick]

@[simp] theorem execEmLfsrSeed_keepsQueue (m : Master) (value : BitVec 32) :
    KeepsQueue s (execEmLfsrSeed m value s) := by
  simp [execEmLfsrSeed]

@[simp] theorem execPoolProbeSel_keepsQueue (m : Master) (pool : Fin 64) (block : BitVec 32) :
    KeepsQueue s (execPoolProbeSel m pool block s) := by
  simp [execPoolProbeSel]

@[simp] theorem execCarData_keepsQueue (m : Master) (room : Fin 16) (value : BitVec 64) :
    KeepsQueue s (execCarData m room value s) := by
  simp [execCarData]

@[simp] theorem execCarClear_keepsQueue (m : Master) (room : Fin 16) (value : BitVec 32) :
    KeepsQueue s (execCarClear m room value s) := by
  simp [execCarClear]

@[simp] theorem execAccession_keepsQueue (m : Master) (value : BitVec 32) : KeepsQueue s (execAccession m value s) := by
  simp [execAccession]

@[simp] theorem execAccDiscard_keepsQueue (m : Master) (value : BitVec 16) :
    KeepsQueue s (execAccDiscard m value s) := by
  simp [execAccDiscard]

@[simp] theorem execRetrain_keepsQueue (m : Master) (port : Fin 32) (value : BitVec 32) :
    KeepsQueue s (execRetrain m port value s) := by
  simp [execRetrain]

@[simp] theorem execMbxSel_keepsQueue (m : Master) (value : BitVec 32) : KeepsQueue s (execMbxSel m value s) := by
  simp [execMbxSel]

@[simp] theorem execDbAck_keepsQueue (m : Master) (ring : Fin 17) (value : BitVec 16) :
    KeepsQueue s (execDbAck m ring value s) := by
  simp [execDbAck]

@[simp] theorem execDbCodeCfg_keepsQueue (m : Master) (value : BitVec 8) : KeepsQueue s (execDbCodeCfg m value s) := by
  simp [execDbCodeCfg]

@[simp] theorem execProvReq_keepsQueue (m : Master) (value : BitVec 8) : KeepsQueue s (execProvReq m value s) := by
  simp [execProvReq]

@[simp] theorem execFwUpdTarget_keepsQueue (m : Master) (value : BitVec 8) :
    KeepsQueue s (execFwUpdTarget m value s) := by
  simp [execFwUpdTarget]

@[simp] theorem execFwPolicy_keepsQueue (m : Master) (value : BitVec 8) : KeepsQueue s (execFwPolicy m value s) := by
  simp [execFwPolicy]

@[simp] theorem execLcReq_keepsQueue (m : Master) (value : BitVec 8) : KeepsQueue s (execLcReq m value s) := by
  simp [execLcReq]

@[simp] theorem execKeyLoad_keepsQueue (m : Master) (value : List Byte) : KeepsQueue s (execKeyLoad m value s) := by
  simp [execKeyLoad]

@[simp] theorem execVaultData_keepsQueue (m : Master) (value : BitVec 32) : KeepsQueue s (execVaultData m value s) := by
  simp [execVaultData]

@[simp] theorem execTamperCfg_keepsQueue (m : Master) (value : BitVec 16) : KeepsQueue s (execTamperCfg m value s) := by
  simp [execTamperCfg]

@[simp] theorem execRelease_keepsQueue (m : Master) (region : Fin 5) (value : BitVec 32) :
    KeepsQueue s (execRelease m region value s) := by
  simp [execRelease]

/-! ### Requests -/

@[simp] theorem State.inUse_pending (m : Master) : (s.inUse m).pending = s.pending := by
  simp only [State.inUse]
  split <;> simp

@[simp] theorem State.reply_pending (m : Master) (index sub : Nat) (l : List Pdu) :
    (s.reply m index sub l).pending = s.pending := by
  simp [State.reply]

@[simp] theorem State.macRefused_pending (n : Nat) (refusal : Pdu) : (s.macRefused n refusal).pending = s.pending := by
  simp [State.macRefused]

@[simp] theorem State.serve_pending (q : Pdu) {v : Service} (h : v.KeepsQueue) : (s.serve q v).pending = s.pending := by
  simp only [State.serve]
  (repeat' split) <;> simp [h _ _]

@[simp] theorem State.onPdu_keepsQueue (q : Pdu) (service : Nat) {v : State → Service} (h : ∀ u, (v u).KeepsQueue) :
    KeepsQueue s (s.onPdu q service v) := by
  simp [State.onPdu, h]

@[simp] theorem execReadReq_keepsQueue (pdu : Pdu) : KeepsQueue s (execReadReq pdu s) := by
  rw [execReadReq]
  exact s.onPdu_keepsQueue pdu _ fun u t l => by simp

@[simp] theorem execWriteReq_keepsQueue (pdu : Pdu) : KeepsQueue s (execWriteReq pdu s) := by
  rw [execWriteReq]
  exact s.onPdu_keepsQueue pdu _ fun u t l => by simp

@[simp] theorem execMbxReq_keepsQueue (pdu : Pdu) : KeepsQueue s (execMbxReq pdu s) := by
  rw [execMbxReq]
  exact s.onPdu_keepsQueue pdu _ fun u t l => by dsimp only; split <;> rfl

@[simp] theorem execBadPdu_keepsQueue (pdu : Pdu) : KeepsQueue s (execBadPdu pdu s) := by simp [execBadPdu]

@[simp] theorem State.window_pending (t : Transfer) : (s.window t).1.pending = s.pending := by simp [State.window]

@[simp] theorem State.startDownload_pending (q : Pdu) (index sub size : Nat) :
    (s.startDownload q index sub size).1.pending = s.pending := by
  simp [State.startDownload]

@[simp] theorem State.startUpload_pending (q : Pdu) (index sub : Nat) :
    (s.startUpload q index sub).1.pending = s.pending := by
  simp [State.startUpload]

@[simp] theorem execSegInit_keepsQueue (pdu : Pdu) : KeepsQueue s (execSegInit pdu s) := by
  rw [execSegInit]
  exact s.onPdu_keepsQueue pdu _ fun u t l => by simp

@[simp] theorem State.failTransfer_pending (q : Pdu) (code : Nat) : (s.failTransfer q code).1.pending = s.pending := by
  simp only [State.failTransfer]
  split <;> simp

@[simp] theorem State.endDownload_pending (q : Pdu) (t : Transfer) : (s.endDownload q t).1.pending = s.pending := by
  simp [State.endDownload]

@[simp] theorem State.takeSegment_pending (q : Pdu) (t : Transfer) (body : List Byte) :
    (s.takeSegment q t body).1.pending = s.pending := by
  simp [State.takeSegment]

@[simp] theorem execSegData_keepsQueue (pdu : Pdu) : KeepsQueue s (execSegData pdu s) := by
  rw [execSegData]
  exact s.onPdu_keepsQueue pdu _ fun u t l => by cases u.transferOf pdu.master <;> simp

@[simp] theorem execSegAck_keepsQueue (pdu : Pdu) : KeepsQueue s (execSegAck pdu s) := by
  rw [execSegAck]
  exact s.onPdu_keepsQueue pdu _ fun u t l => by cases u.transferOf pdu.master <;> simp

@[simp] theorem execAbort_keepsQueue (pdu : Pdu) : KeepsQueue s (execAbort pdu s) := by
  rw [execAbort]
  exact s.onPdu_keepsQueue pdu _ fun u t l => t.dropTransfer_pending _

@[simp] theorem execTimeout_keepsQueue (m : Master) : KeepsQueue s (execTimeout m s) := by
  simp only [execTimeout]
  split <;> simp

@[simp] theorem execSleepReq_keepsQueue (pdu : Pdu) : KeepsQueue s (execSleepReq pdu s) := by
  simp only [execSleepReq]
  split
  · simp
  · exact s.onPdu_keepsQueue pdu _ fun u t l => by simp

@[simp] theorem State.openFor_pending (q : Pdu) (level room : Nat) :
    (s.openFor q level room).1.pending = s.pending := by
  simp only [State.openFor]
  (repeat' split) <;> simp

@[simp] theorem execOpenSession_keepsQueue (pdu : Pdu) : KeepsQueue s (execOpenSession pdu s) := by
  rw [execOpenSession]
  split
  · simp
  · exact s.onPdu_keepsQueue pdu _ fun u t l => by simp

@[simp] theorem State.proveFails_pending (q : Pdu) : (s.proveFails q).1.pending = s.pending := by
  simp [State.proveFails]

@[simp] theorem State.proveFor_pending (q : Pdu) (body : List Byte) : (s.proveFor q body).1.pending = s.pending := by
  simp only [State.proveFor]
  split <;> simp

@[simp] theorem execProve_keepsQueue (pdu : Pdu) : KeepsQueue s (execProve pdu s) := by
  rw [execProve]
  split
  · simp
  · exact s.onPdu_keepsQueue pdu _ fun u t l => by simp

@[simp] theorem execClose_keepsQueue (pdu : Pdu) : KeepsQueue s (execClose pdu s) := by
  rw [execClose]
  split
  · simp
  · exact s.onPdu_keepsQueue pdu _ fun u t l => by dsimp only; split <;> simp

@[simp] theorem execSessionIdle_keepsQueue (session : Fin 48) : KeepsQueue s (execSessionIdle session s) := by
  simp [execSessionIdle]

/-! ### Resets and start attempts -/

@[simp] theorem State.clean_pending : s.clean.pending = s.pending := by simp [State.clean]

@[simp] theorem State.loseFuse_pending : s.loseFuse.pending = s.pending := by
  simp only [State.loseFuse]
  (repeat' split) <;> simp

@[simp] theorem State.loseSlot_pending : s.loseSlot.pending = s.pending := by
  simp only [State.loseSlot]
  split <;> simp

@[simp] theorem State.interrupt_pending : s.interrupt.pending = s.pending := by simp [State.interrupt]

@[simp] theorem State.intoReset_pending : s.intoReset.pending = s.pending := by simp [State.intoReset]

@[simp] theorem State.takeMirror_pending (readable : Bool) : (s.takeMirror readable).pending = s.pending := by
  simp only [State.takeMirror]
  (repeat' split) <;> simp

@[simp] theorem State.checkVault_pending (readable : Bool) : (s.checkVault readable).pending = s.pending := by
  simp [State.checkVault]

@[simp] theorem State.measureRom_pending : s.measureRom.pending = s.pending := by simp [State.measureRom]

@[simp] theorem State.measureImage_pending : s.measureImage.pending = s.pending := by simp [State.measureImage]

@[simp] theorem State.chooseImage_pending : s.chooseImage.pending = s.pending := by simp [State.chooseImage]

@[simp] theorem State.beginSlot_pending : s.beginSlot.pending = s.pending := by simp [State.beginSlot]

@[simp] theorem State.bistBay_pending (b : Nat) : (s.bistBay b).pending = s.pending := by
  simp only [State.bistBay]
  split <;> simp

@[simp] theorem State.cfgWrite_pending (w : CfgWrite) : (s.cfgWrite w).pending = s.pending := by
  simp only [State.cfgWrite]
  (repeat' split) <;> simp

@[simp] theorem State.measureCfg_pending (w : CfgWrite) : (s.measureCfg w).pending = s.pending := by
  simp [State.measureCfg]

@[simp] theorem State.configure_pending (l : List CfgWrite) : (s.configure l).pending = s.pending := by
  simp only [State.configure]
  split <;> simp

@[simp] theorem State.bringUp_pending (boot : BootInput) : (s.bringUp boot).pending = s.pending := by
  simp only [State.bringUp]
  split <;> simp

@[simp] theorem State.loadImage_pending (boot : BootInput) : (s.loadImage boot).pending = s.pending := by
  simp [State.loadImage]

@[simp] theorem State.runAttempt_pending (boot : BootInput) : (s.runAttempt boot).pending = s.pending := by
  simp [State.runAttempt]

@[simp] theorem State.beginAttempt_pending (cause : Nat) (boot : BootInput) :
    (s.beginAttempt cause boot).pending = s.pending := by
  simp [State.beginAttempt]

@[simp] theorem execAclkQualified_keepsQueue : KeepsQueue s (execAclkQualified s) := by
  simp only [execAclkQualified]
  (repeat' split) <;> simp

@[simp] theorem execPorn_keepsQueue (lowNs : Nat) : KeepsQueue s (execPorn lowNs s) := by simp [execPorn]

@[simp] theorem State.powerUp_pending (straps : Straps) (boot : BootInput) :
    (s.powerUp straps boot).pending = s.pending := by
  simp -implicitDefEqProofs [State.powerUp]

@[simp] theorem execPornRelease_keepsQueue (straps : Straps) (boot : BootInput) :
    KeepsQueue s (execPornRelease straps boot s) := by
  simp [execPornRelease]

@[simp] theorem execSysrstn_keepsQueue (lowNs : Nat) : KeepsQueue s (execSysrstn lowNs s) := by simp [execSysrstn]

@[simp] theorem execSysrstnRelease_keepsQueue (boot : BootInput) : KeepsQueue s (execSysrstnRelease boot s) := by
  simp [execSysrstnRelease]

@[simp] theorem execInternalRestart_keepsQueue (boot : BootInput) : KeepsQueue s (execInternalRestart boot s) := by
  simp only [execInternalRestart]
  split <;> simp

@[simp] theorem State.measureOwn_pending : s.measureOwn.pending = s.pending := by
  simp -implicitDefEqProofs [State.measureOwn]

@[simp] theorem execStartComplete_keepsQueue : KeepsQueue s (execStartComplete s) := by simp [execStartComplete]

@[simp] theorem execFwTimeout_keepsQueue : KeepsQueue s (execFwTimeout s) := by simp [execFwTimeout]

@[simp] theorem execFwFault_keepsQueue (cause : BitVec 16) : KeepsQueue s (execFwFault cause s) := by simp [execFwFault]

@[simp] theorem execFwAbort_keepsQueue (code : BitVec 16) : KeepsQueue s (execFwAbort code s) := by simp [execFwAbort]

@[simp] theorem execBistFail_keepsQueue (die : Fin 5) (block : BitVec 12) :
    KeepsQueue s (execBistFail die block s) := by
  simp [execBistFail]

@[simp] theorem execPllLockFail_keepsQueue (region : Fin 5) : KeepsQueue s (execPllLockFail region s) := by
  simp [execPllLockFail]

/-! ### Power and the test port -/

@[simp] theorem execMgmtWait_keepsQueue : KeepsQueue s (execMgmtWait s) := by simp [execMgmtWait]

@[simp] theorem State.fwRuns_pending : s.fwRuns.pending = s.pending := by simp [State.fwRuns]

@[simp] theorem execMgmtWake_keepsQueue (cause : WakeCause) : KeepsQueue s (execMgmtWake cause s) := by
  simp only [execMgmtWake]
  (repeat' split) <;> simp

@[simp] theorem execSupplyLoss_keepsQueue (supply : Supply) : KeepsQueue s (execSupplyLoss supply s) := by
  simp [execSupplyLoss]

@[simp] theorem execSupplyRise_keepsQueue (supply : Supply) (straps : Straps) (boot : BootInput) :
    KeepsQueue s (execSupplyRise supply straps boot s) := by
  simp [execSupplyRise]

@[simp] theorem State.enterTest_pending : s.enterTest.pending = s.pending := by simp [State.enterTest]

@[simp] theorem State.leaveTest_pending (boot : BootInput) : (s.leaveTest boot).pending = s.pending := by
  simp [State.leaveTest]

@[simp] theorem execExtest_keepsQueue (test : BoundaryTest) : KeepsQueue s (execExtest test s) := by
  simp only [execExtest]
  (repeat' split) <;> simp

@[simp] theorem State.tapClock_pending (boot : BootInput) (c : TapClock) :
    (State.tapClock boot s c).pending = s.pending := by
  simp only [State.tapClock]
  split <;> simp

@[simp] theorem execTapExit_keepsQueue (run : TapRun) : KeepsQueue s (execTapExit run s) := by simp [execTapExit]

@[simp] theorem execTrstn_keepsQueue (boot : BootInput) : KeepsQueue s (execTrstn boot s) := by simp [execTrstn]

/-! ### Dictionary bus -/

@[simp] theorem execCanFrameDiscard_keepsQueue (kind : CanDiscard) : KeepsQueue s (execCanFrameDiscard kind s) := by
  simp only [execCanFrameDiscard]
  (repeat' split) <;> simp

@[simp] theorem State.clashRecord_pending (dir : Nat) : (s.clashRecord dir).pending = s.pending := by
  simp [State.clashRecord]

@[simp] theorem State.clashFrame_pending : s.clashFrame.pending = s.pending := by simp [State.clashFrame]

@[simp] theorem execDbusNodeClash_keepsQueue : KeepsQueue s (execDbusNodeClash s) := by simp [execDbusNodeClash]

@[simp] theorem execNodeClashClear_keepsQueue : KeepsQueue s (execNodeClashClear s) := by simp [execNodeClashClear]

@[simp] theorem execCanError_keepsQueue (tec rec : BitVec 16) : KeepsQueue s (execCanError tec rec s) := by
  simp [execCanError]

@[simp] theorem execDbusBusoff_keepsQueue : KeepsQueue s (execDbusBusoff s) := by simp [execDbusBusoff]

@[simp] theorem execBusoffRecovery_keepsQueue : KeepsQueue s (execBusoffRecovery s) := by simp [execBusoffRecovery]

@[simp] theorem execProtocolException_keepsQueue : KeepsQueue s (execProtocolException s) := by
  simp [execProtocolException]

@[simp] theorem execProtocolExceptionEnd_keepsQueue : KeepsQueue s (execProtocolExceptionEnd s) := by
  simp [execProtocolExceptionEnd]

@[simp] theorem execDbusRateSwitch_keepsQueue : KeepsQueue s (execDbusRateSwitch s) := by
  simp only [execDbusRateSwitch]
  split <;> simp

@[simp] theorem State.announce_pending (prio service : Nat) (bytes : List Byte) :
    (s.announce prio service bytes).pending = s.pending := by
  simp [State.announce]

@[simp] theorem State.sendEvent_pending (ring kind seq : Nat) (body : List Byte) :
    (s.sendEvent ring kind seq body).pending = s.pending := by
  simp [State.sendEvent]

@[simp] theorem execHeartbeat_keepsQueue : KeepsQueue s (execHeartbeat s) := by simp [execHeartbeat]

@[simp] theorem execEventPdu_keepsQueue : KeepsQueue s (execEventPdu s) := by
  simp only [execEventPdu]
  (repeat' split) <;> simp

@[simp] theorem State.sleepRecord_pending (dir : Nat) : (s.sleepRecord dir).pending = s.pending := by
  simp [State.sleepRecord]

@[simp] theorem execDbusSleep_keepsQueue : KeepsQueue s (execDbusSleep s) := by
  simp only [execDbusSleep]
  split <;> simp

@[simp] theorem execDeviceWake_keepsQueue : KeepsQueue s (execDeviceWake s) := by simp [execDeviceWake]

@[simp] theorem execBusWake_keepsQueue : KeepsQueue s (execBusWake s) := by simp [execBusWake]

@[simp] theorem execBusActive_keepsQueue : KeepsQueue s (execBusActive s) := by simp [execBusActive]

/-! ### Event frames -/

@[simp] theorem execEventFrame_keepsQueue (port : Fin 32) : KeepsQueue s (execEventFrame port s) := by
  simp only [execEventFrame]
  (repeat' split) <;> simp

/-! ### Commands -/

/-- No command takes another from the queue or puts one into it. -/
theorem exec_keepsQueue (c : Instr) : KeepsQueue s (exec c s) := by
  cases c <;> simp [exec]

/-- A step leaves the rest of the queue behind the command that it runs. -/
theorem step_pending {s t : State} {c : Instr} {rest : List Instr} (hp : s.pending = c :: rest)
    (h : step s = .next t) : t.pending = rest := by
  rw [step, hp] at h
  exact exec_keepsQueue _ c t h

/-- With nothing waiting a step lets a cycle pass (log 1). -/
theorem step_of_pending_nil {s : State} (hp : s.pending = []) : step s = .next { s with now := s.now + 1 } := by
  simp only [step, hp, idleStep]

end Sys2Proof.Machine
end

section
open Sys2Proof Sys2Proof.Machine

/-- Settles O2: every command keeps the queue on which it runs, by cases on the command. -/
theorem queueIsFifo : Obligations.QueueIsFifo :=
  ⟨fun _ _ _ _ hp h => step_pending hp h, fun _ hp => step_of_pending_nil hp⟩
end

section
/-! Frames and records: each update of one piece of the state touches that piece alone, and a record that finds its ring
open stands in it afterwards. -/

namespace Sys2Proof.Machine

/-! ### One piece -/

theorem touches_now (s : State) (n : Nat) : Touches [.now] s { s with now := n } := by
  intro p hp
  cases p <;> simp_all [Piece.same, State.ring, State.port]

theorem touches_free (s : State) (n : Nat) : Touches [.free] s { s with free := n } := by
  intro p hp
  cases p <;> simp_all [Piece.same, State.ring, State.port]

theorem touches_dev (s : State) (d : Dev) : Touches [.dev] s { s with dev := d } := by
  intro p hp
  cases p <;> simp_all [Piece.same, State.ring, State.port]

theorem touches_boot (s : State) (b : Boot) : Touches [.boot] s { s with boot := b } := by
  intro p hp
  cases p <;> simp_all [Piece.same, State.ring, State.port]

theorem touches_vault (s : State) (v : Vault) : Touches [.vault] s { s with vault := v } := by
  intro p hp
  cases p <;> simp_all [Piece.same, State.ring, State.port]

theorem touches_ports (s : State) (l : Store Port) : Touches [.ports] s { s with ports := l } := by
  intro p hp
  cases p <;> simp_all [Piece.same, State.ring]

theorem touches_wire (s : State) (l : List Wire) : Touches [.wire] s { s with wire := l } := by
  intro p hp
  cases p <;> simp_all [Piece.same, State.ring, State.port]

theorem touches_search (s : State) (x : Search) : Touches [.search] s { s with search := x } := by
  intro p hp
  cases p <;> simp_all [Piece.same, State.ring, State.port]

theorem touches_tables (s : State) (l : Store Table) : Touches [.tables] s { s with tables := l } := by
  intro p hp
  cases p <;> simp_all [Piece.same, State.ring, State.port]

theorem touches_mem (s : State) (m : Mem) : Touches [.mem] s { s with mem := m } := by
  intro p hp
  cases p <;> simp_all [Piece.same, State.ring, State.port]

theorem touches_arb (s : State) (a : Arbiter) : Touches [.arb] s { s with arb := a } := by
  intro p hp
  cases p <;> simp_all [Piece.same, State.ring, State.port]

theorem touches_guar (s : State) (g : Guar) : Touches [.guar] s { s with guar := g } := by
  intro p hp
  cases p <;> simp_all [Piece.same, State.ring, State.port]

theorem touches_cas (s : State) (c : Cas) : Touches [.cas] s { s with cas := c } := by
  intro p hp
  cases p <;> simp_all [Piece.same, State.ring, State.port]

theorem touches_bus (s : State) (b : Bus) : Touches [.bus] s { s with bus := b } := by
  intro p hp
  cases p <;> simp_all [Piece.same, State.ring, State.port]

/-- A change of the catalogue that keeps its registers. -/
theorem touches_cat (s : State) (c : Cat) (h : c.regs = s.cat.regs) : Touches [.catalogue] s { s with cat := c } := by
  intro p hp
  cases p <;> simp_all [Piece.same, State.ring, State.port]

theorem touches_setReg (s : State) (o : Obj) (i off ext v : Nat) : Touches [.regs] s (s.setReg o i off ext v) := by
  intro p hp
  cases p <;> simp_all [Piece.same, State.ring, State.port]

theorem touches_setPort (s : State) (p : Nat) (q : Port) : Touches [.ports] s (s.setPort p q) := touches_ports s _

/-- A later change within the pieces already listed. -/
theorem Touches.followed {l m : List Piece} {a b c : State} (h : Touches l a b) (k : Touches m b c) (hm : ∀ p ∈ m, p ∈ l) :
    Touches l a c := h.trans (k.mono hm)

/-! ### Registers -/

theorem RegsBut.refl (l : List Nat) (s : State) : RegsBut l s s := fun _ _ _ => rfl

theorem RegsBut.trans {l : List Nat} {a b c : State} (h : RegsBut l a b) (k : RegsBut l b c) : RegsBut l a c :=
  fun i hi hl => (k i hi hl).trans (h i hi hl)

theorem RegsBut.mono {l m : List Nat} {a b : State} (h : RegsBut l a b) (hl : ∀ k ∈ l, k ∈ m) : RegsBut m a b :=
  fun i hi hm => h i hi fun x => hm (hl i x)

/-- A state with the same registers. -/
theorem RegsBut.of_eq {s t : State} (l : List Nat) (h : t.cat.regs = s.cat.regs) : RegsBut l s t := fun _ _ _ => by rw [h]

theorem OnlyRecords.regsBut {s t : State} (l : List Nat) (r : OnlyRecords s t) : RegsBut l s t := fun k hk _ => r.regs k hk

theorem regsBut_setReg (s : State) (o : Obj) (i off ext v : Nat) : RegsBut [o.key i off ext] s (s.setReg o i off ext v) :=
  fun _ _ hl => State.regs_setReg_ne _ _ _ _ _ _ _ (by simpa using hl)

/-- A register that records do not write reads the same after them. -/
theorem OnlyRecords.reg {s t : State} (r : OnlyRecords s t) (o : Obj) (i off ext : Nat) (h : o.key i off ext ∉ daybookKeys) :
    t.reg o i off ext = s.reg o i off ext := r.regs _ h

/-- A register outside those listed reads the same. -/
theorem RegsBut.reg {l : List Nat} {s t : State} (r : RegsBut l s t) (o : Obj) (i off ext : Nat)
    (h : o.key i off ext ∉ daybookKeys) (hl : o.key i off ext ∉ l) : t.reg o i off ext = s.reg o i off ext := r _ h hl

/-! ### Ports -/

theorem PortFrame.refl (p : Nat) (l : List Piece) (s : State) : PortFrame p l s s := ⟨Touches.refl _ _, fun _ _ => rfl⟩

theorem PortFrame.trans {p : Nat} {l : List Piece} {a b c : State} (h : PortFrame p l a b) (k : PortFrame p l b c) :
    PortFrame p l a c := ⟨h.1.trans k.1, fun j hj => (k.2 j hj).trans (h.2 j hj)⟩

/-- A change that leaves the ports alone keeps within every port's frame. -/
theorem PortFrame.of_touches {l m : List Piece} {a b : State} (p : Nat) (h : Touches m a b) (hm : Piece.ports ∉ m)
    (hl : ∀ x ∈ m, x ∈ l) : PortFrame p l a b :=
  ⟨h.mono fun x hx => List.mem_cons_of_mem _ (hl x hx), fun j _ => h .ports hm j⟩

theorem portFrame_setPort (s : State) (p : Nat) (q : Port) (l : List Piece) : PortFrame p l s (s.setPort p q) :=
  ⟨(touches_setPort s p q).mono (by simp), fun j hj => by rw [State.port_setPort_ne _ _ _ _ hj]⟩

theorem OnlyRecords.portFrame {s t : State} (r : OnlyRecords s t) (p : Nat) (l : List Piece) : PortFrame p l s t :=
  ⟨r.touches _, fun j _ => r.ports j⟩

/-! ### Rings -/

@[simp] theorem State.deliver_rings (s : State) (r : Nat) (q : BitVec 16) (x : Rec) : (s.deliver r q x).rings = s.rings := by
  simp only [State.deliver]
  repeat' split
  all_goals rfl

@[simp] theorem Ring.settled_placed (g : Ring) (now : Nat) : (g.settled now).placed = g.placed := by
  simp only [Ring.settled]
  split <;> rfl

@[simp] theorem Ring.settled_waiting (g : Ring) (now : Nat) : (g.settled now).waiting now = g.waiting now := by
  simp [Ring.waiting]

/-- The records that find the ring full later are those that have not found it so yet. -/
@[simp] theorem Ring.settled_lateWaiting (g : Ring) (now : Nat) : (g.settled now).lateWaiting now = g.lateWaiting now := by
  have h : ∀ l : List (Nat × Rec), (l.filter fun e => decide (now ≤ e.1)).filter (fun e => decide (now < e.1)) =
      l.filter fun e => decide (now < e.1) := by
    intro l
    rw [List.filter_filter]
    congr 1
    funext e
    by_cases he : now < e.1 <;> simp [he]
    omega
  simp only [Ring.settled, Ring.lateWaiting]
  split
  · rfl
  · rw [h]

@[simp] theorem State.setRing_deliver_ring (s : State) (r : Nat) (g : Ring) (q : BitVec 16) (x : Rec) (j : Nat) :
    ((s.setRing r g).deliver r q x).ring j = (s.setRing r g).ring j := by simp [State.ring]

@[simp] theorem State.bump_ring (s : State) (o : Obj) (i off j : Nat) : (s.bump o i off).ring j = s.ring j := rfl

/-- A record that arrives at an open ring stands in it (R365). -/
theorem State.mem_toRing {s : State} {r : Nat} (x : Rec) (h : s.ringOpen r) : x ∈ ((s.toRing r x).ring r).recs := by
  obtain ⟨hlen, hwait⟩ := h
  have h1 : ¬ 32 ≤ (s.ring r).waiting s.now + (s.ring r).lateWaiting s.now := by omega
  have h2 : ¬ 1024 ≤ (s.ring r).recs.length := by omega
  simp [State.toRing, h1, h2]

/-- A ring that is open after a record arrived was open before it (R365, R366). -/
theorem State.ringOpen_of_toRing {s : State} {r : Nat} {x : Rec} (hr : r < 17) (h : (s.toRing r x).ringOpen r) :
    s.ringOpen r := by
  have hnow := (onlyRecords_toRing s r x hr).now
  obtain ⟨hlen, hwait⟩ := h
  rw [hnow] at hwait
  simp only [State.toRing] at hlen hwait
  split at hlen
  · rename_i h1
    rw [if_pos h1] at hwait
    simp [Ring.lateWaiting, Ring.waiting, List.filter_append] at h1 hwait
    have := Ring.settled_lateWaiting (s.ring r) s.now
    simp only [Ring.lateWaiting] at this
    omega
  · rename_i h1
    split at hlen
    · rename_i h2
      simp at hlen h2
      omega
    · rename_i h2
      simp at h1 h2
      exact ⟨by omega, by omega⟩

/-- The record that the daybook would write for a device-wide event (R364). -/
def State.deviceRec (s : State) (c : Code) (src : Nat) (f : List (Nat × Nat)) (dir : Nat) : Rec :=
  ⟨BitVec.ofNat 64 s.now, BitVec.ofNat 16 c.num, BitVec.ofNat 8 src, 0, false, BitVec.ofNat 2 (s.codeCfg c),
    BitVec.ofNat 2 dir, detailOf f⟩

/-- A device-wide record goes to the device ring (R364). -/
theorem State.record_rings (s : State) (c : Code) (src : Nat) (f : List (Nat × Nat)) (dir : Nat) :
    (s.record c none src f dir).rings = (s.toRing 16 (s.deviceRec c src f dir)).rings := by
  have wakes : ∀ (b : Prop) [Decidable b] (t : State), (if b then t.wakeMgmt else t).rings = t.rings := by
    intro b _ t
    split <;> rfl
  simp only [State.record, wakes]
  cases c.info.2.2 <;> rfl

/-- A device-wide record that finds the device ring open stands in it, with its code and its detail. -/
theorem State.mem_record {s : State} (c : Code) (src : Nat) (f : List (Nat × Nat)) (dir : Nat) (h : s.ringOpen 16) :
    ∃ x ∈ ((s.record c none src f dir).ring 16).recs, x.code = BitVec.ofNat 16 c.num ∧ x.detail = detailOf f := by
  refine ⟨s.deviceRec c src f dir, ?_, rfl, rfl⟩
  rw [State.ring, State.record_rings]
  exact State.mem_toRing _ h

theorem State.recorded_record {s : State} (c : Code) (src : Nat) (f : List (Nat × Nat)) (dir : Nat) (h : s.ringOpen 16) :
    (s.record c none src f dir).recorded 16 c := by
  obtain ⟨x, hx, hc, _⟩ := State.mem_record c src f dir h
  exact ⟨x, hx, hc⟩

/-- When the device ring is open after a device-wide record, the record stands in it. -/
theorem State.recorded_of_open {s : State} (c : Code) (src : Nat) (f : List (Nat × Nat)) (dir : Nat)
    (h : (s.record c none src f dir).ringOpen 16) : (s.record c none src f dir).recorded 16 c := by
  refine State.recorded_record c src f dir (State.ringOpen_of_toRing (x := s.deviceRec c src f dir) (by omega) ?_)
  have hn := (onlyRecords_record s c none src f dir (by simp)).now
  have ht := (onlyRecords_toRing s 16 (s.deviceRec c src f dir) (by omega)).now
  simpa only [State.ringOpen, State.ring, State.record_rings, hn, ht] using h

/-- Records that come later leave an earlier one where it stands. -/
theorem State.recorded.of_records {s t : State} {r : Nat} {c : Code} (h : s.recorded r c) (k : OnlyRecords s t) :
    t.recorded r c := by
  obtain ⟨x, hx, hc⟩ := h
  exact ⟨x, (k.recs r).subset hx, hc⟩

theorem State.recorded.of_rings {s t : State} {r : Nat} {c : Code} (h : s.recorded r c) (hr : t.rings = s.rings) :
    t.recorded r c := by simpa only [State.recorded, State.ring, hr] using h

/-- A state with the same rings at the same time has the same rings open. -/
theorem State.ringOpen_congr {s t : State} (r : Nat) (hr : t.rings = s.rings) (hn : t.now = s.now) :
    t.ringOpen r ↔ s.ringOpen r := by simp [State.ringOpen, State.ring, hr, hn]

end Sys2Proof.Machine
end

section
/-! Start-record slots and the end of an attempt: a slot reads back as it was written (R411, R412), and a failed or
successful attempt changes no more than its slot, its record and the phase of the device (R400, R410). -/

namespace Sys2Proof.Machine

/-! ### Pins that records leave -/

section
variable {s t : State} (h : t.dev.core = s.dev.core)
include h

theorem vaon_of_core : t.dev.vaon = s.dev.vaon := show t.dev.core.vaon = s.dev.core.vaon by rw [h]
theorem phase_of_core : t.dev.phase = s.dev.phase := show t.dev.core.phase = s.dev.core.phase by rw [h]
theorem diesUp_of_core : t.dev.diesUp = s.dev.diesUp := show t.dev.core.diesUp = s.dev.core.diesUp by rw [h]
theorem straps_of_core : t.dev.straps = s.dev.straps := show t.dev.core.straps = s.dev.core.straps by rw [h]

end

/-! ### Bytes -/

@[simp] theorem length_bytesLE (n x : Nat) : (bytesLE n x).length = n := by
  induction n generalizing x with
  | zero => rfl
  | succ n ih => simp [bytesLE, ih]

@[simp] theorem length_bytesBE (n x : Nat) : (bytesBE n x).length = n := by simp [bytesBE]

theorem ofBytesLE_lt (l : List Byte) : ofBytesLE l < 256 ^ l.length := by
  induction l with
  | nil => simp [ofBytesLE]
  | cons b t ih =>
    have hb := b.isLt
    simp only [ofBytesLE, List.length_cons, Nat.pow_succ]
    omega

theorem bytesLE_ofBytesLE (l : List Byte) : bytesLE l.length (ofBytesLE l) = l := by
  induction l with
  | nil => rfl
  | cons b t ih =>
    have hb := b.isLt
    have hdiv : (b.toNat + 256 * ofBytesLE t) / 256 = ofBytesLE t := by omega
    simp only [List.length_cons, bytesLE, ofBytesLE, hdiv, ih, List.cons.injEq, and_true]
    apply BitVec.eq_of_toNat_eq
    simp only [BitVec.toNat_ofNat]
    omega

theorem bytesBE_ofBytesBE (l : List Byte) : bytesBE l.length (ofBytesBE l) = l := by
  have h := bytesLE_ofBytesLE l.reverse
  rw [List.length_reverse] at h
  simp only [bytesBE, ofBytesBE, h, List.reverse_reverse]

theorem ofBytesBE_lt (l : List Byte) : ofBytesBE l < 256 ^ l.length := by
  simpa [ofBytesBE] using ofBytesLE_lt l.reverse

/-- Words of four bytes, one after the other, are the bytes again. -/
theorem flatMap_words (b : List Byte) (k : Nat) :
    ((List.range k).flatMap fun i => (b.drop (4 * i)).take 4) = b.take (4 * k) := by
  induction k with
  | zero => simp
  | succ k ih => rw [List.range_succ, List.flatMap_append, ih, Nat.mul_succ, List.take_add]; simp

/-! ### Vault words -/

/-- The word of a slot image that vault word `i` of the slot takes (R411). -/
def slotWord (b : List Byte) (i : Nat) : Nat := ofBytesBE ((b.drop (4 * i)).take 4)

theorem bytesBE_slotWord {b : List Byte} (hb : b.length = 32) {i : Nat} (hi : i < 8) :
    bytesBE 4 (slotWord b i % 4294967296) = (b.drop (4 * i)).take 4 := by
  have hl : ((b.drop (4 * i)).take 4).length = 4 := by simp [hb]; omega
  have hlt := ofBytesBE_lt ((b.drop (4 * i)).take 4)
  have hrt := bytesBE_ofBytesBE ((b.drop (4 * i)).take 4)
  rw [hl] at hlt hrt
  rw [slotWord, Nat.mod_eq_of_lt (by omega), hrt]

/-- A write of vault words touches nothing but the vault. -/
theorem State.setVaultWord_eq (s : State) (a v : Nat) : ∃ x, s.setVaultWord a v = { s with vault := x } := by
  simp only [State.setVaultWord]
  split
  · exact ⟨_, rfl⟩
  · exact ⟨s.vault, rfl⟩

/-- A word of the start record reads back while VAON is present (R422, R435). -/
theorem State.vaultWord_setVaultWord {s : State} (hv : s.dev.vaon = true) {a : Nat} (ha : a < 16) (v j : Nat) :
    (s.setVaultWord a v).vaultWord j = if j = a then v % 4294967296 else s.vaultWord j := by
  simp [State.setVaultWord, State.vaultWord, hv, ha, sget_sput]

/-- The first `k` words of a slot written one after the other (R411). -/
def State.putFirst (s : State) (n : Nat) (b : List Byte) (k : Nat) : State :=
  (List.range k).foldl (fun s i => s.setVaultWord (8 * n + i) (slotWord b i)) s

theorem State.putFirst_succ (s : State) (n : Nat) (b : List Byte) (k : Nat) :
    s.putFirst n b (k + 1) = (s.putFirst n b k).setVaultWord (8 * n + k) (slotWord b k) := by
  simp [State.putFirst, List.range_succ]

theorem State.putFirst_eq (s : State) (n : Nat) (b : List Byte) (k : Nat) : ∃ x, s.putFirst n b k = { s with vault := x } := by
  induction k with
  | zero => exact ⟨s.vault, rfl⟩
  | succ k ih =>
    obtain ⟨x, hx⟩ := ih
    obtain ⟨y, hy⟩ := State.setVaultWord_eq (s.putFirst n b k) (8 * n + k) (slotWord b k)
    exact ⟨y, by rw [State.putFirst_succ, hy, hx]⟩

theorem State.vaultWord_putFirst {s : State} (hv : s.dev.vaon = true) {n k : Nat} (hn : n < 2) (b : List Byte) (hk : k ≤ 8)
    {i : Nat} (hi : i < k) : (s.putFirst n b k).vaultWord (8 * n + i) = slotWord b i % 4294967296 := by
  induction k with
  | zero => omega
  | succ k ih =>
    obtain ⟨x, hx⟩ := State.putFirst_eq s n b k
    have hdev : (s.putFirst n b k).dev.vaon = true := by rw [hx]; exact hv
    rw [State.putFirst_succ, State.vaultWord_setVaultWord hdev (by omega)]
    by_cases hik : i = k
    · simp [hik]
    · rw [if_neg (by omega), ih (by omega) (by omega)]

/-! ### Slots -/

/-- The slots of the start record are those of the vault, or without VAON those that the mirror gave (R411, R413). -/
theorem State.slotBytes_congr {s t : State} (n : Nat) (hd : t.dev.vaon = s.dev.vaon) (hw : t.vault.words = s.vault.words)
    (ha : t.boot.attempt.slots = s.boot.attempt.slots) : t.slotBytes n = s.slotBytes n := by
  simp [State.slotBytes, State.vaultWord, hd, hw, ha]

/-- The state after a slot write, without the record of a failed mirror (R412, R413). -/
def State.slotted (s : State) (b : List Byte) : State :=
  let p := s.putSlot s.boot.attempt.slot b
  if s.boot.attempt.mirrorFail then p else p.mirrorSlot b

/-- A slot write changes the vault and the start-up state: the attempt's slots, the flash and what is noted of the write. -/
theorem State.slotted_eq (s : State) (b : List Byte) : ∃ v l w f, s.slotted b =
    { s with vault := v, boot := { s.boot with attempt := { s.boot.attempt with slots := l }, writing := w, flash := f } } := by
  obtain ⟨x, hx⟩ := State.putFirst_eq s s.boot.attempt.slot b 8
  have hp : s.putWords s.boot.attempt.slot b = { s with vault := x } := hx
  cases hm : s.boot.attempt.mirrorFail
  · simp only [State.slotted, State.putSlot, hp, State.mirrorSlot, State.setAttempt, hm]
    exact ⟨_, _, _, _, rfl⟩
  · simp only [State.slotted, State.putSlot, hp, State.setAttempt, hm]
    exact ⟨x, _, _, s.boot.flash, rfl⟩

/-- A slot write ends in `slotted` but for the record of a failed mirror (R413). -/
theorem State.onlyRecords_writeSlot (s : State) (b : List Byte) : OnlyRecords (s.slotted b) (s.writeSlot b) := by
  obtain ⟨x, hx⟩ := State.putFirst_eq s s.boot.attempt.slot b 8
  have hp : s.putWords s.boot.attempt.slot b = { s with vault := x } := hx
  cases hm : s.boot.attempt.mirrorFail
  · simp only [State.slotted, State.writeSlot, hm]
    exact OnlyRecords.refl _
  · simp only [State.slotted, State.writeSlot, State.putSlot, hp, State.mirrorSlot, State.setAttempt, hm, if_true]
    exact onlyRecords_record _ _ _ _ _ _ (by simp)

/-- With a mirror that does not fail a slot write makes no record. -/
theorem State.writeSlot_of_mirror {s : State} (b : List Byte) (h : s.boot.attempt.mirrorFail = false) :
    s.writeSlot b = s.slotted b := by
  simp [State.slotted, State.writeSlot, h]

/-- A slot reads back as it was written (R411, R422). -/
theorem State.slotBytes_slotted {s : State} {b : List Byte} (hb : b.length = 32) (hv : s.dev.vaon = true)
    (hn : s.boot.attempt.slot < 2) : (s.slotted b).slotBytes s.boot.attempt.slot = b := by
  have hw : (s.slotted b).vault.words = (s.putFirst s.boot.attempt.slot b 8).vault.words := by
    cases hm : s.boot.attempt.mirrorFail
    · obtain ⟨x, hx⟩ := State.putFirst_eq s s.boot.attempt.slot b 8
      have hp : s.putWords s.boot.attempt.slot b = { s with vault := x } := hx
      simp [State.slotted, State.putSlot, State.mirrorSlot, State.setAttempt, hp, hm, hx]
    · simp only [State.slotted, hm]
      rfl
  obtain ⟨v, l, w, f, he⟩ := State.slotted_eq s b
  have hd : (s.slotted b).dev.vaon = true := by rw [he]; exact hv
  have hword : ∀ i ∈ List.range 8, bytesBE 4 ((s.slotted b).vaultWord (8 * s.boot.attempt.slot + i)) =
      (b.drop (4 * i)).take 4 := by
    intro i hi
    rw [List.mem_range] at hi
    have hf := State.vaultWord_putFirst hv hn b (Nat.le_refl 8) hi
    simp only [State.vaultWord] at hf ⊢
    rw [hw, hf, bytesBE_slotWord hb hi]
  simp only [State.slotBytes, hd, Bool.not_true, Bool.false_eq_true, if_false]
  rw [List.flatMap_congr hword, flatMap_words, List.take_of_length_le (by omega)]

@[simp] theorem State.length_slotImage (s : State) (state fails reason detail : Nat) (image pref minimal : Bool)
    (tag : List Byte) : (s.slotImage state fails reason detail image pref minimal tag).length = 32 := by
  simp [State.slotImage]

theorem State.touches_slotted (s : State) (b : List Byte) : Touches [.boot, .vault] s (s.slotted b) := by
  obtain ⟨v, l, w, f, he⟩ := State.slotted_eq s b
  rw [he]
  exact ((touches_vault s v).mono (by simp)).trans ((touches_boot _ _).mono (by simp))

theorem State.touches_writeSlot (s : State) (b : List Byte) : Touches [.boot, .vault] s (s.writeSlot b) :=
  (State.touches_slotted s b).of_records (State.onlyRecords_writeSlot s b)

/-! ### Failure -/

/-- Minimal mode leaves start-up state, vault, time and rings as they are (R415). -/
theorem State.enterMinimal_eq (s : State) : s.enterMinimal.boot = s.boot ∧ s.enterMinimal.vault = s.vault ∧
    s.enterMinimal.now = s.now ∧ s.enterMinimal.rings = s.rings ∧ s.enterMinimal.dev.vaon = s.dev.vaon ∧
    s.enterMinimal.dev.phase = .minimal ∧ s.enterMinimal.dev.diesUp = false := ⟨rfl, rfl, rfl, rfl, rfl, rfl, rfl⟩

/-- A failure stands whatever records come later. -/
theorem State.StartFailed.of_records {s t u : State} {reason detail : Nat} (h : s.StartFailed t reason detail)
    (r : OnlyRecords t u) : s.StartFailed u reason detail where
  ended := by rw [r.boot]; exact h.ended
  fails := by rw [r.boot]; exact h.fails
  slot hv hn := by
    rw [State.slotBytes_congr _ (vaon_of_core r.dev) (by rw [r.vault]) (by rw [r.boot])]
    exact h.slot hv hn
  record hm ho := (h.record hm ho).of_records r
  minimal hl := by
    obtain ⟨hp, hd⟩ := h.minimal hl
    exact ⟨(phase_of_core r.dev).trans hp, (diesUp_of_core r.dev).trans hd⟩
  restart hl := by
    obtain ⟨hp, hd⟩ := h.restart hl
    exact ⟨(phase_of_core r.dev).trans hp, by rw [r.boot]; exact hd⟩

/-- The number of failed attempts with this one (R412). -/
def State.nextFails (s : State) : Nat := min 255 (s.boot.attempt.fails + 1)

/-- The attempts may go on no longer: minimal mode is due (R412). -/
def State.lastFail (s : State) : Bool := decide (s.boot.otp.bootLimit ≤ s.nextFails)

/-- The slot of a failed attempt (R410, R412). -/
def State.failImage (s : State) (reason detail : Nat) : List Byte :=
  s.slotImage 3 s.nextFails reason detail s.boot.attempt.image s.boot.attempt.preferred s.lastFail s.boot.attempt.imgTag

/-- The failed attempt, its slot written and its failure recorded, before minimal mode or the restart (R410, R412). -/
def State.failNoted (s : State) (reason detail : Nat) : State :=
  let w := s.writeSlot (s.failImage reason detail)
  (w.record .startFail none srcFw [(8, reason), (16, detail), (16, w.elapsed)]).setAttempt fun a =>
    { a with active := false, ended := true, fails := s.nextFails, waiting := none,
             readyAt := if a.step < 7 then s.now else a.readyAt }

theorem State.writeSlot_boot (s : State) (b : List Byte) : ∃ l w f, (s.writeSlot b).boot =
    { s.boot with attempt := { s.boot.attempt with slots := l }, writing := w, flash := f } := by
  obtain ⟨v, l, w, f, he⟩ := State.slotted_eq s b
  exact ⟨l, w, f, by rw [(State.onlyRecords_writeSlot s b).boot, he]⟩

theorem State.writeSlot_now (s : State) (b : List Byte) : (s.writeSlot b).now = s.now :=
  State.touches_writeSlot s b .now (by simp)

/-- A failed attempt that was active ends noted, then in minimal mode or with its restart due (R412). -/
theorem State.failStart_eq {s : State} (h : s.boot.attempt.active = true) (reason detail : Nat) :
    s.failStart reason detail = if s.lastFail then
        ((s.failNoted reason detail).record .minimalEnter none srcFw [(8, s.nextFails), (8, reason), (16, detail)]).enterMinimal
      else ((s.failNoted reason detail).setAttempt fun a =>
        { a with
          restartDue := some ((s.failNoted reason detail).now + 1 +
            (s.failNoted reason detail).drawn % (10 * Config.msec)) }).draw := by
  have hn : ∀ b c f, ((s.writeSlot b).record c none srcFw f).now = s.now := fun b c f =>
    (State.record_now _ _ _ _ _ _ (by simp)).trans (State.writeSlot_now s b)
  simp [State.failStart, State.failNoted, State.failImage, State.lastFail, State.nextFails, h, hn]

section
variable (s : State) (reason detail : Nat)

theorem State.failNoted_records : OnlyRecords (s.slotted (s.failImage reason detail))
    ((s.writeSlot (s.failImage reason detail)).record .startFail none srcFw
      [(8, reason), (16, detail), (16, (s.writeSlot (s.failImage reason detail)).elapsed)]) :=
  (State.onlyRecords_writeSlot s _).trans (onlyRecords_record _ _ _ _ _ _ (by simp))

theorem State.failNoted_boot : ∃ l w f n, (s.failNoted reason detail).boot =
    { s.boot with attempt := { s.boot.attempt with slots := l, active := false, ended := true, fails := s.nextFails,
                                                   waiting := none, readyAt := n }, writing := w, flash := f } := by
  obtain ⟨v, l, w, f, he⟩ := State.slotted_eq s (s.failImage reason detail)
  have hb := (State.failNoted_records s reason detail).boot
  rw [he] at hb
  refine ⟨l, w, f, if s.boot.attempt.step < 7 then s.now else s.boot.attempt.readyAt, ?_⟩
  simp only [State.failNoted, State.setAttempt, hb]

theorem State.touches_failNoted : Touches [.boot, .vault] s (s.failNoted reason detail) :=
  ((State.touches_slotted s _).of_records (State.failNoted_records s reason detail)).trans
    ((touches_boot _ _).mono (by simp))

theorem State.failNoted_slot (hv : s.dev.vaon = true) (hn : s.boot.attempt.slot < 2) :
    (s.failNoted reason detail).slotBytes s.boot.attempt.slot = s.failImage reason detail := by
  have r := State.failNoted_records s reason detail
  have hl : (s.failImage reason detail).length = 32 := State.length_slotImage s _ _ _ _ _ _ _ _
  exact (State.slotBytes_congr _ (vaon_of_core r.dev) (congrArg Vault.words r.vault)
    (congrArg (·.attempt.slots) r.boot)).trans (State.slotBytes_slotted hl hv hn)

theorem State.failNoted_recorded (hm : s.boot.attempt.mirrorFail = false) (ho : s.ringOpen 16) :
    (s.failNoted reason detail).recorded 16 .startFail := by
  obtain ⟨v, l, w, f, he⟩ := State.slotted_eq s (s.failImage reason detail)
  have hs : (s.writeSlot (s.failImage reason detail)).ringOpen 16 := by
    rw [State.writeSlot_of_mirror _ hm, he]
    exact ho
  exact State.recorded_record _ _ _ _ hs

end

/-- A start that fails ends as R410 and R412 say. -/
theorem State.startFailed_failStart {s : State} (h : s.boot.attempt.active = true) (reason detail : Nat) :
    s.StartFailed (s.failStart reason detail) reason detail := by
  have hnow : (s.failNoted reason detail).now = s.now := State.touches_failNoted s reason detail .now (by simp)
  have hdev : (s.failNoted reason detail).dev.core = s.dev.core := State.touches_failNoted s reason detail .dev (by simp)
  obtain ⟨l, w, f, n, hboot⟩ := State.failNoted_boot s reason detail
  have hslot := State.failNoted_slot s reason detail
  have hrec := State.failNoted_recorded s reason detail
  rw [State.failStart_eq h]
  by_cases hl : s.boot.otp.bootLimit ≤ s.nextFails
  · have hlast : s.lastFail = true := by simpa [State.lastFail] using hl
    have r := onlyRecords_record (s.failNoted reason detail) .minimalEnter none srcFw
      [(8, s.nextFails), (8, reason), (16, detail)] 0 (by simp)
    rw [if_pos hlast]
    obtain ⟨mboot, mvault, _, mrings, mvaon, mphase, mdies⟩ := State.enterMinimal_eq
      ((s.failNoted reason detail).record .minimalEnter none srcFw [(8, s.nextFails), (8, reason), (16, detail)])
    exact
      { ended := by rw [mboot, r.boot, hboot]; exact ⟨rfl, rfl⟩
        fails := by rw [mboot, r.boot, hboot]; rfl
        slot := fun hv hn => by
          rw [State.slotBytes_congr _ (mvaon.trans (vaon_of_core r.dev)) (by rw [mvault, r.vault]) (by rw [mboot, r.boot]),
            hslot hv hn]
          rfl
        record := fun hm ho => State.recorded.of_rings ((hrec hm ho).of_records r) mrings
        minimal := fun _ => ⟨mphase, mdies⟩
        restart := fun hlt => absurd hl (Nat.not_le.mpr hlt) }
  · have hlast : s.lastFail = false := by simpa [State.lastFail] using hl
    rw [if_neg (by simp [hlast])]
    exact
      { ended := by simp [State.setAttempt, State.draw, hboot]
        fails := by simp [State.setAttempt, State.draw, hboot, State.nextFails]
        slot := fun hv hn => hslot hv hn
        record := hrec
        minimal := fun hle => absurd hle hl
        restart := fun _ => by
          refine ⟨phase_of_core hdev, _, rfl, by omega, ?_⟩
          have := Nat.mod_lt (s.failNoted reason detail).drawn (show 10 * Config.msec > 0 by decide)
          omega }

/-- A start that fails takes no time. -/
theorem State.failStart_now (s : State) (reason detail : Nat) : (s.failStart reason detail).now = s.now := by
  by_cases h : s.boot.attempt.active = true
  · have hnow : (s.failNoted reason detail).now = s.now := State.touches_failNoted s reason detail .now (by simp)
    have r := onlyRecords_record (s.failNoted reason detail) .minimalEnter none srcFw
      [(8, s.nextFails), (8, reason), (16, detail)] 0 (by simp)
    rw [State.failStart_eq h]
    split
    · exact r.now.trans hnow
    · exact hnow
  · simp [State.failStart, h]

/-- A command that fails an attempt under way ends in the failed attempt, at its cycle. -/
theorem State.fails_of_done {c : Instr} {s s' : State} {reason detail : Nat} (h : exec c s = done (s'.failStart reason detail))
    (ha : s'.boot.attempt.active = true) :
    ∃ t, exec c s = .next t ∧ s'.StartFailed t reason detail ∧ t.now = s'.now :=
  ⟨_, h, (State.startFailed_failStart ha reason detail).of_records (onlyRecords_settleFaults _),
    (onlyRecords_settleFaults _).now.trans (State.failStart_now s' reason detail)⟩

/-! ### Success -/

/-- The state of a start that has succeeded, before its record (R400). -/
def State.succeeded (s : State) : State :=
  let a := s.boot.attempt
  let w := (s.writeSlot (s.slotImage 2 0 0 0 a.image a.image false a.imgTag)).setAttempt fun a =>
    { a with active := false, ended := true, fails := 0 }
  { w with dev := { w.dev with phase := .running, started := true } }

theorem State.trySucceed_of_ready {s : State} (ha : s.boot.attempt.active = true) (hc : s.boot.attempt.complete = true)
    (hr : s.linksReady = true) : s.trySucceed = s.succeeded.record .startDone none srcFw
      [(16, s.succeeded.elapsed), (8, b2n s.boot.attempt.image)] := by
  simp [State.trySucceed, State.succeeded, ha, hc, hr]

theorem State.trySucceed_of_not_ready {s : State}
    (h : s.boot.attempt.active = false ∨ s.boot.attempt.complete = false ∨ s.linksReady = false) : s.trySucceed = s := by
  rcases h with h | h | h <;> simp [State.trySucceed, h]

theorem State.succeeded_boot (s : State) : ∃ l w f, s.succeeded.boot =
    { s.boot with attempt := { s.boot.attempt with slots := l, active := false, ended := true, fails := 0 },
                  writing := w, flash := f } := by
  obtain ⟨l, w, f, he⟩ := State.writeSlot_boot s
    (s.slotImage 2 0 0 0 s.boot.attempt.image s.boot.attempt.image false s.boot.attempt.imgTag)
  exact ⟨l, w, f, by simp only [State.succeeded, State.setAttempt, he]⟩

/-- With a mirror that does not fail a success makes no record before its own, and takes no time. -/
theorem State.succeeded_quiet {s : State} (h : s.boot.attempt.mirrorFail = false) :
    s.succeeded.rings = s.rings ∧ s.succeeded.now = s.now := by
  obtain ⟨v, l, w, f, he⟩ := State.slotted_eq s
    (s.slotImage 2 0 0 0 s.boot.attempt.image s.boot.attempt.image false s.boot.attempt.imgTag)
  simp only [State.succeeded, State.setAttempt, State.writeSlot_of_mirror _ h, he, and_self]

theorem State.touches_succeeded (s : State) : Touches [.dev, .boot, .vault] s s.succeeded :=
  (((State.touches_writeSlot s _).mono (by simp)).trans ((touches_boot _ _).mono (by simp))).trans
    ((touches_dev _ _).mono (by simp))

/-- A start that may succeed changes pins, start-up state and vault alone (R400). -/
theorem State.touches_trySucceed (s : State) : Touches [.dev, .boot, .vault] s s.trySucceed := by
  by_cases h : s.boot.attempt.active = true ∧ s.boot.attempt.complete = true ∧ s.linksReady = true
  · obtain ⟨ha, hc, hr⟩ := h
    rw [State.trySucceed_of_ready ha hc hr]
    exact (State.touches_succeeded s).of_records (onlyRecords_record _ _ _ _ _ _ (by simp))
  · rw [State.trySucceed_of_not_ready]
    · exact Touches.refl _ _
    · simpa only [Bool.not_eq_true, not_and_or] using h

/-! ### The firmware's own registers (R405) -/

/-- A register PR`j` extended some times with data: no other changes. -/
theorem State.extends_boot (i : Nat) (l : List (List Byte)) (s : State) :
    ∃ p, l.foldl (fun s d => s.extend i d) s = { s with boot := { s.boot with prs := p } } ∧
      ∀ j, j ≠ i → p.getD j [] = s.boot.prs.getD j [] := by
  induction l generalizing s with
  | nil => exact ⟨s.boot.prs, rfl, fun _ _ => rfl⟩
  | cons d t ih =>
    obtain ⟨p, hp, hj⟩ := ih (s.extend i d)
    refine ⟨p, hp, fun j h => (hj j h).trans ?_⟩
    simp [State.extend, h.symm]

/-- The firmware's own measurement changes PR5 to PR7 and draws a free value; PR0 to PR4 stay (R405). -/
theorem State.measureOwn_eq (s : State) : ∃ p, s.measureOwn = { s with boot := { s.boot with prs := p }, free := s.free + 1 } ∧
    ∀ j, j < 5 → p.getD j [] = s.boot.prs.getD j [] := by
  obtain ⟨p5, h5, k5⟩ := State.extends_boot 5 (Config.firmwareMeasure (s.boot.prs.getD 2 []) 5 s.free) s
  obtain ⟨p6, h6, k6⟩ := State.extends_boot 6 (Config.firmwareMeasure (s.boot.prs.getD 2 []) 6 s.free)
    { s with boot := { s.boot with prs := p5 } }
  obtain ⟨p7, h7, k7⟩ := State.extends_boot 7 (Config.firmwareMeasure (s.boot.prs.getD 2 []) 7 s.free)
    { s with boot := { s.boot with prs := p6 } }
  refine ⟨p7, ?_, fun j hj => (k7 j (by omega)).trans ((k6 j (by omega)).trans (k5 j (by omega)))⟩
  simp only [State.measureOwn, List.foldl_cons, List.foldl_nil, h5, h6, h7, State.draw]

theorem State.touches_measureOwn (s : State) : Touches [.boot, .free] s s.measureOwn := by
  obtain ⟨p, he, _⟩ := State.measureOwn_eq s
  rw [he]
  exact ((touches_boot s _).mono (by simp)).followed (touches_free { s with boot := { s.boot with prs := p } } _) (by simp)

theorem State.touches_setAttempt (s : State) (f : Attempt → Attempt) : Touches [.boot] s (s.setAttempt f) := touches_boot s _

end Sys2Proof.Machine
end

section
/-! The bay map after reset (R17). -/

namespace Sys2Proof.Machine

/-- After reset every logical bay has its default physical bay (R17). -/
theorem phys_reset {l : Nat} (hl : l < 64) : State.reset.view.phys l = some (17 * (l / 16) + l % 16) := by
  have hb : (if bayDefault l = 0xFF then none else some (bayDefault l)) = some (bayDefault l) :=
    if_neg (by simp only [bayDefault]; omega)
  exact hb

end Sys2Proof.Machine
end

section
open Sys2Proof Sys2Proof.Machine

/-- Settles O5: the bay map after reset is the default one, which has no bay 17d + 16. -/
theorem resetBayMap : Obligations.ResetBayMap := by
  refine ⟨fun l hl => phys_reset hl, fun d hd => ⟨by simp only [dieOfBay]; omega, fun l hl => ?_⟩, by decide⟩
  rw [phys_reset hl, ne_eq, Option.some.injEq]
  omega

end

section
/-! How an attempt ends, and the wait of the management core (R27, R29, R400, R405, R410). -/

namespace Sys2Proof.Machine

/-- Start-complete in time, with every REQUIRED port UP or not (R400). -/
theorem startComplete_inTime {s : State} (hs : s.starting = true) (h8 : 8 ≤ s.boot.attempt.step)
    (ht : s.now ≤ s.boot.attempt.begun + 2 * Config.sec) : ∃ u, RunsTo .startComplete s u ∧
      u.boot.attempt.complete = true ∧ (∀ i, i < 5 → u.boot.prs.getD i [] = s.boot.prs.getD i []) ∧
      (s.linksReady = true → u.boot.attempt.active = false ∧ u.boot.attempt.fails = 0 ∧ u.dev.phase = .running ∧
        u.dev.started = true ∧ (s.boot.attempt.mirrorFail = false → s.ringOpen 16 → u.recorded 16 .startDone)) ∧
      (s.linksReady = false → u.boot.attempt.active = true ∧ u.dev = s.dev) ∧
      Touches [.dev, .boot, .vault, .free] s u := by
  obtain ⟨p, hp, hj⟩ := State.measureOwn_eq s
  have hact : s.boot.attempt.active = true := by simp [State.starting] at hs; exact hs.1
  let v : State := s.measureOwn.setAttempt fun a => { a with complete := true }
  have hv : v = { s with boot := { s.boot with attempt := { s.boot.attempt with complete := true }, prs := p },
                         free := s.free + 1 } := by simp only [v, hp, State.setAttempt]
  have hrun : exec .startComplete s = done v.trySucceed := by
    simp only [exec, execStartComplete]
    rw [if_neg (by simp only [hs, Bool.not_true, Bool.false_or, Bool.or_eq_true, decide_eq_true_eq]; omega)]
  have htouch : Touches [.dev, .boot, .vault, .free] s v :=
    ((State.touches_measureOwn s).mono (by simp)).followed (State.touches_setAttempt _ _) (by simp)
  have hready : v.linksReady = s.linksReady := by rw [hv]; rfl
  refine ⟨v.trySucceed, RunsTo.of_done hrun (OnlyRecords.refl _), ?_⟩
  cases hl : s.linksReady
  · have he : v.trySucceed = v := State.trySucceed_of_not_ready (.inr (.inr (hready.trans hl)))
    rw [he]
    refine ⟨by rw [hv], fun i hi => by rw [hv]; exact hj i hi, by simp, fun _ => ⟨?_, ?_⟩, htouch⟩
    · rw [hv]; exact hact
    · rw [hv]
  · have hva : v.boot.attempt.active = true := by rw [hv]; exact hact
    have hvc : v.boot.attempt.complete = true := by rw [hv]
    have he := State.trySucceed_of_ready hva hvc (hready.trans hl)
    have r := onlyRecords_record v.succeeded .startDone none srcFw
      [(16, v.succeeded.elapsed), (8, b2n v.boot.attempt.image)] 0 (by simp)
    rw [← he] at r
    obtain ⟨l, w, f, hb⟩ := State.succeeded_boot v
    have hboot := r.boot.trans hb
    refine ⟨by rw [hboot]; exact hvc, fun i hi => ?_, fun _ => ⟨by rw [hboot], by rw [hboot], ?_, ?_, fun hm ho => ?_⟩, by simp,
      htouch.followed (State.touches_trySucceed v) (by simp)⟩
    · rw [hboot, hv]
      exact hj i hi
    · exact phase_of_core r.dev
    · exact show v.trySucceed.dev.core.started = v.succeeded.dev.core.started by rw [r.dev]
    · rw [he]
      refine State.recorded_record _ _ _ _ ?_
      have hmv : v.boot.attempt.mirrorFail = false := by rw [hv]; exact hm
      obtain ⟨hrings, hnow⟩ := State.succeeded_quiet hmv
      exact (State.ringOpen_congr 16 (by rw [hrings, hv]) (by rw [hnow, hv])).mpr ho

/-- A wake restarts MCLK, and the firmware that runs may extend its own registers (R27, R405). -/
theorem mgmtWake_runs {s : State} (hr : s.runs = true) (x : WakeCause) : ∃ u, exec (.mgmtWake x) s = .next u ∧
      u.dev = { s.dev with mclk := true, lastWake := some s.now } ∧ (s.dev.phase ≠ .running → u.boot = s.boot) ∧
      ({ u.boot with prs := [] } : Boot) = { s.boot with prs := [] } ∧
      (∀ i, i < 5 → u.boot.prs.getD i [] = s.boot.prs.getD i []) ∧ Touches [.dev, .boot, .free] s u := by
  have hrun : exec (.mgmtWake x) s = .next s.wakeMgmt.fwRuns := by cases x <;> simp [exec, execMgmtWake, hr]
  refine ⟨_, hrun, ?_⟩
  have hw : Touches [.dev, .boot, .free] s s.wakeMgmt := (onlyRecords_wakeMgmt s).touches _
  by_cases hp : s.dev.phase = .running
  · obtain ⟨p, he, hj⟩ := State.measureOwn_eq s.wakeMgmt
    have hf : s.wakeMgmt.fwRuns = s.wakeMgmt.measureOwn := if_pos hp
    have ht := hw.followed (State.touches_measureOwn s.wakeMgmt) (by simp)
    rw [he] at ht
    rw [hf, he]
    exact ⟨rfl, fun h => absurd hp h, rfl, hj, ht⟩
  · have hf : s.wakeMgmt.fwRuns = s.wakeMgmt := if_neg hp
    rw [hf]
    exact ⟨rfl, fun _ => rfl, rfl, fun _ _ => rfl, hw⟩

end Sys2Proof.Machine
end

section
open Sys2Proof Sys2Proof.Machine

/-- Settles O54: each way in which an attempt ends is one of `failStart` and `trySucceed`. -/
theorem attemptsEnd : Obligations.AttemptsEnd := by
  intro s a fails
  refine ⟨fun h => ?_, startComplete_inTime, fun hs c hc => ?_, fun hs => ?_, fun hr hf hj => ?_, fun h => ?_, mgmtWake_runs,
    fun hr x => by simp [exec, execMgmtWake, hr]⟩
  · simp only [exec, execStartComplete]
    rw [if_pos (by simpa only [Bool.or_eq_true, Bool.not_eq_true', decide_eq_true_eq, or_assoc] using h)]
  · simp only [List.mem_cons, List.not_mem_nil, or_false] at hc
    rcases hc with rfl | rfl | rfl | rfl | rfl <;>
      simp [exec, execFwTimeout, execFwFault, execFwAbort, execBistFail, execPllLockFail, hs]
  · have hact : s.boot.attempt.active = true := by simp [State.starting] at hs; exact hs.1
    refine ⟨?_, fun x => ?_, fun x => ⟨fun h7 => ?_, fun h7 => ?_⟩, fun die x => ?_, fun r => ?_⟩
    · exact State.fails_of_done (s' := { s with now := max s.now (a.begun + 2 * Config.sec) })
        (by simp only [exec, execFwTimeout, hs]; rfl) hact
    · exact State.fails_of_done (by simp only [exec, execFwFault, hs]; rfl) hact
    · exact State.fails_of_done (by simp only [exec, execFwAbort, hs, Bool.true_and]; exact if_pos (by simpa using h7)) hact
    · simp only [exec, execFwAbort, hs, Bool.true_and]
      exact if_neg (by simpa using h7)
    · refine State.fails_of_done ?_ hact
      simp only [exec, execBistFail, hs]
      by_cases hd : die.val = 4 <;> simp [hd]
    · exact State.fails_of_done (by simp only [exec, execPllLockFail, hs]; rfl) hact
  · simp [exec, execMgmtWait, hr, hf, hj]
  · simp only [exec, execMgmtWait]
    rw [if_pos (by simpa only [Bool.or_eq_true, Bool.not_eq_true', or_assoc] using h)]

end

section
/-! The lanes of a port between commands (R263, R272): the slots that no command filled go with filler, which changes the
port's transmitter and nothing else. -/

namespace Sys2Proof.Machine

/-- `u` is `s` with filler of port `p` put on the lanes: the port keeps its queues, and owes its HELLO as before when no valid
one has come. -/
structure Pads (p : Nat) (s u : State) : Prop where
  rest : u = { s with ports := u.ports, wire := u.wire }
  wire : Padded p s u
  others : ∀ j, j ≠ p → u.port j = s.port j
  queues : (u.port p).queues = (s.port p).queues
  hello : (s.port p).helloValid = false → (u.port p).helloSent = (s.port p).helloSent

theorem Padded.refl (p : Nat) (s : State) : Padded p s s := ⟨[], rfl, by simp⟩

theorem Padded.trans {p : Nat} {a b c : State} (h : Padded p a b) (k : Padded p b c) : Padded p a c := by
  obtain ⟨x, hx, hxs⟩ := h
  obtain ⟨y, hy, hys⟩ := k
  refine ⟨y ++ x, by rw [hy, hx, List.append_assoc], fun z hz => ?_⟩
  rcases List.mem_append.1 hz with hz | hz
  · exact hys z hz
  · exact hxs z hz

/-- Lanes on which nothing more was put. -/
theorem Padded.of_eq {p : Nat} {s u : State} (h : u.wire = s.wire) : Padded p s u := ⟨[], by simp [h], by simp⟩

theorem Padded.congr {p : Nat} {s t u v : State} (h : Padded p s u) (hs : t.wire = s.wire) (hu : v.wire = u.wire) :
    Padded p t v := by
  obtain ⟨x, hx, hxs⟩ := h
  exact ⟨x, by rw [hu, hs, hx], hxs⟩

namespace Pads

variable {p : Nat} {s t u : State}

theorem refl (p : Nat) (s : State) : Pads p s s := ⟨rfl, Padded.refl p s, fun _ _ => rfl, rfl, fun _ => rfl⟩

theorem helloValid_eq (h : Pads p s u) : (u.port p).helloValid = (s.port p).helloValid :=
  show (u.port p).queues.helloValid = (s.port p).queues.helloValid by rw [h.queues]

theorem trans (h : Pads p s t) (k : Pads p t u) : Pads p s u where
  rest := by rw [k.rest, h.rest]
  wire := h.wire.trans k.wire
  others j hj := (k.others j hj).trans (h.others j hj)
  queues := k.queues.trans h.queues
  hello hv := (k.hello (h.helloValid_eq.trans hv)).trans (h.hello hv)

/-- A new state of the port's transmitter, with filler put on the lanes. -/
theorem put (s : State) (p : Nat) (q : Port) (l : List Wire) (hq : q.queues = (s.port p).queues)
    (hh : (s.port p).helloValid = false → q.helloSent = (s.port p).helloSent)
    (hl : ∀ y ∈ l, y.port = p ∧ ∀ g, y.item ≠ .frame g) : Pads p s { s.setPort p q with wire := l ++ s.wire } where
  rest := rfl
  wire := ⟨l, rfl, hl⟩
  others j hj := State.port_setPort_ne s p j q hj
  queues := (congrArg Port.queues (State.port_setPort s p q)).trans hq
  hello hv := (congrArg Port.helloSent (State.port_setPort s p q)).trans (hh hv)

/-- A new state of the port's transmitter alone. -/
theorem setPort (s : State) (p : Nat) (q : Port) (hq : q.queues = (s.port p).queues)
    (hh : (s.port p).helloValid = false → q.helloSent = (s.port p).helloSent) : Pads p s (s.setPort p q) :=
  put s p q [] hq hh (by simp)

theorem cat (h : Pads p s u) : u.cat = s.cat := by rw [h.rest]
theorem now (h : Pads p s u) : u.now = s.now := by rw [h.rest]
theorem boot (h : Pads p s u) : u.boot = s.boot := by rw [h.rest]
theorem rings (h : Pads p s u) : u.rings = s.rings := by rw [h.rest]

theorem touches (h : Pads p s u) : Touches [.ports, .wire] s u := by
  rw [h.rest]
  exact ((touches_ports s u.ports).mono (by simp)).followed (touches_wire { s with ports := u.ports } _) (by simp)

theorem portFrame (h : Pads p s u) {l : List Piece} (hl : Piece.wire ∈ l) : PortFrame p l s u :=
  ⟨h.touches.mono (by simp [hl]), fun j hj => congrArg Port.core (h.others j hj)⟩

end Pads

/-! ### Link blocks -/

theorem Port.fillSlots_queues (q : Port) (g : Granule) (head : Bool) (n : Nat) :
    (q.fillSlots g head n).queues = q.queues ∧ (q.fillSlots g head n).helloSent = q.helloSent := by
  simp only [Port.fillSlots]
  split
  · exact ⟨rfl, rfl⟩
  · split <;> exact ⟨rfl, rfl⟩

theorem State.pads_closeBlock (s : State) (p : Nat) : Pads p s (s.closeBlock p) := by
  simp only [State.closeBlock]
  split
  · exact Pads.refl p s
  · exact Pads.put s p _ [_, _] rfl (fun _ => rfl) (by simp)

theorem State.pads_fillRun (s : State) (p : Nat) (f : Granule × Bool) (n : Nat) : Pads p s (s.fillRun p f n) := by
  obtain ⟨hq, hh⟩ := Port.fillSlots_queues (s.port p) f.1 f.2 n
  simp only [State.fillRun]
  split
  · exact Pads.refl p s
  · exact (Pads.put s p _ [_] hq (fun _ => hh) (by simp)).trans (State.pads_closeBlock _ p)

theorem State.pads_fillBlocks (s : State) (p : Nat) (f : Granule × Bool) (n : Nat) : Pads p s (s.fillBlocks p f n) := by
  simp only [State.fillBlocks]
  split
  · exact Pads.refl p s
  · exact Pads.put s p _ [_] rfl (fun _ => rfl) (by simp)

/-- The runs of filler up to a slot: within the block being sent, or to its end, whole blocks and a part of the next. -/
theorem State.pads_fillRuns (s : State) (p : Nat) (f : Granule × Bool) (c : Prop) [Decidable c] (a b n m : Nat) :
    Pads p s (if c then s.fillRun p f a else ((s.fillRun p f b).fillBlocks p f n).fillRun p f m) := by
  split
  · exact State.pads_fillRun s p f _
  · exact ((State.pads_fillRun s p f _).trans (State.pads_fillBlocks _ p f _)).trans (State.pads_fillRun _ p f _)

theorem State.pads_fillTo (s : State) (p k : Nat) : Pads p s (s.fillTo p k) := by
  simp only [State.fillTo]
  split
  · exact Pads.refl p s
  · rename_i f _
    split
    · exact Pads.refl p s
    · have h := State.pads_fillRuns s p f ((s.port p).blkNo = k / 80) (k - (s.port p).nextSlot)
        (if (s.port p).blk.isEmpty then 0 else 80 - (s.port p).blk.length)
        (k / 80 - (s.port p).blkNo - b2n (!(s.port p).blk.isEmpty)) (k % 80)
      split
      · exact h.trans (Pads.setPort _ p _ rfl fun _ => rfl)
      · exact h

theorem State.pads_payHello (s : State) (p k : Nat) : Pads p s (s.payHello p k) := by
  simp only [State.payHello]
  split
  · rename_i h
    have hv : (s.port p).helloValid = true := by simp [Port.owesHello] at h; exact h.1.1.1.1.1
    have hf := State.pads_fillTo s p ((s.port p).nextSlot + 1)
    exact hf.trans (Pads.setPort _ p _ rfl fun hn => by simp [hf.helloValid_eq, hv] at hn)
  · exact Pads.refl p s

/-- The slots that no command filled go with filler and with nothing else (R263, R272). -/
theorem State.pads_padTo (s : State) (p k : Nat) : Pads p s (s.padTo p k) :=
  (State.pads_payHello s p k).trans (State.pads_fillTo _ p k)

end Sys2Proof.Machine
end

section
/-! How a link comes up (R258 to R261, R271 to R274, R280): what each step of the bring-up, a HELLO and an IDLE leave. -/

namespace Sys2Proof.Machine

/-! ### Keys of registers -/

theorem Obj.key_index (o : Obj) (i off ext : Nat) (hs : o.row.sub + off < 256) (he : ext < 65536) :
    o.key i off ext / 16777216 = o.index i := by
  simp only [Obj.key, regKey]
  omega

/-- The daybook's counters lie at the indices of the fault causes and of the rings (R366, R375). -/
theorem not_mem_daybookKeys {k : Nat} (h : k / 16777216 < 0x8000) : k ∉ daybookKeys := by
  simp only [daybookKeys, List.mem_cons, List.mem_map, List.mem_range, not_or, not_exists, not_and]
  refine ⟨fun e => ?_, fun r _ e => ?_⟩
  · rw [e] at h
    simp [Obj.key, Obj.index, Obj.row, regKey] at h
  · rw [← e] at h
    simp [Obj.key, Obj.index, Obj.row, regKey] at h
    omega

/-- A register of a port is none of the daybook's counters. -/
theorem portKey_not_daybook {o : Obj} {p : Nat} (hp : p < 32) (hb : o.row.base = 0x5100) (hs : o.row.step = 1)
    (hsub : o.row.sub < 256) : o.key p ∉ daybookKeys := by
  refine not_mem_daybookKeys ?_
  rw [Obj.key_index o p 0 0 (by omega) (by omega), Obj.index, hb, hs]
  omega

theorem OnlyRecords.force {s t : State} (r : OnlyRecords s t) : t.cat.force = s.cat.force :=
  show ({ t.cat with regs := [] } : Cat).force = ({ s.cat with regs := [] } : Cat).force by rw [r.cat]

theorem OnlyRecords.role {s t : State} (r : OnlyRecords s t) (p : Nat) : t.role p = s.role p := by
  simp only [State.role, State.view, View.obj, r.force]

/-! ### Alignment -/

theorem alignStep_le_three {a : Sys2Proof.Alignment} (h1 : a.laneOf.map Fin.val ≠ List.range 8)
    (h2 : a.laneOf.map Fin.val ≠ (List.range 8).reverse) : alignStep a ≤ 3 := by
  have ho : lanesInOrder a = false := by simpa only [lanesInOrder, decide_eq_false_iff_not] using h1
  have hr : lanesReversed a = false := by simpa only [lanesReversed, decide_eq_false_iff_not] using h2
  simp only [alignStep, ho, hr]
  exact Nat.min_le_left 3 _

theorem alignStep_le_four {a : Sys2Proof.Alignment} (h : 4000 < a.skew) : alignStep a ≤ 4 := by
  simp only [alignStep, if_pos h]
  split <;> omega

theorem linkAligned_early {s : State} {port : Fin 32} {a : Sys2Proof.Alignment} {rx tx : Fin 3}
    (hq : (s.port port).st = .training ∨ (s.port port).st = .aligning) (hk : alignStep a < 5) :
    exec (.linkAligned port a rx tx) s = .next (s.setPort port { s.port port with
      step := max (s.port port).step (alignStep a),
      st := if 3 ≤ max (s.port port).step (alignStep a) then .aligning else .training }) := by
  rcases hq with hq | hq <;> simp only [exec, execLinkAligned, hq, if_pos hk]

/-- A port that has come through step 4 begins HELLO with fresh credits and whole blocks, or waits held (R260, R279). -/
theorem Port.enterHello_of_training {q : Port} (hq : q.st = .training ∨ q.st = .aligning) (now : Nat) (held : Bool) :
    (if held then { q.enterHello now with st := .held } else q.enterHello now) =
      ({ q.freshCredits with st := if held then .held else .hello, step := 5, helloValid := false, helloSent := false,
                             helloErr := false, resync := false } : Port).firstBlock now := by
  rcases hq with hq | hq <;> cases held <;> simp [Port.enterHello, Port.firstBlock, Port.freshCredits, hq]

theorem linkAligned_done {s : State} {port : Fin 32} {a : Sys2Proof.Alignment} {rx tx : Fin 3}
    (hq : (s.port port).st = .training ∨ (s.port port).st = .aligning) (hk : 5 ≤ alignStep a) :
    ∃ u, RunsTo (.linkAligned port a rx tx) s u ∧
      u.reg .portLanes port = a.precoding.toNat * 65536 + b2n (lanesReversed a) * 256 + a.inverted.toNat ∧
      u.reg .portLat port = (99 + rx.val) * 65536 + 59 + tx.val ∧
      u.port port = ({ (s.port port).freshCredits with st := if s.dieHeld (dieOfPort port) then .held else .hello, step := 5,
                                                       helloValid := false, helloSent := false, helloErr := false,
                                                       resync := false } : Port).firstBlock s.now ∧
      RegsBut [Obj.portLanes.key port, Obj.portLat.key port] s u ∧ PortFrame port [.regs] s u := by
  have hne : Obj.portLanes.key port ≠ Obj.portLat.key port := by simp [Obj.key, Obj.index, Obj.row, regKey]
  let r1 := s.setReg .portLanes port 0 0 (alignLanes a)
  let r2 := r1.setReg .portLat port 0 0 (alignLat rx tx)
  let q := if s.dieHeld (dieOfPort port) then { (s.port port).enterHello s.now with st := .held }
    else (s.port port).enterHello s.now
  refine ⟨r2.setPort port q, RunsTo.of_done ?_ (OnlyRecords.refl _), ?_, ?_, ?_, ?_, ?_⟩
  · rcases hq with hq | hq <;> simp only [exec, execLinkAligned, hq, if_neg (Nat.not_lt.mpr hk)] <;> rfl
  · exact (State.regs_setReg_ne r1 _ _ _ _ _ _ hne).trans (State.reg_setReg s _ _ _ _ _)
  · exact State.reg_setReg r1 _ _ _ _ _
  · rw [State.port_setPort]
    exact Port.enterHello_of_training hq s.now _
  · exact ((regsBut_setReg s .portLanes port 0 0 _).mono (by simp)).trans
      ((regsBut_setReg r1 .portLat port 0 0 _).mono (by simp))
  · exact ((PortFrame.of_touches port ((touches_setReg s _ _ _ _ _).trans (touches_setReg r1 _ _ _ _ _)) (by simp)
      (by simp)).trans (portFrame_setPort r2 port q _))

/-! ### HELLO -/

/-- On the port of a held die HELLO and IDLE are counted and dropped (R30). -/
theorem held_runsTo {s : State} {port : Fin 32} (h : s.heldDrop port = true) (f : Frame) :
    RunsTo (.hello port f) s (s.bump .portHeldDrop port) ∧ RunsTo (.idle port f) s (s.bump .portHeldDrop port) := by
  refine ⟨RunsTo.of_done ?_ (OnlyRecords.refl _), RunsTo.of_done ?_ (OnlyRecords.refl _)⟩
  · simp only [exec, execHello, State.receive, if_pos h]
  · simp only [exec, execIdle, State.receive, if_pos h]

/-- The port with a valid HELLO taken (R272). -/
def Port.greeted (q : Port) (c : Credit) : Port :=
  { q with helloValid := true, peerFreed1 := c.rxfreed1, peerFreed3 := c.rxfreed3 }

/-- What a valid HELLO leaves: the port's exchange is valid, and the peer and its limits are shown (R272). -/
structure Greeted (p : Nat) (c : Credit) (s u : State) : Prop where
  queues : (u.port p).queues = ((s.port p).greeted c).queues
  hello : (s.port p).helloValid = false → (u.port p).helloSent = (s.port p).helloSent
  padded : Padded p s u
  peer : u.reg .portPeer p = pack [(12, c.device), (5, c.port), (2, c.role), (4, c.version), (9, 0)]
  limit : u.reg .portPeerLimit p = c.limit1 * 256 + c.limit3
  regs : RegsBut [Obj.portPeer.key p, Obj.portPeerLimit.key p] s u
  frame : PortFrame p [.regs, .wire] s u
  rings : u.rings = s.rings
  now : u.now = s.now

theorem State.greeted_takeHello {s : State} {p : Nat} {c : Credit} (h : helloCheck (s.role p) c = 0) :
    Greeted p c s (s.takeHello p c) := by
  have hne : Obj.portPeer.key p ≠ Obj.portPeerLimit.key p := by simp [Obj.key, Obj.index, Obj.row, regKey]
  let r1 := s.setReg .portPeer p 0 0 (pack [(12, c.device), (5, c.port), (2, c.role), (4, c.version), (9, 0)])
  let r2 := r1.setReg .portPeerLimit p 0 0 (c.limit1 * 256 + c.limit3)
  have hpad : Pads p r2 (r2.padTo p (5 * s.now)) := State.pads_padTo r2 p _
  have he : s.takeHello p c = (r2.padTo p (5 * s.now)).setPort p (((r2.padTo p (5 * s.now)).port p).greeted c) := by
    simp only [State.takeHello, h]
    rfl
  have hregs : RegsBut [Obj.portPeer.key p, Obj.portPeerLimit.key p] s r2 :=
    ((regsBut_setReg s .portPeer p 0 0 _).mono (by simp)).trans ((regsBut_setReg r1 .portPeerLimit p 0 0 _).mono (by simp))
  have hcat : (s.takeHello p c).cat = r2.cat := by rw [he, State.setPort_cat, hpad.cat]
  exact
    { queues := by
        rw [he, State.port_setPort]
        exact congrArg (fun x : Port => { x with helloValid := true, peerFreed1 := c.rxfreed1, peerFreed3 := c.rxfreed3 }) hpad.queues
      hello := fun hv => by
        rw [he, State.port_setPort]
        exact hpad.hello hv
      padded := hpad.wire.congr rfl (by rw [he]; rfl)
      peer := by
        simp only [State.reg, hcat]
        exact (State.regs_setReg_ne r1 _ _ _ _ _ _ hne).trans (State.reg_setReg s _ _ _ _ _)
      limit := by
        simp only [State.reg, hcat]
        exact State.reg_setReg r1 _ _ _ _ _
      regs := hregs.trans (RegsBut.of_eq _ (congrArg Cat.regs hcat))
      frame := by
        have h1 : PortFrame p [.regs, .wire] s r2 := PortFrame.of_touches p
          ((touches_setReg s _ _ _ _ _).trans (touches_setReg r1 _ _ _ _ _)) (by simp) (by simp)
        rw [he]
        exact (h1.trans (hpad.portFrame (by simp))).trans (portFrame_setPort _ p _ _)
      rings := by rw [he, State.setPort_rings, hpad.rings]; rfl
      now := by rw [he, State.setPort_now, hpad.now]; rfl }

section
variable {s : State} {port : Fin 32} {f : Frame}

/-- A HELLO on a port whose die is not held runs `helloFrame` (R272). -/
theorem hello_exec (h : s.heldDrop port = false) : exec (.hello port f) s = done (s.helloFrame port f) := by
  simp [exec, execHello, State.receive, h]

theorem idle_exec (h : s.heldDrop port = false) : exec (.idle port f) s = done (s.idleFrame port f) := by
  simp [exec, execIdle, State.receive, h]

/-- The record of a HELLO that fails a check (R272). -/
def helloCode (why : Nat) : Code := if why = 1 then .linkVersion else if why = 2 then .linkRole else .linkLimit

theorem State.helloBad_eq {s : State} {p : Nat} (c : Credit) (why : Nat) (h : (s.port p).helloErr = false) :
    ∃ fs, s.helloBad p c why = (s.setPort p { s.port p with helloErr := true }).record (helloCode why) none (srcPort p) fs := by
  by_cases h1 : why = 1
  · exact ⟨[(8, c.version)], by simp only [State.helloBad, helloCode, h, h1, if_true]; rfl⟩
  · by_cases h2 : why = 2
    · exact ⟨[(8, c.role), (8, s.role p)], by simp only [State.helloBad, helloCode, h, h2]; rfl⟩
    · exact ⟨[(8, c.limit1), (8, c.limit3)], by simp only [State.helloBad, helloCode, h, h1, h2, if_false]; rfl⟩

/-- A HELLO that fails a check is recorded the first time (R272). -/
theorem hello_invalid (hd : s.heldDrop port = false) (hq : (s.port port).st = .hello)
    (hc : helloCheck (s.role port) (credit f.hdr) ≠ 0) (he : (s.port port).helloErr = false) :
    Logs (.hello port f) s (s.setPort port { s.port port with helloErr := true })
      (helloCode (helloCheck (s.role port) (credit f.hdr))) := by
  have hb : s.helloFrame port f = s.helloBad port (credit f.hdr) (helloCheck (s.role port) (credit f.hdr)) := by
    simp only [State.helloFrame, hq, State.takeHello, if_pos hc]
  obtain ⟨fs, hf⟩ := State.helloBad_eq (credit f.hdr) (helloCheck (s.role port) (credit f.hdr)) he
  refine ⟨_, hello_exec hd, ?_, fun ho => ?_⟩
  · rw [hb, hf]
    exact (onlyRecords_record _ _ none _ _ 0 (by simp)).trans (onlyRecords_settleFaults _)
  · rw [hb, hf]
    exact (State.recorded_record _ _ fs 0 ho).of_records (onlyRecords_settleFaults _)

/-- A HELLO on an UP port starts the exchange again: the state before it is judged (R262). -/
def State.helloAgain (s : State) (p : Nat) : State :=
  let a := s.padTo p (5 * s.now)
  a.setPort p ((a.port p).enterHello a.now)

/-- The exchange that begins again keeps the queues of the port and starts its counts (R262, R271). -/
theorem State.helloAgain_port {s : State} {p : Nat} (hq : (s.port p).st = .up) :
    ((s.helloAgain p).port p).queues = ({ (s.port p).freshCredits with
      st := .hello, step := 5, begun := s.now, downAt := s.now, helloValid := false, helloSent := false, helloErr := false,
      resync := false } : Port).queues := by
  have hpad := State.pads_padTo s p (5 * s.now)
  have hst : ((s.padTo p (5 * s.now)).port p).st = .up :=
    (show ((s.padTo p (5 * s.now)).port p).queues.st = (s.port p).queues.st by rw [hpad.queues]).trans hq
  have hfresh := congrArg (fun x : Port => ({ x.freshCredits with
    st := .hello, step := 5, begun := s.now, downAt := s.now, helloValid := false, helloSent := false, helloErr := false,
    resync := false } : Port).queues) hpad.queues
  refine Eq.trans ?_ hfresh
  rw [State.helloAgain, State.port_setPort, hpad.now]
  simp only [Port.enterHello, hst, reduceCtorEq, or_self, decide_false, Bool.false_eq_true, ↓reduceIte]
  rfl

theorem State.helloFrame_up (hq : (s.port port).st = .up) : s.helloFrame port f =
    ((s.helloAgain port).record .linkReset none (srcPort port) []).takeHello port (credit f.hdr) := by
  simp only [State.helloFrame, hq, State.helloAgain, (State.pads_padTo s port (5 * s.now)).now]

end

/-! ### IDLE -/

/-- The counts of an IDLE at a port, with the granules that never arrived given back (R273, R274). -/
def Port.credited (q : Port) (c : Credit) : Port :=
  { q with rxcount1 := q.rxcount1 + BitVec.ofNat 16 (lostCredit c.txsent1 q.rxcount1),
           rxfreed1 := q.rxfreed1 + BitVec.ofNat 16 (lostCredit c.txsent1 q.rxcount1),
           rxcount3 := q.rxcount3 + BitVec.ofNat 16 (lostCredit c.txsent3 q.rxcount3),
           rxfreed3 := q.rxfreed3 + BitVec.ofNat 16 (lostCredit c.txsent3 q.rxcount3),
           peerFreed1 := c.rxfreed1, peerFreed3 := c.rxfreed3 }

/-- Granules that an IDLE tells a port never arrived (R274). -/
def Port.lostBy (q : Port) (c : Credit) : Nat := lostCredit c.txsent1 q.rxcount1 + lostCredit c.txsent3 q.rxcount3

theorem State.takeCredit_eq (s : State) (p : Nat) (c : Credit) : s.takeCredit p c =
    if (s.port p).lostBy c = 0 then s.setPort p ((s.port p).credited c)
    else (s.setPort p ((s.port p).credited c)).bumpBy ((s.port p).lostBy c) .portCreditLost p := rfl

/-- What an IDLE's counts leave: the port credited and the lost granules counted (R274). -/
structure Credited (p : Nat) (c : Credit) (s u : State) : Prop where
  port : u.port p = (s.port p).credited c
  wire : u.wire = s.wire
  counted : (s.port p).lostBy c ≠ 0 → u.reg .portCreditLost p = wrapAdd 32 (s.reg .portCreditLost p) ((s.port p).lostBy c)
  none : (s.port p).lostBy c = 0 → u.reg .portCreditLost p = s.reg .portCreditLost p
  regs : RegsBut [Obj.portCreditLost.key p] s u
  frame : PortFrame p [.regs, .wire] s u

theorem State.credited_takeCredit (s : State) (p : Nat) (c : Credit) : Credited p c s (s.takeCredit p c) := by
  have hf : PortFrame p [.regs, .wire] s (s.setPort p ((s.port p).credited c)) := portFrame_setPort s p _ _
  rw [State.takeCredit_eq]
  by_cases h : (s.port p).lostBy c = 0
  · rw [if_pos h]
    exact { port := State.port_setPort _ _ _, wire := rfl, counted := fun hn => absurd h hn, none := fun _ => rfl,
            regs := RegsBut.of_eq _ rfl, frame := hf }
  · rw [if_neg h]
    exact { port := State.port_setPort _ _ _, wire := rfl, counted := fun _ => State.reg_setReg _ _ _ _ _ _,
            none := fun he => absurd he h, regs := regsBut_setReg (s.setPort p _) .portCreditLost p 0 0 _,
            frame := hf.trans (PortFrame.of_touches p (touches_setReg (s.setPort p _) _ _ _ _ _) (by simp) (by simp)) }

/-- A port in HELLO that goes UP, before its record (R272). -/
def State.upNow (s : State) (p : Nat) : State :=
  let a := s.padTo p (5 * s.now)
  a.setPort p { a.port p with st := .up, step := 6, everUp := true }

theorem State.goUp_inTime {s : State} {p : Nat} (h : s.now ≤ (s.port p).begun + 200 * Config.msec) :
    ∃ fs, s.goUp p = ((s.upNow p).record .linkUp none (srcPort p) fs).trySucceed := by
  have hl : s.bringUpLate (s.port p) = false := by simpa [State.bringUpLate] using h
  simp only [State.goUp, hl]
  exact ⟨_, rfl⟩

theorem State.upNow_queues (s : State) (p : Nat) :
    ((s.upNow p).port p).queues = { (s.port p).queues with st := .up, step := 6, everUp := true } := by
  rw [State.upNow, State.port_setPort]
  exact congrArg (fun x : Port => { x with st := .up, step := 6, everUp := true }) (State.pads_padTo s p (5 * s.now)).queues

theorem State.goUp_late {s : State} {p : Nat} (h : (s.port p).begun + 200 * Config.msec < s.now) : s.goUp p = s.linkFail p := by
  simp [State.goUp, State.bringUpLate, h]

/-! ### Failure -/

/-- A port in FAILED, before its record (R260). -/
def State.portFailed (s : State) (p : Nat) : State := s.setPort p { s.port p with st := .failed, failedAt := s.now }

theorem State.linkFail_eq (s : State) (p : Nat) : s.linkFail p =
    ((s.portFailed p).record .linkFail none (srcPort p) [(8, (s.port p).step)]).portLate p := rfl

theorem State.portLate_of_not {s : State} {p : Nat} (h : ¬ (s.required p = true ∧ s.boot.attempt.active = true)) :
    s.portLate p = s := by
  simp only [State.portLate, Bool.and_eq_true]
  exact if_neg h

/-- A start that waits for a late port fails (R261). -/
theorem State.portLate_of_waits {s : State} {p : Nat} (h : s.required p = true ∧ s.boot.attempt.active = true) :
    ∃ n, s.portLate p = s.failStart 0x40 n := by
  simp only [State.portLate, Bool.and_eq_true]
  exact ⟨_, if_pos h⟩

/-- The ports that a start requires stay those after records. -/
theorem OnlyRecords.required {s t : State} (r : OnlyRecords s t) {p : Nat} (hp : p < 32) : t.required p = s.required p := by
  simp only [State.required, r.reg .portCtrl p 0 0 (portKey_not_daybook hp rfl rfl (by decide))]

/-- A command that ends a start with a late port ends its attempt (R261). -/
theorem portLate_fails {s v : State} {i : Instr} {p : Nat} (hx : exec i s = done (v.portLate p))
    (h : v.required p = true ∧ v.boot.attempt.active = true) : ∃ t, exec i s = .next t ∧ t.now = v.now ∧
      t.boot.attempt.active = false ∧ t.boot.attempt.ended = true ∧ t.boot.attempt.fails = min 255 (v.boot.attempt.fails + 1) := by
  obtain ⟨n, hn⟩ := State.portLate_of_waits h
  obtain ⟨t, ht, hf, hnow⟩ := State.fails_of_done (hx.trans (congrArg done hn)) h.2
  exact ⟨t, ht, hnow, hf.ended.1, hf.ended.2, hf.fails⟩

end Sys2Proof.Machine
end

section
/-! The clauses of LINK_BRING_UP to LINK_RESTART, command by command (R258 to R261, R271 to R274, R280; log 62). -/

namespace Sys2Proof.Machine

variable {s : State} {port : Fin 32} {f : Frame}

/-- The register bits of an exchange are no daybook counters: after a valid HELLO on an UP port, behind its record. -/
theorem hello_up (hd : s.heldDrop port = false) (hq : (s.port port).st = .up)
    (hc : helloCheck (s.role port) (credit f.hdr) = 0) : ∃ u, Logs (.hello port f) s u .linkReset ∧
      (u.port port).core.queues = (({ (s.port port).freshCredits with
        st := .hello, step := 5, begun := s.now, downAt := s.now, helloValid := false, helloSent := false, helloErr := false,
        resync := false } : Port).greeted (credit f.hdr)).core.queues ∧ Padded port s u ∧
      RegsBut [Obj.portPeer.key port, Obj.portPeerLimit.key port] s u ∧ PortFrame port [.regs, .wire] s u := by
  have hpad := State.pads_padTo s port (5 * s.now)
  let b := s.helloAgain port
  let r := b.record .linkReset none (srcPort port) []
  have hr : OnlyRecords b r := onlyRecords_record b .linkReset none _ _ 0 (by simp)
  have hbcat : b.cat = s.cat := hpad.cat
  have hrole : r.role port = s.role port := by
    rw [hr.role]
    simp only [State.role, State.view, View.obj, hbcat]
  have hg : Greeted port (credit f.hdr) r (r.takeHello port (credit f.hdr)) := State.greeted_takeHello (by rw [hrole]; exact hc)
  refine ⟨r.takeHello port (credit f.hdr), ⟨_, hello_exec hd, ?_, fun ho => ?_⟩, ?_, ?_, ?_, ?_⟩
  · rw [State.helloFrame_up hq]
    exact onlyRecords_settleFaults _
  · rw [State.helloFrame_up hq]
    have hopen : r.ringOpen 16 := (State.ringOpen_congr 16 hg.rings hg.now).mp ho
    have hrec : r.recorded 16 .linkReset := State.recorded_of_open _ _ _ _ hopen
    exact (hrec.of_rings hg.rings).of_records (onlyRecords_settleFaults _)
  · have h1 := congrArg Port.core hg.queues
    have h2 := congrArg (fun x : Port => (x.greeted (credit f.hdr)).queues) (hr.ports port)
    have h3 := congrArg (fun x : Port => (x.greeted (credit f.hdr)).core) (State.helloAgain_port hq)
    exact h1.trans (h2.trans h3)
  · exact (hpad.wire.trans (Padded.of_eq hr.wire)).trans hg.padded
  · exact ((RegsBut.of_eq _ (congrArg Cat.regs hbcat)).trans (hr.regsBut _)).trans hg.regs
  · exact (((hpad.portFrame (by simp)).trans (portFrame_setPort _ _ _ _)).trans (hr.portFrame _ _)).trans hg.frame

/-- What an IDLE leaves on a port that is UP, or that it brings UP (R272 to R274). -/
def IdleLeaves (p : Nat) (c : Credit) (st : PortState) (step : Nat) (ever : Bool) (s u : State) : Prop :=
  (u.port p).core.queues = ({ (s.port p).core.queues with st := st, step := step, everUp := ever } : Port).credited c ∧
    Padded p s u ∧
    ((s.port p).lostBy c ≠ 0 → u.reg .portCreditLost p = wrapAdd 32 (s.reg .portCreditLost p) ((s.port p).lostBy c)) ∧
    ((s.port p).lostBy c = 0 → u.reg .portCreditLost p = s.reg .portCreditLost p) ∧
    RegsBut [Obj.portCreditLost.key p] s u ∧ PortFrame p [.regs, .wire] s u

/-- An IDLE on an UP port (R274). -/
theorem idle_up (hd : s.heldDrop port = false) (hq : (s.port port).st = .up) : ∃ u, RunsTo (.idle port f) s u ∧
    u.wire = s.wire ∧ IdleLeaves port (credit f.hdr) .up (s.port port).step (s.port port).everUp s u := by
  have hc := State.credited_takeCredit s port (credit f.hdr)
  have hi : s.idleFrame port f = s.takeCredit port (credit f.hdr) := by simp only [State.idleFrame, hq]
  refine ⟨s.takeCredit port (credit f.hdr), RunsTo.of_done ((idle_exec hd).trans (congrArg done hi)) (OnlyRecords.refl _),
    hc.wire, ?_, Padded.of_eq hc.wire, hc.counted, hc.none, hc.regs, hc.frame⟩
  rw [hc.port, ← hq]
  rfl

/-- What making a port UP leaves, records apart. -/
theorem upNow_frame (s : State) (port : Nat) : Padded port s (s.upNow port) ∧ (s.upNow port).cat = s.cat ∧
    (s.upNow port).boot = s.boot ∧ PortFrame port [.regs, .wire] s (s.upNow port) := by
  have hpad := State.pads_padTo s port (5 * s.now)
  exact ⟨hpad.wire.congr rfl rfl, hpad.cat, hpad.boot, (hpad.portFrame (by simp)).trans (portFrame_setPort _ _ _ _)⟩

theorem idleFrame_hello (hq : (s.port port).st = .hello) (hv : (s.port port).helloValid = true) :
    s.idleFrame port f = (s.goUp port).takeCredit port (credit f.hdr) := by simp only [State.idleFrame, hq, hv, if_true]

/-- An IDLE that makes a port UP in time, while no start waits for it (R272). -/
theorem idle_goesUp (hd : s.heldDrop port = false) (hq : (s.port port).st = .hello) (hv : (s.port port).helloValid = true)
    (ht : s.now ≤ (s.port port).begun + 200 * Config.msec) (ha : s.boot.attempt.active = false) :
    ∃ u, RunsTo (.idle port f) s u ∧ IdleLeaves port (credit f.hdr) .up 6 true s u := by
  obtain ⟨hpad, hcat, hboot, hframe⟩ := upNow_frame s port
  obtain ⟨fs, hup⟩ := State.goUp_inTime ht
  let r := (s.upNow port).record .linkUp none (srcPort port) fs
  have hr : OnlyRecords (s.upNow port) r := onlyRecords_record _ _ none _ _ 0 (by simp)
  have hgo : s.goUp port = r := hup.trans (State.trySucceed_of_not_ready (.inl (by rw [hr.boot, hboot]; exact ha)))
  have hi := (idleFrame_hello (f := f) hq hv).trans (congrArg (fun x => State.takeCredit x port (credit f.hdr)) hgo)
  have hc := State.credited_takeCredit r port (credit f.hdr)
  have hlost : Obj.portCreditLost.key port ∉ daybookKeys := portKey_not_daybook port.isLt rfl rfl (by decide)
  have hreg : r.reg .portCreditLost port = s.reg .portCreditLost port := by
    rw [hr.reg _ _ _ _ hlost]
    simp only [State.reg, hcat]
  have hcore : (r.port port).core.queues = { (s.port port).core.queues with st := .up, step := 6, everUp := true } :=
    (congrArg Port.queues (hr.ports port)).trans (congrArg Port.core (State.upNow_queues s port))
  have hby : (r.port port).lostBy (credit f.hdr) = (s.port port).lostBy (credit f.hdr) :=
    show (r.port port).core.queues.lostBy (credit f.hdr) = (s.port port).core.queues.lostBy (credit f.hdr) by rw [hcore]; rfl
  refine ⟨_, RunsTo.of_done ((idle_exec hd).trans (congrArg done hi)) (OnlyRecords.refl _), ?_,
    (hpad.trans (Padded.of_eq hr.wire)).trans (Padded.of_eq hc.wire), ?_, ?_,
    ((RegsBut.of_eq _ (congrArg Cat.regs hcat)).trans (hr.regsBut _)).trans hc.regs,
    (hframe.trans (hr.portFrame _ _)).trans hc.frame⟩
  · rw [hc.port]
    exact congrArg (fun x : Port => x.credited (credit f.hdr)) hcore
  · rw [← hby, ← hreg]
    exact hc.counted
  · rw [← hby, ← hreg]
    exact hc.none

/-- The state of a port after an IDLE's counts is the one before them. -/
theorem takeCredit_st (s : State) (p : Nat) (c : Credit) : ((s.takeCredit p c).port p).core.st = (s.port p).core.st ∧
    ((s.takeCredit p c).port p).core.failedAt = (s.port p).core.failedAt := by
  rw [(State.credited_takeCredit s p c).port]
  exact ⟨rfl, rfl⟩

theorem Port.core_st (q : Port) : q.core.st = q.st := rfl

theorem Port.queues_st (q : Port) : q.queues.st = q.st := rfl

/-- An IDLE after a valid HELLO makes the port UP in time, whether a start waits for it or not (R272, R400). -/
theorem idle_reaches_up (hd : s.heldDrop port = false) (hq : (s.port port).st = .hello)
    (hv : (s.port port).helloValid = true) (ht : s.now ≤ (s.port port).begun + 200 * Config.msec) :
    ∃ t, exec (.idle port f) s = .next t ∧ (t.port port).st = .up := by
  obtain ⟨fs, hup⟩ := State.goUp_inTime ht
  let r := (s.upNow port).record .linkUp none (srcPort port) fs
  have hr : OnlyRecords (s.upNow port) r := onlyRecords_record _ _ none _ _ 0 (by simp)
  have hsucc : (r.trySucceed.port port).core = (r.port port).core := State.touches_trySucceed r .ports (by simp) port
  have hnow : ((s.upNow port).port port).core.st = .up := by
    rw [Port.core_st, ← Port.queues_st, State.upNow_queues]
  refine ⟨_, (idle_exec hd).trans (congrArg done (idleFrame_hello hq hv)), ?_⟩
  have hgo : ((s.goUp port).port port).core.st = .up := by rw [hup, hsucc, hr.ports port, hnow]
  have hlast := (onlyRecords_settleFaults ((s.goUp port).takeCredit port (credit f.hdr))).ports port
  rw [← Port.core_st, hlast, (takeCredit_st _ _ _).1, hgo]

/-- A port that would go UP too late, while no start waits, is in FAILED with its record (R260). -/
theorem goUp_fails (ht : (s.port port).begun + 200 * Config.msec < s.now) (ha : s.boot.attempt.active = false) :
    s.goUp port = (s.portFailed port).record .linkFail none (srcPort port) [(8, (s.port port).step)] := by
  have hr := onlyRecords_record (s.portFailed port) .linkFail none (srcPort port) [(8, (s.port port).step)] 0 (by simp)
  rw [State.goUp_late ht, State.linkFail_eq, State.portLate_of_not]
  rintro ⟨_, hact⟩
  rw [hr.boot] at hact
  simp [State.portFailed, ha] at hact

theorem failed_core (s : State) (port : Nat) (c : Credit) (r : State) (hr : OnlyRecords (s.portFailed port) r) :
    ((r.takeCredit port c).settleFaults.port port).st = .failed ∧
      ((r.takeCredit port c).settleFaults.port port).failedAt = s.now := by
  have hcore : (r.port port).core = ({ s.port port with st := .failed, failedAt := s.now } : Port).core :=
    (hr.ports port).trans (congrArg Port.core (State.port_setPort _ _ _))
  have hlast := (onlyRecords_settleFaults (r.takeCredit port c)).ports port
  obtain ⟨hst, hat⟩ := takeCredit_st r port c
  exact ⟨(congrArg Port.st hlast).trans (hst.trans (congrArg Port.st hcore)),
    (congrArg Port.failedAt hlast).trans (hat.trans (congrArg Port.failedAt hcore))⟩

/-- An IDLE that comes after the 200 ms fails the port (R260). -/
theorem idle_late (hd : s.heldDrop port = false) (hq : (s.port port).st = .hello) (hv : (s.port port).helloValid = true)
    (ht : (s.port port).begun + 200 * Config.msec < s.now) (ha : s.boot.attempt.active = false) :
    ∃ t, exec (.idle port f) s = .next t ∧ (t.port port).st = .failed ∧ (t.port port).failedAt = s.now := by
  have hx : exec (.idle port f) s = done (((s.portFailed port).record .linkFail none (srcPort port)
      [(8, (s.port port).step)]).takeCredit port (credit f.hdr)) := by
    rw [idle_exec hd, idleFrame_hello hq hv, goUp_fails ht ha]
  exact ⟨_, hx, failed_core s port _ _ (onlyRecords_record _ _ none _ _ 0 (by simp))⟩

/-- LINK_FAIL on a port on its way up, when no start waits for it (R260). -/
theorem linkFail_plain (hq : (s.port port).st = .training ∨ (s.port port).st = .aligning ∨ (s.port port).st = .hello)
    (hw : ¬ (s.required port = true ∧ s.boot.attempt.active = true)) :
    let now := max s.now ((s.port port).begun + 200 * Config.msec)
    let u := { s with now := now }.setPort port { s.port port with st := .failed, failedAt := now }
    ∃ t, exec (.linkFail port) s = .next t ∧ OnlyRecords u t ∧ (u.ringOpen 16 →
      ∃ x ∈ (t.ring 16).recs, x.code = BitVec.ofNat 16 Code.linkFail.num ∧ x.detail = detailOf [(8, (s.port port).step)]) := by
  intro now u
  let r := u.record .linkFail none (srcPort port) [(8, (s.port port).step)]
  have hr : OnlyRecords u r := onlyRecords_record u _ none _ _ 0 (by simp)
  have hlate : (s.at ((s.port port).begun + 200 * Config.msec)).linkFail port = r :=
    (State.linkFail_eq _ _).trans (State.portLate_of_not fun h => hw ⟨(hr.required port.isLt).symm.trans h.1,
      (congrArg (·.attempt.active) hr.boot).symm.trans h.2⟩)
  have hx : exec (.linkFail port) s = done r := by
    rw [← hlate]
    rcases hq with hq | hq | hq <;> simp only [exec, execLinkFail, hq]
  have hs := onlyRecords_settleFaults r
  refine ⟨_, hx, hr.trans hs, fun ho => ?_⟩
  obtain ⟨x, hx, hcode, hdet⟩ := State.mem_record .linkFail (srcPort port) [(8, (s.port port).step)] 0 ho
  exact ⟨x, (hs.recs 16).subset hx, hcode, hdet⟩

/-- LINK_FAIL on a port that a start waits for ends the start's attempt (R261). -/
theorem linkFail_fails (hq : (s.port port).st ≠ .up ∧ (s.port port).st ≠ .failed)
    (hw : s.required port = true ∧ s.boot.attempt.active = true) : ∃ t, exec (.linkFail port) s = .next t ∧
      t.now = max s.now ((s.port port).begun + 200 * Config.msec) ∧ t.boot.attempt.active = false ∧
      t.boot.attempt.ended = true ∧ t.boot.attempt.fails = min 255 (s.boot.attempt.fails + 1) := by
  let v := s.at ((s.port port).begun + 200 * Config.msec)
  let u := v.portFailed port
  let r := u.record .linkFail none (srcPort port) [(8, (v.port port).step)]
  have hr : OnlyRecords u r := onlyRecords_record u _ none _ _ 0 (by simp)
  have hwaits : (s.required port && s.boot.attempt.active) = true := by rw [hw.1, hw.2]; rfl
  have way : exec (.linkFail port) s = done (v.linkFail port) → ∃ t, exec (.linkFail port) s = .next t ∧ t.now = r.now ∧
      t.boot.attempt.active = false ∧ t.boot.attempt.ended = true ∧ t.boot.attempt.fails = min 255 (r.boot.attempt.fails + 1) :=
    fun h => portLate_fails (h.trans (congrArg done (State.linkFail_eq v port)))
      ⟨(hr.required port.isLt).trans hw.1, (congrArg (·.attempt.active) hr.boot).trans hw.2⟩
  rw [hr.now, hr.boot] at way
  cases hst : (s.port port).st
  case up => exact absurd hst hq.1
  case failed => exact absurd hst hq.2
  case training => exact way (by simp only [exec, execLinkFail, hst]; rfl)
  case aligning => exact way (by simp only [exec, execLinkFail, hst]; rfl)
  case hello => exact way (by simp only [exec, execLinkFail, hst]; rfl)
  case off => exact portLate_fails (v := v) (by simp only [exec, execLinkFail, hst, hwaits]; rfl) hw
  case held => exact portLate_fails (v := v) (by simp only [exec, execLinkFail, hst, hwaits]; rfl) hw

end Sys2Proof.Machine
end

section
open Sys2Proof Sys2Proof.Machine

/-- Settles O43: each clause is what the command of that step leaves. -/
theorem linksComeUp : Obligations.LinksComeUp := by
  intro s port q held begun
  have hdrop : q.st = .up ∨ q.st = .hello → held = false → s.heldDrop port = false := by
    intro hq hh
    rcases hq with hq | hq <;> simp only [State.heldDrop, show (s.port port).st = _ from hq] <;> exact hh
  refine ⟨fun hq hr hd => ?_, fun h => ?_, fun a rx tx => ⟨alignStep_le_three, alignStep_le_four, linkAligned_early,
    linkAligned_done, fun h1 h2 => ?_⟩, fun h f => held_runsTo ?_ f, fun f hq hh => ?_, fun f hq hh hc => ?_, fun f hq hh => ?_,
    fun f hq hh => ⟨fun hv => ?_, fun hv ht => idle_reaches_up (hdrop (.inr hq) hh) hq hv ht,
      fun hv ht ha => idle_late (hdrop (.inr hq) hh) hq hv ht ha⟩, ?_, fun hq => ?_, fun hq => ?_⟩
  · refine RunsTo.of_done ?_ (OnlyRecords.refl _)
    simp only [exec, execLinkBringUp]
    rw [if_neg (by simp [show (s.port port).st = _ from hq, hr, hd])]
    rfl
  · simp only [exec, execLinkBringUp]
    exact if_pos (by simpa using h)
  · simp only [exec, execLinkAligned]
    split
    · exact absurd ‹_› h1
    · exact absurd ‹_› h2
    · rfl
  · rcases h with h | ⟨h | h, hh⟩ <;> simp only [State.heldDrop, show (s.port port).st = _ from h] <;> exact hh
  · have hx := hello_exec (f := f) (hdrop (.inr hq) hh)
    refine ⟨fun hc => ?_, fun hc he => ?_, fun hc he => hello_invalid (hdrop (.inr hq) hh) hq hc he⟩
    · have hg := State.greeted_takeHello hc
      have hf : s.helloFrame port f = s.takeHello port (credit f.hdr) := by
        simp only [State.helloFrame, show (s.port port).st = _ from hq]
      exact ⟨_, RunsTo.of_done (hx.trans (congrArg done hf)) (OnlyRecords.refl _), hg.queues, hg.hello, hg.padded, hg.peer,
        hg.limit, hg.regs, hg.frame⟩
    · refine RunsTo.of_done hx ?_
      simp only [State.helloFrame, show (s.port port).st = _ from hq, State.takeHello, if_pos hc, State.helloBad,
        show (s.port port).helloErr = _ from he, if_true]
      exact OnlyRecords.refl _
  · obtain ⟨u, hlog, hport, hrest⟩ := hello_up (hdrop (.inl hq) hh) hq hc
    have field : ∀ {α : Type} (g : Port → α), g (u.port port).core.queues = g _ := fun g => congrArg g hport
    exact ⟨u, hlog, field Port.st, field Port.helloValid, field Port.downAt, field Port.begun, field Port.txsent1,
      field Port.txsent3, field Port.rxcount1, field Port.rxcount3, field Port.tx1, field Port.tx3, field Port.rx1,
      field Port.rx3, hrest⟩
  · rcases hq with hq | ⟨hq, hv, ht, ha⟩
    · obtain ⟨u, hrun, hwire, hport, hpad, hrest⟩ := idle_up (f := f) (hdrop (.inl hq) hh) hq
      refine ⟨u, hrun, ?_, fun _ => hwire, hpad, hrest⟩
      rw [hport, if_pos hq]
      simp only [show q.st ≠ .hello by rw [hq]; simp, decide_false, Bool.or_false]
      rfl
    · obtain ⟨u, hrun, hport, hpad, hrest⟩ := idle_goesUp (f := f) (hdrop (.inr hq) hh) hq hv ht ha
      refine ⟨u, hrun, ?_, fun h => ?_, hpad, hrest⟩
      · rw [hport, if_neg (by rw [hq]; simp)]
        simp only [hq, decide_true, Bool.or_true]
        rfl
      · rw [hq] at h
        cases h
  · refine RunsTo.of_done (idle_exec (hdrop (.inr hq) hh)) ?_
    simp only [State.idleFrame, show (s.port port).st = _ from hq, show (s.port port).helloValid = _ from hv]
    exact OnlyRecords.refl _
  · refine ⟨fun hq hw => linkFail_fails ?_ hw, fun hq hw => linkFail_plain hq hw, fun hq hw => linkFail_fails ?_ hw,
      fun hq hw => ?_, fun hq => ?_⟩
    · rcases hq with hq | hq | hq <;> simp [show (s.port port).st = _ from hq]
    · rcases hq with hq | hq <;> simp [show (s.port port).st = _ from hq]
    · have hn : ¬ (s.required port && s.boot.attempt.active) = true := by simpa only [Bool.and_eq_true] using hw
      rcases hq with hq | hq <;> simp only [exec, execLinkFail, show (s.port port).st = _ from hq] <;> exact if_neg hn
    · rcases hq with hq | hq <;> simp only [exec, execLinkFail, show (s.port port).st = _ from hq]
  · refine RunsTo.of_done ?_ (OnlyRecords.refl _)
    simp only [exec, execLinkRestart]
    rw [if_neg (by simpa using hq)]
    rfl
  · simp only [exec, execLinkRestart]
    exact if_pos hq

end

section
/-! Candidates received (R303 to R305, R310 to R312): what each row leaves of the cascade's state, its counters and the
instructions in flight. -/

namespace Sys2Proof.Machine

/-! ### Frames sent -/

/-- A discarded frame is counted at most (R262). -/
theorem State.txDrop_frame (s : State) (p : Nat) : Touches [.regs] s (s.txDrop p) ∧
    RegsBut [Obj.portTxDiscard.key p] s (s.txDrop p) ∧ (s.txDrop p).ports = s.ports := by
  simp only [State.txDrop]
  split
  · exact ⟨touches_setReg s _ _ _ _ _, regsBut_setReg s _ _ _ _ _, rfl⟩
  · exact ⟨Touches.refl _ _, RegsBut.refl _ _, rfl⟩

/-- A CANDIDATE frame joins the transmitter of its port, or is discarded (R262). -/
theorem State.send2_frame (s : State) (p : Nat) (f : Frame) (d : TxDone) :
    Touches [.regs, .ports] s (s.send2 p f d) ∧ RegsBut [Obj.portTxDiscard.key p] s (s.send2 p f d) := by
  obtain ⟨ht, hr, _⟩ := State.txDrop_frame s p
  simp only [State.send2]
  split
  · exact ⟨(touches_setPort s p _).mono (by simp), RegsBut.of_eq _ rfl⟩
  · exact ⟨ht.mono (by simp), hr⟩

/-! ### Registers of the cascade -/

theorem casKey_not_daybook {o : Obj} (hb : o.row.base = 0x6000) (hs : o.row.sub < 256) : o.key ∉ daybookKeys := by
  refine not_mem_daybookKeys ?_
  rw [Obj.key_index o 0 0 0 (by omega) (by omega), Obj.index, hb]
  omega

theorem State.reg_bump (s : State) (o : Obj) (i : Nat) : (s.bump o i).reg o i = wrapAdd 32 (s.reg o i) 1 :=
  State.reg_setReg s o i 0 0 _

/-! ### Quarantine, stale and late frames -/

/-- The device quarantines, and nothing but the cascade's state changes (R311, R312). -/
theorem State.quarantine_spec (s : State) (cause who gen expected : Nat) :
    (s.quarantine cause who gen expected).cas.quarantined = true ∧ Touches [.cas] s (s.quarantine cause who gen expected) := by
  let r := s.cas.quar.more s.now who gen
  let v : State := { s with cas := { s.cas with quarantined := true, quar := r.2.2.2.2 } }
  have hv : OnlyRecords v (s.quarantine cause who gen expected) := by
    simp only [State.quarantine]
    split
    · exact onlyRecords_record v _ _ _ _ _ (by simp)
    · exact OnlyRecords.refl v
  exact ⟨by rw [hv.cas], (touches_cas s _).of_records hv⟩

/-- A fence in answer to a stale frame changes its limit, its counter and the port it goes out on (R310). -/
theorem State.sendFence_frame (s : State) (port sender stale : Nat) :
    Touches [.cas, .regs, .ports] s (s.sendFence port sender stale) ∧
      RegsBut [Obj.casFenceTx.key, Obj.portTxDiscard.key port] s (s.sendFence port sender stale) ∧
      (s.sendFence port sender stale).cas.pend = s.cas.pend := by
  simp only [State.sendFence]
  split
  · exact ⟨Touches.refl _ _, RegsBut.refl _ _, rfl⟩
  · generalize fenceFrame _ _ _ _ _ = f
    let v : State := { s with cas := { s.cas with fenceLast := sput (fun _ => 0) s.cas.fenceLast sender (s.now + 1) } }
    obtain ⟨ht, hr⟩ := State.send2_frame v port f .none
    have hcas : (v.send2 port f).cas = v.cas := ht .cas (by simp)
    refine ⟨?_, ?_, ?_⟩
    · exact (((touches_cas s _).mono (by simp)).followed ht (by simp)).followed (touches_setReg (v.send2 port f) _ _ _ _ _)
        (by simp)
    · exact ((RegsBut.of_eq (s := s) (t := v) _ rfl).trans (hr.mono (by simp))).trans
        ((regsBut_setReg (v.send2 port f) .casFenceTx 0 0 0 _).mono (by simp))
    · show (v.send2 port f .none).cas.pend = v.cas.pend
      rw [hcas]

/-- A stale frame is counted; its sender is fenced (R305, R310). -/
theorem State.staleFrame_spec (s : State) {port : Nat} (hp : port < 32) (h : CandHdr) :
    (s.staleFrame port h).reg .casStale = wrapAdd 32 (s.reg .casStale) 1 ∧ (s.staleFrame port h).cas.pend = s.cas.pend ∧
      RegsBut [Obj.casStale.key, Obj.casFenceTx.key, Obj.portTxDiscard.key port] s (s.staleFrame port h) ∧
      Touches [.cas, .regs, .ports] s (s.staleFrame port h) := by
  let r := s.cas.stale.more s.now h.sender h.smgen
  let v : State := { (s.bump .casStale) with cas := { s.cas with stale := r.2.2.2.2 } }
  obtain ⟨w, hw, he⟩ : ∃ w, OnlyRecords v w ∧ s.staleFrame port h = w.sendFence port h.sender h.smgen := by
    simp only [State.staleFrame]
    split
    · exact ⟨_, onlyRecords_record v _ _ _ _ _ (by simp), rfl⟩
    · exact ⟨v, OnlyRecords.refl v, rfl⟩
  obtain ⟨ht, hr, hpend⟩ := State.sendFence_frame w port h.sender h.smgen
  have hkey := casKey_not_daybook (o := .casStale) rfl (by decide)
  have hne : Obj.casStale.key ∉ [Obj.casFenceTx.key, Obj.portTxDiscard.key port] := by
    simp [Obj.key, Obj.index, Obj.row, regKey]
    omega
  rw [he]
  refine ⟨?_, ?_, ?_, ?_⟩
  · exact (hr.reg _ _ _ _ hkey hne).trans ((hw.reg _ _ _ _ hkey).trans (State.reg_bump s .casStale 0))
  · rw [hpend, hw.cas]
  · exact (((regsBut_setReg s .casStale 0 0 0 _).mono (by simp)).trans (hw.regsBut _)).trans (hr.mono (by simp))
  · exact ((((touches_setReg s _ _ _ _ _).mono (by simp)).followed (touches_cas (s.bump .casStale) _)
      (by simp)).of_records hw).trans ht

/-- A late frame is counted (R305). -/
theorem State.lateFrame_spec (s : State) (h : CandHdr) : (s.lateFrame h).reg .casLate = wrapAdd 32 (s.reg .casLate) 1 ∧
    RegsBut [Obj.casLate.key] s (s.lateFrame h) ∧ Touches [.cas, .regs] s (s.lateFrame h) := by
  let r := s.cas.late.more s.now h.sender 0
  let v : State := { (s.bump .casLate) with cas := { s.cas with late := r.2.2.2.2 } }
  have hv : OnlyRecords v (s.lateFrame h) := by
    simp only [State.lateFrame]
    split
    · exact onlyRecords_record v _ _ _ _ _ (by simp)
    · exact OnlyRecords.refl v
  have hkey := casKey_not_daybook (o := .casLate) rfl (by decide)
  exact ⟨(hv.reg _ _ _ _ hkey).trans (State.reg_bump s .casLate 0),
    (regsBut_setReg s .casLate 0 0 0 _).trans (hv.regsBut _),
    (((touches_setReg s _ _ _ _ _).mono (by simp)).followed (touches_cas (s.bump .casLate) _) (by simp)).of_records hv⟩

/-! ### Records that enter a merge -/

/-- The part with the records of a frame that fit its edition and its sharded lookups (R305). -/
def CasPart.taking (c : CasPart) (ed : Edition) (body : List Granule) : CasPart :=
  { c with recs := c.recs ++ (body.map recOf).filter fun r => r.2.edition = ed && c.lookups.contains r.1 }

/-- The other records are counted (R305). -/
theorem takeRecs_spec (c : CasPart) (ed : Edition) (body : List Granule) (s : State) :
    (takeRecs c ed body s).1 = c.taking ed body ∧ Touches [.regs] s (takeRecs c ed body s).2 ∧
      RegsBut [Obj.casMisroute.key, Obj.casEdMismatch.key] s (takeRecs c ed body s).2 := by
  induction body generalizing c s with
  | nil => exact ⟨by simp [takeRecs, CasPart.taking], Touches.refl _ _, RegsBut.refl _ _⟩
  | cons g t ih =>
    simp only [takeRecs, takeRec]
    split
    · rename_i hed
      obtain ⟨h1, h2, h3⟩ := ih c (s.bump .casEdMismatch)
      exact ⟨by rw [h1]; simp [CasPart.taking, hed], (touches_setReg s _ _ _ _ _).trans h2,
        ((regsBut_setReg s .casEdMismatch 0 0 0 _).mono (by simp)).trans h3⟩
    · rename_i hed
      split
      · rename_i hlk
        obtain ⟨h1, h2, h3⟩ := ih c (s.bump .casMisroute)
        have hn : (recOf g).1 ∉ c.lookups := by simpa using hlk
        exact ⟨by rw [h1]; simp [CasPart.taking, hn], (touches_setReg s _ _ _ _ _).trans h2,
          ((regsBut_setReg s .casMisroute 0 0 0 _).mono (by simp)).trans h3⟩
      · rename_i hlk
        obtain ⟨h1, h2, h3⟩ := ih { c with recs := c.recs ++ [recOf g] } s
        have hy : (recOf g).1 ∈ c.lookups := by simpa using hlk
        have he : (recOf g).2.edition = ed := not_not.1 hed
        exact ⟨by rw [h1]; simp [CasPart.taking, hy, he], h2, h3⟩

/-- The earliest of some instructions is one of them. -/
theorem earliest_mem {l : List Inflight} {x : Inflight} (h : earliest l = some x) : x ∈ l := by
  induction l generalizing x with
  | nil => simp [earliest] at h
  | cons y t ih =>
    simp only [earliest] at h
    split at h
    · rename_i z hz
      split at h <;> cases h
      · exact List.mem_cons_of_mem _ (ih hz)
      · exact List.mem_cons_self
    · cases h
      exact List.mem_cons_self

theorem earliest_eq_none {l : List Inflight} : earliest l = none ↔ l = [] := by
  cases l with
  | nil => simp [earliest]
  | cons y t =>
    simp only [earliest, reduceCtorEq, iff_false]
    split
    · split <;> simp
    · simp

/-- An instruction that is in flight reads as it was written (R23). -/
theorem State.flight?_setFlight {s : State} {x y : Inflight} (hy : y ∈ s.search.flight) (h : y.id = x.id) :
    (s.setFlight x).flight? x.id = some x := by
  have hfind : ∀ l : List Inflight, (∃ y ∈ l, y.id = x.id) →
      (l.map fun y => if y.id = x.id then x else y).find? (fun z => z.id = x.id) = some x := by
    intro l
    induction l with
    | nil => rintro ⟨_, h, _⟩; cases h
    | cons z t ih =>
      rintro ⟨w, hw, hid⟩
      by_cases hz : z.id = x.id
      · simp [hz]
      · rw [List.map_cons, if_neg hz, List.find?_cons_of_neg (by simpa using hz)]
        rcases List.mem_cons.1 hw with rfl | hw
        · exact absurd hid hz
        · exact ih ⟨w, hw, hid⟩
  exact hfind _ ⟨y, hy, h⟩

/-- The instructions in flight that match a frame and whose merge is open in a cycle (R300, R304). -/
def State.openMerges (s : State) (h : CandHdr) (t : Nat) : List Inflight :=
  (s.search.flight.filter fun x => x.matchesCand h).filter fun x => x.open? t

/-- Those that have no frame of the sender yet (R304, R305). -/
def State.freshMerges (s : State) (h : CandHdr) (t : Nat) : List Inflight := (s.openMerges h t).filter fun x => x.fresh h.sender

/-- A frame joins the merge of the earliest instruction that waits for it (R304, R305). -/
theorem State.matchCand_some {s : State} {port : Nat} {h : CandHdr} {f : Frame} {t : Nat} {x : Inflight} {p : CasPart}
    (hx : earliest (s.freshMerges h t) = some x) (hp : x.cas = some p) :
    (s.matchCand port h f t).flight? x.id =
        some { x with cas := some ({ p with senders := p.senders ++ [h.sender] }.taking x.edition f.body) } ∧
      ((s.freshMerges h t).length ≤ 1 → (s.matchCand port h f t).reg .casAmbig = s.reg .casAmbig) ∧
      (2 ≤ (s.freshMerges h t).length → (s.matchCand port h f t).reg .casAmbig = wrapAdd 32 (s.reg .casAmbig) 1) ∧
      RegsBut [Obj.casMisroute.key, Obj.casEdMismatch.key, Obj.casAmbig.key] s (s.matchCand port h f t) ∧
      Touches [.search, .regs] s (s.matchCand port h f t) := by
  let v : State := if (s.freshMerges h t).length ≤ 1 then s else s.bump .casAmbig
  let c : CasPart := { p with senders := p.senders ++ [h.sender] }
  have hv : Touches [.regs] s v ∧ RegsBut [Obj.casAmbig.key] s v ∧ v.search = s.search := by
    simp only [v]
    split
    · exact ⟨Touches.refl _ _, RegsBut.refl _ _, rfl⟩
    · exact ⟨touches_setReg s _ _ _ _ _, regsBut_setReg s _ _ _ _ _, rfl⟩
  obtain ⟨ht, hr, hs⟩ := hv
  obtain ⟨h1, h2, h3⟩ := takeRecs_spec c x.edition f.body v
  let w := (takeRecs c x.edition f.body v).2
  have he : s.matchCand port h f t = w.setFlight { x with cas := some (c.taking x.edition f.body) } := by
    have hx' : earliest (((s.search.flight.filter fun x => x.matchesCand h).filter fun x => x.open? t).filter
      fun x => x.fresh h.sender) = some x := hx
    simp only [State.matchCand, hx', Inflight.absorb, hp]
    exact congrArg (fun c => w.setFlight { x with cas := some c }) h1
  have hmem : x ∈ w.search.flight := by
    rw [show w.search = v.search from h2 .search (by simp), hs]
    exact List.mem_of_mem_filter (List.mem_of_mem_filter (List.mem_of_mem_filter (earliest_mem hx)))
  have hkey := casKey_not_daybook (o := .casAmbig) rfl (by decide)
  have hne : Obj.casAmbig.key ∉ [Obj.casMisroute.key, Obj.casEdMismatch.key] := by
    simp [Obj.key, Obj.index, Obj.row, regKey]
  have hamb : w.reg .casAmbig = v.reg .casAmbig := h3.reg _ _ _ _ hkey hne
  rw [he]
  refine ⟨State.flight?_setFlight hmem rfl, fun hl => ?_, fun hl => ?_, ?_, ?_⟩
  · exact hamb.trans (by simp only [v, if_pos hl])
  · refine hamb.trans ?_
    simp only [v, if_neg (Nat.not_le.mpr hl)]
    exact State.reg_bump s .casAmbig 0
  · exact ((hr.mono (by simp)).trans (h3.mono (by simp))).trans (RegsBut.of_eq _ rfl)
  · exact ((ht.mono (by simp)).followed h2 (by simp)).followed (touches_search w _) (by simp)

/-! ### The rows of R305 -/

/-- The state in which a CANDIDATE frame is judged, 4 cycles after its last granule (R300). -/
def State.candAt (s : State) (port : Nat) (f : Frame) : State := (s.fromLink port f 4).2.at ((s.fromLink port f 4).1 + 4)

section
variable {s : State} {port : Fin 32} {f : Frame}

theorem candidate_early (h : (s.port port).early.contains f = true) : RunsTo (.candidate port f) s
    (s.setPort port { s.port port with early := eraseFirst (fun x => x = f) (s.port port).early }) := by
  refine RunsTo.of_done ?_ (OnlyRecords.refl _)
  simp only [exec, execCandidate, State.arriveCand, h, if_true]

theorem candidate_held (h : (s.port port).early.contains f = false) (hh : (s.candAt port f).dieHeld (dieOfPort port) = true) :
    RunsTo (.candidate port f) s ((s.candAt port f).bump .portHeldDrop port) := by
  refine RunsTo.of_done ?_ (OnlyRecords.refl _)
  rw [State.candAt] at hh
  simp only [exec, execCandidate, State.arriveCand, h, hh]
  rfl

theorem candidate_exec (h : (s.port port).early.contains f = false)
    (hh : (s.candAt port f).dieHeld (dieOfPort port) = false) : exec (.candidate port f) s =
      done ((s.candAt port f).candidateFrame port f ((s.fromLink port f 4).1 + 4)) := by
  rw [State.candAt] at hh
  simp only [exec, execCandidate, State.arriveCand, h, hh]
  rfl

theorem fence_exec (h : (s.port port).early.contains f = false)
    (hh : (s.candAt port f).dieHeld (dieOfPort port) = false) : exec (.fence port f) s = done ((s.candAt port f).takeFence f) := by
  rw [State.candAt] at hh
  simp only [exec, execFence, State.arriveCand, h, hh]
  rfl

/-- A row that decides what the frame leaves decides what the command does. -/
theorem candidate_goes {u : State} (h : (s.port port).early.contains f = false)
    (hh : (s.candAt port f).dieHeld (dieOfPort port) = false)
    (hu : (s.candAt port f).candidateFrame port f ((s.fromLink port f 4).1 + 4) = u) : RunsTo (.candidate port f) s u :=
  RunsTo.of_done ((candidate_exec h hh).trans (congrArg done hu)) (OnlyRecords.refl _)

end

section
variable {s : State} {port : Nat} {f : Frame} {t : Nat}

theorem State.candidateFrame_of_kind (h : (candHdr f.hdr).kind < 2) : s.candidateFrame port f t = s.takeCand port f t := by
  simp only [State.candidateFrame]
  rw [if_neg (by omega), if_neg (by omega)]

/-- The generation of a frame's sender is newer than the device's own, and the sender has its number (R312). -/
def State.ownNewer (s : State) (h : CandHdr) : Prop :=
  h.sender = s.device ∧ 1 ≤ (h.smgen + 256 - s.mgen) % 256 ∧ (h.smgen + 256 - s.mgen) % 256 ≤ 127

/-- The sender of a frame is a live member of the generation that it carries (R305, R309). -/
def State.knownSender (s : State) (h : CandHdr) : Prop := nbit (s.member h.sender) 15 = true ∧ s.member h.sender % 256 = h.smgen

variable (hv : s.cas.clvalid = true)
include hv

theorem State.takeCand_quiet (h : s.cas.quarantined = true ∨ s.quiet = true) : s.takeCand port f t = s.bump .casQuarDrop := by
  have hq : (s.cas.quarantined || s.quiet) = true := by simpa using h
  simp only [State.takeCand, hv, hq]
  rfl

variable (hq : s.cas.quarantined = false) (hn : s.quiet = false)
include hq hn

theorem State.takeCand_misrouted (h : (candHdr f.hdr).dest ≠ s.device) : s.takeCand port f t = s.bump .casMisroute := by
  simp only [State.takeCand, hv, hq, hn, if_pos h]
  rfl

variable (hd : (candHdr f.hdr).dest = s.device)
include hd

theorem State.takeCand_own (h : s.ownNewer (candHdr f.hdr)) : s.takeCand port f t =
    s.quarantine 2 (candHdr f.hdr).sender (candHdr f.hdr).smgen s.mgen := by
  have hd' : ¬ (candHdr f.hdr).dest ≠ s.device := not_not.2 hd
  simp only [State.takeCand, hv, hq, hn, if_neg hd']
  exact if_pos h

variable (ho : ¬ s.ownNewer (candHdr f.hdr))
include ho

theorem State.takeCand_stale (h : ¬ s.knownSender (candHdr f.hdr)) : s.takeCand port f t =
    s.staleFrame port (candHdr f.hdr) := by
  have hd' : ¬ (candHdr f.hdr).dest ≠ s.device := not_not.2 hd
  simp only [State.takeCand, hv, hq, hn, if_neg hd']
  refine (if_neg ho).trans (if_pos ?_)
  rw [State.knownSender, not_and_or, Bool.not_eq_true] at h
  simpa using h

theorem State.takeCand_known (h : s.knownSender (candHdr f.hdr)) : s.takeCand port f t =
    s.matchCand port (candHdr f.hdr) f t := by
  have hd' : ¬ (candHdr f.hdr).dest ≠ s.device := not_not.2 hd
  obtain ⟨hl, hg⟩ := h
  simp only [State.takeCand, hv, hq, hn, if_neg hd']
  refine (if_neg ho).trans (if_neg ?_)
  simp [hl, hg]

end

section
variable {s : State} {port : Nat} {h : CandHdr} {f : Frame} {t : Nat} (hf : s.freshMerges h t = [])
include hf

/-- A frame that no merge waits for: a repetition, a late one, or one that waits (R304, R305). -/
theorem State.matchCand_none : s.matchCand port h f t =
    if !(s.openMerges h t).isEmpty then s.bump .casDup
    else if !(s.search.flight.filter fun x => x.matchesCand h).isEmpty ||
      s.search.tails.any (fun e => decide (s.now < e.last) && e.matchesCand h) then s.lateFrame h
    else if 4096 ≤ s.cas.pend.length then s.bump .casPendFull
    else { s with cas := { s.cas with pend := s.cas.pend ++ [⟨s.now, port, f⟩] } } := by
  have he : earliest (((s.search.flight.filter fun x => x.matchesCand h).filter fun x => x.open? t).filter
      fun x => x.fresh h.sender) = none := earliest_eq_none.2 hf
  simp only [State.matchCand, he]
  rfl

theorem State.matchCand_again (ho : s.openMerges h t ≠ []) : s.matchCand port h f t = s.bump .casDup := by
  rw [State.matchCand_none hf, if_pos (by simpa using ho)]

variable (ho : s.openMerges h t = [])
include ho

theorem State.matchCand_late (hg : s.search.flight.filter (fun x => x.matchesCand h) ≠ [] ∨
    ∃ e ∈ s.search.tails, s.now < e.last ∧ e.matchesCand h = true) : s.matchCand port h f t = s.lateFrame h := by
  rw [State.matchCand_none hf, if_neg (by simp [ho]), if_pos]
  simpa [-List.filter_eq_nil_iff] using hg

variable (hm : s.search.flight.filter (fun x => x.matchesCand h) = [])
    (hg : ¬ ∃ e ∈ s.search.tails, s.now < e.last ∧ e.matchesCand h = true)
include hm hg

theorem State.matchCand_unmatched : s.matchCand port h f t = if 4096 ≤ s.cas.pend.length then s.bump .casPendFull
    else { s with cas := { s.cas with pend := s.cas.pend ++ [⟨s.now, port, f⟩] } } := by
  rw [State.matchCand_none hf, if_neg (by simp [ho]), if_neg]
  simpa [hm] using hg

end

end Sys2Proof.Machine
end

section
open Sys2Proof Sys2Proof.Machine

/-- Settles O39: the rows of R305 in their order, each by what its operation leaves. -/
theorem candidateRows : Obligations.CandidateRows := by
  intro s port f c r s0 h newer m own known ms opens gone fresh goes counted
  refine ⟨⟨_, rfl⟩, candidate_early, candidate_held, fun he hh => ?_⟩
  have row : ∀ {u : State}, s0.candidateFrame port f (r.1 + 4) = u → goes u := candidate_goes he hh
  refine ⟨fun hk => ?_, fun hk => row ?_, fun hk hv => row ?_, fun hk hv hq => row ?_, fun hk hv hq hn => ?_⟩
  · refine (candidate_exec he hh).trans (Eq.trans (congrArg done ?_) (fence_exec he hh).symm)
    exact if_pos hk
  · exact (if_neg (by rw [show (candHdr f.hdr).kind = 3 from hk]; decide)).trans (if_pos hk)
  · rw [State.candidateFrame_of_kind hk, State.takeCand, hv]
    rfl
  · rw [State.candidateFrame_of_kind hk, State.takeCand_quiet hv hq]
  have take : ∀ {u : State}, s0.takeCand port f (r.1 + 4) = u → goes u := fun hu =>
    row ((State.candidateFrame_of_kind hk).trans hu)
  refine ⟨fun hd => take (State.takeCand_misrouted hv hq hn hd), fun hd ho => ?_, fun hd ho hs => ?_, fun hd ho hs => ?_⟩
  · exact ⟨_, take (State.takeCand_own hv hq hn hd ho), State.quarantine_spec s0 _ _ _ _⟩
  · obtain ⟨hcount, hpend, hregs, htouch⟩ := State.staleFrame_spec s0 port.isLt h
    exact ⟨_, ⟨take (State.takeCand_stale hv hq hn hd ho hs), hcount⟩, htouch .search (by simp), hpend, hregs, htouch⟩
  have meets : ∀ {u : State}, s0.matchCand port h f (r.1 + 4) = u → goes u := fun hu =>
    take ((State.takeCand_known hv hq hn hd ho hs).trans hu)
  refine ⟨fun x p hx hp => ⟨_, meets rfl, State.matchCand_some hx hp⟩, fun hf => ⟨fun hop =>
    meets (State.matchCand_again hf hop), fun hop hg => ?_, fun hop hm hg hl => meets ?_, fun hop hm hg hl => meets ?_⟩⟩
  · obtain ⟨hcount, hregs, htouch⟩ := State.lateFrame_spec s0 h
    exact ⟨_, ⟨meets (State.matchCand_late hf hop hg), hcount⟩, htouch .search (by simp), hregs, htouch⟩
  · rw [State.matchCand_unmatched hf hop hm hg, if_pos hl]
  · rw [State.matchCand_unmatched hf hop hm hg, if_neg (Nat.not_le.mpr hl)]

end

section
/-! What the answer of a table command changes (R177 to R183, R191), and the advance of a room's edition (R34, R190). -/

namespace Sys2Proof.Machine

theorem bits_lt (x hi lo : Nat) : bits x hi lo < 2 ^ (hi + 1 - lo) := Nat.mod_lt _ (Nat.two_pow_pos _)

theorem tabHdr_room_lt (h : Granule) : (tabHdr h).room < 16 := bits_lt _ 111 108

theorem MqCmd.hdr_room_lt (c : MqCmd) : c.hdr.room < 16 := tabHdr_room_lt _

/-- The sub-index of a register's key (R314). -/
theorem Obj.key_sub (o : Obj) (i off ext : Nat) (hs : o.row.sub + off < 256) (he : ext < 65536) :
    o.key i off ext / 65536 % 256 = o.row.sub + off := by
  simp only [Obj.key, regKey]
  omega

/-- Keys of different sub-indices differ. -/
theorem Obj.key_ne_of_sub {o o' : Obj} (i i' : Nat) {off off' : Nat} (h : o.row.sub + off ≠ o'.row.sub + off')
    (hs : o.row.sub + off < 256) (hs' : o'.row.sub + off' < 256) : o.key i off ≠ o'.key i' off' := fun he =>
  h (by rw [← Obj.key_sub o i off 0 hs (by omega), he, Obj.key_sub o' i' off' 0 hs' (by omega)])

/-! ### Answers -/

/-- The sub-indices of the registers that an answer writes (R180, R191, R262). -/
theorem sub_of_mem_answerKeys {c : MqCmd} {k : Nat} (h : k ∈ answerKeys c) : k / 65536 % 256 = 0x02 ∨ k / 65536 % 256 = 0x17 ∨
    k / 65536 % 256 = 0x1B ∨ 0x20 ≤ k / 65536 % 256 := by
  simp only [answerKeys, List.mem_append, List.mem_map, List.mem_range, List.mem_cons, List.not_mem_nil, or_false] at h
  rcases h with ((rfl | rfl) | ⟨i, hi, rfl⟩) | h
  · exact .inl (Obj.key_sub .tblStatus c.room 0 0 (by decide) (by omega))
  · exact .inr (.inl (Obj.key_sub .edAdvStatus c.room 0 0 (by decide) (by omega)))
  · have hrow : Obj.tblReply.row.sub = 0x20 := rfl
    rw [Obj.key_sub .tblReply c.room i 0 (by omega) (by omega), hrow]
    omega
  · split at h
    · rename_i p _
      rw [List.mem_singleton.1 h]
      exact .inr (.inr (.inl (Obj.key_sub .portTxDiscard p 0 0 (by decide) (by omega))))
    · cases h

/-- What an answer to a command leaves: registers of the command, its queue and the frames of class 1 of its port. -/
structure Answered (c : MqCmd) (s t : State) : Prop where
  touches : Touches [.regs, .arb, .ports] s t
  regs : RegsBut (answerKeys c) s t
  queue : ∀ r, r ≠ c.room → t.queue r = s.queue r
  tx3 : ∀ p, (t.port p).tx3 = (s.port p).tx3

namespace Answered

variable {c : MqCmd} {s t u : State}

theorem refl (s : State) : Answered c s s := ⟨Touches.refl _ _, RegsBut.refl _ _, fun _ _ => rfl, fun _ => rfl⟩

theorem trans (h : Answered c s t) (k : Answered c t u) : Answered c s u :=
  ⟨h.touches.trans k.touches, h.regs.trans k.regs, fun r hr => (k.queue r hr).trans (h.queue r hr),
    fun p => (k.tx3 p).trans (h.tx3 p)⟩

theorem setReg (s : State) (o : Obj) (i off v : Nat) (h : o.key i off ∈ answerKeys c) : Answered c s (s.setReg o i off 0 v) :=
  ⟨(touches_setReg s _ _ _ _ _).mono (by simp), (regsBut_setReg s o i off 0 v).mono (by simpa using h),
    fun _ _ => rfl, fun _ => rfl⟩

theorem dequeue (s : State) (n : Nat) : Answered c s (s.dequeue c.room n) :=
  ⟨(touches_arb s _).mono (by simp), RegsBut.of_eq _ rfl, fun _ hr => sget_sput_ne _ _ _ _ hr, fun _ => rfl⟩

theorem setPort (s : State) (p : Nat) (q : Port) (h : q.tx3 = (s.port p).tx3) : Answered c s (s.setPort p q) := by
  refine ⟨(touches_setPort s p q).mono (by simp), RegsBut.of_eq _ rfl, fun _ _ => rfl, fun j => ?_⟩
  by_cases hj : j = p
  · rw [hj, State.port_setPort, h]
  · rw [State.port_setPort_ne _ _ _ _ hj]

theorem of_records (h : Answered c s t) (r : OnlyRecords t u) : Answered c s u :=
  ⟨h.touches.of_records r, h.regs.trans (r.regsBut _), fun q hq => (by rw [State.queue, r.arb]; exact h.queue q hq),
    fun p => (show (u.port p).core.tx3 = (s.port p).tx3 by rw [r.ports p]; exact h.tx3 p)⟩

theorem commandFrame (h : Answered c s t) : CommandFrame c [] s t :=
  ⟨h.touches, h.regs.mono fun _ hk => List.mem_append_left _ hk, h.queue⟩

end Answered

/-- A TCOMP frame joins the transmitter of the command's port, or is discarded (R183, R262). -/
theorem State.answered_send1 {c : MqCmd} {p : Nat} (hc : c.src = .port p) (s : State) (f : Frame) (d : TxDone) :
    Answered c s (s.send1 p f d) := by
  simp only [State.send1, State.txDrop]
  split
  · exact Answered.setPort s p _ rfl
  · split
    · exact Answered.setReg s .portTxDiscard p 0 _ (by simp [answerKeys, hc])
    · exact Answered.refl s

theorem State.answered_sendTcomps {c : MqCmd} {p : Nat} (hc : c.src = .port p) (l : List Frame) (s : State) :
    Answered c s (s.sendTcomps p c.room c.id l) := by
  induction l generalizing s with
  | nil => exact Answered.refl s
  | cons f t ih =>
    cases t with
    | nil =>
      simp only [State.sendTcomps]
      split
      · exact State.answered_send1 hc s f _
      · exact (State.answered_send1 hc s f _).trans (Answered.dequeue _ _)
    | cons g t => exact (State.answered_send1 hc s f .none).trans (ih _)

/-- The reply image fills the command-register set (R179, R180). -/
theorem State.answered_replyReg (c : MqCmd) (s : State) (status : Nat) (f : Frame) : Answered c s (s.replyReg c.room status f) := by
  have fill : ∀ (l : List Nat) (g : Nat → Nat) (v : State), (∀ i ∈ l, i < 16) →
      Answered c v (l.foldl (fun s i => s.setReg .tblReply c.room i 0 (g i)) v) := by
    intro l g
    induction l with
    | nil => exact fun v _ => Answered.refl v
    | cons i t ih =>
      intro v hl
      refine (Answered.setReg v .tblReply c.room i _ ?_).trans (ih _ fun j hj => hl j (List.mem_cons_of_mem _ hj))
      have hi := hl i List.mem_cons_self
      simp only [answerKeys, List.mem_append, List.mem_map, List.mem_range]
      exact .inl (.inr ⟨i, hi, rfl⟩)
  exact (fill _ _ s fun i hi => List.mem_range.1 hi).trans (Answered.setReg _ .tblStatus c.room 0 _ (by simp [answerKeys]))

/-- A command answers on the path it came by, and changes nothing else (R177, R180, R190). -/
theorem State.answered_answer (c : MqCmd) (r : Reply) (s : State) : Answered c s (s.answer c r) := by
  simp only [State.answer]
  split
  · exact State.answered_sendTcomps ‹_› _ s
  · exact (State.answered_replyReg c s _ _).trans (Answered.dequeue _ _)
  · exact (Answered.setReg s .edAdvStatus c.room 0 _ (by simp [answerKeys])).trans (Answered.dequeue _ _)

/-- A refused command leaves a record and its answer (R182). -/
theorem State.answered_refuse (c : MqCmd) (status result : Nat) (s : State) : Answered c s (s.refuse c status result) :=
  ((Answered.refl s).of_records (onlyRecords_record s _ _ _ _ _ fun _ h => Option.some.inj h ▸ c.hdr_room_lt)).trans
    (State.answered_answer c _ _)

/-! ### Requested mode switches -/

/-- The switch of one table at the advance of a room (R136). -/
def State.pfxTake (room : Nat) (e : Edition) (s : State) (t : Nat) : State :=
  if (s.view.tbl t).room ≠ room then s
  else match (s.table t).switch with
    | .requested h =>
      (s.setTable t { s.table t with switch := .unsettled h e, hash := h }).record .pfxMode (some room) hubMaint
        [(8, t), (8, b2n h), (16, e.toNat)]
    | _ => s

/-- The tables of a room after its advance, and nothing else (R136). -/
structure Switched (room : Nat) (e : Edition) (l : List Nat) (s u : State) : Prop where
  touches : Touches [.tables] s u
  view : u.view = s.view
  takes : ∀ t h, t ∈ l → (s.view.tbl t).room = room → (s.table t).switch = .requested h →
    (u.table t).switch = .unsettled h e ∧ (u.table t).hash = h
  others : ∀ t, t ∉ l ∨ (s.view.tbl t).room ≠ room → u.table t = s.table t

theorem Touches.view_eq {l : List Piece} {s u : State} (h : Touches l s u) (hc : Piece.catalogue ∉ l) (hb : Piece.bays ∉ l) :
    u.view = s.view := by
  have h1 : u.cat.force = s.cat.force := show ({ u.cat with regs := [] } : Cat).force = _ by rw [h .catalogue hc]
  have h2 : u.bays = s.bays := h .bays hb
  rw [State.view, State.view, h1, h2]

theorem State.switched_pfxTake {room : Nat} (hr : room < 16) (e : Edition) (s : State) (t : Nat) :
    Switched room e [t] s (s.pfxTake room e t) := by
  have keep : (∀ h, (s.view.tbl t).room = room → (s.table t).switch ≠ .requested h) → Switched room e [t] s s := fun hn =>
    ⟨Touches.refl _ _, rfl, fun j h hj hjr hjs => (hn h (by rw [← List.mem_singleton.1 hj]; exact hjr)
      (by rw [← List.mem_singleton.1 hj]; exact hjs)).elim, fun _ _ => rfl⟩
  simp only [State.pfxTake]
  split
  · exact keep fun h hroom => absurd hroom ‹_›
  rename_i hroom
  split
  · rename_i h hs
    have hrec := onlyRecords_record (s.setTable t { s.table t with switch := .unsettled h e, hash := h }) .pfxMode (some room)
      hubMaint [(8, t), (8, b2n h), (16, e.toNat)] 0 (by rintro _ ⟨⟩; exact hr)
    have ht := (touches_tables s (sput (fun _ => Table.none) s.tables t
      { s.table t with switch := .unsettled h e, hash := h })).of_records hrec
    refine ⟨ht, ht.view_eq (by simp) (by simp), fun j k hj _ hk => ?_, fun j hj => ?_⟩
    · obtain rfl := List.mem_singleton.1 hj
      obtain rfl := PfxSwitch.requested.inj (hs.symm.trans hk)
      rw [State.table, hrec.tables]
      exact ⟨congrArg Table.switch (State.table_setTable s j _), congrArg Table.hash (State.table_setTable s j _)⟩
    · rw [State.table, hrec.tables]
      refine State.table_setTable_ne s t j _ fun hjt => ?_
      subst hjt
      exact hj.elim (fun h => h (List.mem_singleton.2 rfl)) fun h => hroom h
  · rename_i hn
    exact keep fun h _ hs => hn h hs

theorem State.switched_foldl {room : Nat} (hr : room < 16) (e : Edition) (l : List Nat) (hl : l.Nodup) (s : State) :
    Switched room e l s (l.foldl (State.pfxTake room e) s) := by
  induction l generalizing s with
  | nil => exact ⟨Touches.refl _ _, rfl, fun _ _ h => (List.not_mem_nil h).elim, fun _ _ => rfl⟩
  | cons t l ih =>
    obtain ⟨ht, hl⟩ := List.nodup_cons.1 hl
    have h1 := State.switched_pfxTake hr e s t
    have h2 := ih hl (s.pfxTake room e t)
    refine ⟨h1.touches.trans h2.touches, h2.view.trans h1.view, fun j h hj hjr hjs => ?_, fun j hj => ?_⟩
    · rcases List.mem_cons.1 hj with rfl | hj
      · rw [List.foldl_cons, h2.others j (.inl ht)]
        exact h1.takes j h (List.mem_singleton.2 rfl) hjr hjs
      · have hne : j ∉ [t] := fun h => ht (List.mem_singleton.1 h ▸ hj)
        exact h2.takes j h hj (by rw [h1.view]; exact hjr) (by rw [h1.others j (.inl hne)]; exact hjs)
    · rw [List.foldl_cons, h2.others j (hj.imp (fun h => fun k => h (List.mem_cons_of_mem _ k)) fun h => by rw [h1.view]; exact h),
        h1.others j (hj.imp (fun h => fun k => h (List.mem_singleton.1 k ▸ List.mem_cons_self)) id)]

theorem View.tablesOf_nodup (v : View) (kind : Nat) : (v.tablesOf kind).Nodup := List.nodup_range.filter _

/-- Requested switches of a room's tables take the new edition (R136). -/
theorem State.switched_pfxAdvance {room : Nat} (hr : room < 16) (e : Edition) (s : State) :
    Switched room e (s.view.tablesOf 1) s (s.pfxAdvance room e) := State.switched_foldl hr e _ (View.tablesOf_nodup _ _) s

/-! ### Notices -/

/-- A frame of class 3 joins the transmitters of its ports (R192, R262). -/
structure Notified (f : Frame) (l : List Nat) (s u : State) : Prop where
  touches : Touches [.regs, .ports] s u
  regs : RegsBut ((List.range 32).map fun p => Obj.portTxDiscard.key p) s u
  sends : ∀ p ∈ l, (s.port p).keeps = true → (u.port p).tx3 = (s.port p).tx3 ++ [⟨f, .none⟩]
  others : ∀ p, p ∉ l → u.port p = s.port p

theorem State.notified_send3 (s : State) {p : Nat} (hp : p < 32) (f : Frame) : Notified f [p] s (s.send3 p f) := by
  obtain ⟨ht, hr, hports⟩ := State.txDrop_frame s p
  simp only [State.send3]
  split
  · refine ⟨(touches_setPort s p _).mono (by simp), RegsBut.of_eq _ rfl, fun j hj _ => ?_, fun j hj =>
      State.port_setPort_ne _ _ _ _ (by simpa using hj)⟩
    rw [List.mem_singleton.1 hj, State.port_setPort]
  · rename_i hk
    refine ⟨ht.mono (by simp), hr.mono (by simpa using ⟨p, hp, rfl⟩), fun j hj h => ?_, fun j _ => by
      rw [State.port, hports]; rfl⟩
    exact absurd (List.mem_singleton.1 hj ▸ h) hk

theorem State.notified_foldl (f : Frame) (l : List Nat) (hl : l.Nodup) (h32 : ∀ p ∈ l, p < 32) (s : State) :
    Notified f l s (l.foldl (fun s p => s.send3 p f) s) := by
  induction l generalizing s with
  | nil => exact ⟨Touches.refl _ _, RegsBut.refl _ _, fun _ h => (List.not_mem_nil h).elim, fun _ _ => rfl⟩
  | cons p l ih =>
    obtain ⟨hp, hl⟩ := List.nodup_cons.1 hl
    have h1 := State.notified_send3 s (h32 p List.mem_cons_self) f
    have h2 := ih hl (fun j hj => h32 j (List.mem_cons_of_mem _ hj)) (s.send3 p f)
    refine ⟨h1.touches.trans h2.touches, h1.regs.trans h2.regs, fun j hj hk => ?_, fun j hj => ?_⟩
    · rcases List.mem_cons.1 hj with rfl | hj
      · rw [List.foldl_cons, h2.others j hp]
        exact h1.sends j (List.mem_singleton.2 rfl) hk
      · have he := h1.others j fun h => hp (List.mem_singleton.1 h ▸ hj)
        rw [List.foldl_cons, h2.sends j hj (by rw [he]; exact hk), he]
    · rw [List.foldl_cons, h2.others j fun h => hj (List.mem_cons_of_mem _ h),
        h1.others j fun h => hj (List.mem_singleton.1 h ▸ List.mem_cons_self)]

theorem mem_setBits {n x p : Nat} : p ∈ setBits n x ↔ p < n ∧ nbit x p = true := by simp [setBits]

/-- The notice of a room goes out on every port of ED_NOTIFY (R192). -/
theorem State.notified_notifyEdition (s : State) (room kind ctag : Nat) :
    Notified (s.editionFrame room kind ctag) (setBits 32 (s.reg .edNotify room)) s (s.notifyEdition room kind ctag) :=
  State.notified_foldl _ _ (List.nodup_range.filter _) (fun _ h => (mem_setBits.1 h).1) s

/-- What an EDITION frame says: the room's registers, its instructions in flight, the time and the device. -/
theorem State.editionFrame_congr {s u : State} {room : Nat} (kind ctag : Nat) (hc : u.reg .edCurrent room = s.reg .edCurrent room)
    (hl : u.reg .edPinLag room = s.reg .edPinLag room) (hn : u.now = s.now) (hs : u.search = s.search)
    (hd : u.device = s.device) : u.editionFrame room kind ctag = s.editionFrame room kind ctag := by
  simp only [State.editionFrame, State.floor, State.drain, State.editionsOf, State.flightOf, State.current, hc, hl, hn, hs, hd]

theorem Touches.device_eq {l : List Piece} {s u : State} (h : Touches l s u) (hc : Piece.catalogue ∉ l) (hb : Piece.bays ∉ l)
    (hd : Piece.dev ∉ l) : u.device = s.device := by
  rw [State.device, State.device, h.view_eq hc hb, straps_of_core (h .dev hd)]

/-! ### ADVANCE -/

theorem edKey_not_daybook {o : Obj} {r : Nat} (hr : r < 16) (hb : o.row.base = 0x3000) (hstep : o.row.step = 0x100)
    (hs : o.row.sub < 256) : o.key r ∉ daybookKeys := by
  refine not_mem_daybookKeys ?_
  rw [Obj.key_index o r 0 0 (by omega) (by omega), Obj.index, hb, hstep]
  omega

theorem State.advanceStatus_of_ok {s : State} {c : MqCmd} (hp : c.hdr.plain = true) (hb : c.body = []) (hr : c.room = c.hdr.room)
    (ha : c.hdr.aux = (s.current c.hdr.room).toNat)
    (hw : (s.current c.hdr.room + 1 - BitVec.ofNat 16 (s.reg .edMark c.hdr.room)).toNat < 12288) : s.advanceStatus c = none := by
  simp only [State.advanceStatus]
  rw [if_neg (by simp [hp, hb]), if_neg (not_not.2 hr), if_neg (not_not.2 ha), if_neg (Nat.not_le.mpr hw)]

theorem advance_exec {s s1 : State} {c : MqCmd} (h : s.Starts opAdvance c s1) : exec .advance s = .next (runAdvance c s1) :=
  congrArg _ (State.startSlot_of_starts [opAdvance] runAdvance h rfl)

theorem runAdvance_ok {s : State} {c : MqCmd} (h : s.advanceStatus c = none) : runAdvance c s =
    (s.advance c.hdr.room c.hdr.ctag c.src.path).answer c
      (reply 0 ((s.advance c.hdr.room c.hdr.ctag c.src.path).current c.hdr.room).toNat) := by
  simp only [runAdvance, h]

/-- A command that fails a check is refused; the window's refusal leaves a record of its own (R182, R190). -/
theorem answered_runAdvance {s : State} {c : MqCmd} {st : Nat} (h : s.advanceStatus c = some st) :
    Answered c s (runAdvance c s) := by
  simp only [runAdvance, h]
  split
  · exact ((Answered.refl s).of_records (onlyRecords_record s _ _ _ _ _ fun _ h => Option.some.inj h ▸ c.hdr_room_lt)).trans
      (State.answered_refuse c _ _ _)
  · exact State.answered_refuse c _ _ _

/-- The room's new edition is in force, before its tables and its ports hear of it (R34, R190). -/
def State.advanced (s : State) (room : Nat) : State :=
  (s.at (s.now + 1)).setReg .edCurrent room 0 0 (s.current room + 1).toNat

theorem State.touches_advanced (s : State) (room : Nat) : Touches [.now, .regs] s (s.advanced room) :=
  ((touches_now s _).mono (by simp)).followed (touches_setReg (s.at (s.now + 1)) _ _ _ _ _) (by simp)

/-- An advance that has reached its ports: the state with the edition in force, its tables switched, its notices sent and its
answer given, one after the other (R34, R136, R190, R192). -/
structure Advances (c : MqCmd) (s w x u : State) : Prop where
  switches : Switched c.hdr.room (s.current c.hdr.room + 1) (s.view.tablesOf 1) (s.advanced c.hdr.room) w
  notices : Notified (w.editionFrame c.hdr.room 1 c.hdr.ctag) (setBits 32 (w.reg .edNotify c.hdr.room)) w x
  answers : Answered c x u

theorem advances_runAdvance {s : State} {c : MqCmd} (h : s.advanceStatus c = none) : ∃ w x, Advances c s w x (runAdvance c s) := by
  have hr := c.hdr_room_lt
  obtain ⟨ht, hv, htakes, hothers⟩ := State.switched_pfxAdvance hr (s.current c.hdr.room + 1) (s.advanced c.hdr.room)
  have hrec := onlyRecords_record ((s.advanced c.hdr.room).pfxAdvance c.hdr.room (s.current c.hdr.room + 1)) .edAdvanced
    (some c.hdr.room) hubMaint [(16, (s.current c.hdr.room + 1).toNat),
      (64, ((s.advanced c.hdr.room).pfxAdvance c.hdr.room (s.current c.hdr.room + 1)).now), (16, c.hdr.ctag),
      (8, c.src.path)] 0 (by rintro _ ⟨⟩; exact hr)
  have ht' := ht.of_records hrec
  refine ⟨_, _, ⟨ht', ht'.view_eq (by simp) (by simp), fun t h hm hroom hs => ?_, fun t h => ?_⟩,
    State.notified_notifyEdition _ _ _ _, ?_⟩
  · rw [State.table, hrec.tables]
    exact htakes t h hm hroom hs
  · rw [State.table, hrec.tables]
    exact hothers t h
  · rw [runAdvance_ok h]
    exact State.answered_answer c _ _

namespace Advances

variable {c : MqCmd} {s w x u : State} (h : Advances c s w x u)
include h

theorem touches_switched : Touches [.now, .regs, .arb, .tables, .ports] s w :=
  ((State.touches_advanced s _).mono (by simp)).followed h.switches.touches (by simp)

theorem touches_sent : Touches [.regs, .arb, .ports] w u := (h.notices.touches.mono (by simp)).trans h.answers.touches

theorem touches : Touches [.now, .regs, .arb, .tables, .ports] s u := h.touches_switched.followed h.touches_sent (by simp)

theorem now : u.now = s.now + 1 := by
  have h1 : u.now = w.now := h.touches_sent .now (by simp)
  have h2 : w.now = (s.advanced c.hdr.room).now := h.switches.touches .now (by simp)
  rw [h1, h2]
  exact Nat.max_eq_right (Nat.le_succ _)

theorem regs_switched : RegsBut [Obj.edCurrent.key c.hdr.room] s w := by
  have h1 : RegsBut [Obj.edCurrent.key c.hdr.room] s (s.advanced c.hdr.room) := regsBut_setReg (s.at (s.now + 1)) _ _ _ _ _
  exact h1.trans fun k hk _ => h.switches.touches .regs (by simp) k hk

theorem regs_sent : RegsBut (((List.range 32).map fun p => Obj.portTxDiscard.key p) ++ answerKeys c) w u :=
  (h.notices.regs.mono fun _ hk => List.mem_append_left _ hk).trans (h.answers.regs.mono fun _ hk => List.mem_append_right _ hk)

theorem regs : RegsBut (Obj.edCurrent.key c.hdr.room :: ((List.range 32).map fun p => Obj.portTxDiscard.key p) ++ answerKeys c) s u :=
  (h.regs_switched.mono (by simp)).trans (h.regs_sent.mono fun _ hk => List.mem_cons_of_mem _ hk)

/-- The notices and the answer leave a room's edition registers: their own lie at other sub-indices. -/
theorem reg_sent {o : Obj} (hb : o.row.base = 0x3000) (hstep : o.row.step = 0x100)
    (hs : o.row.sub = 0x10 ∨ o.row.sub = 0x14 ∨ o.row.sub = 0x16) : u.reg o c.hdr.room = w.reg o c.hdr.room := by
  have hsub := Obj.key_sub o c.hdr.room 0 0 (by omega) (by omega)
  refine h.regs_sent.reg o _ _ _ (edKey_not_daybook c.hdr_room_lt hb hstep (by omega)) fun hk => ?_
  rcases List.mem_append.1 hk with hk | hk
  · obtain ⟨p, -, hp⟩ := List.mem_map.1 hk
    have hrow : Obj.portTxDiscard.row.sub = 0x1B := rfl
    have := Obj.key_sub .portTxDiscard p 0 0 (by decide) (by omega)
    rw [hp, hsub, hrow] at this
    omega
  · have := sub_of_mem_answerKeys hk
    omega

theorem current_reg : u.reg .edCurrent c.hdr.room = (s.current c.hdr.room + 1).toNat := by
  have h1 := h.switches.touches .regs (by simp) _ (edKey_not_daybook (o := .edCurrent) c.hdr_room_lt rfl rfl (by decide))
  exact (h.reg_sent rfl rfl (.inl rfl)).trans (h1.trans (State.reg_setReg (s.at (s.now + 1)) .edCurrent c.hdr.room 0 0 _))

theorem current : u.current c.hdr.room = s.current c.hdr.room + 1 := by
  rw [State.current, h.current_reg, BitVec.ofNat_toNat, BitVec.setWidth_eq]

/-- The notices say what the room's edition, floor and drain are when the command has answered. -/
theorem editionFrame : u.editionFrame c.hdr.room 1 c.hdr.ctag = w.editionFrame c.hdr.room 1 c.hdr.ctag :=
  State.editionFrame_congr _ _ (h.reg_sent rfl rfl (.inl rfl)) (h.reg_sent rfl rfl (.inr (.inl rfl)))
    (h.touches_sent .now (by simp)) (h.touches_sent .search (by simp))
    (h.touches_sent.device_eq (by simp) (by simp) (by simp))

theorem port_core (p : Nat) : (w.port p).core = (s.port p).core :=
  ((h.switches.touches .ports (by simp)) p).trans ((State.touches_advanced s c.hdr.room .ports (by simp)) p)

theorem tx3 {p : Nat} (hp : p < 32) (hn : nbit (s.reg .edNotify c.hdr.room) p = true) (hk : (s.port p).keeps = true) :
    (u.port p).tx3 = (s.port p).tx3 ++ [⟨u.editionFrame c.hdr.room 1 c.hdr.ctag, .none⟩] := by
  have hreg : w.reg .edNotify c.hdr.room = s.reg .edNotify c.hdr.room :=
    h.regs_switched.reg .edNotify _ _ _ (edKey_not_daybook c.hdr_room_lt rfl rfl (by decide))
      (by simpa using Obj.key_ne_of_sub (off := 0) (off' := 0) c.hdr.room c.hdr.room (by decide) (by decide) (by decide))
  have hcore := h.port_core p
  have htx : (w.port p).core.tx3 = (s.port p).core.tx3 := by rw [hcore]
  have hkeep : (w.port p).core.keeps = (s.port p).core.keeps := by rw [hcore]
  have hsend := h.notices.sends p (mem_setBits.2 ⟨hp, by rw [hreg]; exact hn⟩) (hkeep.trans hk)
  rw [h.answers.tx3, hsend, h.editionFrame]
  exact congrArg (· ++ _) htx

end Advances

end Sys2Proof.Machine
end

section
open Sys2Proof Sys2Proof.Machine

/-- Settles O22: the advance is the edition, the tables' switches, the notices and the answer, in this order. -/
theorem advanceCommand : Obligations.AdvanceCommand := by
  intro s s1 c hst r e
  refine ⟨fun hp hb hroom ha hw => ?_, fun st h => ⟨_, advance_exec hst, (answered_runAdvance h).commandFrame⟩⟩
  obtain ⟨w, x, h⟩ := advances_runAdvance (State.advanceStatus_of_ok hp hb hroom ha hw)
  have hview : (s1.advanced r).view = s1.view := (State.touches_advanced s1 r).view_eq (by simp) (by simp)
  have htables : (runAdvance c s1).tables = w.tables := h.touches_sent .tables (by simp)
  refine ⟨_, advance_exec hst, h.current, h.now, h.touches .search (by simp), fun t k ht hr hs => ?_, fun t ht => ?_,
    fun p hp hn hk => h.tx3 hp hn hk, h.regs, h.touches⟩
  · rw [State.table, htables]
    exact h.switches.takes t k ht (by rw [hview]; exact hr) hs
  · rw [State.table, htables]
    exact h.switches.others t (.inr (by rw [hview]; exact ht))

end

section
/-! Staged values (R350): reads of a store after several writes, after entries have been taken out by their keys, and when the
taken entries stand under the rest. -/

namespace Sys2Proof.Machine

section
variable {α : Type} {d d' : Nat → α}

/-- An entry that is there is found, whatever unlisted addresses read as. -/
theorem sget_congr (m : Store α) (k : Nat) (h : (∃ e ∈ m, e.1 = k) ∨ d k = d' k) : sget d m k = sget d' m k := by
  induction m with
  | nil => exact h.elim (fun ⟨_, hm, _⟩ => (List.not_mem_nil hm).elim) id
  | cons e t ih =>
    simp only [sget]
    split
    · rfl
    · rename_i he
      refine ih (h.imp (fun ⟨x, hx, hk⟩ => ⟨x, ?_, hk⟩) id)
      exact (List.mem_cons.1 hx).resolve_left fun hxe => he (hxe ▸ hk)

/-- Entries taken out by their keys read as unlisted, the others as before. -/
theorem sget_filter (p : Nat → Bool) (m : Store α) (k : Nat) :
    sget d (m.filter fun e => p e.1) k = if p k = true then sget d m k else d k := by
  induction m with
  | nil => simp [sget]
  | cons e t ih =>
    by_cases he : e.1 = k
    · subst he
      by_cases hp : p e.1 = true
      · simp [sget, hp]
      · simp only [List.filter_cons, hp, Bool.false_eq_true, ih, if_false]
    · by_cases hp : p e.1 = true
      · simp only [List.filter_cons, hp, sget, he, if_false, if_true, ih]
      · simp only [List.filter_cons, hp, Bool.false_eq_true, sget, he, if_false, ih]

/-- Some entries under the others read as all of them together (R350). -/
theorem sget_filter_under (p : Nat → Bool) (m : Store α) (k : Nat) :
    sget (fun a => sget d (m.filter fun e => p e.1) a) (m.filter fun e => !(m.filter fun e => p e.1).any fun x => x.1 = e.1) k =
      sget d m k := by
  rw [sget_filter (fun a => !(m.filter fun e => p e.1).any fun x => x.1 = a) m k]
  by_cases h : ∃ e ∈ m.filter (fun e => p e.1), e.1 = k
  · rw [if_neg (by simpa only [Bool.not_eq_true', Bool.not_eq_false, List.any_eq_true, decide_eq_true_eq] using h),
      sget_filter, if_pos]
    obtain ⟨e, he, rfl⟩ := h
    exact (List.mem_filter.1 he).2
  · rw [if_pos (by simpa only [Bool.not_eq_true', List.any_eq_false, decide_eq_true_eq, not_exists, not_and] using h)]
    exact sget_congr m k (.inr (sget_of_absent _ _ fun e he hk => h ⟨e, he, hk⟩))

variable [DecidableEq α]

/-- A write reads back under any default, when the value is not the one that the write leaves out. -/
theorem sget_sput_other (m : Store α) (k j : Nat) (v : α) (h : v ≠ d' k) :
    sget d (sput d' m k v) j = if j = k then v else sget d m j := by
  have ha : ∀ e ∈ m.filter (fun e => decide (e.1 ≠ k)), e.1 ≠ k := by simp
  simp only [sput, if_neg h]
  split
  · rename_i hj
    rw [hj, sget_sins_self _ _ _ ha]
  · rename_i hj
    rw [sget_sins_ne _ _ _ _ hj, sget_filter_ne _ _ _ hj]

/-- A way of writing an entry into a store that reads back under `d`. -/
def Puts (d : Nat → α) (put : Store α → Nat × α → Store α) : Prop :=
  ∀ m e j, sget d (put m e) j = if j = e.1 then e.2 else sget d m j

omit [DecidableEq α] in
theorem Puts.foldl_of_absent {put : Store α → Nat × α → Store α} (h : Puts d put) (l : Store α) (m : Store α) (k : Nat)
    (hk : ∀ e ∈ l, e.1 ≠ k) : sget d (l.foldl put m) k = sget d m k := by
  induction l generalizing m with
  | nil => rfl
  | cons e t ih =>
    rw [List.foldl_cons, ih _ fun x hx => hk x (List.mem_cons_of_mem _ hx), h, if_neg (hk e List.mem_cons_self).symm]

omit [DecidableEq α] in
/-- Of several writes at an address that write the same value, that value is read. -/
theorem Puts.foldl_of_mem {put : Store α → Nat × α → Store α} (h : Puts d put) (l : Store α) (m : Store α) (k : Nat) (v : α)
    (hv : ∀ e ∈ l, e.1 = k → e.2 = v) (hk : ∃ e ∈ l, e.1 = k) : sget d (l.foldl put m) k = v := by
  induction l generalizing m with
  | nil => exact absurd hk (by simp)
  | cons e t ih =>
    by_cases ht : ∃ x ∈ t, x.1 = k
    · exact ih _ (fun x hx => hv x (List.mem_cons_of_mem _ hx)) ht
    · have ha : ∀ x ∈ t, x.1 ≠ k := fun x hx hk => ht ⟨x, hx, hk⟩
      obtain ⟨x, hx, hxk⟩ := hk
      obtain rfl := (List.mem_cons.1 hx).resolve_right fun h => ht ⟨x, h, hxk⟩
      rw [List.foldl_cons, h.foldl_of_absent _ _ _ ha, h, if_pos hxk.symm, hv _ hx hxk]

theorem puts_sput : Puts d fun m e => sput d m e.1 e.2 := fun m e j => sget_sput m e.1 j e.2

end

theorem puts_staged {d : Nat → Nat} : Puts d fun m e => sput (fun _ => e.2 + 1) m e.1 e.2 := fun m e j =>
  sget_sput_other m e.1 j e.2 (by simp)

theorem lt_of_srising {α : Type} {m : Store α} {lo : Nat} (h : srising lo m = true) {e : Nat × α} (he : e ∈ m) : lo ≤ e.1 := by
  induction m generalizing lo with
  | nil => cases he
  | cons x t ih =>
    simp only [srising, Bool.and_eq_true, decide_eq_true_eq] at h
    rcases List.mem_cons.1 he with rfl | he
    · exact h.1
    · exact Nat.le_of_succ_le (Nat.le_trans (Nat.succ_le_succ h.1) (ih h.2 he))

/-- A store whose addresses rise holds one value at each of them. -/
theorem eq_of_srising {α : Type} {m : Store α} {lo : Nat} (h : srising lo m = true) {e x : Nat × α} (he : e ∈ m) (hx : x ∈ m)
    (hk : x.1 = e.1) : x.2 = e.2 := by
  induction m generalizing lo with
  | nil => cases he
  | cons y t ih =>
    simp only [srising, Bool.and_eq_true] at h
    have lower : ∀ z ∈ t, y.1 + 1 ≤ z.1 := fun z hz => lt_of_srising h.2 hz
    rcases List.mem_cons.1 he with hey | het <;> rcases List.mem_cons.1 hx with hxy | hxt
    · rw [hey, hxy]
    · have := lower x hxt
      rw [hk, hey] at this
      omega
    · have := lower e het
      rw [← hk, hxy] at this
      omega
    · exact ih h.2 het hxt

theorem sget_of_mem {α : Type} {d : Nat → α} {m : Store α} {lo : Nat} (h : srising lo m = true) {e : Nat × α} (he : e ∈ m) :
    sget d m e.1 = e.2 := by
  induction m generalizing lo with
  | nil => cases he
  | cons y t ih =>
    simp only [sget]
    split
    · rename_i hy
      exact eq_of_srising h he List.mem_cons_self hy
    · rename_i hy
      simp only [srising, Bool.and_eq_true] at h
      exact ih h.2 ((List.mem_cons.1 he).resolve_left fun x => hy (by rw [x]))

end Sys2Proof.Machine
end
section
/-! Writes of control objects: the value that the bytes carry, and the code of a value that passes rows 1 to 9 of R320. -/

namespace Sys2Proof.Machine

theorem ofBytesLE_bytesLE (n x : Nat) (h : x < 256 ^ n) : ofBytesLE (bytesLE n x) = x := by
  induction n generalizing x with
  | zero => simp only [Nat.pow_zero] at h; simp [bytesLE, ofBytesLE]; omega
  | succ n ih =>
    rw [Nat.pow_succ] at h
    simp only [bytesLE, ofBytesLE, ih (x / 256) (by omega), BitVec.toNat_ofNat]
    omega

theorem OType.value_bytes (t : OType) (v : Nat) (h : v < 256 ^ t.size) : t.value (t.bytes v) = v := by
  cases hb : t.bigEndian <;> simp [OType.value, OType.bytes, hb, ofBytesBE, bytesBE, ofBytesLE_bytesLE _ _ h]

@[simp] theorem OType.length_bytes (t : OType) (v : Nat) : (t.bytes v).length = t.size := by
  simp only [OType.bytes]
  split <;> simp

/-- A value that no level and no held die stands against is refused only when it is out of range (R320). -/
theorem State.writeCode_of_canWrite {s : State} {m : Master} {o : Obj} {i v : Nat} (w : s.CanWrite m o i)
    (hty : o.row.ty ≠ .mbx) (ho : o ≠ .fwUpdImage) (hv : v < 256 ^ o.row.ty.size)
    (hf : ∀ l x, fieldDenied o l x v = false) (hd : s.onHeldDie m ⟨o, i, 0⟩ v = false) :
    s.writeCode m ⟨o, i, 0⟩ (o.row.ty.bytes v) = if s.outOfRange o v = true then Ab.range else 0 := by
  have hg : s.writeGrant m ⟨o, i, 0⟩ = 0 := w.grant
  have hval := OType.value_bytes _ _ hv
  have hc : s.valueCode ⟨o, i, 0⟩ (o.row.ty.bytes v) = if s.outOfRange o v = true then Ab.range else 0 := by
    simp only [State.valueCode]
    rw [if_neg hty, if_neg (by simp [ho]), hval]
  simp only [State.writeCode, w.served, hg, hc, hval, hf, hd]
  split <;> simp_all [Ab.range]

end Sys2Proof.Machine
end
section
/-! The accession of staged values: what it takes, what a failing check leaves, what waits for the switch cycle, and what is
discarded (R345, R350 to R355). -/

namespace Sys2Proof.Machine

/-! ### The state before the writes of the cycle (R345) -/

theorem State.before_of_alone {s : State} {m : Master} (h : s.sameCycle m = []) : s.before m = s := by
  simp only [State.before, h]
  rfl

theorem State.accedeAt_alone {s : State} {m : Master} (h : s.sameCycle m = []) (v : Nat) :
    s.accedeAt m v = s.accede (s.who m) (mid m) v := by
  have hf : (s.cat.staged.filter fun _ => false) = [] := by simp
  simp only [State.accedeAt, State.before_of_alone h, h, List.any_nil, hf, List.foldl_nil]

/-! ### Staged values -/

/-- A staged value of a key that the master may write and whose group is named (R352, R353). -/
def State.picks (s : State) (w : Who) (groups k : Nat) : Bool :=
  match placeOf k with
  | none => false
  | some (p, _) => (match p.obj.group with | some g => nbit groups g | none => false) && w.mayWrite s.view p.obj p.inst

/-- A selected key that an accession takes, under the configuration with the selected values (R385, R387). -/
def takesKey (v : View) (k : Nat) : Bool :=
  match placeOf k with
  | none => false
  | some (p, ext) => if p.obj = .rotaData then decide (ext % 64 < v.phases) else ofKind v p.obj p.inst

theorem State.chosen_eq (s : State) (w : Who) (groups : Nat) : s.chosen w groups =
    s.cat.staged.filter fun e => takesKey (s.view.put (s.selected w groups)) e.1 && s.picks w groups e.1 := by
  rw [← List.filter_filter]
  rfl

/-- The values taken under those left read as before (R350). -/
theorem State.sget_rest_chosen (s : State) (w : Who) (groups k : Nat) (d : Nat → Nat) :
    sget (fun a => sget d (s.chosen w groups) a) (s.cat.staged.filter fun e => !(s.chosen w groups).any fun x => x.1 = e.1) k =
      sget d s.cat.staged k := by
  rw [State.chosen_eq]
  exact sget_filter_under (fun a => takesKey (s.view.put (s.selected w groups)) a && s.picks w groups a) s.cat.staged k

/-! ### References of default actions -/

theorem State.foldl_addRef_mem (l : List Nat) (s t : State) (h : s.mem = t.mem) :
    (l.foldl State.addRef s).mem = (l.foldl State.addRef t).mem := by
  induction l generalizing s t with
  | nil => exact h
  | cons b l ih => exact ih _ _ (by simp only [State.addRef, State.setAlloc, State.alloc, h])

theorem State.foldl_addRef_eq (l : List Nat) (s : State) : l.foldl State.addRef s =
    { s with mem := (l.foldl State.addRef s).mem } := by
  induction l generalizing s with
  | nil => rfl
  | cons b l ih => exact ih (s.addRef b)

/-- The references taken change the allocations alone (R216). -/
theorem State.holdDefaults_eq (s : State) (vals : Store Nat) : s.holdDefaults vals = { s with mem := (s.holdDefaults vals).mem } :=
  State.foldl_addRef_eq _ s

theorem State.holdDefaults_mem {s t : State} (vals : Store Nat) (hv : s.view = t.view) (hm : s.mem = t.mem) :
    (s.holdDefaults vals).mem = (t.holdDefaults vals).mem := by
  simp only [State.holdDefaults, hv]
  exact State.foldl_addRef_mem _ _ _ hm

/-! ### The next generation of an image (R49) -/

theorem bits_nextPgen (old new : Nat) : bits (nextPgen old new) 111 108 = (bits old 111 108 + 1) % 16 := by
  simp only [nextPgen, bits, Nat.reduceAdd, Nat.reduceSub, Nat.reducePow]
  omega

theorem puts_setVal {d : Nat → Nat} : Puts d fun m e => setVal m e.1 e.2 := puts_staged

theorem progKey_inj {p q : Nat} (h : Obj.progHdr.key p = Obj.progHdr.key q) : p = q := by
  simpa [Obj.key, Obj.index, Obj.row, regKey] using h

/-- Each slot whose image is applied has the next generation (R49). -/
theorem State.bits_adjusted (s : State) (vals : Store Nat) {p : Nat} (hp : p < 256) (h : p ∈ instancesIn vals 3) :
    bits (sget (fun _ => 0) (s.adjusted vals) (Obj.progHdr.key p)) 111 108 = (bits (s.view.obj .progHdr p) 111 108 + 1) % 16 := by
  let f := fun p => nextPgen (s.view.obj .progHdr p) ((s.view.put vals).obj .progHdr p)
  let images := (instancesIn vals 3).foldl (fun m p => setVal m (Obj.progHdr.key p) (f p)) vals
  have hread : sget (fun _ => 0) images (Obj.progHdr.key p) = f p := by
    have := (puts_setVal (d := fun _ => 0)).foldl_of_mem ((instancesIn vals 3).map fun p => (Obj.progHdr.key p, f p)) vals
      (Obj.progHdr.key p) (f p) (fun e he hk => ?_) ⟨_, List.mem_map.2 ⟨p, h, rfl⟩, rfl⟩
    · rwa [List.foldl_map] at this
    · obtain ⟨q, -, rfl⟩ := List.mem_map.1 he
      rw [progKey_inj hk]
  have hne : Obj.progHdr.key p ≠ Obj.casSelf.key := by
    simp [Obj.key, Obj.index, Obj.row, regKey]
    omega
  have hadj : sget (fun _ => 0) (s.adjusted vals) (Obj.progHdr.key p) = f p := by
    simp only [State.adjusted]
    split
    · exact ((puts_setVal (d := fun _ => 0)) images (Obj.casSelf.key, _) _).trans ((if_neg hne).trans hread)
    · exact hread
  rw [hadj]
  exact bits_nextPgen _ _

end Sys2Proof.Machine
end

section
/-! The accession asked for: its checks, the switch cycle fixed, and the discard of staged values (R350 to R355). -/

namespace Sys2Proof.Machine

/-! ### A failing check -/

/-- The records of a refusal name rooms (R364). -/
def Refused.NamesRooms (r : Refused) : Prop := ∀ c room fs x, r.log = some (c, room, fs) → room = some x → x < 16

theorem Refused.namesRooms_none (code : Nat) : Refused.NamesRooms ⟨code, none⟩ := fun _ _ _ _ h => by cases h

theorem Refused.namesRooms_device (code : Nat) (c : Code) (fs : List (Nat × Nat)) :
    Refused.NamesRooms ⟨code, some (c, none, fs)⟩ := fun _ _ _ _ h hx => by cases h; cases hx

theorem Refused.namesRooms_room (code : Nat) (c : Code) {room : Nat} (fs : List (Nat × Nat)) (hr : room < 16) :
    Refused.NamesRooms ⟨code, some (c, some room, fs)⟩ := fun _ _ _ _ h hx => by cases h; cases hx; exact hr

/-- The first refusal of a list of things checked names rooms, when every one does. -/
theorem namesRooms_findSome {α β : Type} {l : List α} {fault : α → Option β} {make : α → β → Refused}
    (h : ∀ a b, (make a b).NamesRooms) {r : Refused} (hr : (l.findSome? fun a => (fault a).map (make a)) = some r) :
    r.NamesRooms := by
  obtain ⟨a, -, ha⟩ := List.exists_of_findSome?_eq_some hr
  obtain ⟨b, -, rfl⟩ := Option.map_eq_some_iff.1 ha
  exact h a b

section
variable {s : State} {a : After} {vals : Store Nat} {r : Refused}

theorem State.namesRooms_checkRota (h : s.checkRota a vals = some r) : r.NamesRooms := by
  simp only [State.checkRota] at h
  split at h
  · cases h
    exact Refused.namesRooms_none _
  split at h
  · cases h
  · obtain ⟨f, -, rfl⟩ := Option.map_eq_some_iff.1 h
    exact Refused.namesRooms_device _ _ _

theorem State.namesRooms_checkProgs (h : s.checkProgs a vals = some r) : r.NamesRooms :=
  namesRooms_findSome (fun _ _ => Refused.namesRooms_room _ _ _ (bits_lt _ 127 124)) h

theorem State.namesRooms_checkTables (h : s.checkTables a vals = some r) : r.NamesRooms :=
  namesRooms_findSome (fun _ _ => Refused.namesRooms_room _ _ _ (bits_lt _ 127 124)) h

theorem State.namesRooms_checkPools (h : s.checkPools a vals = some r) : r.NamesRooms :=
  namesRooms_findSome (fun _ _ => Refused.namesRooms_room _ _ _ (bits_lt _ 127 124)) h

theorem State.namesRooms_checkRooms {restore : List Nat} (h : s.checkRooms a vals restore = some r) : r.NamesRooms := by
  simp only [State.checkRooms] at h
  split at h
  · cases h
    exact Refused.namesRooms_none _
  split at h
  · cases h
    exact Refused.namesRooms_none _
  split at h
  · cases h
    exact Refused.namesRooms_device _ _ _
  · cases h

theorem State.namesRooms_checkSets {cluster : Bool} (h : s.checkSets a vals cluster = some r) : r.NamesRooms := by
  simp only [State.checkSets] at h
  split at h
  · cases h
  split at h
  · cases h
    exact Refused.namesRooms_none _
  · exact namesRooms_findSome (fun _ _ => Refused.namesRooms_device _ _ _) h

theorem State.namesRooms_checkAll {restore : List Nat} {cluster : Bool} (h : s.checkAll a vals restore cluster = some r) :
    r.NamesRooms := by
  simp only [State.checkAll] at h
  split at h
  · cases h; exact State.namesRooms_checkRota ‹_›
  split at h
  · cases h; exact State.namesRooms_checkProgs ‹_›
  split at h
  · cases h; exact State.namesRooms_checkTables ‹_›
  split at h
  · cases h; exact State.namesRooms_checkPools ‹_›
  split at h
  · cases h; exact State.namesRooms_checkRooms ‹_›
  · exact State.namesRooms_checkSets h

end

/-- A refusal leaves its code in ACC_STATUS and its record (R354). -/
theorem State.refuseAcc_eq (s : State) {r : Refused} (h : r.NamesRooms) : ∃ v, OnlyRecords s v ∧
    (s.refuseAcc r = { v with cat := { v.cat with acc := { v.cat.acc with code := r.code, groups := 0 } } } ∨
      s.refuseAcc r = { v.draw with cat := { v.cat with acc := { v.cat.acc with code := r.code, groups := 0 } } }) := by
  simp only [State.refuseAcc]
  split
  · rename_i c room fs hlog
    exact ⟨_, onlyRecords_record s c room _ fs 0 fun x hx => h c room fs x hlog hx, .inr rfl⟩
  · exact ⟨s, OnlyRecords.refl s, .inl rfl⟩

theorem State.refuseAcc_spec (s : State) {r : Refused} (h : r.NamesRooms) : Touches [.catalogue, .free] s (s.refuseAcc r) ∧
    (s.refuseAcc r).cat.acc.code = r.code ∧ (s.refuseAcc r).cat.acc.busy = s.cat.acc.busy ∧
    (s.refuseAcc r).cat.force = s.cat.force ∧ (s.refuseAcc r).cat.staged = s.cat.staged := by
  obtain ⟨v, hv, he⟩ := State.refuseAcc_eq s h
  have hc := hv.cat
  have hbusy : v.cat.acc.busy = s.cat.acc.busy := show ({ v.cat with regs := [] } : Cat).acc.busy = _ by rw [hc]
  have hforce : v.cat.force = s.cat.force := show ({ v.cat with regs := [] } : Cat).force = _ by rw [hc]
  have hstaged : v.cat.staged = s.cat.staged := show ({ v.cat with regs := [] } : Cat).staged = _ by rw [hc]
  let c : Cat := { v.cat with acc := { v.cat.acc with code := r.code, groups := 0 } }
  rcases he with he | he <;> rw [he]
  · exact ⟨(hv.touches [.catalogue, .free]).followed (touches_cat v c rfl) (by simp), rfl, hbusy, hforce, hstaged⟩
  · exact ⟨((hv.touches [.catalogue, .free]).followed (touches_free v _) (by simp)).followed (touches_cat v.draw c rfl)
      (by simp), rfl, hbusy, hforce, hstaged⟩

/-! ### The write of ACCESSION -/

/-- The state with the staged values `l`. -/
def State.withStaged (s : State) (l : Store Nat) : State := { s with cat := { s.cat with staged := l } }

theorem State.touches_withStaged (s : State) (l : Store Nat) : Touches [.catalogue] s (s.withStaged l) := touches_cat s _ rfl

/-- The writes of the cycle over the staged values of a state (R345). -/
def State.keptOver (s : State) (m : Master) (l : Store Nat) : Store Nat :=
  (s.cat.staged.filter fun e => (s.sameCycle m).any fun w => w.key = e.1).foldl (fun l e => sput (fun _ => e.2 + 1) l e.1 e.2) l

theorem State.accedeAt_eq (s : State) (m : Master) (v : Nat) : s.accedeAt m v =
    ((((s.before m).accede (s.who m) (mid m) v).1).withStaged
      (s.keptOver m ((s.before m).accede (s.who m) (mid m) v).1.cat.staged), ((s.before m).accede (s.who m) (mid m) v).2) := rfl

theorem State.keptOver_alone {s : State} {m : Master} (h : s.sameCycle m = []) (l : Store Nat) : s.keptOver m l = l := by
  have hf : (s.cat.staged.filter fun _ => false) = [] := by simp
  simp only [State.keptOver, h, List.any_nil, hf, List.foldl_nil]

/-- A value written in the cycle of the accession stays staged (R345). -/
theorem State.sget_keptOver {s : State} {m : Master} (hr : srising 0 s.cat.staged = true) {w : Access} (hw : w ∈ s.sameCycle m)
    {e : Nat × Nat} (he : e ∈ s.cat.staged) (hk : e.1 = w.key) (l : Store Nat) (d : Nat → Nat) :
    sget d (s.keptOver m l) w.key = e.2 := by
  refine puts_staged.foldl_of_mem _ _ _ _ (fun x hx hxk => ?_) ⟨e, List.mem_filter.2 ⟨he, ?_⟩, hk⟩
  · exact eq_of_srising hr he (List.mem_of_mem_filter hx) (hxk.trans hk.symm)
  · exact List.any_eq_true.2 ⟨w, hw, by simp [hk]⟩

section
variable {s : State} {w : Who} {m groups : Nat} (h0 : groups ≠ 0) (hm : s.dev.phase ≠ .minimal)
include h0 hm

theorem State.accede_of_busy (hb : s.cat.acc.busy = true) : s.accede w m groups = (s, Ab.postedBusy) := by
  simp [State.accede, h0, hm, hb]

/-- An accession that nothing stands in the way of is what its checks make of it. -/
theorem State.accede_checked (hb : s.cat.acc.busy = false) (ha : s.guar.active = false) :
    s.accede w m groups =
      match s.checkAll (s.after (s.adjusted (s.taken w groups)) (s.restoreAsked w groups)) (s.adjusted (s.taken w groups))
          (s.restoreAsked w groups) (takes (s.taken w groups) .casSelf) with
      | some r => (s.refuseAcc r, r.code)
      | none => (s.fixSwitch w m groups (s.adjusted (s.taken w groups))
          (if appliesRota (s.adjusted (s.taken w groups)) then s.restoreAsked w groups else [])
          (takes (s.taken w groups) .casSelf), 0) := by
  simp only [State.accede, h0, hm, hb, ha]
  rfl

end

/-- The accession whose switch cycle is fixed (R33, R354). -/
def State.switchFixed (s : State) (w : Who) (m groups : Nat) (vals : Store Nat) (restore : List Nat) (cluster : Bool) : Accession :=
  { s.cat.acc with busy := true, code := 0, groups := BitVec.ofNat 16 groups, switchAt := s.now + 9 + s.drawn % 2491, mid := m,
                   values := vals, staged := s.chosen w groups, cluster := cluster, restore := restore, rota := appliesRota vals }

theorem State.switchFixed_switchAt (s : State) (w : Who) (m groups : Nat) (vals : Store Nat) (restore : List Nat) (cluster : Bool) :
    s.now < (s.switchFixed w m groups vals restore cluster).switchAt ∧
      (s.switchFixed w m groups vals restore cluster).switchAt ≤ s.now + Config.usec := by
  show s.now < s.now + 9 + s.drawn % 2491 ∧ s.now + 9 + s.drawn % 2491 ≤ s.now + 2500
  omega

/-- A fixed switch cycle leaves the accession waiting and its references taken; nothing in force changes (R33, R354). -/
theorem State.fixSwitch_eq (s : State) (w : Who) (m groups : Nat) (vals : Store Nat) (restore : List Nat) (cluster : Bool) :
    s.fixSwitch w m groups vals restore cluster =
      { s with cat := { s.cat with acc := s.switchFixed w m groups vals restore cluster,
                                   staged := s.cat.staged.filter fun e => !(s.chosen w groups).any fun x => x.1 = e.1 },
               free := s.free + 1, mem := (s.holdDefaults vals).mem } := by
  simp only [State.fixSwitch]
  rw [State.holdDefaults_eq]
  rfl

/-! ### Discarded values -/

/-- A discarded value reverts to the one in force, every other one stays (R352). -/
theorem State.discardStaged_stagedKey (s : State) (m : Master) (v k : Nat) : (s.discardStaged m v).1.stagedKey k =
    if s.picks (s.who m) v k = true then sget regDefault s.cat.force k else s.stagedKey k := by
  have hkeep : ∀ l : Store Nat, (l.filter fun e => match placeOf e.1 with
      | none => true
      | some (p, _) => !((match p.obj.group with | some g => nbit v g | none => false) && (s.who m).mayWrite s.view p.obj p.inst)) =
      l.filter fun e => !s.picks (s.who m) v e.1 := by
    intro l
    refine List.filter_congr fun e _ => ?_
    simp only [State.picks]
    cases placeOf e.1 <;> rfl
  have hstaged : (s.discardStaged m v).1.stagedKey k = sget (fun a => sget (fun b => sget regDefault s.cat.force b)
      (s.cat.acc.staged.filter fun e => !s.picks (s.who m) v e.1) a) (s.cat.staged.filter fun e => !s.picks (s.who m) v e.1) k := by
    rw [← hkeep, ← hkeep]
    rfl
  rw [hstaged, sget_filter fun a => !s.picks (s.who m) v a, sget_filter fun a => !s.picks (s.who m) v a]
  cases hp : s.picks (s.who m) v k
  · simp only [Bool.not_false, if_true, State.stagedKey]
    refine sget_congr _ _ (.inr ?_)
    rw [sget_filter fun a => !s.picks (s.who m) v a, hp]
    rfl
  · simp

theorem State.picks_of_place {s : State} {w : Who} {groups k : Nat} {p : Place} {e g : Nat} (hp : placeOf k = some (p, e))
    (hg : p.obj.group = some g) : s.picks w groups k = (nbit groups g && w.mayWrite s.view p.obj p.inst) := by
  simp only [State.picks, hp, hg]

/-! ### The writes -/

section
variable {s : State} {m : Master}

theorem accession_writeCode {v : BitVec 32} (w : s.CanWrite m .accession 0) :
    s.writeCode m ⟨.accession, 0, 0⟩ (Obj.accession.row.ty.bytes v.toNat) = if 512 ≤ v.toNat then Ab.range else 0 :=
  (State.writeCode_of_canWrite w (by decide) (by decide) v.isLt (fun _ _ => rfl) rfl).trans (by simp [State.outOfRange])

theorem accDiscard_writeCode {v : BitVec 16} (w : s.CanWrite m .accDiscard 0) :
    s.writeCode m ⟨.accDiscard, 0, 0⟩ (Obj.accDiscard.row.ty.bytes v.toNat) = if 512 ≤ v.toNat then Ab.range else 0 :=
  (State.writeCode_of_canWrite w (by decide) (by decide) v.isLt (fun _ _ => rfl) rfl).trans (by simp [State.outOfRange])

theorem writes_accession_range {v : BitVec 32} (w : s.CanWrite m .accession 0) (h : 512 ≤ v.toNat) :
    Writes (.accession m v) s m .accession 0 Ab.range s :=
  Writes.of_refused (r := .of m .accession 0 v.toNat) rfl rfl w rfl ((accession_writeCode w).trans (if_pos h)) (by decide)

theorem writes_accession {v : BitVec 32} (w : s.CanWrite m .accession 0) (h : v.toNat < 512) {u : State} {code : Nat}
    (hu : s.accedeAt m v.toNat = (u, code)) : Writes (.accession m v) s m .accession 0 code u := by
  refine Writes.of_performed (r := .of m .accession 0 v.toNat) rfl rfl w rfl ((accession_writeCode w).trans (if_neg (by omega))) ?_
  rw [← hu]
  show s.performWrite m ⟨.accession, 0, 0⟩ (Obj.accession.row.ty.bytes v.toNat) = _
  simp only [State.performWrite, State.writeRooms, State.writeDevice, OType.value_bytes Obj.accession.row.ty v.toNat v.isLt]

theorem writes_accDiscard_range {v : BitVec 16} (w : s.CanWrite m .accDiscard 0) (h : 512 ≤ v.toNat) :
    Writes (.accDiscard m v) s m .accDiscard 0 Ab.range s :=
  Writes.of_refused (r := .of m .accDiscard 0 v.toNat) rfl rfl w rfl ((accDiscard_writeCode w).trans (if_pos h)) (by decide)

theorem writes_accDiscard {v : BitVec 16} (w : s.CanWrite m .accDiscard 0) (h : v.toNat < 512) :
    Writes (.accDiscard m v) s m .accDiscard 0 0 (s.discardStaged m v.toNat).1 := by
  refine Writes.of_performed (r := .of m .accDiscard 0 v.toNat) rfl rfl w rfl ((accDiscard_writeCode w).trans (if_neg (by omega))) ?_
  show s.performWrite m ⟨.accDiscard, 0, 0⟩ (Obj.accDiscard.row.ty.bytes v.toNat) = _
  simp only [State.performWrite, State.writeRooms, State.writeDevice, OType.value_bytes Obj.accDiscard.row.ty v.toNat v.isLt]
  rfl

end

end Sys2Proof.Machine
end

section
/-! The write of ACCESSION by what its checks find (R354, R355). -/

namespace Sys2Proof.Machine

theorem touches_cat_free_mem (s : State) {c : Cat} {n : Nat} {x : Mem} (h : c.regs = s.cat.regs) :
    Touches [.catalogue, .free, .mem] s { s with cat := c, free := n, mem := x } := by
  intro p hp
  cases p <;> simp_all [Piece.same, State.ring, State.port]

section
variable {s b : State} {m : Master} {v : Nat} (hb : b = s.before m) (h0 : v ≠ 0) (hm : s.dev.phase ≠ .minimal)
    (hbusy : s.cat.acc.busy = false) (ha : s.guar.active = false)
include hb h0 hm hbusy ha

/-- An accession whose check fails leaves the code and the record of the check (R354). -/
theorem State.accedeAt_refused {r : Refused} (hr : b.checkAll (b.after (b.adjusted (b.taken (s.who m) v)) (b.restoreAsked (s.who m) v))
      (b.adjusted (b.taken (s.who m) v)) (b.restoreAsked (s.who m) v) (takes (b.taken (s.who m) v) .casSelf) = some r) :
    s.accedeAt m v = ((b.refuseAcc r).withStaged (s.keptOver m (b.refuseAcc r).cat.staged), r.code) := by
  subst hb
  rw [State.accedeAt_eq, State.accede_checked (s := s.before m) h0 hm hbusy ha, hr]

/-- An accession past its checks waits for its switch cycle (R354). -/
theorem State.accedeAt_fixed (hr : b.checkAll (b.after (b.adjusted (b.taken (s.who m) v)) (b.restoreAsked (s.who m) v))
      (b.adjusted (b.taken (s.who m) v)) (b.restoreAsked (s.who m) v) (takes (b.taken (s.who m) v) .casSelf) = none) :
    s.accedeAt m v = ({ b with
      cat := { b.cat with
        acc := b.switchFixed (s.who m) (mid m) v (b.adjusted (b.taken (s.who m) v))
          (if appliesRota (b.adjusted (b.taken (s.who m) v)) then b.restoreAsked (s.who m) v else [])
          (takes (b.taken (s.who m) v) .casSelf),
        staged := s.keptOver m (b.cat.staged.filter fun e => !(b.chosen (s.who m) v).any fun x => x.1 = e.1) },
      free := b.free + 1, mem := (b.holdDefaults (b.adjusted (b.taken (s.who m) v))).mem }, 0) := by
  subst hb
  rw [State.accedeAt_eq, State.accede_checked (s := s.before m) h0 hm hbusy ha, hr]
  simp only [State.fixSwitch_eq]
  rfl

end

end Sys2Proof.Machine
end

section
open Sys2Proof Sys2Proof.Machine

/-- Settles O13: the write of ACCESSION and that of ACC_DISCARD, each by what it leaves of the staged values. -/
theorem accessionsAsked : Obligations.AccessionsAsked := by
  refine ⟨fun s m v w => ⟨writes_accession_range w, fun hv h0 hm hbusy halone => ?_, fun hv h0 hm hbusy ha => ?_⟩,
    fun s m v w => ⟨writes_accDiscard_range w, fun hv => ⟨_, writes_accDiscard w hv, ?_, ?_, rfl, rfl, ?_⟩⟩⟩
  · exact writes_accession w hv ((State.accedeAt_alone halone _).trans (State.accede_of_busy h0 hm hbusy))
  · intro b taken vals asked found
    have hfix := State.switchFixed_switchAt b (s.who m) (mid m) v.toNat vals (if appliesRota vals then asked else [])
      (takes taken .casSelf)
    refine ⟨fun hf => ⟨_, writes_accession w hv (State.accedeAt_fixed rfl h0 hm hbusy ha hf), rfl, rfl, rfl, ?_, hfix.1, hfix.2,
      rfl, rfl, ?_, fun p hp hin => ?_, fun halone hacc k => ?_, fun hr x hx hk => ?_, ?_⟩, fun r hf => ?_⟩
    · exact (BitVec.toNat_ofNat _ _).trans (Nat.mod_eq_of_lt (by omega))
    · exact State.holdDefaults_mem _ rfl rfl
    · exact State.bits_adjusted b taken hp hin
    · rw [State.stagedKey, State.stagedKey, hacc]
      have hb : b = s := State.before_of_alone halone
      refine (congrArg (fun l => sget _ l k) (State.keptOver_alone halone _)).trans ?_
      exact (State.sget_rest_chosen b (s.who m) v.toNat k _).trans (by rw [hb]; rfl)
    · obtain ⟨e, he, hek⟩ := List.mem_map.1 hk
      refine (State.sget_keptOver hr hx he hek _ _).trans ?_
      rw [← hek]
      exact (sget_of_mem hr he).symm
    · exact touches_cat_free_mem s rfl
    · have hrooms := State.namesRooms_checkAll hf
      obtain ⟨ht, hcode, hb, hforce, hstaged⟩ := State.refuseAcc_spec b hrooms
      refine ⟨_, writes_accession w hv (State.accedeAt_refused rfl h0 hm hbusy ha hf), hcode, hb.trans hbusy, hforce,
        fun halone => ?_, ?_⟩
      · exact (State.keptOver_alone halone _).trans (hstaged.trans (by rw [show b = s from State.before_of_alone halone]))
      · have hbefore : Touches [.catalogue, .free] s b := (touches_cat s b.cat rfl).mono (by simp)
        exact (hbefore.trans ht).followed (State.touches_withStaged _ _) (by simp)
  · intro k p e g hp hg hn hw
    rw [State.discardStaged_stagedKey, State.picks_of_place hp hg, hn, hw]
    rfl
  · intro k p e g hp hg hn
    rw [State.discardStaged_stagedKey, State.picks_of_place hp hg, if_neg]
    rcases hn with hn | hn <;> simp [hn]
  · exact touches_cat s _ rfl

end

section
/-! A switch cycle that finds an owner's merge closed before its instruction has been compared: the close runs the stages that are
left, and the clock goes to the end of their compare (R42, R296; log 84). -/

namespace Sys2Proof.Machine

/-- An instruction accepted in cycle 10,000 whose merge, of an arrival in cycle 0, closes in cycle 68 (R299). -/
def lateOwner : Inflight :=
  { id := 0, port := 0, room := 0, prog := 0, tag := 0, ctx := 0, edition := 0, pinned := false, pgen := 0, keyLen := 0, key := [],
    arrived := 0, accepted := 10000, due := 0, view := State.reset.view, nextStage := 0, front := none, ahead := 0, ended := false,
    status := 0, error := false, outs := [], cas := some ⟨0, .owner, 0, 0, 0, [], [], [], false, false, 0⟩, noResult := true }

/-- The machine in cycle 5,000 with that instruction in flight and an accession, of no value, at its switch cycle. -/
def closedEarly : State :=
  { State.reset with
      now := 5000
      cat := { Cat.reset with acc := { Cat.reset.acc with busy := true } }
      search := { Search.reset with flight := [lateOwner] } }

/-- The merge is past its close in cycle 5,000, and the compare of its instruction's only stage is to come. -/
theorem lateOwner_cycles : lateOwner.closeAt ⟨0, .owner, 0, 0, 0, [], [], [], false, false, 0⟩ = 68 ∧ closedEarly.now = 5000 ∧
    lateOwner.compareAt = 10024 := by decide

/-- The cycle that a command leaves. -/
def nowAfter (i : Instr) (s : State) : Option Nat := match exec i s with | .next t => some t.now | _ => none

/-- The accession switches in the last cycle of that compare. -/
theorem nowAfter_closedEarly : nowAfter .accessionSwitch closedEarly = some 10047 := by decide +kernel

end Sys2Proof.Machine
end

section
open Sys2Proof Sys2Proof.Machine

/-- Refutes O14: the cycle of the switch is not `max s.now acc.switchAt` when an instruction in flight has an owner's merge past
its close and a compare to come; the statement asks nothing of the instructions in flight. Intake makes none such, since it
accepts an instruction within 8 cycles of its arrival (R39, R41) and its merge closes after its last compare (R299). -/
theorem not_accessionTakesEffect : ¬ Obligations.AccessionTakesEffect := by
  intro h
  obtain ⟨t, ht, hnow, -⟩ := h closedEarly _ rfl rfl (fun _ hr => (List.not_mem_nil hr).elim) rfl
  have hrun := nowAfter_closedEarly
  simp only [nowAfter, ht, hnow] at hrun
  exact absurd hrun (by decide)

end

section
/-! Rooms past the sixteenth (R364, R366). An instruction in flight carries the room of its frame, a field of 4 bits (R35), but a
statement over every instruction also speaks of those that no frame makes. A record of room 20 goes to ring 20, which is none of
the 17 rings of the daybook, and one that this ring drops is counted in a register outside `daybookKeys`. -/

namespace Sys2Proof.Machine

/-- The register in which ring 20 counts its dropped records is none of the daybook's. -/
theorem dbDropped_of_no_ring : Obj.dbDropped.key 20 ∉ daybookKeys := by decide

/-- The machine after reset with a full merge queue at ring 20. -/
def crowded : State := { State.reset with rings := [(20, { Ring.empty with placed := 1000 })] }

/-- An instruction of room 20 whose program has one stage, compared, with values in force, outcomes and a cascade part. -/
def strayRoom (force : Store Nat) (outs : Store LookupOut) (cas : Option CasPart) : Inflight :=
  { id := 0, port := 0, room := 20, prog := 0, tag := 0, ctx := 0, edition := 0, pinned := false, pgen := 0, keyLen := 0, key := [],
    arrived := 0, accepted := 0, due := 0, view := ⟨force, []⟩, nextStage := 1, front := none, ahead := 0, ended := false,
    status := 0, error := false, outs := outs, cas := cas, noResult := true }

end Sys2Proof.Machine
end

section
/-! A lookup of room 20 whose ternary table no copy serves (R61, R101). -/

namespace Sys2Proof.Machine

/-- The lookup is valid, of the ternary table 0, with no condition. -/
def unservedLookup : Inflight := strayRoom [(Obj.progLkp.key 0, 2 ^ 63)] [] none

theorem unservedLookup_shape : (unservedLookup.view.lkp unservedLookup.prog 0).valid = true ∧ unservedLookup.condOk 0 = true ∧
    (unservedLookup.view.lkp unservedLookup.prog 0).kind = 0 ∧
    trnCopy unservedLookup.view.rotaFn (unservedLookup.view.trn (unservedLookup.view.lkp unservedLookup.prog 0).table) []
      (0 % unservedLookup.view.phases) unservedLookup.port 0 = none := by decide +kernel

theorem unservedLookup_counts :
    (runLookup 0 (compareLookup 0 unservedLookup (crowded, []) 0).2 (crowded, unservedLookup) 0).1.reg .dbDropped 20 ≠
      crowded.reg .dbDropped 20 := by decide +kernel

end Sys2Proof.Machine
end

section
open Sys2Proof Sys2Proof.Machine

/-- Refutes O31: the record of a lookup that errors is not all that it leaves when the instruction is of room 20, whose ring is
full: the record is dropped and counted in a register that is none of the daybook's. The statement asks nothing of the room. -/
theorem not_lookupOutcomes : ¬ Obligations.LookupOutcomes := by
  intro h
  obtain ⟨hvalid, hcond, hkind, hcopy⟩ := unservedLookup_shape
  obtain ⟨-, -, -, hperformed⟩ := h 0 crowded crowded unservedLookup 0
  obtain ⟨hternary, -, -⟩ := hperformed hvalid hcond
  obtain ⟨hrecords, -⟩ := (hternary hkind).1 hcopy
  exact unservedLookup_counts (hrecords.reg _ _ _ _ dbDropped_of_no_ring)

end

section
/-! A tally of room 20 on a held die (R59). -/

namespace Sys2Proof.Machine

/-- The tally of stage 0 adds 0 to word 0, from the action of lookup 0. -/
def heldTally : Inflight := strayRoom [(Obj.progTally.key 0, 2 ^ 63)] [(0, { LookupOut.none with supplied := true })] none

/-- Every die is held. -/
def crowdedHeld : State := { crowded with dev := { crowded.dev with diesUp := false } }

theorem heldTally_shape :
    let d := heldTally.view.tally heldTally.prog 0
    d.en = true ∧ (heldTally.out d.alkp).supplied = true ∧
      crowdedHeld.dieHeld (dieOfWord (sliceAt (heldTally.out d.alkp).carry 256 d.aoff 16)) = true := by decide +kernel

theorem heldTally_counts : (crowdedHeld.stageTally 0 heldTally 0).reg .dbDropped 20 ≠ crowdedHeld.reg .dbDropped 20 := by
  decide +kernel

end Sys2Proof.Machine
end

section
open Sys2Proof Sys2Proof.Machine

/-- Refutes O34: a tally held for an instruction of room 20, whose ring is full, writes a second register, the count of that
ring's dropped records. The statement asks nothing of the room. -/
theorem not_talliesAdd : ¬ Obligations.TalliesAdd := by
  rintro ⟨h, -⟩
  obtain ⟨hen, hsupplied, hheld⟩ := heldTally_shape
  obtain ⟨-, hcase, -⟩ := h crowdedHeld 0 heldTally 0
  obtain ⟨-, -, hregs, -⟩ := hcase hen hsupplied hheld
  exact heldTally_counts (hregs.reg _ _ _ _ dbDropped_of_no_ring (by decide))

end

section
/-! An owner of room 20 that closes a lookup in error (R296). -/

namespace Sys2Proof.Machine

/-- The owner's part: the merge of lookup 0 is open, and has no record of another device. -/
def openPart : CasPart := ⟨0, .owner, 0, 0, 0, [0], [], [], false, false, 0⟩

/-- Lookup 0 of the owner errored. -/
def failedOwner : Inflight := strayRoom [] [(0, { LookupOut.none with performed := true, error := true })] (some openPart)

/-- That instruction in flight. -/
def crowdedOwner : State := { crowded with search := { Search.reset with flight := [failedOwner] } }

/-- The state in which the owner's merge closes. -/
def crowdedClose : State :=
  (List.range 32).foldl (State.earlyOn (failedOwner.arrived + failedOwner.lat + openPart.budget - 44))
    (crowdedOwner.at (failedOwner.arrived + failedOwner.lat + openPart.budget - 44))

theorem failedOwner_shape :
    crowdedOwner.casFlight (0 : Fin 32) (0 : BitVec 8).toNat (fun c => c.part = .owner && !c.closed) =
      some (failedOwner, openPart) ∧
    crowdedClose.flight? failedOwner.id = some failedOwner ∧
    (failedOwner.view.prog failedOwner.prog).stages ≤ failedOwner.nextStage := by decide +kernel

/-- The value that a command leaves in the register that counts the dropped records of ring 20. -/
def droppedAfter (i : Instr) (s : State) : Option Nat := match exec i s with | .next t => some (t.reg .dbDropped 20) | _ => none

theorem failedOwner_counts : droppedAfter (.ownerClose 0 0) crowdedOwner ≠ some (crowdedClose.reg .dbDropped 20) := by
  decide +kernel

end Sys2Proof.Machine
end

section
open Sys2Proof Sys2Proof.Machine

/-- Refutes O42: a close that finds a lookup in error writes another register than the count of bad pointers when the instruction
is of room 20, whose ring is full: the count of that ring's dropped records. The statement asks nothing of the room. -/
theorem not_ownersClose : ¬ Obligations.OwnersClose := by
  intro h
  obtain ⟨hfind, hflight, hstages⟩ := failedOwner_shape
  obtain ⟨u, y, q, ⟨t, ht, hrecords⟩, -, -, -, -, -, -, hregs, -⟩ :=
    h crowdedOwner 0 0 failedOwner openPart hfind failedOwner openPart hflight rfl rfl rfl rfl hstages (by decide)
  refine failedOwner_counts ?_
  rw [droppedAfter, ht]
  exact congrArg some ((hrecords.reg _ _ _ _ dbDropped_of_no_ring).trans
    (hregs.reg _ _ _ _ dbDropped_of_no_ring (by decide)))

end

section
/-! A port whose block being sent holds more slots than a block has (R263, R266). A block goes when its 80th slot is filled, so no
port comes to hold more; the transmitter of one that does would put filler past the slot of the next frame. -/

namespace Sys2Proof.Machine

/-- Lanes on which a port has put its frame from slot `k`, and filler before it, hold nothing of a later slot but the halves of
trailers. -/
theorem Sent.slot_le {p k : Nat} {f : Frame} {s u : State} (h : Sent p k f s u) (hs : s.wire = []) :
    ∀ y ∈ u.wire, y.slot ≤ k ∨ ∃ half, y.item = .sub half := by
  obtain ⟨after, before, hw, hafter, hbefore⟩ := h
  intro y hy
  rw [hw, hs, List.append_nil, List.mem_append, List.mem_cons] at hy
  rcases hy with hy | rfl | hy
  · exact .inr (hafter y hy).2
  · exact .inl le_rfl
  · exact .inl (hbefore y hy).2.1

/-- Port 0 is UP in the 87th slot of its block, and has an error result due in cycle 33. -/
def overlongBlock : State :=
  { State.reset with
      ports := [(0, { Port.reset with st := .up, blk := List.replicate 86 0 })]
      search := { Search.reset with errs := [⟨0, 33, 0⟩] } }

theorem overlongBlock_due : overlongBlock.firstDue (0 : Fin 32) = some (.err ⟨0, 33, 0⟩) ∧
    (overlongBlock.port (0 : Fin 32)).st = .up := by decide +kernel

/-- A command leaves filler on the lanes from a slot past `k`. -/
def fillsPast (k : Nat) (i : Instr) (s : State) : Bool :=
  match exec i s with
  | .next t => t.wire.any fun y => decide (k < y.slot) && (match y.item with | .run _ _ => true | _ => false)
  | _ => false

theorem overlongBlock_fillsPast : fillsPast 165 (.result 0) overlongBlock = true := by decide +kernel

end Sys2Proof.Machine
end

section
open Sys2Proof Sys2Proof.Machine

/-- Refutes O35: a port whose block being sent holds 86 slots, six more than it has when it goes, sends its filler from slot 166
before a result of slot 165. The statement asks nothing of the block. -/
theorem not_resultsLeave : ¬ Obligations.ResultsLeave := by
  intro h
  obtain ⟨hdue, hup⟩ := overlongBlock_due
  obtain ⟨-, herr, -⟩ := h overlongBlock 0
  obtain ⟨u, hu, -, hsent, -⟩ := herr _ hdue
  have hfill := overlongBlock_fillsPast
  rw [fillsPast, hu] at hfill
  obtain ⟨y, hy, hpast⟩ := List.any_eq_true.1 hfill
  rw [Bool.and_eq_true, decide_eq_true_eq] at hpast
  rcases (hsent hup).1.slot_le rfl y hy with hle | ⟨half, hsub⟩
  · exact absurd hle (Nat.not_le.2 hpast.1)
  · rw [hsub] at hpast
    exact Bool.false_ne_true hpast.2

end

section
/-! The winners of lookups (R65, R66, R95): a fold of R95's merge over the live entries that hit gives the best of them, and
counts those that share its priority. -/

namespace Sys2Proof.Machine

/-! ### The merge of R95 -/

/-- How many of some candidates, counted with their `n`, have a priority. -/
def countAt (l : List Best) (prio : Nat) : Nat := (l.map fun b => if b.prio = prio then b.n else 0).sum

@[simp] theorem countAt_append (l m : List Best) (p : Nat) : countAt (l ++ m) p = countAt l p + countAt m p := by
  simp [countAt]

theorem countAt_flatMap {α : Type} (l : List α) (g : α → List Best) (p : Nat) :
    countAt (l.flatMap g) p = (l.map fun a => countAt (g a) p).sum := by
  induction l with
  | nil => rfl
  | cons a t ih => simp [ih]

/-- Candidates of a worse priority do not count. -/
theorem countAt_of_lt {l : List Best} {p : Nat} (h : ∀ b ∈ l, p < b.prio) : countAt l p = 0 := by
  rw [countAt, List.sum_eq_zero_iff_forall_eq_nat]
  intro n hn
  obtain ⟨b, hb, rfl⟩ := List.mem_map.1 hn
  exact if_neg (Nat.ne_of_gt (h b hb))

/-- A candidate ranks before another, or is as good (R65). -/
def Best.before (a b : Best) : Prop := a.prio < b.prio ∨ (a.prio = b.prio ∧ a.call ≤ b.call)

theorem Best.before.trans {a b c : Best} (h : a.before b) (k : b.before c) : a.before c := by
  unfold Best.before at *
  omega

/-- `w` is the best of some candidates, with the number that have its priority (R65, R95). -/
structure Best.Wins (w : Best) (l : List Best) : Prop where
  stands : ∃ b ∈ l, w.prio = b.prio ∧ w.call = b.call ∧ w.ptr = b.ptr ∧ w.plen = b.plen
  first : ∀ b ∈ l, w.before b
  count : w.n = countAt l w.prio

/-- `o` is the winner of some candidates: none when there are none (R65). -/
def Winner (l : List Best) : Option Best → Prop
  | none => l = []
  | some w => w.Wins l

theorem winner_single (b : Best) : Winner [b] (some b) :=
  ⟨⟨b, List.mem_singleton_self b, rfl, rfl, rfl, rfl⟩, fun x hx => by
    rw [List.mem_singleton.1 hx]; exact .inr ⟨rfl, Nat.le_refl _⟩, by simp [countAt]⟩

/-- The winner of one part of the candidates, of a better priority than that of the other part, wins. -/
theorem Best.Wins.append_of_lt {a b : Best} {l m : List Best} (ha : a.Wins l) (hb : b.Wins m) (h : a.prio < b.prio) :
    a.Wins (l ++ m) := by
  have hlt : ∀ x ∈ m, a.prio < x.prio := fun x hx => by
    have := hb.first x hx
    unfold Best.before at this
    omega
  obtain ⟨x, hx, hxs⟩ := ha.stands
  refine ⟨⟨x, List.mem_append_left m hx, hxs⟩, fun y hy => ?_, by rw [countAt_append, countAt_of_lt hlt]; exact ha.count⟩
  rcases List.mem_append.1 hy with hy | hy
  · exact ha.first y hy
  · exact .inl (hlt y hy)

/-- Of two winners of one priority that with the lower call number wins, and counts for both. -/
theorem Best.Wins.append_of_eq {a b : Best} {l m : List Best} (ha : a.Wins l) (hb : b.Wins m) (h : a.prio = b.prio)
    (hc : a.call ≤ b.call) : ({ a with n := a.n + b.n } : Best).Wins (l ++ m) := by
  obtain ⟨x, hx, hxs⟩ := ha.stands
  refine ⟨⟨x, List.mem_append_left m hx, hxs⟩, fun y hy => ?_, ?_⟩
  · rcases List.mem_append.1 hy with hy | hy
    · exact ha.first y hy
    · exact Best.before.trans (.inr ⟨h, hc⟩) (hb.first y hy)
  · rw [countAt_append, ha.count, hb.count, h]

theorem Best.Wins.comm {w : Best} {l m : List Best} (h : w.Wins (l ++ m)) : w.Wins (m ++ l) :=
  ⟨by simpa only [List.mem_append, or_comm] using h.stands, fun b hb => h.first b (by simpa [or_comm] using hb),
    by rw [h.count]; simp [Nat.add_comm]⟩

/-- The merge of the winners of two parts is the winner of both (R95). -/
theorem winner_mergeBest {l m : List Best} {a b : Option Best} (ha : Winner l a) (hb : Winner m b) :
    Winner (l ++ m) (mergeBest a b) := by
  cases a with
  | none => rw [show l = [] from ha]; cases b <;> exact hb
  | some a =>
    cases b with
    | none => rw [show m = [] from hb, List.append_nil]; exact ha
    | some b =>
      simp only [mergeBest]
      split
      · split
        · exact Best.Wins.append_of_lt ha hb ‹_›
        · exact (Best.Wins.append_of_lt hb ha (by omega)).comm
      · rename_i h
        have h : a.prio = b.prio := not_not.1 h
        split
        · exact Best.Wins.append_of_eq ha hb h (Nat.le_of_lt ‹_›)
        · rw [Nat.add_comm a.n]
          exact (Best.Wins.append_of_eq hb ha h.symm (by omega)).comm

/-- A fold that adds the candidates of each item to the winner so far gives the winner of them all. -/
theorem winner_foldl {α : Type} {f : Option Best → α → Option Best} {g : α → List Best}
    (hf : ∀ l o a, Winner l o → Winner (l ++ g a) (f o a)) (xs : List α) {l : List Best} {o : Option Best} (h : Winner l o) :
    Winner (l ++ xs.flatMap g) (xs.foldl f o) := by
  induction xs generalizing l o with
  | nil => simpa using h
  | cons a t ih => simpa using ih (hf l o a h)

/-! ### Ternary lookups -/

section
variable (s : State) (d : Trn) (device bay mat key : Nat) (e : Edition)

/-- The entry at a row of a compared mat is live and hits (R64, R73). -/
def State.liveHit (r : Nat × BitVec 96) : Bool :=
  (sideOf r.2).role = 1 && (sideOf r.2).width = widthCode d.k &&
    liveAt d.direct (sideOf r.2).valid (sideOf r.2).rset (sideOf r.2).first (sideOf r.2).retiring e &&
    s.entryHit d.k bay mat r.1 key

/-- What an entry that hits brings to the merge (R95). -/
def rowBest (r : Nat × BitVec 96) : Best :=
  ⟨(sideOf r.2).prio, callNumber device bay mat r.1, 1, if d.direct then 0 else (sideOf r.2).first.toNat, (sideOf r.2).ptr,
    (sideOf r.2).plen⟩

/-- The candidates of one mat set of one bay. -/
def State.matHits : List Best :=
  ((s.usedRows bay mat).filter (s.liveHit d bay mat key e)).map (rowBest d device bay mat)

/-- The candidates of the sets compared in some bays (R85). -/
def State.trnHits (bays : List Nat) : List Best :=
  bays.flatMap fun b => (comparedMats d key).flatMap fun m => s.matHits d device b m key e

theorem State.winner_matBest : Winner (s.matHits d device bay mat key e) (s.matBest d device bay mat key e) := by
  have hrows : s.matHits d device bay mat key e = (s.usedRows bay mat).flatMap fun r =>
      if s.liveHit d bay mat key e r then [rowBest d device bay mat r] else [] := by
    rw [State.matHits]
    induction s.usedRows bay mat with
    | nil => rfl
    | cons r t ih => by_cases h : s.liveHit d bay mat key e r = true <;> simp [h, ih]
  rw [hrows]
  refine winner_foldl (l := []) (o := none) (fun l o r h => ?_) _ rfl
  show Winner _ (if s.liveHit d bay mat key e r = true then mergeBest o (some (rowBest d device bay mat r)) else o)
  split
  · exact winner_mergeBest h (winner_single _)
  · simpa using h

/-- The winner of a ternary lookup is that of the live entries that hit in the sets compared (R65). -/
theorem State.winner_trnBest (bays : List Nat) :
    Winner (s.trnHits d device key e bays) (s.trnBest d device bays key e) :=
  winner_foldl (l := []) (o := none) (fun _ _ b h =>
    winner_foldl (fun _ _ m h => winner_mergeBest h (s.winner_matBest d device b m key e)) _ h) _ rfl

variable {s d device bay mat key e}

theorem State.mem_trnHits {bays : List Nat} {b : Best} : b ∈ s.trnHits d device key e bays ↔
    ∃ l ∈ bays, ∃ m ∈ comparedMats d key, ∃ r ∈ s.usedRows l m, s.liveHit d l m key e r = true ∧
      rowBest d device l m r = b := by
  simp only [State.trnHits, State.matHits, List.mem_flatMap, List.mem_map, List.mem_filter, and_assoc]

theorem State.countAt_matHits (prio : Nat) : countAt (s.matHits d device bay mat key e) prio =
    (s.usedRows bay mat).countP fun r => decide ((sideOf r.2).prio = prio) && s.liveHit d bay mat key e r := by
  rw [State.matHits]
  induction s.usedRows bay mat with
  | nil => rfl
  | cons r t ih =>
    rw [List.countP_cons, ← ih]
    by_cases h : s.liveHit d bay mat key e r = true <;> by_cases hp : (sideOf r.2).prio = prio <;>
      simp [h, hp, countAt, rowBest, Nat.add_comm]

end

/-! ### Prefix lookups -/

/-- A fold of `longer` gives an entry that is none shorter than the others. -/
theorem foldl_longer (l : List PfxEntry) (a : PfxEntry) :
    ∃ x, l.foldl longer (some a) = some x ∧ x ∈ a :: l ∧ ∀ y ∈ a :: l, y.len ≤ x.len := by
  induction l generalizing a with
  | nil => exact ⟨a, rfl, List.mem_singleton_self a, by simp⟩
  | cons b t ih =>
    by_cases h : a.len < b.len
    · obtain ⟨x, hx, hmem, hall⟩ := ih b
      have hb := hall b List.mem_cons_self
      refine ⟨x, by simpa [longer, h] using hx, List.mem_cons_of_mem a hmem, fun y hy => ?_⟩
      rcases List.mem_cons.1 hy with rfl | hy
      · omega
      · exact hall y hy
    · obtain ⟨x, hx, hmem, hall⟩ := ih a
      have ha := hall a List.mem_cons_self
      refine ⟨x, by simpa [longer, h] using hx, ?_, fun y hy => ?_⟩
      · rcases List.mem_cons.1 hmem with rfl | hmem
        · exact List.mem_cons_self
        · exact List.mem_cons_of_mem a (List.mem_cons_of_mem b hmem)
      · rcases List.mem_cons.1 hy with rfl | hy
        · exact ha
        · rcases List.mem_cons.1 hy with rfl | hy
          · omega
          · exact hall y (List.mem_cons_of_mem a hy)

section
variable {direct : Bool} {es : List PfxEntry} {k : Nat} {e : Edition}

/-- The entries from which the longest is taken (R66). -/
theorem mem_coveringLive {x : PfxEntry} : x ∈ (es.filter fun x => x.covers k && x.live direct e) ↔
    x ∈ es ∧ x.covers k = true ∧ x.live direct e = true := by
  rw [List.mem_filter, Bool.and_eq_true]

theorem longestLive_eq_none : longestLive direct es k e = none ↔ ∀ x ∈ es, ¬ (x.covers k = true ∧ x.live direct e = true) := by
  rw [longestLive]
  cases h : es.filter fun x => x.covers k && x.live direct e with
  | nil =>
    simp only [List.foldl_nil, true_iff]
    intro x hx hl
    exact List.not_mem_nil (h ▸ mem_coveringLive.2 ⟨hx, hl⟩)
  | cons a t =>
    obtain ⟨x, hx, -⟩ := foldl_longer t a
    obtain ⟨ha, hl⟩ := mem_coveringLive.1 (h.symm ▸ List.mem_cons_self : a ∈ es.filter fun x => x.covers k && x.live direct e)
    simp only [List.foldl_cons, longer, hx, reduceCtorEq, false_iff, not_forall, not_not]
    exact ⟨a, ha, hl⟩

theorem longestLive_eq_some {x : PfxEntry} (h : longestLive direct es k e = some x) :
    (x ∈ es ∧ x.covers k = true ∧ x.live direct e = true) ∧
      ∀ y ∈ es, y.covers k = true → y.live direct e = true → y.len ≤ x.len := by
  rw [longestLive] at h
  cases hl : es.filter fun x => x.covers k && x.live direct e with
  | nil => rw [hl] at h; cases h
  | cons a t =>
    rw [hl] at h
    obtain ⟨z, hz, hmem, hall⟩ := foldl_longer t a
    obtain rfl : z = x := Option.some.inj (hz.symm.trans h)
    exact ⟨mem_coveringLive.1 (hl ▸ hmem), fun y hy hc hv => hall y (hl ▸ mem_coveringLive.2 ⟨hy, hc, hv⟩)⟩

end

end Sys2Proof.Machine
end

section
/-! The answer word of a key (R119 to R121): between two editions the longest live entry changes only at one where an entry that
covers the key comes or goes, so a word with the first change selects rightly as long as there is no second. -/

namespace Sys2Proof.Machine

/-! ### Editions at which the answer changes -/

theorem mem_insertNew {α : Type} [DecidableEq α] {x y : α} {l : List α} : y ∈ insertNew x l ↔ y = x ∨ y ∈ l := by
  rw [insertNew]
  split
  · exact ⟨.inr, fun h => h.elim (· ▸ ‹_›) id⟩
  · simp [or_comm]

/-- The editions that an entry brings to those at which an answer may change (R121). -/
def addLimits (l : List Edition) (x : PfxEntry) : List Edition :=
  if x.rset then insertNew x.retiring (insertNew x.first l) else insertNew x.first l

theorem mem_addLimits {l : List Edition} {x : PfxEntry} {c : Edition} :
    c ∈ addLimits l x ↔ c = x.first ∨ (x.rset = true ∧ c = x.retiring) ∨ c ∈ l := by
  rw [addLimits]
  split <;> rename_i h <;> simp [mem_insertNew, h, or_left_comm]

/-- The first and the retiring edition of each of some entries are among those collected. -/
theorem mem_foldl_addLimits {es : List PfxEntry} {x : PfxEntry} {c : Edition} (hx : x ∈ es)
    (hc : c = x.first ∨ (x.rset = true ∧ c = x.retiring)) (l : List Edition) : c ∈ es.foldl addLimits l := by
  have keeps : ∀ (es : List PfxEntry) (l : List Edition), c ∈ l → c ∈ es.foldl addLimits l := by
    intro es
    induction es with
    | nil => exact fun _ h => h
    | cons y t ih => exact fun l h => ih _ (mem_addLimits.2 (.inr (.inr h)))
  induction es generalizing l with
  | nil => cases hx
  | cons y t ih =>
    rcases List.mem_cons.1 hx with rfl | hx
    · exact keeps t _ (mem_addLimits.2 (hc.elim .inl (.inr ∘ .inl)))
    · exact ih hx _

theorem longestLive_covering (es : List PfxEntry) (k : Nat) (e : Edition) :
    longestLive false (es.filter (·.covers k)) k e = longestLive false es k e := by
  rw [longestLive, longestLive, List.filter_filter]
  congr 2
  funext x
  cases x.covers k <;> simp

/-- An edition after `b` at which a covering entry comes or goes is a change when the answer is another there (R121). -/
theorem mem_changes {es : List PfxEntry} {b c : Edition} {k : Nat} {x : PfxEntry} (hx : x ∈ es) (hk : x.covers k = true)
    (hc : c = x.first ∨ (x.rset = true ∧ c = x.retiring)) (hb : edLe (b + 1) c = true)
    (hne : longestLive false es k (c - 1) ≠ longestLive false es k c) : c ∈ changes es b k := by
  refine List.mem_filter.2 ⟨mem_foldl_addLimits (List.mem_filter.2 ⟨hx, hk⟩) hc [], ?_⟩
  rw [longestLive_covering, longestLive_covering, hb, Bool.true_and, decide_eq_true_eq]
  exact hne

/-- Whether an edition has come is another question from one edition to the next only where it comes and 16,384 editions
later, where it leaves the window (R64). -/
theorem edLe_pred {a c : Edition} (h : c ≠ a) (hw : c ≠ a + 16384) : edLe a (c - 1) = edLe a c := by
  rw [edLe, edLe, decide_eq_decide]
  bv_omega

theorem PfxEntry.live_pred {x : PfxEntry} {c : Edition} (hf : c ≠ x.first) (hr : ¬ (x.rset = true ∧ c = x.retiring))
    (hw : c ≠ x.first + 16384 ∧ c ≠ x.retiring + 16384) : x.live false (c - 1) = x.live false c := by
  simp only [PfxEntry.live, liveAt, Bool.false_eq_true, if_false, edLe_pred hf hw.1]
  cases hset : x.rset with
  | false => rfl
  | true => rw [edLe_pred (fun h => hr ⟨hset, h⟩) hw.2]

/-- The answer stays from one edition to the next when that is no change and no stamp leaves the window (R121). -/
theorem longestLive_pred {es : List PfxEntry} {b c : Edition} {k : Nat} (hb : edLe (b + 1) c = true)
    (hw : ∀ x ∈ es, c ≠ x.first + 16384 ∧ c ≠ x.retiring + 16384) (hc : c ∉ changes es b k) :
    longestLive false es k (c - 1) = longestLive false es k c := by
  by_contra hne
  refine hne ?_
  rw [longestLive, longestLive]
  congr 1
  refine List.filter_congr fun x hx => ?_
  cases hk : x.covers k with
  | false => rfl
  | true =>
    rw [PfxEntry.live_pred (fun h => hc (mem_changes hx hk (.inl h) hb hne)) (fun h => hc (mem_changes hx hk (.inr h) hb hne))
      (hw x hx)]

/-- The answer stays over editions none of which is a change (R121). -/
theorem longestLive_of_no_change {es : List PfxEntry} {b : Edition} {k n : Nat} (hn : n < 16384)
    (hw : ∀ x ∈ es, ∀ m, m ≤ n → b + BitVec.ofNat 16 m ≠ x.first + 16384 ∧ b + BitVec.ofNat 16 m ≠ x.retiring + 16384)
    {i j : Nat} (hij : i ≤ j) (hjn : j ≤ n) (hc : ∀ m, i < m → m ≤ j → b + BitVec.ofNat 16 m ∉ changes es b k) :
    longestLive false es k (b + BitVec.ofNat 16 j) = longestLive false es k (b + BitVec.ofNat 16 i) := by
  induction j, hij using Nat.le_induction with
  | base => rfl
  | succ j hij ih =>
    have hpred : b + BitVec.ofNat 16 (j + 1) - 1 = b + BitVec.ofNat 16 j := by bv_omega
    have hb : edLe (b + 1) (b + BitVec.ofNat 16 (j + 1)) = true := by
      rw [edLe, decide_eq_true_eq]
      bv_omega
    rw [← longestLive_pred hb (fun x hx => hw x hx (j + 1) hjn) (hc (j + 1) (by omega) (Nat.le_refl _)), hpred]
    exact ih (by omega) fun m h1 h2 => hc m h1 (by omega)

/-! ### The word -/

/-- A half of an answer word: whether a record answers, and its index (R119). -/
def answerHalf (slice : Nat) (o : Option PfxEntry) : Bool × Nat :=
  match o with | some x => (true, x.recIdx slice) | none => (false, 0)

theorem answerHalf_selects (slice : Nat) (o : Option PfxEntry) :
    (if (answerHalf slice o).1 then some (answerHalf slice o).2 else none) = o.map fun x => x.recIdx slice := by
  cases o <;> rfl

/-- A word without a change answers as at the edition from which it is written (R119, R120). -/
theorem answerOf_version_of_nil {es : List PfxEntry} {slice k : Nat} {b : Edition} (h : changes es b k = []) (e : Edition) :
    (answerOf false es slice b k).version e = (longestLive false es k b).map fun x => x.recIdx slice := by
  have hword : answerOf false es slice b k = ⟨false, 0, false, 0, (answerHalf slice (longestLive false es k b)).1,
      (answerHalf slice (longestLive false es k b)).2⟩ := by
    simp only [answerOf, h, firstChange]
    rfl
  rw [hword, ← answerHalf_selects]
  rfl

/-- A word with one change answers as at it from it on, and before as at the edition from which it is written (R119, R120). -/
theorem answerOf_version_of_single {es : List PfxEntry} {slice k : Nat} {b c : Edition} (h : changes es b k = [c]) (e : Edition) :
    (answerOf false es slice b k).version e =
      (longestLive false es k (if edLe c e then c else b)).map fun x => x.recIdx slice := by
  have hword : answerOf false es slice b k = ⟨true, c, (answerHalf slice (longestLive false es k b)).1,
      (answerHalf slice (longestLive false es k b)).2, (answerHalf slice (longestLive false es k c)).1,
      (answerHalf slice (longestLive false es k c)).2⟩ := by
    simp only [answerOf, h, firstChange]
    rfl
  rw [hword, ← answerHalf_selects, AnsWord.version]
  cases edLe c e <;> rfl

/-- The answer word of a key selects the record of the longest live entry at every later edition of the window (R119 to R121). -/
theorem answerOf_version {es : List PfxEntry} {slice k : Nat} {b e : Edition} (he : edLe b e = true)
    (hlen : (changes es b k).length ≤ 1)
    (hw : ∀ x ∈ es, ∀ n, n ≤ (e - b).toNat → b + BitVec.ofNat 16 n ≠ x.first + 16384 ∧
      b + BitVec.ofNat 16 n ≠ x.retiring + 16384) :
    (answerOf false es slice b k).version e = (longestLive false es k e).map fun x => x.recIdx slice := by
  have hn : (e - b).toNat < 16384 := by simpa [edLe] using he
  have hb0 : b + BitVec.ofNat 16 0 = b := by bv_omega
  have hbe : b + BitVec.ofNat 16 (e - b).toNat = e := by bv_omega
  match hch : changes es b k with
  | [] =>
    have hstay := longestLive_of_no_change (k := k) hn hw (Nat.zero_le _) (Nat.le_refl _) fun m _ _ => by simp [hch]
    rw [hbe, hb0] at hstay
    rw [answerOf_version_of_nil hch, hstay]
  | [c] =>
    have hafter : edLe (b + 1) c = true := by
      have hmem : c ∈ changes es b k := by simp [hch]
      exact (Bool.and_eq_true _ _ ▸ (List.mem_filter.1 hmem).2).1
    have hc : (c - (b + 1)).toNat < 16384 := by simpa [edLe] using hafter
    have hbc : b + BitVec.ofNat 16 (c - b).toNat = c := by bv_omega
    rw [answerOf_version_of_single hch]
    by_cases hce : (c - b).toNat ≤ (e - b).toNat
    · have hcome : edLe c e = true := by
        rw [edLe, decide_eq_true_eq]
        bv_omega
      have hstay := longestLive_of_no_change (k := k) hn hw hce (Nat.le_refl _) fun m h1 h2 => by
        rw [hch, List.mem_singleton]
        bv_omega
      rw [hbe, hbc] at hstay
      rw [hcome, if_pos rfl, hstay]
    · have hahead : edLe c e = false := by
        rw [edLe, decide_eq_false_iff_not]
        bv_omega
      have hstay := longestLive_of_no_change (k := k) hn hw (Nat.zero_le _) (Nat.le_refl _) fun m h1 h2 => by
        rw [hch, List.mem_singleton]
        bv_omega
      rw [hbe, hb0] at hstay
      rw [hahead, if_neg Bool.false_ne_true, hstay]
  | _ :: _ :: _ => simp [hch] at hlen

end Sys2Proof.Machine
end

section
open Sys2Proof Sys2Proof.Machine

/-- Settles O33: the fold of R95 gives the winner of the live entries that hit, the fold of `longer` the longest entry, and the
answer word follows the one change that it carries. -/
theorem winnersOfLookups : Obligations.WinnersOfLookups := by
  refine ⟨fun s d device bays key e => ?_, fun direct es k e => ⟨longestLive_eq_none, fun x hx => ?_⟩,
    fun es slice k b e => answerOf_version⟩
  · intro live
    have hmem : ∀ b m r, live b m r → rowBest d device b m r ∈ s.trnHits d device key e bays := by
      rintro b m r ⟨hb, hm, hr, hrole, hwidth, hlive, hhit⟩
      exact State.mem_trnHits.2 ⟨b, hb, m, hm, r, hr, by simp [State.liveHit, hrole, hwidth, hlive, hhit], rfl⟩
    have hlive : ∀ x ∈ s.trnHits d device key e bays, ∃ b m r, live b m r ∧ rowBest d device b m r = x := by
      intro x hx
      obtain ⟨b, hb, m, hm, r, hr, hl, rfl⟩ := State.mem_trnHits.1 hx
      simp only [State.liveHit, Bool.and_eq_true, decide_eq_true_eq] at hl
      obtain ⟨⟨⟨hrole, hwidth⟩, hl⟩, hhit⟩ := hl
      exact ⟨b, m, r, ⟨hb, hm, hr, hrole, hwidth, hl, hhit⟩, rfl⟩
    have hwin := s.winner_trnBest d device key e bays
    refine ⟨⟨fun h b m r hl => ?_, fun h => ?_⟩, fun w hw => ?_⟩
    · rw [h] at hwin
      exact List.not_mem_nil ((show _ = [] from hwin) ▸ hmem b m r hl)
    · cases hbest : s.trnBest d device bays key e with
      | none => rfl
      | some w =>
        rw [hbest] at hwin
        obtain ⟨x, hx, -⟩ := hwin.stands
        obtain ⟨b, m, r, hl, -⟩ := hlive x hx
        exact absurd hl (h b m r)
    · rw [hw] at hwin
      obtain ⟨⟨x, hx, hprio, hcall, hptr, hplen⟩, hfirst, hcount⟩ := hwin
      obtain ⟨b, m, r, hl, rfl⟩ := hlive x hx
      refine ⟨⟨b, m, r, hl, hprio, hcall, hptr, hplen⟩, fun b m r hl => hfirst _ (hmem b m r hl), hcount.trans ?_⟩
      simp only [State.trnHits, countAt_flatMap, State.countAt_matHits]
      congr 3
      funext b
      congr 2
      funext m
      congr 1
      funext r
      simp only [State.liveHit, Bool.decide_and]
      ac_rfl
  · obtain ⟨⟨hmem, hcov, hl⟩, hlong⟩ := longestLive_eq_some hx
    exact ⟨hmem, hcov, hl, hlong⟩

end

section
/-! Intake (R37 to R41, R45, R63, R290, R312): what a clash, an instruction launched and a rejected frame leave, and which of them
a frame meets. -/

namespace Sys2Proof.Machine

/-! ### Records of a room -/

/-- The record that the daybook would write for an event of a room (R364). -/
def State.roomRec (s : State) (c : Code) (room src : Nat) (f : List (Nat × Nat)) (dir : Nat) : Rec :=
  ⟨BitVec.ofNat 64 s.now, BitVec.ofNat 16 c.num, BitVec.ofNat 8 src, BitVec.ofNat 4 room, true, BitVec.ofNat 2 (s.codeCfg c),
    BitVec.ofNat 2 dir, detailOf f⟩

/-- A record of a room that finds the room's ring open stands in it (R364, R365). -/
theorem State.recorded_room {s : State} {c : Code} {room : Nat} (src : Nat) (f : List (Nat × Nat)) (dir : Nat)
    (hc : c.info.2.2 = .room) (h : s.ringOpen room) : (s.record c (some room) src f dir).recorded room c := by
  have hrings : (s.record c (some room) src f dir).rings = (s.toRing room (s.roomRec c room src f dir)).rings := by
    simp only [State.record, hc]
    split <;> rfl
  refine ⟨s.roomRec c room src f dir, ?_, rfl⟩
  rw [State.ring, hrings]
  exact State.mem_toRing _ h

/-! ### The frame on its way -/

/-- A frame that leaves the link changes the port that it came on alone (log 75). -/
theorem State.fromLink_eq (s : State) (p : Nat) (f : Frame) (age : Nat) :
    ∃ l, (s.fromLink p f age).2 = { s with ports := l } := by
  simp only [State.fromLink]
  split
  · exact ⟨_, rfl⟩
  · exact ⟨s.ports, rfl⟩

theorem searchHdr_room_lt (h : Granule) : (searchHdr h).room < 16 := Nat.mod_lt _ (by decide)

/-! ### Clashes -/

/-- A clash is counted and recorded, and changes nothing else (R45). -/
theorem State.clash_spec (s : State) {port : Nat} (hp : port < 32) {h : SearchHdr} (hr : h.room < 16) (status : Nat) :
    (s.clash port h status).reg .portWinClash port = wrapAdd 32 (s.reg .portWinClash port) 1 ∧
      RegsBut [Obj.portWinClash.key port] s (s.clash port h status) ∧ Touches [.regs] s (s.clash port h status) := by
  have hrec : OnlyRecords (s.bump .portWinClash port) (s.clash port h status) :=
    onlyRecords_record _ _ _ _ _ _ fun r hx => Option.some.inj hx ▸ hr
  exact ⟨(hrec.reg _ _ _ _ (portKey_not_daybook hp rfl rfl (by decide))).trans (State.reg_bump s _ _),
    (regsBut_setReg s .portWinClash port 0 0 _).trans (hrec.regsBut _), (touches_setReg s _ _ _ _ _).of_records hrec⟩

/-! ### Instructions launched -/

/-- `y` is `x` with the records of further senders in its merge (R304). -/
def Inflight.Joined (x y : Inflight) : Prop :=
  y = x ∨ ∃ c senders recs, x.cas = some c ∧ y = { x with cas := some { c with senders := senders, recs := recs } }

theorem Inflight.Joined.trans {x y z : Inflight} (h : x.Joined y) (k : y.Joined z) : x.Joined z := by
  rcases k with rfl | ⟨c, ss, rs, hc, rfl⟩
  · exact h
  · rcases h with rfl | ⟨c', ss', rs', hc', rfl⟩
    · exact .inr ⟨c, ss, rs, hc, rfl⟩
    · obtain rfl := Option.some.inj hc
      exact .inr ⟨c', ss, rs, hc', rfl⟩

/-- What does not look at the cascade part is the same. -/
theorem Inflight.Joined.same {x y : Inflight} (h : x.Joined y) {α : Type} (g : Inflight → α)
    (hg : ∀ (x : Inflight) c, g { x with cas := c } = g x) : g y = g x := by
  rcases h with rfl | ⟨c, ss, rs, hc, rfl⟩
  · rfl
  · exact hg x _

/-- The cascade part keeps the part that the device plays, its set and its status. -/
theorem Inflight.Joined.cas {x y : Inflight} (h : x.Joined y) {c : CasPart} (hc : x.cas = some c) :
    ∃ c', y.cas = some c' ∧ c'.part = c.part ∧ c'.set = c.set ∧ c'.status = c.status := by
  rcases h with rfl | ⟨c', ss, rs, hc', rfl⟩
  · exact ⟨c, hc, rfl, rfl, rfl⟩
  · obtain rfl := Option.some.inj (hc.symm.trans hc')
    exact ⟨_, rfl, rfl, rfl, rfl⟩

/-- A frame that joins a merge adds its sender and its records (R304, R305). -/
theorem Inflight.absorb_spec (x : Inflight) (h : CandHdr) (body : List Granule) (s : State) :
    x.Joined (x.absorb h body s).1 ∧ Touches [.regs] s (x.absorb h body s).2 := by
  cases hc : x.cas with
  | none => simp only [Inflight.absorb, hc]; exact ⟨.inl rfl, Touches.refl _ _⟩
  | some c =>
    obtain ⟨hpart, htouch, -⟩ := takeRecs_spec { c with senders := c.senders ++ [h.sender] } x.edition body s
    simp only [Inflight.absorb, hc, hpart]
    exact ⟨.inr ⟨c, _, _, hc, rfl⟩, htouch⟩

/-- A waiting frame that matches joins the merge, or repeats its sender and is discarded (R304, R305). -/
theorem absorbPending_cons {x : Inflight} {p : PendCand} {s : State} (t : List PendCand)
    (h : ¬ (!x.matchesCand (candHdr p.frame.hdr) || !decide (s.now ≤ p.arrived + 10240)) = true) :
    ∃ y u, x.Joined y ∧ Touches [.regs] s u ∧ absorbPending x (p :: t) s = absorbPending y t u := by
  by_cases hagain : ∃ c, x.cas = some c ∧ c.senders.contains (candHdr p.frame.hdr).sender = true
  · obtain ⟨c, hc, hs⟩ := hagain
    exact ⟨x, s.bump .casDup, .inl rfl, touches_setReg s _ _ _ _ _, by simp only [absorbPending, if_neg h, hc, hs, if_true]⟩
  · obtain ⟨hj, ht⟩ := x.absorb_spec (candHdr p.frame.hdr) p.frame.body s
    refine ⟨_, _, hj, ht, ?_⟩
    simp only [absorbPending, if_neg h]
    refine if_neg fun hs => hagain ?_
    split at hs
    · exact ⟨_, ‹_›, hs⟩
    · cases hs

/-- The waiting frames that an instruction takes join its merge (R304). -/
theorem absorbPending_spec (x : Inflight) (l : List PendCand) (s : State) :
    x.Joined (absorbPending x l s).1 ∧ Touches [.regs] s (absorbPending x l s).2.2 := by
  induction l generalizing x s with
  | nil => exact ⟨.inl rfl, Touches.refl _ _⟩
  | cons p t ih =>
    by_cases h : (!x.matchesCand (candHdr p.frame.hdr) || !decide (s.now ≤ p.arrived + 10240)) = true
    · simp only [absorbPending, if_pos h]
      exact ih x s
    · obtain ⟨y, u, hj, ht, he⟩ := absorbPending_cons t h
      obtain ⟨hj', ht'⟩ := ih y u
      rw [he]
      exact ⟨hj.trans hj', ht.trans ht'⟩

/-- An instruction without a cascade part takes no frame (R304). -/
theorem absorbPending_of_none {x : Inflight} (hx : x.cas = none) (l : List PendCand) (s : State) :
    absorbPending x l s = (x, l, s) := by
  induction l generalizing s with
  | nil => rfl
  | cons p t ih =>
    have hm : x.matchesCand (candHdr p.frame.hdr) = false := by rw [Inflight.matchesCand, hx]
    simp [absorbPending, hm, ih]

/-- An instruction launched is the last of those in flight (R304). -/
theorem State.launch_spec (s : State) (x : Inflight) :
    ∃ y, x.Joined y ∧ (s.launch x).search.flight = s.search.flight ++ [y] ∧ Touches [.search, .regs, .cas] s (s.launch x) := by
  obtain ⟨hj, ht⟩ := absorbPending_spec x s.cas.pend s
  let r := absorbPending x s.cas.pend s
  have hsearch : r.2.2.search = s.search := ht .search (by simp)
  refine ⟨r.1, hj, by rw [← hsearch]; rfl, ?_⟩
  exact ((ht.mono (by simp)).followed (touches_cas r.2.2 { r.2.2.cas with pend := r.2.1 }) (by simp)).followed
    (touches_search _ _) (by simp)

/-- One without a cascade part joins those in flight, and nothing else changes. -/
theorem State.launch_of_none (s : State) {x : Inflight} (hx : x.cas = none) :
    s.launch x = { s with search := { s.search with flight := s.search.flight ++ [x], nextId := s.search.nextId + 1 } } := by
  simp only [State.launch, absorbPending_of_none hx]

/-! ### What a frame meets -/

/-- The port has noted the cycle of the frame's last granule (R37). -/
def State.noted (s : State) (port a : Nat) : State :=
  { s with search := { s.search with lastAt := sput (fun _ => 0) s.search.lastAt port (a + 1) } }

theorem State.touches_noted (s : State) (port a : Nat) : Touches [.search] s (s.noted port a) := touches_search s _

/-- The frame comes too early after the one before it on its port (R37). -/
def State.paced (s : State) (port a : Nat) : Bool :=
  decide (sget (fun _ => 0) s.search.lastAt port ≠ 0 ∧ a + 1 < sget (fun _ => 0) s.search.lastAt port + 2)

/-- Its program names a set, and the cascade exchange is barred (R312). -/
def State.barredAt (s : State) (t prog : Nat) : Prop :=
  ((s.viewAt t).progSet prog).isSome = true ∧ (s.cas.quarantined = true ∨ nbit ((s.viewAt t).obj .casSelf) 14 = true)

section
variable {s : State} {port a t : Nat} {f : Frame}

theorem State.intake_barred (hb : s.barredAt t (searchHdr f.hdr).prog) :
    s.intake port a t f = (s.noted port a).bump .casQuarDrop := by
  obtain ⟨hset, hbar⟩ := hb
  simp only [State.intake]
  refine if_pos ?_
  rw [hset, Bool.true_and, Bool.or_eq_true]
  exact hbar

variable (hb : ¬ s.barredAt t (searchHdr f.hdr).prog)
include hb

theorem State.intake_judged : s.intake port a t f =
    match s.intakeStatus (s.viewAt t) port t (searchHdr f.hdr) (frameLen f) (s.paced port a) with
    | some st => (s.noted port a).reject (s.viewAt t) port a t st (searchHdr f.hdr) ((s.viewAt t).progSet (searchHdr f.hdr).prog)
    | none => (s.noted port a).accept (s.viewAt t) port a t (searchHdr f.hdr)
        ((f.body.flatMap granuleBytes).take (searchHdr f.hdr).keylen) ((s.viewAt t).progSet (searchHdr f.hdr).prog) := by
  simp only [State.intake]
  rw [if_neg]
  · rfl
  · rw [Bool.and_eq_true, Bool.or_eq_true]
    exact hb

theorem State.intake_rejected {st : Nat}
    (h : s.intakeStatus (s.viewAt t) port t (searchHdr f.hdr) (frameLen f) (s.paced port a) = some st) :
    s.intake port a t f =
      (s.noted port a).reject (s.viewAt t) port a t st (searchHdr f.hdr) ((s.viewAt t).progSet (searchHdr f.hdr).prog) := by
  rw [State.intake_judged hb, h]

theorem State.intake_accepted
    (h : s.intakeStatus (s.viewAt t) port t (searchHdr f.hdr) (frameLen f) (s.paced port a) = none) :
    s.intake port a t f = (s.noted port a).accept (s.viewAt t) port a t (searchHdr f.hdr)
      ((f.body.flatMap granuleBytes).take (searchHdr f.hdr).keylen) ((s.viewAt t).progSet (searchHdr f.hdr).prog) := by
  rw [State.intake_judged hb, h]

end

/-! ### Rejected frames -/

section
variable {s : State} {v : View} {port a t st : Nat} {h : SearchHdr}

/-- The record of a rejected frame (R37). -/
def State.rejectLogged (s : State) (port st : Nat) (h : SearchHdr) : State :=
  s.record .srchReject (some h.room) (srcPort port) [(8, st), (8, h.tag), (8, h.prog), (8, port)]

section
variable (hr : h.room < 16)
include hr

theorem State.onlyRecords_rejectLogged : OnlyRecords s (s.rejectLogged port st h) :=
  onlyRecords_record _ _ _ _ _ _ fun _ hx => Option.some.inj hx ▸ hr

/-- A rejected frame of a set's program by the part of the device (R290). -/
theorem State.reject_of_set (n : Nat) : s.reject v port a t st h (some n) =
    let part := (v.set n).partOf (v.device s.dev.straps) ((v.set n).ownerOf h.ctx)
    if (v.prog h.prog).enable = false ∨ part = .owner then (s.rejectLogged port st h).errorResult v port a h st
    else if part = .nobody then (s.rejectLogged port st h).bump .casNoOwner
    else (s.rejectLogged port st h).launch (newFlight v (s.rejectLogged port st h) port a t st h []
      (some (casPartOf v (v.device s.dev.straps) n h.prog st h.ctx))) := by
  have hstraps : (s.rejectLogged port st h).dev.straps = s.dev.straps :=
    straps_of_core (State.onlyRecords_rejectLogged hr).dev
  rw [← hstraps]
  simp only [State.reject, Bool.or_eq_true, Bool.not_eq_true', decide_eq_true_eq]
  rfl

/-- It is answered by an error result when its program is disabled, names no set, or is the owner's (R38, R290). -/
theorem State.reject_answered {set : Option Nat} (hs : ∀ n, set = some n → (v.prog h.prog).enable = false ∨
      (v.set n).partOf (v.device s.dev.straps) ((v.set n).ownerOf h.ctx) = .owner) :
    s.reject v port a t st h set = (s.rejectLogged port st h).errorResult v port a h st := by
  cases set with
  | none => rfl
  | some n => rw [State.reject_of_set hr]; exact if_pos (hs n rfl)

/-- On a device whose set names an owner outside it, it is counted (R290). -/
theorem State.reject_nobody {n : Nat} (he : (v.prog h.prog).enable = true)
    (hp : (v.set n).partOf (v.device s.dev.straps) ((v.set n).ownerOf h.ctx) = .nobody) :
    s.reject v port a t st h (some n) = (s.rejectLogged port st h).bump .casNoOwner := by
  rw [State.reject_of_set hr]
  simp [he, hp]

/-- On a member or a collector, it is launched as a rejected replica (R290). -/
theorem State.reject_replica {n : Nat} (he : (v.prog h.prog).enable = true)
    (hp : (v.set n).partOf (v.device s.dev.straps) ((v.set n).ownerOf h.ctx) = .member ∨
      (v.set n).partOf (v.device s.dev.straps) ((v.set n).ownerOf h.ctx) = .collector) :
    s.reject v port a t st h (some n) = (s.rejectLogged port st h).launch (newFlight v (s.rejectLogged port st h) port a t st h []
      (some (casPartOf v (v.device s.dev.straps) n h.prog st h.ctx))) := by
  rw [State.reject_of_set hr]
  rcases hp with hp | hp <;> simp [he, hp]

end

/-- An error result without a clash reserves its window (R38, R45). -/
theorem State.errorResult_of_free (hw : s.windowClash port (a + 112) = false) : s.errorResult v port a h st =
    { s with search := { s.search with errs := s.search.errs ++ [⟨port, a + 112, errorHdr v h st⟩] } } := by
  rw [State.errorResult, if_neg (by rw [hw]; decide)]

/-- One that clashes is counted (R45). -/
theorem State.errorResult_of_clash (hw : s.windowClash port (a + 112) = true) :
    s.errorResult v port a h st = s.clash port h st := if_pos hw

/-! ### Accepted frames -/

/-- An accepted frame of a program without a set, whose window is free, is launched (R45, R48). -/
theorem State.accept_of_free {key : List Byte} (hw : s.windowClash port (newFlight v s port a t 0 h key none).due = false) :
    s.accept v port a t h key none = s.launch (newFlight v s port a t 0 h key none) := by
  have hc : ¬ (!(newFlight v s port a t 0 h key none).noResult &&
      s.windowClash port (newFlight v s port a t 0 h key none).due) = true := by
    rw [hw, Bool.and_false]
    decide
  exact if_neg hc

/-- One whose window clashes is not run (R45). -/
theorem State.accept_of_clash {key : List Byte} (hw : s.windowClash port (newFlight v s port a t 0 h key none).due = true) :
    s.accept v port a t h key none = s.clash port h 0 := by
  have hc : (!(newFlight v s port a t 0 h key none).noResult &&
      s.windowClash port (newFlight v s port a t 0 h key none).due) = true := by
    rw [hw]
    rfl
  exact if_pos hc

/-- The instruction of a set's program (R287). -/
def State.setFlightOf (s : State) (v : View) (port a t : Nat) (h : SearchHdr) (key : List Byte) (n : Nat) : Inflight :=
  newFlight v s port a t 0 h key (some (casPartOf v (v.device s.dev.straps) n h.prog 0 h.ctx))

/-- One of a set's program is launched unless it is the owner's and clashes, and counted where the owner is outside the set
(R45, R287, R290). -/
theorem State.accept_of_set {key : List Byte} {n : Nat}
    (hw : (casPartOf v (v.device s.dev.straps) n h.prog 0 h.ctx).part ≠ .owner ∨
      s.windowClash port (s.setFlightOf v port a t h key n).due = false) :
    ∃ u, Touches [.regs] s u ∧ s.accept v port a t h key (some n) = u.launch (s.setFlightOf v port a t h key n) := by
  have hc : ¬ (!(s.setFlightOf v port a t h key n).noResult &&
      s.windowClash port (s.setFlightOf v port a t h key n).due) = true := by
    rcases hw with hp | hw
    · have hno : (s.setFlightOf v port a t h key n).noResult = true := decide_eq_true hp
      rw [hno]
      exact Bool.false_ne_true
    · rw [hw, Bool.and_false]
      exact Bool.false_ne_true
  refine ⟨if (casPartOf v (v.device s.dev.straps) n h.prog 0 h.ctx).part = .nobody then s.bump .casNoOwner else s, ?_, if_neg hc⟩
  split
  · exact touches_setReg s _ _ _ _ _
  · exact Touches.refl _ _

end

/-! ### The command -/

section
variable {s : State} {port : Fin 32} {f : Frame}

/-- The state in which a frame is judged, in the slot of its port (R39, R41). -/
def State.searchAt (s : State) (port : Nat) (f : Frame) : State :=
  (s.fromLink port f 7).2.at (intakeCycle port (s.fromLink port f 7).1)

/-- It is the state in which the frame came, but for the time and the ports. -/
theorem State.searchAt_eq (s : State) (port : Nat) (f : Frame) :
    ∃ n l, s.searchAt port f = { s with now := n, ports := l } := by
  obtain ⟨l, hl⟩ := s.fromLink_eq port f 7
  exact ⟨_, l, by rw [State.searchAt, hl]; rfl⟩

theorem search_held (h : s.dieHeld (dieOfPort port) = true) :
    exec (.search port f) s = .next ((s.searchAt port f).bump .portHeldDrop port) := by
  obtain ⟨n, l, he⟩ := s.searchAt_eq port f
  have hh : (s.searchAt port f).dieHeld (dieOfPort port) = true := by rw [he]; exact h
  exact congrArg Host.Outcome.next (if_pos hh)

theorem search_taken (h : s.dieHeld (dieOfPort port) = false) : exec (.search port f) s =
    .next ((s.searchAt port f).intake port (s.fromLink port f 7).1 (intakeCycle port (s.fromLink port f 7).1) f) := by
  obtain ⟨n, l, he⟩ := s.searchAt_eq port f
  have hh : ¬ (s.searchAt port f).dieHeld (dieOfPort port) = true := by rw [he]; exact Bool.eq_false_iff.1 h
  exact congrArg Host.Outcome.next (if_neg hh)

end

end Sys2Proof.Machine
end

section
/-! What a frame leaves that is judged at intake, case by case (R37, R38, R45, R287, R290, R312). -/

namespace Sys2Proof.Machine

section
variable {s : State} {port a t : Nat} {f : Frame}

/-- The status that a frame gets at intake: that of the first check of R37 that fails, if one does. -/
def State.verdict (s : State) (port a t : Nat) (f : Frame) : Option Nat :=
  s.intakeStatus (s.viewAt t) port t (searchHdr f.hdr) (frameLen f) (s.paced port a)

/-- The part that the device plays for a frame of a set's program (R287). -/
def State.searchPart (s : State) (t : Nat) (f : Frame) (n : Nat) : Part :=
  ((s.viewAt t).set n).partOf ((s.viewAt t).device s.dev.straps) (((s.viewAt t).set n).ownerOf (searchHdr f.hdr).ctx)

/-- The cycle of the result of a frame whose last granule came in cycle `a`: A + L, and M more for a set's program (R43, R301). -/
def State.searchDue (s : State) (a t : Nat) (f : Frame) : Nat :=
  a + latency ((s.viewAt t).prog (searchHdr f.hdr).prog).stages +
    match (s.viewAt t).progSet (searchHdr f.hdr).prog with | some n => ((s.viewAt t).set n).budget | none => 0

/-- An instruction in flight stands for a frame as intake accepts it (R63). -/
def State.Accepted (s : State) (port a t : Nat) (f : Frame) (x : Inflight) : Prop :=
  let h := searchHdr f.hdr
  x.port = port ∧ x.room = h.room ∧ x.prog = h.prog ∧ x.tag = h.tag ∧
    x.ctx = h.ctx ∧ x.edition = (if h.pinned then h.edition else s.current h.room) ∧ x.arrived = a ∧ x.accepted = t ∧
    x.due = s.searchDue a t f ∧ x.view = s.viewAt t ∧ x.key = (f.body.flatMap granuleBytes).take h.keylen ∧ x.nextStage = 0 ∧
    x.ahead = 0 ∧ x.ended = false ∧ x.status = 0

/-- So does one that the frames of further senders have joined. -/
theorem State.Accepted.of_joined {x y : Inflight} (h : s.Accepted port a t f x) (hj : x.Joined y) : s.Accepted port a t f y := by
  rcases hj with rfl | ⟨c, senders, recs, hc, rfl⟩ <;> exact h

/-- A barred cascade drops the frame, which is counted (R312). -/
theorem State.intake_of_barred (hb : s.barredAt t (searchHdr f.hdr).prog) :
    let u := s.intake port a t f
    u.search.flight = s.search.flight ∧ u.search.errs = s.search.errs ∧
      u.reg .casQuarDrop = wrapAdd 32 (s.reg .casQuarDrop) 1 ∧ RegsBut [Obj.casQuarDrop.key] s u ∧ Touches [.search, .regs] s u := by
  rw [State.intake_barred hb]
  exact ⟨rfl, rfl, State.reg_bump _ _ _, regsBut_setReg (s.noted port a) _ _ _ _ _,
    ((s.touches_noted port a).mono (by simp)).followed (touches_setReg (s.noted port a) _ _ _ _ _) (by simp)⟩

variable (hb : ¬ s.barredAt t (searchHdr f.hdr).prog)
include hb

section
variable (hv : s.verdict port a t f = none)
include hv

/-- A frame of a program without a set that passes joins those in flight (R45, R48). -/
theorem State.intake_of_free (hset : (s.viewAt t).progSet (searchHdr f.hdr).prog = none)
    (hw : s.windowClash port (s.searchDue a t f) = false) :
    let u := s.intake port a t f
    ∃ x, u.search.flight = s.search.flight ++ [x] ∧ s.Accepted port a t f x ∧ x.noResult = false ∧ x.cas = none ∧
      u.search.errs = s.search.errs ∧ Touches [.search] s u := by
  have hdue : ∀ key, (newFlight (s.viewAt t) (s.noted port a) port a t 0 (searchHdr f.hdr) key none).due = s.searchDue a t f := by
    intro key
    rw [State.searchDue, hset]
    rfl
  rw [State.intake_accepted hb hv, hset, State.accept_of_free (by rw [hdue]; exact hw), State.launch_of_none _ rfl]
  exact ⟨_, rfl, ⟨rfl, rfl, rfl, rfl, rfl, rfl, rfl, rfl, hdue _, rfl, rfl, rfl, rfl, rfl, rfl⟩, rfl, rfl, rfl, touches_search s _⟩

/-- One whose window clashes is counted and not run (R45). -/
theorem State.intake_of_clash (hp : port < 32) (hset : (s.viewAt t).progSet (searchHdr f.hdr).prog = none)
    (hw : s.windowClash port (s.searchDue a t f) = true) :
    let u := s.intake port a t f
    u.search.flight = s.search.flight ∧ u.reg .portWinClash port = wrapAdd 32 (s.reg .portWinClash port) 1 ∧
      RegsBut [Obj.portWinClash.key port] s u ∧ Touches [.search, .regs] s u := by
  obtain ⟨hreg, hregs, htouch⟩ := (s.noted port a).clash_spec hp (searchHdr_room_lt f.hdr) 0
  have hdue : ∀ key, (newFlight (s.viewAt t) (s.noted port a) port a t 0 (searchHdr f.hdr) key none).due = s.searchDue a t f := by
    intro key
    rw [State.searchDue, hset]
    rfl
  rw [State.intake_accepted hb hv, hset, State.accept_of_clash (by rw [hdue]; exact hw)]
  have hsearch : ((s.noted port a).clash port (searchHdr f.hdr) 0).search = (s.noted port a).search := htouch .search (by simp)
  refine ⟨?_, hreg, hregs,
    ((s.touches_noted port a).mono (by simp)).followed htouch (by simp)⟩
  rw [hsearch]
  rfl

/-- A frame of a set's program joins those in flight, unless it is the owner's and its window clashes (R45, R287). -/
theorem State.intake_of_set {n : Nat} (hset : (s.viewAt t).progSet (searchHdr f.hdr).prog = some n)
    (hw : s.searchPart t f n ≠ .owner ∨ s.windowClash port (s.searchDue a t f) = false) :
    let u := s.intake port a t f
    ∃ x c, u.search.flight = s.search.flight ++ [x] ∧ s.Accepted port a t f x ∧ x.cas = some c ∧ c.part = s.searchPart t f n ∧
      c.set = n ∧ (x.noResult = true ↔ s.searchPart t f n ≠ .owner) ∧ Touches [.search, .regs, .cas] s u := by
  have hdue : ∀ key, ((s.noted port a).setFlightOf (s.viewAt t) port a t (searchHdr f.hdr) key n).due = s.searchDue a t f := by
    intro key
    rw [State.searchDue, hset]
    rfl
  rw [State.intake_accepted hb hv, hset]
  obtain ⟨w, hregs, he⟩ := State.accept_of_set (s := s.noted port a) (v := s.viewAt t) (port := port) (a := a) (t := t)
    (h := searchHdr f.hdr) (key := (f.body.flatMap granuleBytes).take (searchHdr f.hdr).keylen) (n := n)
    (hw.imp_right fun h => by rw [hdue]; exact h)
  obtain ⟨y, hj, hflight, htouch⟩ := w.launch_spec
    ((s.noted port a).setFlightOf (s.viewAt t) port a t (searchHdr f.hdr) ((f.body.flatMap granuleBytes).take (searchHdr f.hdr).keylen) n)
  have hall : Touches [.search, .regs, .cas] s (w.launch _) :=
    (((s.touches_noted port a).mono (by simp)).followed hregs (by simp)).followed htouch (by simp)
  rw [show w.search = (s.noted port a).search from hregs .search (by simp)] at hflight
  rw [he]
  obtain ⟨c, hc, hpart, hset, -⟩ := hj.cas rfl
  have hno : y.noResult = decide (s.searchPart t f n ≠ .owner) := hj.same (·.noResult) fun _ _ => rfl
  refine ⟨y, c, hflight, State.Accepted.of_joined ⟨rfl, rfl, rfl, rfl, rfl, rfl, rfl, rfl, hdue _, rfl, rfl, rfl, rfl, rfl, rfl⟩ hj,
    hc, hpart, hset, ?_, hall⟩
  rw [hno, decide_eq_true_iff]

end

omit hb in
/-- The record of a rejected frame leaves the instructions and the windows as they are. -/
theorem State.rejectLogged_spec (code : Nat) : let w := (s.noted port a).rejectLogged port code (searchHdr f.hdr)
    OnlyRecords (s.noted port a) w ∧ w.search.flight = s.search.flight ∧ w.search.errs = s.search.errs ∧
      ∀ p due, w.windowClash p due = s.windowClash p due := by
  have hrec : OnlyRecords (s.noted port a) ((s.noted port a).rejectLogged port code (searchHdr f.hdr)) :=
    State.onlyRecords_rejectLogged (searchHdr_room_lt f.hdr)
  refine ⟨hrec, ?_, ?_, fun p due => ?_⟩
  · rw [hrec.search]; rfl
  · rw [hrec.search]; rfl
  · rw [State.windowClash, hrec.search]; rfl

section
variable {code : Nat} (hv : s.verdict port a t f = some code)
include hv

/-- A rejected frame of a set that names no owner is counted (R290). -/
theorem State.intake_of_nobody {n : Nat} (hset : (s.viewAt t).progSet (searchHdr f.hdr).prog = some n)
    (he : ((s.viewAt t).prog (searchHdr f.hdr).prog).enable = true) (hp : s.searchPart t f n = .nobody) :
    let u := s.intake port a t f
    u.search.flight = s.search.flight ∧ u.reg .casNoOwner = wrapAdd 32 (s.reg .casNoOwner) 1 ∧
      RegsBut [Obj.casNoOwner.key] s u ∧ Touches [.search, .regs] s u := by
  have hr := searchHdr_room_lt f.hdr
  obtain ⟨hrec, hflight, -, -⟩ := State.rejectLogged_spec (s := s) (port := port) (a := a) (f := f) code
  rw [State.intake_rejected hb hv, hset, State.reject_nobody (s := s.noted port a) hr he hp]
  refine ⟨hflight, (State.reg_bump _ _ _).trans ?_,
    (RegsBut.trans (RegsBut.of_eq (s := s) (t := s.noted port a) _ rfl) (hrec.regsBut _)).trans (regsBut_setReg _ _ _ _ _ _), ?_⟩
  · rw [hrec.reg _ _ _ _ (casKey_not_daybook (o := .casNoOwner) rfl (by decide))]
    rfl
  · exact (((s.touches_noted port a).of_records hrec).mono (by simp)).followed (touches_setReg _ _ _ _ _ _) (by simp)

/-- On a member or collector a rejected frame joins those in flight, to be answered by ERROR records (R290). -/
theorem State.intake_of_replica {n : Nat} (hset : (s.viewAt t).progSet (searchHdr f.hdr).prog = some n)
    (he : ((s.viewAt t).prog (searchHdr f.hdr).prog).enable = true)
    (hp : s.searchPart t f n = .member ∨ s.searchPart t f n = .collector) (h0 : code ≠ 0) :
    let u := s.intake port a t f
    ∃ x, u.search.flight = s.search.flight ++ [x] ∧ x.status = code ∧ x.error = true ∧ x.ended = true ∧
      x.noResult = true ∧ x.due = s.searchDue a t f ∧ x.rejected = true ∧ Touches [.search, .regs, .cas] s u := by
  have hr := searchHdr_room_lt f.hdr
  let w := (s.noted port a).rejectLogged port code (searchHdr f.hdr)
  obtain ⟨hrec, hw, -, -⟩ : OnlyRecords (s.noted port a) w ∧ _ := State.rejectLogged_spec code
  let x := newFlight (s.viewAt t) w port a t code (searchHdr f.hdr) []
    (some (casPartOf (s.viewAt t) ((s.viewAt t).device s.dev.straps) n (searchHdr f.hdr).prog code (searchHdr f.hdr).ctx))
  have hno : x.noResult = true := by
    refine decide_eq_true (p := s.searchPart t f n ≠ .owner) ?_
    rcases hp with hp | hp <;> rw [hp] <;> decide
  have hdue : x.due = s.searchDue a t f := by
    rw [State.searchDue, hset]
    rfl
  have hcode : decide (code ≠ 0) = true := decide_eq_true h0
  obtain ⟨y, hj, hflight, htouch⟩ := w.launch_spec x
  rw [hw] at hflight
  rw [State.intake_rejected hb hv, hset, State.reject_replica (s := s.noted port a) hr he hp]
  have hall : Touches [.search, .regs, .cas] s (w.launch x) :=
    (((s.touches_noted port a).of_records hrec).mono (by simp)).followed htouch (by simp)
  obtain ⟨c, hc, -, -, hstatus⟩ := hj.cas rfl
  refine ⟨y, hflight, hj.same (·.status) fun _ _ => rfl, (hj.same (·.error) fun _ _ => rfl).trans hcode,
    (hj.same (·.ended) fun _ _ => rfl).trans hcode, (hj.same (·.noResult) fun _ _ => rfl).trans hno,
    (hj.same (·.due) fun _ _ => rfl).trans hdue, ?_, hall⟩
  rw [Inflight.rejected, hc]
  exact decide_eq_true (hstatus ▸ h0)

section
variable (hs : ∀ n, (s.viewAt t).progSet (searchHdr f.hdr).prog = some n →
  ((s.viewAt t).prog (searchHdr f.hdr).prog).enable = false ∨ s.searchPart t f n = .owner)
include hs

/-- Any other rejected frame reserves the window of its error result (R38). -/
theorem State.intake_of_error (hw : s.windowClash port (a + 112) = false) :
    let u := s.intake port a t f
    u.search.flight = s.search.flight ∧
      u.search.errs = s.search.errs ++ [⟨port, a + 112, errorHdr (s.viewAt t) (searchHdr f.hdr) code⟩] ∧
      (s.ringOpen (searchHdr f.hdr).room → u.recorded (searchHdr f.hdr).room .srchReject) ∧ Touches [.search] s u := by
  have hr := searchHdr_room_lt f.hdr
  obtain ⟨hrec, hflight, herrs, hclash⟩ := State.rejectLogged_spec (s := s) (port := port) (a := a) (f := f) code
  rw [State.intake_rejected hb hv, State.reject_answered (s := s.noted port a) hr hs, State.errorResult_of_free]
  · refine ⟨hflight, congrArg (· ++ _) herrs, fun hopen => ?_, ?_⟩
    · exact State.recorded_room (s := s.noted port a) _ _ _ rfl hopen
    · exact ((s.touches_noted port a).of_records hrec).trans (touches_search _ _)
  · exact (hclash _ _).trans hw

/-- One whose window clashes is counted (R45). -/
theorem State.intake_of_errorClash (hport : port < 32) (hw : s.windowClash port (a + 112) = true) :
    let u := s.intake port a t f
    u.search.flight = s.search.flight ∧ u.search.errs = s.search.errs ∧
      u.reg .portWinClash port = wrapAdd 32 (s.reg .portWinClash port) 1 ∧ RegsBut [Obj.portWinClash.key port] s u ∧
      Touches [.search, .regs] s u := by
  have hr := searchHdr_room_lt f.hdr
  let w := (s.noted port a).rejectLogged port code (searchHdr f.hdr)
  obtain ⟨hrec, hflight, herrs, hclash⟩ : OnlyRecords (s.noted port a) w ∧ _ := State.rejectLogged_spec code
  obtain ⟨hreg, hregs, htouch⟩ := w.clash_spec hport hr code
  have hsearch : (w.clash port (searchHdr f.hdr) code).search = w.search := htouch .search (by simp)
  rw [State.intake_rejected hb hv, State.reject_answered (s := s.noted port a) hr hs, State.errorResult_of_clash]
  · refine ⟨by rw [hsearch]; exact hflight, by rw [hsearch]; exact herrs, hreg.trans ?_, ?_, ?_⟩
    · rw [hrec.reg _ _ _ _ (portKey_not_daybook hport rfl rfl (by decide))]
      rfl
    · exact (RegsBut.trans (RegsBut.of_eq (s := s) (t := s.noted port a) _ rfl) (hrec.regsBut _)).trans hregs
    · exact (((s.touches_noted port a).of_records hrec).mono (by simp)).followed htouch (by simp)
  · exact (hclash _ _).trans hw

end

end

end

end Sys2Proof.Machine
end

section
open Sys2Proof Sys2Proof.Machine

/-- Settles O29: the frame is dropped on a held die, or judged in the slot of its port, each verdict by what intake leaves. -/
theorem searchIntake : Obligations.SearchIntake := by
  intro s port f h a t s0 v last pace st barred budget due accepted
  refine ⟨search_held, fun hd => ?_⟩
  have hexec : exec (.search port f) s = .next (s0.intake port a t f) := search_taken hd
  have he : ∃ n l, s0 = { s with now := n, ports := l } := s.searchAt_eq port f
  clear_value s0
  obtain ⟨n, l, rfl⟩ := he
  have hp := port.isLt
  refine ⟨fun hb => ⟨_, hexec, State.intake_of_barred hb⟩, fun hb hst => ⟨fun hset hw => ?_, fun hset hw => ?_, fun n hset => ?_⟩,
    fun code n hb hst hset he => ?_, fun code hb hst hs => ⟨fun hw => ?_, fun hw => ?_⟩⟩
  · obtain ⟨x, hx⟩ := State.intake_of_free hb hst hset hw
    exact ⟨_, x, hexec, hx⟩
  · exact ⟨_, hexec, State.intake_of_clash hb hst hp hset hw⟩
  · intro part hw
    obtain ⟨x, c, hx⟩ := State.intake_of_set hb hst hset hw
    exact ⟨_, x, c, hexec, hx⟩
  · intro part
    refine ⟨fun hn => ⟨_, hexec, State.intake_of_nobody hb hst hset he hn⟩, fun hn h0 => ?_⟩
    obtain ⟨x, hx⟩ := State.intake_of_replica hb hst hset he hn h0
    exact ⟨_, x, hexec, hx⟩
  · exact ⟨_, hexec, State.intake_of_error hb hst hs hw⟩
  · exact ⟨_, hexec, State.intake_of_errorClash hb hst hs hp hw⟩

end

section
/-! The stages of a program (R42, R60, R62, R99, R132): what their lookups and tallies leave as it was, whatever the room of the
instruction, and that none of them looks at the instructions in flight. -/

namespace Sys2Proof.Machine

/-! ### Frames of the operations of a stage -/

theorem touches_em (s : State) (e : Em) : Touches [.em] s { s with em := e } := by
  intro p hp
  cases p <;> simp_all [Piece.same, State.ring, State.port]

theorem touches_health (s : State) (h : Health) : Touches [.health] s { s with health := h } := by
  intro p hp
  cases p <;> simp_all [Piece.same, State.ring, State.port]

/-- A ring that keeps its RSEQ and its records, with a counter written. -/
theorem touches_setRing_bump (s : State) (r : Nat) (g : Ring) (o : Obj) (i : Nat) (h1 : g.rseq = (s.ring r).rseq)
    (h2 : (s.ring r).recs.Sublist g.recs) : Touches [.regs] s ((s.setRing r g).bump o i) :=
  ((onlyRecords_setRing s r g h1 h2).touches [.regs]).trans (touches_setReg _ _ _ _ _ _)

/-- A record changes registers at most, even one of a ring that the daybook does not have (R365, R366). -/
theorem State.touches_toRing (s : State) (r : Nat) (x : Rec) : Touches [.regs] s (s.toRing r x) := by
  simp only [State.toRing]
  split
  · exact touches_setRing_bump _ _ _ _ _ (Ring.settled_rseq _ _) (by simp)
  split
  · exact touches_setRing_bump _ _ _ _ _ (Ring.settled_rseq _ _) (by simp)
  · refine OnlyRecords.touches [.regs] ?_
    refine OnlyRecords.trans ?_ (onlyRecords_deliver _ _ _ _)
    refine onlyRecords_setRing s r _ (Ring.settled_rseq _ _) ?_
    simp only [Ring.settled_recs]
    have h := List.take_append_drop (((s.ring r).settled s.now).place x) (s.ring r).recs
    conv_lhs => rw [← h]
    exact List.Sublist.append (List.Sublist.refl _) (List.sublist_cons_self _ _)

/-- A choice between two states that both keep to the pieces. -/
theorem Touches.ite {l : List Piece} {s a b : State} (c : Prop) [Decidable c] (ha : Touches l s a) (hb : Touches l s b) :
    Touches l s (if c then a else b) := by
  split
  · exact ha
  · exact hb

/-- The record that a code's fields make (R364). -/
def State.recordOf (s : State) (c : Code) (room : Option Nat) (src : Nat) (f : List (Nat × Nat)) (dir : Nat) : Rec :=
  ⟨BitVec.ofNat 64 s.now, BitVec.ofNat 16 c.num, BitVec.ofNat 8 src, BitVec.ofNat 4 (room.getD 0), room.isSome,
    BitVec.ofNat 2 (s.codeCfg c), BitVec.ofNat 2 dir, detailOf f⟩

/-- The rings that a record of a code goes to (R364). -/
def State.routed (s : State) (d : RingSel) (room : Option Nat) (x : Rec) : State :=
  match d, room with
  | .room, some r => s.toRing r x
  | .both, some r => (s.toRing r x).toRing 16 x
  | _, _ => s.toRing 16 x

theorem State.record_eq (s : State) (c : Code) (room : Option Nat) (src : Nat) (f : List (Nat × Nat)) (dir : Nat) :
    s.record c room src f dir =
      if nbit (s.codeCfg c) 2 || c = .guarLoss then (s.routed c.info.2.2 room (s.recordOf c room src f dir)).wakeMgmt
      else s.routed c.info.2.2 room (s.recordOf c room src f dir) := rfl

/-- A daybook record changes registers at most, whatever its room. -/
theorem State.touches_record (s : State) (c : Code) (room : Option Nat) (src : Nat) (f : List (Nat × Nat)) (dir : Nat) :
    Touches [.regs] s (s.record c room src f dir) := by
  have hr (d : RingSel) (x : Rec) : Touches [.regs] s (s.routed d room x) := by
    simp only [State.routed]
    split
    · exact State.touches_toRing _ _ _
    · exact (State.touches_toRing _ _ _).trans (State.touches_toRing _ _ _)
    · exact State.touches_toRing _ _ _
  exact Touches.ite _ ((hr _ _).of_records (onlyRecords_wakeMgmt _)) (hr _ _)

theorem State.touches_lookupError (s : State) (x : Inflight) (i cause unit : Nat) :
    Touches [.regs] s (s.lookupError x i cause unit) := State.touches_record _ _ _ _ _ _

/-! ### Lookups -/

/-- A ternary or exact-match lookup notes a hit of an exact-match entry at most (R151). -/
theorem touches_compareLookup (c : Nat) (x : Inflight) (r : State × List (Nat × Found)) (i : Nat) :
    Touches [.em] r.1 (compareLookup c x r i).1 := by
  simp only [compareLookup]
  split
  · exact Touches.refl _ _
  split
  · exact Touches.refl _ _
  · split
    · exact touches_em _ _
    · exact Touches.refl _ _

theorem State.settle_frame (s : State) (x : Inflight) (i : Nat) (f : Found) :
    Touches [.regs] s (s.settle x i f).1 ∧ (s.settle x i f).2.id = x.id := by
  cases f with
  | inline o => exact ⟨Touches.refl _ _, rfl⟩
  | hit o =>
    simp only [State.settle]
    split
    · exact ⟨Touches.refl _ _, rfl⟩
    · exact ⟨s.touches_lookupError _ _ _ _, rfl⟩
  | miss =>
    simp only [State.settle]
    split
    · exact ⟨Touches.refl _ _, rfl⟩
    · exact ⟨s.touches_lookupError _ _ _ _, rfl⟩
  | bad c u => exact ⟨s.touches_lookupError _ _ _ _, rfl⟩

theorem State.settleShard_frame (s : State) (x : Inflight) (i : Nat) (f : Found) :
    Touches [.regs] s (s.settleShard x i f).1 ∧ (s.settleShard x i f).2.id = x.id := by
  cases f with
  | inline o => exact ⟨Touches.refl _ _, rfl⟩
  | hit o => exact ⟨Touches.refl _ _, rfl⟩
  | miss => exact ⟨Touches.refl _ _, rfl⟩
  | bad c u =>
    refine ⟨?_, rfl⟩
    exact Touches.ite _ (Touches.refl _ _) (s.touches_lookupError _ _ _ _)

/-- A lookup writes a record at most, and its own outcome into the instruction (R61). -/
theorem runLookup_frame (c : Nat) (front : List (Nat × Found)) (r : State × Inflight) (i : Nat) :
    Touches [.regs] r.1 (runLookup c front r i).1 ∧ (runLookup c front r i).2.id = r.2.id := by
  simp only [runLookup]
  split
  · exact ⟨Touches.refl _ _, rfl⟩
  split
  · split
    · exact ⟨Touches.refl _ _, rfl⟩
    · split
      · exact ⟨Touches.refl _ _, rfl⟩
      · exact ⟨r.1.touches_lookupError _ _ _ _, rfl⟩
  split
  · exact State.settleShard_frame _ _ _ _
  · exact State.settle_frame _ _ _ _

/-- The lookups of a stage, one after another. -/
theorem touches_compareLookups (c : Nat) (x : Inflight) (l : List Nat) (r : State × List (Nat × Found)) :
    Touches [.em] r.1 (l.foldl (compareLookup c x) r).1 := by
  induction l generalizing r with
  | nil => exact Touches.refl _ _
  | cons i t ih => exact (touches_compareLookup c x r i).trans (ih _)

theorem runLookups_frame (c : Nat) (front : List (Nat × Found)) (l : List Nat) (r : State × Inflight) :
    Touches [.regs] r.1 (l.foldl (runLookup c front) r).1 ∧ (l.foldl (runLookup c front) r).2.id = r.2.id := by
  induction l generalizing r with
  | nil => exact ⟨Touches.refl _ _, rfl⟩
  | cons i t ih =>
    obtain ⟨h1, h2⟩ := runLookup_frame c front r i
    obtain ⟨h3, h4⟩ := ih (runLookup c front r i)
    exact ⟨h1.trans h3, h4.trans h2⟩

/-! ### Tallies -/

theorem State.touches_clearLines (s : State) (c : Clear) (t : Nat) : Touches [.mem, .health, .regs] s (s.clearLines c t) := by
  obtain ⟨n, m, h, e⟩ : ∃ n m h, s.clearLines c t = { s.bumpBy n .carSuper c.room with mem := m, health := h } :=
    ⟨_, _, _, rfl⟩
  have hr : Touches [.mem, .health, .regs] s (s.bumpBy n .carSuper c.room) := (touches_setReg _ _ _ _ _ _).mono (by simp)
  have hm := hr.followed (touches_mem _ m) (by simp)
  exact e ▸ hm.followed (touches_health _ h) (by simp)

theorem State.touches_clearTo (s : State) (t : Nat) : Touches [.mem, .health, .regs] s (s.clearTo t) := by
  have hfold : ∀ (l : List Clear) (s : State), Touches [.mem, .health, .regs] s (l.foldl (fun s c => s.clearLines c t) s) := by
    intro l
    induction l with
    | nil => exact fun s => Touches.refl _ _
    | cons c l ih => exact fun s => (s.touches_clearLines c t).trans (ih _)
  exact hfold _ s

/-- What a carrel word holds as far as a tally reads it: 0 when it is damaged (R223). -/
def State.tallyBase (s : State) (room word : Nat) : Nat :=
  if s.poisoned .carrel room word then 0 else (sget (fun _ => (0 : BitVec 64)) s.mem.carrel (room * 65536 + word)).toNat

/-- The carrel word of a tally with its increment added, its mark cleared (R59, R223, R234). -/
def State.tallied (s : State) (c room word inc : Nat) : State :=
  let k := room * 65536 + word
  let m := s.mem.noteTally c k (sget (fun _ => (0 : BitVec 64)) s.mem.carrel k)
  let t := { s with mem := { m with carrel := sput (fun _ => 0) m.carrel k (BitVec.ofNat 64 (s.tallyBase room word + inc)) } }
  if s.poisoned .carrel room word then t.cleanse .carrel room word else t

theorem State.tally_eq (s : State) (c room prog stage word inc : Nat) :
    s.tally c room prog stage word inc =
      if s.dieHeld (dieOfWord word) then
        (s.bump .tallyHeld room).record .tallyHeld (some room) (srcDie (dieOfWord word))
          [(8, prog), (8, stage), (16, word), (8, dieOfWord word)]
      else if 2 ^ 64 ≤ (s.clearTo (c - 1)).tallyBase room word + inc then
        ((s.clearTo (c - 1)).tallied c room word inc).bump .tallyWrap room
      else (s.clearTo (c - 1)).tallied c room word inc := rfl

theorem State.touches_tallied (s : State) (c room word inc : Nat) : Touches [.mem, .health] s (s.tallied c room word inc) := by
  have hmem (m : Mem) : Touches [.mem, .health] s { s with mem := m } := (touches_mem s m).mono (by simp)
  exact Touches.ite _ ((hmem _).followed (touches_health _ _) (by simp)) (hmem _)

/-- A tally changes the carrels, the marks of damaged words and counters (R59, R234). -/
theorem State.touches_tally (s : State) (c room prog stage word inc : Nat) :
    Touches [.mem, .health, .regs] s (s.tally c room prog stage word inc) := by
  have hin := (s.touches_clearTo (c - 1)).followed (State.touches_tallied (s.clearTo (c - 1)) c room word inc) (by simp)
  rw [State.tally_eq]
  refine Touches.ite _ ?_ (Touches.ite _ (hin.followed (touches_setReg _ _ _ _ _ _) (by simp)) hin)
  exact ((touches_setReg s .tallyHeld room 0 0 _).trans (State.touches_record _ _ _ _ _ _)).mono (by simp)

theorem State.touches_stageTally (s : State) (c : Nat) (x : Inflight) (stage : Nat) :
    Touches [.mem, .health, .regs] s (s.stageTally c x stage) := by
  simp only [State.stageTally]
  split
  · exact Touches.refl _ _
  · exact s.touches_tally _ _ _ _ _ _

/-! ### The instructions in flight are not looked at -/

/-- The state with other search pipelines. -/
def State.withSearch (s : State) (q : Search) : State := { s with search := q }

/-- A result with the search pipelines of its state replaced. -/
def withSearch (q : Search) (r : State × Inflight) : State × Inflight := (r.1.withSearch q, r.2)

/-- The push of a record on the port of its ring (R372). -/
def State.pushPort (s : State) (r : Nat) (n : BitVec 16) (x : Rec) : State :=
  let cfg := s.reg .dbCfg r
  let p := bits cfg 28 24
  let g := s.port p
  if nbit cfg 31 && decide (bits cfg 21 20 ≤ x.cls.toNat) then
    if g.st = .up ∧ s.role p = 1 ∧ g.push.length < 64 then s.setPort p { g with push := addPush ⟨r, n, x⟩ g.push }
    else s.setPort p (g.loseRec r)
  else s

/-- The push of a record on the dictionary bus (R373), by the settings `cfg` of its ring. -/
def State.pushBus (s : State) (cfg r : Nat) (n : BitVec 16) (x : Rec) : State :=
  if nbit cfg 19 && decide (bits cfg 17 16 ≤ x.cls.toNat) then { s with bus := s.bus.pushRec ⟨r, n, x⟩ } else s

theorem State.deliver_eq (s : State) (r : Nat) (n : BitVec 16) (x : Rec) :
    s.deliver r n x = (s.pushPort r n x).pushBus (s.reg .dbCfg r) r n x := rfl

section
variable (s : State) (q : Search)

theorem State.ite_withSearch (c : Prop) [Decidable c] (a b : State) :
    (if c then a else b).withSearch q = if c then a.withSearch q else b.withSearch q := apply_ite (State.withSearch · q) c a b

theorem State.pushPort_withSearch (r : Nat) (n : BitVec 16) (x : Rec) :
    (s.withSearch q).pushPort r n x = (s.pushPort r n x).withSearch q := by
  simp only [State.pushPort, State.ite_withSearch]
  rfl

theorem State.pushBus_withSearch (cfg r : Nat) (n : BitVec 16) (x : Rec) :
    (s.withSearch q).pushBus cfg r n x = (s.pushBus cfg r n x).withSearch q := by
  simp only [State.pushBus, State.ite_withSearch]
  rfl

theorem State.deliver_withSearch (r : Nat) (n : BitVec 16) (x : Rec) :
    (s.withSearch q).deliver r n x = (s.deliver r n x).withSearch q := by
  rw [State.deliver_eq, State.pushPort_withSearch, State.pushBus_withSearch]
  rfl

theorem State.setRing_withSearch (r : Nat) (g : Ring) : (s.withSearch q).setRing r g = (s.setRing r g).withSearch q := rfl

theorem State.toRing_withSearch (r : Nat) (x : Rec) : (s.withSearch q).toRing r x = (s.toRing r x).withSearch q := by
  simp only [State.toRing, State.ite_withSearch, State.setRing_withSearch, State.deliver_withSearch]
  rfl

theorem State.routed_withSearch (d : RingSel) (room : Option Nat) (x : Rec) :
    (s.withSearch q).routed d room x = (s.routed d room x).withSearch q := by
  simp only [State.routed, State.toRing_withSearch]
  split <;> rfl

theorem State.record_withSearch (c : Code) (room : Option Nat) (src : Nat) (f : List (Nat × Nat)) (dir : Nat) :
    (s.withSearch q).record c room src f dir = (s.record c room src f dir).withSearch q := by
  simp only [State.record_eq, State.ite_withSearch, State.routed_withSearch]
  rfl

theorem State.lookupError_withSearch (x : Inflight) (i cause unit : Nat) :
    (s.withSearch q).lookupError x i cause unit = (s.lookupError x i cause unit).withSearch q := s.record_withSearch q _ _ _ _ _

theorem State.fetchAction_withSearch (o : LookupOut) : (s.withSearch q).fetchAction o = s.fetchAction o := rfl

theorem State.missAction_withSearch (x : Inflight) (i : Nat) (b : Bool) :
    (s.withSearch q).missAction x i b = s.missAction x i b := rfl

theorem State.findPfx_withSearch (x : Inflight) (t i c key : Nat) :
    (s.withSearch q).findPfx x t i c key = s.findPfx x t i c key := rfl

theorem State.settle_withSearch (x : Inflight) (i : Nat) (f : Found) :
    (s.withSearch q).settle x i f = Machine.withSearch q (s.settle x i f) := by
  cases f with
  | inline o => rfl
  | hit o =>
    simp only [State.settle, State.fetchAction_withSearch, State.lookupError_withSearch]
    cases s.fetchAction o <;> rfl
  | miss =>
    simp only [State.settle, State.missAction_withSearch, State.lookupError_withSearch]
    cases s.missAction x i false <;> rfl
  | bad c u => simp only [State.settle, State.lookupError_withSearch, Machine.withSearch]

theorem State.settleShard_withSearch (x : Inflight) (i : Nat) (f : Found) :
    (s.withSearch q).settleShard x i f = Machine.withSearch q (s.settleShard x i f) := by
  cases f with
  | inline o => rfl
  | hit o => rfl
  | miss => rfl
  | bad c u => simp only [State.settleShard, State.lookupError_withSearch, ← State.ite_withSearch, Machine.withSearch]

/-- A lookup does not look at the instructions in flight. -/
theorem runLookup_withSearch (c : Nat) (front : List (Nat × Found)) (r : State × Inflight) (i : Nat) :
    runLookup c front (withSearch q r) i = withSearch q (runLookup c front r i) := by
  obtain ⟨s, x⟩ := r
  simp only [runLookup, withSearch, State.missAction_withSearch, State.lookupError_withSearch, State.findPfx_withSearch,
    State.settleShard_withSearch, State.settle_withSearch]
  split
  · rfl
  split
  · split
    · rfl
    · cases h : s.missAction x i true <;> rfl
  split <;> rfl

theorem runLookups_withSearch (c : Nat) (front : List (Nat × Found)) (l : List Nat) (r : State × Inflight) :
    l.foldl (runLookup c front) (withSearch q r) = withSearch q (l.foldl (runLookup c front) r) := by
  induction l generalizing r with
  | nil => rfl
  | cons i t ih => rw [List.foldl_cons, List.foldl_cons, runLookup_withSearch, ih]

theorem State.clearTo_withSearch (t : Nat) : (s.withSearch q).clearTo t = (s.clearTo t).withSearch q := by
  have hfold : ∀ (l : List Clear) (s : State), l.foldl (fun s c => s.clearLines c t) (s.withSearch q) =
      (l.foldl (fun s c => s.clearLines c t) s).withSearch q := by
    intro l
    induction l with
    | nil => exact fun s => rfl
    | cons c l ih => exact fun s => ih (s.clearLines c t)
  exact hfold _ s

theorem State.tallied_withSearch (c room word inc : Nat) :
    (s.withSearch q).tallied c room word inc = (s.tallied c room word inc).withSearch q := by
  simp only [State.tallied, State.ite_withSearch]
  rfl

theorem State.tally_withSearch (c room prog stage word inc : Nat) :
    (s.withSearch q).tally c room prog stage word inc = (s.tally c room prog stage word inc).withSearch q := by
  have hheld := (s.bump .tallyHeld room).record_withSearch q .tallyHeld (some room) (srcDie (dieOfWord word))
    [(8, prog), (8, stage), (16, word), (8, dieOfWord word)] 0
  have hin := State.tallied_withSearch (s.clearTo (c - 1)) q c room word inc
  rw [State.tally_eq, State.tally_eq, State.ite_withSearch, State.ite_withSearch, State.clearTo_withSearch, hin, ← hheld]
  rfl

theorem State.stageTally_withSearch (c : Nat) (x : Inflight) (stage : Nat) :
    (s.withSearch q).stageTally c x stage = (s.stageTally c x stage).withSearch q := by
  simp only [State.stageTally, State.ite_withSearch, State.tally_withSearch]

end

/-! ### One stage -/

/-- What the ternary and exact-match lookups of the next stage found, and the state after their reads (R99, R150). -/
def State.stageFound (s : State) (x : Inflight) : State × List (Nat × Found) :=
  match x.front with
  | some l => (s.at x.compareAt, l)
  | none => (stageLookups x.nextStage).foldl (compareLookup x.compareAt x) (s.at x.compareAt, [])

/-- An instruction written twice is as written the second time. -/
theorem State.setFlight_withSearch {s u : State} {y z : Inflight} (hs : s.search = u.search) (h : z.id = y.id) :
    (s.withSearch (u.setFlight y).search).setFlight z = s.setFlight z := by
  have hl : ((u.search.flight.map fun w => if w.id = y.id then y else w).map fun w => if w.id = z.id then z else w) =
      u.search.flight.map fun w => if w.id = z.id then z else w := by
    rw [List.map_map]
    refine List.map_congr_left fun w _ => ?_
    by_cases hw : w.id = y.id <;> simp [hw, h]
  simp only [State.setFlight, State.withSearch, hl, hs]

/-- An instruction with a stage to run, or run ahead. -/
theorem State.stages_of_running {s : State} {port tag : Nat} {x : Inflight} (h : s.running port tag = some x) :
    x.nextStage < (x.view.prog x.prog).stages + x.ahead := by
  have hp := List.find?_some h
  simp only [Bool.and_eq_true, decide_eq_true_eq] at hp
  exact hp.2

theorem State.stageFound_frame (s : State) (x : Inflight) :
    Touches [.now, .em] s (s.stageFound x).1 ∧ (s.stageFound x).1.now = max s.now x.compareAt := by
  have hat : Touches [.now, .em] s (s.at x.compareAt) := (touches_now _ _).mono (by simp)
  simp only [State.stageFound]
  split
  · exact ⟨hat, rfl⟩
  · have h := touches_compareLookups x.compareAt x (stageLookups x.nextStage) (s.at x.compareAt, [])
    exact ⟨hat.followed h (by simp), h .now (by simp)⟩

section
variable (x : Inflight) (f : State × List (Nat × Found))

/-- The state and the instruction after the lookups of the next stage, before its tally, from the state `f.1` and what its ternary
and exact-match lookups found (R42, R132). -/
def Inflight.ran : State × Inflight :=
  (stageLookups x.nextStage).foldl (runLookup x.compareAt f.2)
    (f.1.at (x.compareAt + compareLen), { x with nextStage := x.nextStage + 1, front := none })

/-- The program ends with its next stage (R60, R67). -/
def Inflight.ends : Bool :=
  decide (x.nextStage + 1 < (x.view.prog x.prog).stages) && (stageLookups x.nextStage).any (x.ran f).2.endsAt

/-- The state after the next stage. -/
def Inflight.stageDone : State :=
  ((x.ran f).1.stageTally (x.compareAt + compareLen) (x.ran f).2 x.nextStage).setFlight { (x.ran f).2 with ended := x.ends f }

theorem Inflight.ends_iff : x.ends f = true ↔ x.nextStage + 1 < (x.view.prog x.prog).stages ∧
    ∃ i ∈ stageLookups x.nextStage, (x.ran f).2.endsAt i = true := by
  simp only [Inflight.ends, Bool.and_eq_true, decide_eq_true_eq, List.any_eq_true]

theorem Inflight.ran_frame :
    Touches [.now, .regs] f.1 (x.ran f).1 ∧ (x.ran f).1.now = max f.1.now (x.compareAt + compareLen) ∧
      (x.ran f).2.id = x.id := by
  obtain ⟨hr, hid⟩ := runLookups_frame x.compareAt f.2 (stageLookups x.nextStage)
    (f.1.at (x.compareAt + compareLen), { x with nextStage := x.nextStage + 1, front := none })
  have hat : Touches [.now, .regs] f.1 (f.1.at (x.compareAt + compareLen)) := (touches_now _ _).mono (by simp)
  exact ⟨hat.followed hr (by simp), hr .now (by simp), hid⟩

/-- A stage changes the time, the instruction, carrels with their marks, and counters. -/
theorem Inflight.stageDone_frame :
    Touches [.now, .search, .mem, .regs, .health] f.1 (x.stageDone f) ∧
      (x.stageDone f).now = max f.1.now (x.compareAt + compareLen) ∧
      (x.stageDone f).search.flight = f.1.search.flight.map fun z =>
        if z.id = x.id then { (x.ran f).2 with ended := x.ends f } else z := by
  obtain ⟨hr, hn, hid⟩ := x.ran_frame f
  have ht := (x.ran f).1.touches_stageTally (x.compareAt + compareLen) (x.ran f).2 x.nextStage
  have hs : ((x.ran f).1.stageTally (x.compareAt + compareLen) (x.ran f).2 x.nextStage).search = f.1.search :=
    (ht .search (by simp)).trans (hr .search (by simp))
  refine ⟨((hr.mono (by simp)).followed ht (by simp)).followed (touches_search _ _) (by simp),
    (ht .now (by simp)).trans hn, ?_⟩
  simp only [Inflight.stageDone, State.setFlight, hs, hid]

theorem Inflight.ran_withSearch (q : Search) : x.ran (f.1.withSearch q, f.2) = withSearch q (x.ran f) :=
  runLookups_withSearch q x.compareAt f.2 (stageLookups x.nextStage)
    (f.1.at (x.compareAt + compareLen), { x with nextStage := x.nextStage + 1, front := none })

/-- An instruction written before a stage is not seen after it: the stage writes it again. -/
theorem Inflight.stageDone_setFlight (y : Inflight) (hy : y.id = x.id) : x.stageDone (f.1.setFlight y, f.2) = x.stageDone f := by
  have hran : x.ran (f.1.setFlight y, f.2) = withSearch (f.1.setFlight y).search (x.ran f) := x.ran_withSearch f _
  have hends : x.ends (f.1.setFlight y, f.2) = x.ends f := by
    simp only [Inflight.ends, hran, withSearch]
  obtain ⟨hr, -, hid⟩ := x.ran_frame f
  have ht := (x.ran f).1.touches_stageTally (x.compareAt + compareLen) (x.ran f).2 x.nextStage
  have hs : ((x.ran f).1.stageTally (x.compareAt + compareLen) (x.ran f).2 x.nextStage).search = f.1.search :=
    (ht .search (by simp)).trans (hr .search (by simp))
  simp only [Inflight.stageDone, hends, hran, withSearch, State.stageTally_withSearch]
  exact State.setFlight_withSearch hs (hid.trans hy.symm)

end

/-- The model writes the instruction with what its first lookups found before the others run, and again after them (R42). -/
theorem State.runStage_eq (s : State) (x : Inflight) (hp : x.nextStage < (x.view.prog x.prog).stages) (he : x.ended = false) :
    s.runStage x [] [] = x.stageDone (s.stageFound x) := by
  rw [State.runStage, if_neg (by omega), if_neg (by simp [he])]
  cases hf : x.front with
  | some l =>
    have hc : s.compareStage x [] [] = (s.at x.compareAt, x) := by simp only [State.compareStage, hf]; rfl
    simp only [hc, hf, State.stageFound, Option.getD_some]
    rfl
  | none =>
    let r := (stageLookups x.nextStage).foldl (compareLookup x.compareAt x) (s.at x.compareAt, [])
    have hc : s.compareStage x [] [] = (r.1.setFlight { x with front := some r.2 }, { x with front := some r.2 }) := by
      simp only [State.compareStage, hf]; rfl
    have hs : s.stageFound x = r := by simp only [State.stageFound, hf]; rfl
    rw [hs, ← x.stageDone_setFlight r { x with front := some r.2 } rfl, hc]
    rfl

end Sys2Proof.Machine
end

section
open Sys2Proof Sys2Proof.Machine

/-- Settles O30: the model writes the instruction with what its compare found before the rest of the stage runs, and no lookup or
tally looks at the instructions in flight, so that the stage is the one of the statement. -/
theorem stagesRun : Obligations.StagesRun := by
  unfold Obligations.StagesRun
  intro s port tag
  have hexec (l b) (x : Inflight) (hx : s.running port tag.toNat = some x) : exec (.programStage port tag l b) s =
      done (if x.ahead = 0 then s.runStage x l b
        else ((s.setFlight { x with ahead := x.ahead - 1 }).foundAll l).strayHits x.view b) := by
    show execProgramStage port tag l b s = _
    simp only [execProgramStage, hx]
  refine ⟨fun h l b => ?_, fun x hx => ⟨fun ha => ?_, fun ha he l b => ?_, fun ha he => ?_⟩⟩
  · show execProgramStage port tag l b s = _
    simp only [execProgramStage, h]
  · have h := hexec [] [] x hx
    rw [if_neg (by omega)] at h
    exact ⟨s.setFlight { x with ahead := x.ahead - 1 }, RunsTo.of_done h (OnlyRecords.refl _), rfl, touches_search _ _⟩
  · have h := hexec l b x hx
    rw [if_pos ha, State.runStage, if_neg (by have := State.stages_of_running hx; omega), if_pos he] at h
    exact ⟨_, RunsTo.of_done h (OnlyRecords.refl _), rfl, rfl,
      ((touches_now s _).mono (by simp)).followed (touches_search _ _) (by simp)⟩
  · have h := hexec [] [] x hx
    rw [if_pos ha, State.runStage_eq s x (by have := State.stages_of_running hx; omega) he] at h
    obtain ⟨hf, hfn⟩ := s.stageFound_frame x
    obtain ⟨hd, hn, hfl⟩ := x.stageDone_frame (s.stageFound x)
    have hnow : (x.stageDone (s.stageFound x)).now = max s.now (x.compareAt + compareLen) := by
      rw [hn, hfn]
      omega
    rw [(hf .search (by simp) : _ = _)] at hfl
    exact ⟨_, x.ends (s.stageFound x), RunsTo.of_done h (OnlyRecords.refl _), hnow, hfl, x.ends_iff _, OnlyRecords.refl _,
      (hf.mono (by simp)).trans (hd.mono (by simp))⟩

end

section
/-! The rota after reset (R98). -/

namespace Sys2Proof.Machine

/-- An entry of ROTA_DATA that nothing has written is that of its phase (R98). -/
theorem regDefault_rotaData {ext : Nat} (he : ext < 65536) : regDefault (Obj.rotaData.key 0 0 ext) = rotaDefault ext := by
  have hk : Obj.rotaData.key 0 0 ext = 0x4000030000 + ext := rfl
  have hidx : (0x4000030000 + ext) / 16777216 = 0x4000 := by omega
  have hsub : (0x4000030000 + ext) / 65536 % 256 = 3 := by omega
  have hext : (0x4000030000 + ext) % 65536 = ext := by omega
  simp [regDefault, hk, hidx, hsub, hext]

/-- After reset phase 0 of every unit is MAINT and the others are IDLE (R98). -/
theorem rota_reset {u f : Nat} (hu : u < 76) (hf : f < 64) :
    State.reset.view.rota u f = if f = 0 then rotaMaint else rotaIdle := by
  have habsent : ∀ e ∈ State.reset.view.force, e.1 ≠ Obj.rotaData.key 0 0 (u * 64 + f) := by
    have hk : Obj.rotaData.key 0 0 (u * 64 + f) = 0x4000030000 + (u * 64 + f) := rfl
    simp only [State.view, State.reset, Cat.reset, List.mem_singleton, forall_eq, hk]
    omega
  have hphase : (u * 64 + f) % 64 = f := by omega
  rw [View.rota, View.obj, sget_of_absent _ _ habsent, regDefault_rotaData (by omega), rotaDefault, hphase]

end Sys2Proof.Machine
end

section
open Sys2Proof Sys2Proof.Machine

/-- Settles O6: the rota by the defaults of its entries, the rest by evaluation of the state after reset. -/
theorem resetValues : Obligations.ResetValues := by
  have hphases : State.reset.view.phases = 64 := by decide
  have hrates : State.reset.view.obj .dbusCfg = 0x10 := by decide
  exact ⟨⟨hphases, fun _ _ => rota_reset, fun _ => ⟨rfl, rfl, rfl⟩, fun _ => ⟨rfl, rfl⟩, hrates, rfl, rfl, rfl, rfl,
    fun _ => rfl, rfl, rfl⟩, rfl, rfl⟩

end

section
/-! The compare of a ternary entry, bit by bit (R71, R73). -/

namespace Sys2Proof.Machine

/-- An AND is zero exactly when no bit is set in both. -/
theorem land_eq_zero_iff {a b n : Nat} (ha : a < 2 ^ n) :
    a &&& b = 0 ↔ ∀ i, i < n → a.testBit i = true → b.testBit i = false := by
  constructor
  · intro h i _ hi
    have hb := congrArg (Nat.testBit · i) h
    simpa [Nat.testBit_and, hi] using hb
  · intro h
    refine Nat.eq_of_testBit_eq fun i => ?_
    rw [Nat.testBit_and, Nat.zero_testBit]
    by_cases hi : i < n
    · cases ht : a.testBit i
      · rfl
      · exact h i hi ht
    · rw [Nat.testBit_lt_two_pow (Nat.lt_of_lt_of_le ha (Nat.pow_le_pow_right (by omega) (by omega))), Bool.false_and]

/-- Bit `i` of a slice of a number that lies within its width. -/
theorem testBit_sliceAt {x width off len i : Nat} (h : off + len ≤ width) (hi : i < len) :
    (sliceAt x width off len).testBit i = x.testBit (width - off - len + i) := by
  rw [sliceAt, if_pos h, Nat.testBit_mod_two_pow, Nat.testBit_div_two_pow]
  simp [hi, Nat.add_comm]

/-- An atom matches 80 key bits exactly when every MASK bit of 1 meets an equal key bit and every MASK bit of 0 stands with a
VALUE bit of 0 (R73). -/
theorem atomHit_iff (a : BitVec 160) (kb : Nat) : atomHit a kb = true ↔ ∀ i, i < 80 →
    (a.getLsbD i = true → a.getLsbD (80 + i) = kb.testBit i) ∧ (a.getLsbD i = false → a.getLsbD (80 + i) = false) := by
  have hvalue : a.toNat / 2 ^ 80 < 2 ^ 80 := by have := a.isLt; omega
  have hmask : a.toNat % 2 ^ 80 < 2 ^ 80 := Nat.mod_lt _ (by decide)
  have hbits : ∀ i, i < 80 → (a.toNat / 2 ^ 80).testBit i = a.getLsbD (80 + i) ∧
      (a.toNat % 2 ^ 80).testBit i = a.getLsbD i ∧ (2 ^ 80 - 1).testBit i = true := fun i hi => by
    refine ⟨?_, ?_, ?_⟩
    · rw [Nat.testBit_div_two_pow, BitVec.getLsbD, Nat.add_comm]
    · rw [Nat.testBit_mod_two_pow, BitVec.getLsbD]
      simp [hi]
    · rw [Nat.testBit_two_pow_sub_one]
      simp [hi]
  simp only [atomHit, Bool.and_eq_true, decide_eq_true_eq, land_eq_zero_iff hvalue, land_eq_zero_iff hmask, ← forall_and]
  refine forall_congr' fun i => forall_congr' fun hi => ?_
  obtain ⟨hv, hm, h1⟩ := hbits i hi
  rw [Nat.testBit_xor, Nat.testBit_xor, hv, hm, h1]
  cases a.getLsbD i
  · simp
  · simp

end Sys2Proof.Machine
end

section
open Sys2Proof Sys2Proof.Machine

/-- Settles O32: an entry hits when each of its atoms matches, and an atom matches position by position. -/
theorem ternaryCompare : Obligations.TernaryCompare := by
  intro s k bay mat row key _ _
  have hbit : ∀ a, a < k → ∀ i, i < 80 → (sliceAt (key.toNat % 2 ^ (80 * k)) (80 * k) (80 * a) 80).testBit i =
      key.getLsbD (80 * k - 80 * a - 80 + i) := fun a ha i hi => by
    rw [testBit_sliceAt (by omega) hi, Nat.testBit_mod_two_pow, BitVec.getLsbD]
    simp [show 80 * k - 80 * a - 80 + i < 80 * k by omega]
  simp only [State.entryHit, List.all_eq_true, List.mem_range, atomHit_iff]
  refine forall_congr' fun a => forall_congr' fun ha => ⟨fun h j hj => ?_, fun h i hi => ?_⟩
  · have hp := h (79 - j) (by omega)
    rw [hbit a ha _ (by omega), show 80 + (79 - j) = 159 - j by omega,
      show 80 * k - 80 * a - 80 + (79 - j) = 80 * k - 1 - (80 * a + j) by omega] at hp
    exact hp
  · have hp := h (79 - i) (by omega)
    rw [show 79 - (79 - i) = i by omega, show 159 - (79 - i) = 80 + i by omega,
      show 80 * k - 1 - (80 * a + (79 - i)) = 80 * k - 80 * a - 80 + i by omega] at hp
    rw [hbit a ha i hi]
    exact hp

end

section
/-! Ternary commands that write a new entry (R91, R92, R184, R186): past their checks they lay out the row operations of the
entry, take the reference on its action, and wait in their queue for maintenance slots. -/

namespace Sys2Proof.Machine

/-! ### The row operations -/

theorem stepOps_ne_nil {d : Trn} {c a : Nat} {rs : List Replica} {f : Nat → Replica → Option (BitVec 160) × Option (BitVec 96)}
    (h : rs ≠ []) : stepOps d c rs f a ≠ [] := by
  simpa [stepOps, ← List.length_eq_zero_iff] using h

/-- A new entry with a replica has rows to write in copy 0. -/
theorem inCopies_newOps_ne_nil {d : Trn} {rs : List Replica} {e : EntryWord} {value mask : Nat} (hd : 0 < d.ncopy)
    (h : rs ≠ []) : inCopies d (newOps d rs e value mask) ≠ [] := by
  intro hn
  have h0 := List.flatMap_eq_nil_iff.1 hn 0 (List.mem_range.2 hd)
  exact stepOps_ne_nil h (List.append_eq_nil_iff.1 h0).2

theorem View.trn_ncopy_pos (v : View) (t : Nat) : 0 < (v.trn t).ncopy := Nat.succ_pos _

/-! ### A command that begins -/

/-- A queued command is replaced where it stands. -/
theorem State.mem_queue_setCmd {s : State} {c x : MqCmd} (hx : x ∈ s.queue c.room) (hid : x.id = c.id) :
    c ∈ (s.setCmd c).queue c.room := by
  rw [State.setCmd, State.queue, State.setQueue, sget_sput_self, List.mem_map]
  exact ⟨x, hx, if_pos hid⟩

theorem State.queue_setCmd_ne {s : State} {c : MqCmd} {r : Nat} (hr : r ≠ c.room) : (s.setCmd c).queue r = s.queue r :=
  sget_sput_ne _ _ _ _ hr

theorem State.touches_setCmd (s : State) (c : MqCmd) : Touches [.arb] s (s.setCmd c) := touches_arb s _

theorem State.touches_addRef (s : State) (p : Nat) : Touches [.mem] s (s.addRef p) := touches_mem s _

/-- A command that takes a reference and has rows to write waits in its queue with its operations and the entry that it adds
(R184, R216). -/
theorem State.begins_newEntry (s : State) (c : MqCmd) (p result : Nat) {ops : List RowOp} (rs : List Replica) (hops : ops ≠ []) :
    let u := (s.addRef p).beginOps c ops [] [rs] [] result
    (u.alloc p).count = (s.alloc p).count + 1 ∧
      (∀ x ∈ s.queue c.room, x.id = c.id → ∃ y ∈ u.queue c.room, y.id = c.id ∧ y.ops = ops ∧ y.adds = [rs]) ∧
      CommandFrame c [.mem] s u := by
  have hu : (s.addRef p).beginOps c ops [] [rs] [] result = (s.addRef p).setCmd { c with
      ops := ops, drops := [], adds := [rs], dels := [], reply := (Machine.reply 0 result).tcomps c.hdr } := by
    rw [State.beginOps, if_neg (by simpa using hops)]
  simp only [hu]
  refine ⟨?_, fun x hx hid => ⟨_, State.mem_queue_setCmd hx hid, rfl, rfl, rfl⟩, ?_, RegsBut.of_eq _ rfl, fun r hr =>
    State.queue_setCmd_ne hr⟩
  · exact congrArg Alloc.count (sget_sput_self _ _ _)
  · exact ((s.touches_addRef p).mono (by simp)).followed (State.touches_setCmd _ _) (by simp)

/-! ### The checks passed -/

section

variable {s : State} {c : MqCmd} (hk : (s.view.tbl c.hdr.table).kind = 0)
  (hs : s.tableStatus c (trnBad (s.view.trn c.hdr.table) c.hdr c.body) = none) (hf : (s.table c.hdr.table).filling = [])
include hk hs hf

/-- A ternary INSERT past checks 1 to 5, with no copy of its table filling. -/
theorem tableCommand_trnInsert (ho : c.hdr.op = opInsert) :
    tableCommand c s = trnInsert c s (s.view.trn c.hdr.table) := by
  simp [tableCommand, trnCommand, hk, hs, hf, ho]

/-- A ternary WRITE at host-named rows past checks 1 to 5, with no copy of its table filling. -/
theorem tableCommand_trnPlace (ho : c.hdr.op = opWrite) (hp : c.hdr.placed = true) :
    tableCommand c s = trnPlace c s (s.view.trn c.hdr.table) := by
  simp [tableCommand, trnCommand, hk, hs, hf, ho, hp]

end

/-- The entry word of a command that writes an entry (R173). -/
abbrev MqCmd.entry (c : MqCmd) : EntryWord := entryWord (c.body.headD 0)

/-- VALUE and MASK of a command that writes an entry (R174). -/
abbrev MqCmd.key (c : MqCmd) (d : Trn) : Nat × Nat := keyOf d.k (c.body.drop 1)

/-- The replica descriptors of a command that names its rows (R175). -/
abbrev MqCmd.reps (c : MqCmd) (d : Trn) : List RepDesc := repDescs (c.body.drop (1 + keyGranules d.k))

section

variable {s : State} {c : MqCmd} {d : Trn} {rs : List Replica} {r0 : Replica}
  (he : d.direct = true ∨ s.newEdition c.hdr.room c.entry.rset c.entry.first c.entry.retiring = none)
  (hp : s.ptrCheck s.view c.hdr.room c.entry.ptr (c.entry.plen + 1) = none) (hr : rs.head? = some r0)
include he

/-- The edition rules bind an edition table alone (R186). -/
theorem newEdition_passed :
    (if !d.direct then s.newEdition c.hdr.room c.entry.rset c.entry.first c.entry.retiring else none) = none := by
  rcases he with h | h
  · rw [h]
    rfl
  · rw [h, ite_self]

include hp hr

/-- An INSERT past every check begins at the rows that the device chose (R91). -/
theorem trnInsert_ok (hc : s.choose d (c.key d).1 (c.key d).2 = .ok rs) : trnInsert c s d = (s.addRef c.entry.ptr).beginOps c
    (inCopies d (newOps d rs c.entry (c.key d).1 (c.key d).2)) [] [rs] [] (handleOf d r0) := by
  obtain ⟨t, rfl⟩ : ∃ t, rs = r0 :: t := List.head?_eq_some_iff.1 hr
  simp only [trnInsert, newEdition_passed he, hp, hc]

/-- A WRITE past every check begins at the rows that the host named (R92). -/
theorem trnPlace_ok (hn : s.namedStatus d (c.key d).1 (c.key d).2 (c.reps d) [] = none) (hrs : rs = namedReps d (c.reps d)) :
    trnPlace c s d = (s.addRef c.entry.ptr).beginOps c
      (inCopies d (newOps d rs c.entry (c.key d).1 (c.key d).2)) [] [rs] [] (handleOf d r0) := by
  obtain ⟨t, ht⟩ : ∃ t, rs = r0 :: t := List.head?_eq_some_iff.1 hr
  simp only [trnPlace, newEdition_passed he, hp, hn, ← hrs, ht]

end

end Sys2Proof.Machine
end

section
open Sys2Proof Sys2Proof.Machine

/-- Settles O17: past its checks the command begins with the operations of the new rows, which wait with it in its queue. -/
theorem ternaryInserts : Obligations.TernaryInserts := by
  intro s s1 c rs r0 t d e kv hk hs hf he hp hr
  have hops : inCopies d (newOps d rs e kv.1 kv.2) ≠ [] :=
    inCopies_newOps_ne_nil (s1.view.trn_ncopy_pos t) fun h => by simp [h] at hr
  obtain ⟨hcount, hqueue, hframe⟩ := s1.begins_newEntry c e.ptr (handleOf d r0) rs hops
  refine ⟨fun hst hc => ?_, fun hst hpl hn hrs => ?_⟩
  · have hu : tableCommand c s1 = _ := (tableCommand_trnInsert hk hs hf hst.1).trans (trnInsert_ok he hp hr hc)
    have hx : exec .insert s = .next (tableCommand c s1) := congrArg _ (State.startSlot_of_starts _ _ hst rfl)
    exact ⟨_, _, hx.trans (congrArg _ hu), hcount, rfl, hqueue, hframe⟩
  · have hu : tableCommand c s1 = _ := (tableCommand_trnPlace hk hs hf hst.1 hpl).trans (trnPlace_ok he hp hr hn hrs)
    have hx : exec .write s = .next (tableCommand c s1) := congrArg _ (State.startSlot_of_starts _ _ hst rfl)
    exact ⟨_, hx.trans (congrArg _ hu), hcount, hqueue, hframe⟩

end

section
/-! Frames of the pieces that repairs change, folds of operations that keep a frame, and records that stand while time passes. -/

namespace Sys2Proof.Machine

theorem touches_bays (s : State) (b : Bays) : Touches [.bays] s { s with bays := b } := by
  intro p hp
  cases p <;> simp_all [Piece.same, State.ring, State.port]

theorem touches_pfx (s : State) (x : PfxEngine) : Touches [.pfx] s { s with pfx := x } := by
  intro p hp
  cases p <;> simp_all [Piece.same, State.ring, State.port]

theorem touches_ed (s : State) (e : EdState) : Touches [.ed] s { s with ed := e } := by
  intro p hp
  cases p <;> simp_all [Piece.same, State.ring, State.port]

/-- Operations one after another that each keep to the pieces. -/
theorem touches_foldl {α : Type} {l : List Piece} {f : State → α → State} (h : ∀ s a, Touches l s (f s a)) (xs : List α)
    (s : State) : Touches l s (xs.foldl f s) := by
  induction xs generalizing s with
  | nil => exact Touches.refl _ _
  | cons x xs ih => exact (h s x).trans (ih _)

/-- A record stands through every change that is not one of the rings. -/
theorem State.recorded.of_touches {l : List Piece} {s t : State} {r : Nat} {c : Code} (h : s.recorded r c) (k : Touches l s t)
    (hl : Piece.rings ∉ l) : t.recorded r c := by
  obtain ⟨x, hx, hc⟩ := h
  exact ⟨x, (k .rings hl r).2.subset hx, hc⟩

/-- A ring that is open stays so while no record comes (R365). -/
theorem State.ringOpen.later {s : State} {r : Nat} (h : s.ringOpen r) (n : Nat) : (s.at n).ringOpen r := by
  obtain ⟨hlen, hwait⟩ := h
  refine ⟨hlen, ?_⟩
  have hw : ((s.at n).ring r).waiting (s.at n).now ≤ (s.ring r).waiting s.now :=
    Nat.sub_le_sub_left (Nat.le_max_left _ _) _
  have hl : ((s.at n).ring r).lateWaiting (s.at n).now ≤ (s.ring r).lateWaiting s.now := by
    refine (List.monotone_filter_right _ fun e he => ?_).length_le
    have : s.now ≤ (s.at n).now := Nat.le_max_left _ _
    simp only [decide_eq_true_eq] at he ⊢
    omega
  omega

end Sys2Proof.Machine
end

section
/-! Trie banks (R139, R452; logs 39, 40): the request for a bank's test, and what the test leaves. -/

namespace Sys2Proof.Machine

/-! ### The request -/

/-- What a table keeps of its trie when a bank on a slice is taken out of service (log 40). -/
def Table.offSlice (tb : Table) (slice : Nat) : Table :=
  let x := { tb with trieReady := false }
  { x with nodes := tb.nodes.filter fun n => n.slice ≠ slice ∧ x.trieKept = true,
           leaves := tb.leaves.filter fun r => r.slice ≠ slice ∧ x.trieKept = true }

theorem State.bankGone_eq (s : State) (t slice : Nat) : s.bankGone t slice = s.setTable t ((s.table t).offSlice slice) := by
  simp only [State.bankGone, Table.offSlice]
  split <;> simp_all

/-- Tables changed one after another, none twice. -/
theorem State.table_foldl_setTable (f : Table → Table) (l : List Nat) (hl : l.Nodup) (s : State) (j : Nat) :
    (l.foldl (fun s t => s.setTable t (f (s.table t))) s).table j = if j ∈ l then f (s.table j) else s.table j := by
  induction l generalizing s with
  | nil => rfl
  | cons t l ih =>
    obtain ⟨ht, hl⟩ := List.nodup_cons.1 hl
    rw [List.foldl_cons, ih hl]
    by_cases hj : j = t
    · subst hj
      simp [ht]
    · simp [State.table_setTable_ne _ _ _ _ hj, hj]

theorem State.inBank_nodup (s : State) (b : Nat × Nat) : (s.inBank b).Nodup := (View.tablesOf_nodup _ _).filter _

/-- The tables that have nodes in a bank lose them on its slice, one after another (R139; log 40). -/
def State.emptied (s : State) (b : Nat × Nat) : State :=
  (s.inBank b).foldl (fun s t => s.setTable t ((s.table t).offSlice b.1)) s

theorem State.emptied_table (s : State) (b : Nat × Nat) (t : Nat) :
    (s.emptied b).table t = if t ∈ s.inBank b then (s.table t).offSlice b.1 else s.table t :=
  State.table_foldl_setTable (fun x => x.offSlice b.1) _ (s.inBank_nodup b) s t

theorem State.touches_emptied (s : State) (b : Nat × Nat) : Touches [.tables] s (s.emptied b) :=
  touches_foldl (fun s _ => touches_tables s _) _ s

section

variable {s : State} {sl : Fin 4} {lv : Fin 12}

/-- A bank without an uncorrectable word, under test or beyond repair is not asked for (R452). -/
theorem bankTestRequest_idle (h : (¬ ∃ w ∈ s.health.poison, bankOf w = some (sl.val, lv.val)) ∨
    (sl.val, lv.val) ∈ s.pfx.testing ∨ (sl.val, lv.val) ∈ s.pfx.dead) : exec (.bankTestRequest sl lv) s = .next s := by
  refine if_pos ?_
  simp only [Bool.or_eq_true, Bool.not_eq_true', List.contains_iff_mem, List.any_eq_false, decide_eq_true_eq, or_assoc]
  exact h.imp_left fun h w hw hb => h ⟨w, hw, hb⟩

/-- The state in which a bank is asked for: a second after a refusal (R452). -/
def State.askTime (s : State) (b : Nat × Nat) : State :=
  match s.pfx.asked.find? fun x => (x.1, x.2.1) = b with
  | some x => s.at (x.2.2 + Config.sec)
  | none => s

theorem State.askTime_at (s : State) (b : Nat × Nat) : ∃ n, s.askTime b = s.at n := by
  simp only [State.askTime]
  split
  · exact ⟨_, rfl⟩
  · exact ⟨0, by simp [State.at]⟩

/-- The request is refused: the bank is asked for again a second later (R452). -/
def State.bankRefused (s : State) (b : Nat × Nat) (t : Nat) : State :=
  let rest := s.pfx.asked.filter fun x => (x.1, x.2.1) ≠ b
  ({ s with pfx := { s.pfx with asked := rest ++ [(b.1, b.2, s.now)] } }).record .bankRefused none hubMaint
    [(8, b.1), (8, b.2), (8, t), (8, Ab.bankInUse)]

/-- The bank is out of service for its test (R452). -/
def State.bankTaken (s : State) (b : Nat × Nat) : State :=
  let rest := s.pfx.asked.filter fun x => (x.1, x.2.1) ≠ b
  { s.emptied b with pfx := { (s.emptied b).pfx with asked := rest, testing := (s.emptied b).pfx.testing ++ [b] } }

/-- The request for a bank with an uncorrectable word: refused while a table needs the bank, else its test begins (R139, R452). -/
theorem bankTestRequest_asks (hbad : ∃ w ∈ s.health.poison, bankOf w = some (sl.val, lv.val))
    (ht : (sl.val, lv.val) ∉ s.pfx.testing) (hd : (sl.val, lv.val) ∉ s.pfx.dead) :
    ∃ n, exec (.bankTestRequest sl lv) s = .next (match s.bankUser (sl.val, lv.val) with
      | some t => (s.at n).bankRefused (sl.val, lv.val) t
      | none => (s.at n).bankTaken (sl.val, lv.val)) := by
  obtain ⟨n, hn⟩ := s.askTime_at (sl.val, lv.val)
  have hgo : ¬ (!(s.health.poison.any fun w => bankOf w = some (sl.val, lv.val)) ||
      s.pfx.testing.contains (sl.val, lv.val) || s.pfx.dead.contains (sl.val, lv.val)) = true := by
    simpa [ht, hd] using hbad
  have hexec : exec (.bankTestRequest sl lv) s = match (s.askTime (sl.val, lv.val)).bankUser (sl.val, lv.val) with
      | some t => .next ((s.askTime (sl.val, lv.val)).bankRefused (sl.val, lv.val) t)
      | none => .next ((s.askTime (sl.val, lv.val)).bankTaken (sl.val, lv.val)) := by
    simp only [State.bankTaken, State.emptied, ← State.bankGone_eq]
    exact if_neg hgo
  refine ⟨n, hexec.trans ?_⟩
  have huser : (s.at n).bankUser (sl.val, lv.val) = s.bankUser (sl.val, lv.val) := rfl
  rw [hn, huser]
  cases s.bankUser (sl.val, lv.val) <;> rfl

/-- A refused request notes its cycle and is recorded (R452). -/
theorem State.bankRefused_spec (s : State) (b : Nat × Nat) (t : Nat) :
    (s.bankRefused b t).pfx.testing = s.pfx.testing ∧ (s.bankRefused b t).pfx.dead = s.pfx.dead ∧
      (b.1, b.2, (s.bankRefused b t).now) ∈ (s.bankRefused b t).pfx.asked ∧
      (s.ringOpen 16 → (s.bankRefused b t).recorded 16 .bankRefused) ∧ Touches [.pfx] s (s.bankRefused b t) := by
  have hrec := fun (u : State) => onlyRecords_record u .bankRefused none hubMaint
    [(8, b.1), (8, b.2), (8, t), (8, Ab.bankInUse)] 0 (by simp)
  refine ⟨?_, ?_, ?_, fun h => State.recorded_record _ _ _ _ h, (touches_pfx s _).of_records (hrec _)⟩
  all_goals simp [State.bankRefused, (hrec _).pfx, (hrec _).now]

theorem State.bankTaken_spec (s : State) (b : Nat × Nat) :
    (s.bankTaken b).pfx.testing = s.pfx.testing ++ [b] ∧ (s.bankTaken b).pfx.dead = s.pfx.dead ∧
      (∀ t, (s.bankTaken b).table t = if t ∈ s.inBank b then (s.table t).offSlice b.1 else s.table t) ∧
      Touches [.pfx, .tables] s (s.bankTaken b) := by
  have hpfx : (s.emptied b).pfx = s.pfx := s.touches_emptied b .pfx (by simp)
  refine ⟨by simp only [State.bankTaken, hpfx], by simp only [State.bankTaken, hpfx], fun t => s.emptied_table b t, ?_⟩
  exact ((s.touches_emptied b).mono (by simp)).followed (touches_pfx _ _) (by simp)

end

/-! ### The test -/

/-- Failing rows of a die are replaced: redundant rows of that die come into use, and nothing else but records (R441; log 39). -/
structure RowsReplaced (d : Nat) (s u : State) : Prop where
  touches : Touches [.free, .health] s u
  poison : u.health.poison = s.health.poison
  repairs : ∀ y ∈ u.health.repairs, y ∈ s.health.repairs ∨ y.1 = d

namespace RowsReplaced

variable {d : Nat} {s t u : State}

theorem refl (s : State) : RowsReplaced d s s := ⟨Touches.refl _ _, rfl, fun _ h => .inl h⟩

theorem trans (h : RowsReplaced d s t) (k : RowsReplaced d t u) : RowsReplaced d s u :=
  ⟨h.touches.trans k.touches, k.poison.trans h.poison, fun y hy => (k.repairs y hy).elim (h.repairs y) .inr⟩

theorem draw (s : State) : RowsReplaced d s s.draw := ⟨(touches_free s _).mono (by simp), rfl, fun _ h => .inl h⟩

theorem assignRow (s : State) (r row : Nat) : RowsReplaced d s (s.assignRow d r row) := by
  have hrec := fun (v : State) => onlyRecords_record v .srRepair none (srcOf d) [(8, d), (32, r), (16, row)] 0 (by simp)
  refine ⟨((touches_health s _).mono (by simp)).of_records (hrec _), ?_, fun y hy => ?_⟩
  · rw [State.assignRow, (hrec _).health]
    rfl
  · rw [State.assignRow, (hrec _).health] at hy
    rcases List.mem_append.1 hy with hy | hy
    · exact .inl hy
    · exact .inr (List.mem_singleton.1 hy ▸ rfl)

theorem srRows (s : State) (r : Nat) (rows : List Nat) : RowsReplaced d s (s.srRows d r rows) := by
  have all : ∀ (l : List Nat) (v : State), RowsReplaced d v (l.foldl (fun s row => s.assignRow d r row) v) := fun l => by
    induction l with
    | nil => exact refl
    | cons row l ih => exact fun v => (assignRow v r row).trans (ih _)
  exact all _ s

theorem freeRows (lo m n : Nat) (s : State) : RowsReplaced d s (s.freeRows d lo m n) := by
  induction n generalizing s with
  | zero => exact refl s
  | succ n ih => exact ((srRows s _ _).trans (draw _)).trans (ih _)

end RowsReplaced

section

variable {s : State} {sl : Fin 4} {lv : Fin 12}

/-- The bank's test is recorded, and the bank is no longer under test (R452). -/
def State.testNoted (s : State) (b : Nat × Nat) (r : Nat) : State :=
  let u := s.record .bankTest none (srcDie b.1) [(8, b.1), (8, b.2), (8, r)]
  { u with pfx := { u.pfx with testing := u.pfx.testing.filter (· ≠ b) } }

/-- The bank's test ends, with the failing rows that a repair replaces (R452; log 39). -/
def State.bankTested (s : State) (b : Nat × Nat) (r : Nat) : State :=
  let v := s.testNoted b r
  if r = 0 then v else v.draw.freeRows b.1 4196 5120 (1 + v.drawn % 10240)

theorem bankTest_idle (h : (sl.val, lv.val) ∉ s.pfx.testing) (r : Fin 3) : exec (.bankTest sl lv r) s = .next s :=
  if_pos (by simpa using h)

/-- A bank is beyond repair until the next start (R452). -/
def State.bankDead (s : State) (b : Nat × Nat) : State := { s with pfx := { s.pfx with dead := s.pfx.dead ++ [b] } }

/-- A bank comes back, and its words lose their marks (R452). -/
def State.bankBack (s : State) (b : Nat × Nat) : State :=
  (s.setHealth fun x => { x with poison := x.poison.filter fun w => bankOf w ≠ some b }).record .bankReturned none (srcDie b.1)
    [(8, b.1), (8, b.2)]

theorem bankTest_ends (h : (sl.val, lv.val) ∈ s.pfx.testing) (r : Fin 3) : exec (.bankTest sl lv r) s =
    if r.val = 2 then .next ((s.bankTested (sl.val, lv.val) r.val).bankDead (sl.val, lv.val))
      else .next ((s.bankTested (sl.val, lv.val) r.val).bankBack (sl.val, lv.val)) :=
  if_neg (by simpa using h)

theorem State.bankBack_spec (s : State) (b : Nat × Nat) : (s.bankBack b).pfx = s.pfx ∧ (s.bankBack b).free = s.free ∧
    (s.bankBack b).health = { s.health with poison := s.health.poison.filter fun w => bankOf w ≠ some b } ∧
    Touches [.health] s (s.bankBack b) := by
  have hrec := onlyRecords_record (s.setHealth fun x => { x with poison := x.poison.filter fun w => bankOf w ≠ some b })
    .bankReturned none (srcDie b.1) [(8, b.1), (8, b.2)] 0 (by simp)
  exact ⟨hrec.pfx, hrec.free, hrec.health, (touches_health s _).of_records hrec⟩

theorem State.testNoted_spec (s : State) (b : Nat × Nat) (r : Nat) :
    (s.testNoted b r).pfx = { s.pfx with testing := s.pfx.testing.filter (· ≠ b) } ∧ (s.testNoted b r).health = s.health ∧
      (s.testNoted b r).free = s.free ∧ (s.ringOpen 16 → (s.testNoted b r).recorded 16 .bankTest) ∧
      Touches [.pfx] s (s.testNoted b r) := by
  have hrec := onlyRecords_record s .bankTest none (srcDie b.1) [(8, b.1), (8, b.2), (8, r)] 0 (by simp)
  refine ⟨by simp [State.testNoted, hrec.pfx], hrec.health, hrec.free, fun h => ?_, (hrec.touches _).followed (touches_pfx _ _)
    (by simp)⟩
  exact (State.recorded_record .bankTest (srcDie b.1) [(8, b.1), (8, b.2), (8, r)] 0 h).of_rings rfl

theorem State.bankTested_spec (s : State) (b : Nat × Nat) (r : Nat) :
    (s.bankTested b r).pfx = { s.pfx with testing := s.pfx.testing.filter (· ≠ b) } ∧
      (s.bankTested b r).health.poison = s.health.poison ∧
      (∀ y ∈ (s.bankTested b r).health.repairs, y ∈ s.health.repairs ∨ y.1 = b.1) ∧
      (r = 0 → (s.bankTested b r).health = s.health ∧ (s.bankTested b r).free = s.free) ∧
      (s.ringOpen 16 → (s.bankTested b r).recorded 16 .bankTest) ∧
      Touches [.free, .pfx, .health] s (s.bankTested b r) := by
  obtain ⟨hpfx, hhealth, hfree, hstands, htouch⟩ := s.testNoted_spec b r
  by_cases hr : r = 0
  · rw [State.bankTested, if_pos hr]
    exact ⟨hpfx, by rw [hhealth], fun y hy => .inl (hhealth ▸ hy), fun _ => ⟨hhealth, hfree⟩, hstands, htouch.mono (by simp)⟩
  · have hrows := (RowsReplaced.draw (d := b.1) (s.testNoted b r)).trans
      (RowsReplaced.freeRows 4196 5120 (1 + (s.testNoted b r).drawn % 10240) _)
    rw [State.bankTested, if_neg hr]
    exact ⟨(hrows.touches .pfx (by simp)).trans hpfx, by rw [hrows.poison, hhealth],
      fun y hy => hhealth ▸ hrows.repairs y hy, fun h => absurd h hr, fun h => (hstands h).of_touches hrows.touches (by simp),
      (htouch.mono (by simp)).followed hrows.touches (by simp)⟩

end

end Sys2Proof.Machine
end

section
/-! Copies that complete their fill (R82, R113, R142; log 92). -/

namespace Sys2Proof.Machine

/-! ### Exact-match copies -/

theorem touches_em_health (s : State) (e : Em) (h : Health) : Touches [.em, .health] s { s with em := e, health := h } :=
  ((touches_em s e).mono (by simp)).followed (touches_health { s with em := e } h) (by simp)

/-- The slice of a copy on which a slot of copy 0 stands (R142). -/
def EmDesc.copySlice (d : EmDesc) (c i : Nat) : Nat := d.slices.getD c 0 + (i / 2097152 - d.slices.getD 0 0)

/-- A slot of copy 0 is written in another copy, at its way, bucket and slot, and uncorrectable there if it is so here (R142;
log 92). -/
def State.copySlot (s : State) (d : EmDesc) (c i : Nat) : State :=
  let sl := d.copySlice c i
  let j := moveSlice i sl
  let s := ({ s with em := { s.em with slots := sput (fun _ => 0) s.em.slots j (s.emSlot i) } }).cleanse .emSlot sl j
  if s.poisoned .emSlot (i / 2097152) i then
    { s with health := { s.health with poison := s.health.poison ++ [⟨.emSlot, sl, j⟩] } } else s

theorem State.copySlot_eq (s : State) (d : EmDesc) (c i : Nat) : ∃ h, s.copySlot d c i = { s with
    em := { s.em with slots := sput (fun _ => 0) s.em.slots (moveSlice i (d.copySlice c i)) (s.emSlot i) }, health := h } := by
  simp only [State.copySlot]
  split
  · exact ⟨_, rfl⟩
  · exact ⟨_, rfl⟩

theorem State.fillEm_eq (s : State) (d : EmDesc) (c : Nat) : s.fillEm d c = (s.emEntries d).foldl (fun s e =>
    if d.wide then (s.copySlot d c e.1).copySlot d c (e.1 + 1) else s.copySlot d c e.1) s := rfl

/-- A copy that is filled changes slots and marks alone (R142). -/
structure SlotsCopied (s u : State) : Prop where
  touches : Touches [.em, .health] s u
  stamps : u.em.stamps = s.em.stamps

theorem SlotsCopied.trans {s t u : State} (h : SlotsCopied s t) (k : SlotsCopied t u) : SlotsCopied s u :=
  ⟨h.touches.trans k.touches, k.stamps.trans h.stamps⟩

theorem State.slotsCopied_copySlot (s : State) (d : EmDesc) (c i : Nat) : SlotsCopied s (s.copySlot d c i) := by
  obtain ⟨h, he⟩ := s.copySlot_eq d c i
  rw [he]
  exact ⟨touches_em_health s _ h, rfl⟩

theorem slotsCopied_foldl {α : Type} {f : State → α → State} (h : ∀ s a, SlotsCopied s (f s a)) (l : List α) (s : State) :
    SlotsCopied s (l.foldl f s) := by
  induction l generalizing s with
  | nil => exact ⟨Touches.refl _ _, rfl⟩
  | cons a l ih => exact (h s a).trans (ih _)

theorem State.slotsCopied_fillEm (d : EmDesc) (s : State) (c : Nat) : SlotsCopied s (s.fillEm d c) := by
  rw [State.fillEm_eq]
  refine slotsCopied_foldl (fun s e => ?_) _ s
  split
  · exact (s.slotsCopied_copySlot d c _).trans (State.slotsCopied_copySlot _ d c _)
  · exact s.slotsCopied_copySlot d c _

theorem State.emSlot_copySlot (s : State) (d : EmDesc) (c i j : Nat) : (s.copySlot d c i).emSlot j =
    if j = moveSlice i (d.copySlice c i) then s.emSlot i else s.emSlot j := by
  obtain ⟨h, he⟩ := s.copySlot_eq d c i
  rw [he]
  exact sget_sput _ _ _ _

/-- Slots copied one after another, none of whose copies stands where one of them does, and no two in one place: each copy holds
its slot, and the other slots stay. -/
theorem State.emSlot_foldl_copySlot (d : EmDesc) (c : Nat) (l : List (Nat × BitVec 128)) (s : State)
    (hfree : ∀ e ∈ l, ∀ e' ∈ l, moveSlice e.1 (d.copySlice c e.1) ≠ e'.1)
    (hinj : l.Pairwise fun e e' => moveSlice e.1 (d.copySlice c e.1) ≠ moveSlice e'.1 (d.copySlice c e'.1)) :
    (∀ e ∈ l, (l.foldl (fun s e => s.copySlot d c e.1) s).emSlot (moveSlice e.1 (d.copySlice c e.1)) = s.emSlot e.1) ∧
    ∀ j, (∀ e ∈ l, j ≠ moveSlice e.1 (d.copySlice c e.1)) →
      (l.foldl (fun s e => s.copySlot d c e.1) s).emSlot j = s.emSlot j := by
  induction l generalizing s with
  | nil => exact ⟨fun _ h => (List.not_mem_nil h).elim, fun _ _ => rfl⟩
  | cons x l ih =>
    obtain ⟨hx, hl⟩ := List.pairwise_cons.1 hinj
    obtain ⟨hin, hout⟩ := ih (s.copySlot d c x.1) (fun e he e' he' => hfree e (.tail _ he) e' (.tail _ he')) hl
    refine ⟨fun e he => ?_, fun j hj => ?_⟩
    · rcases List.mem_cons.1 he with rfl | he
      · rw [List.foldl_cons, hout _ fun e' he' => hx e' he', State.emSlot_copySlot, if_pos rfl]
      · rw [List.foldl_cons, hin e he, State.emSlot_copySlot,
          if_neg fun h => hfree x List.mem_cons_self e (.tail _ he) h.symm]
    · rw [List.foldl_cons, hout j fun e he => hj e (.tail _ he), State.emSlot_copySlot, if_neg (hj x List.mem_cons_self)]

/-- Entries of copy 0 do not lie before its first slice (R140, R166). -/
theorem slice_le_of_mem_emEntries {s : State} {v : View} {t : Nat} {e : Nat × BitVec 128} (h : e ∈ s.emEntries (v.em t)) :
    (v.em t).slices.getD 0 0 ≤ e.1 / 2097152 := by
  have hin : (v.em t).inTable e.1 = true := by
    have := (List.mem_filter.1 h).2
    simp only [Bool.and_eq_true] at this
    exact this.1
  have hslice : (v.em t).slices.getD 0 0 ≤ bits e.1 22 21 := by
    simp only [EmDesc.inTable, Bool.and_eq_true, List.contains_iff_mem] at hin
    obtain ⟨j, -, hj⟩ := List.mem_map.1 hin.1.1
    omega
  have hmod : bits e.1 22 21 = e.1 / 2097152 % 4 := rfl
  omega

theorem pairwise_of_srising {α : Type} {m : Store α} {lo : Nat} (h : srising lo m = true) : m.Pairwise fun e x => e.1 < x.1 := by
  induction m generalizing lo with
  | nil => exact .nil
  | cons y t ih =>
    simp only [srising, Bool.and_eq_true] at h
    exact .cons (fun x hx => lt_of_srising h.2 hx) (ih h.2)

/-- Entries of copy 0 that differ in their slot differ in it on another copy. -/
theorem EmDesc.moveSlice_ne {d : EmDesc} {c i j : Nat} (hi : d.slices.getD 0 0 ≤ i / 2097152)
    (hj : d.slices.getD 0 0 ≤ j / 2097152) (h : i ≠ j) : moveSlice i (d.copySlice c i) ≠ moveSlice j (d.copySlice c j) := by
  simp only [moveSlice, EmDesc.copySlice]
  omega

/-- A copy of a single-slot table on slices of its own holds, once filled, every entry of copy 0 (R142). -/
theorem State.emSlot_fillEm {s : State} {v : View} {t c : Nat} (hw : (v.em t).wide = false) (hr : srising 0 s.em.slots = true)
    (hfree : ∀ e ∈ s.emEntries (v.em t), ∀ e' ∈ s.emEntries (v.em t), (v.em t).copySlice c e.1 ≠ e'.1 / 2097152)
    {e : Nat × BitVec 128} (he : e ∈ s.emEntries (v.em t)) :
    (s.fillEm (v.em t) c).emSlot (moveSlice e.1 ((v.em t).copySlice c e.1)) = e.2 := by
  have hapart : ∀ x ∈ s.emEntries (v.em t), ∀ y ∈ s.emEntries (v.em t), moveSlice x.1 ((v.em t).copySlice c x.1) ≠ y.1 :=
    fun x hx y hy h => hfree x hx y hy (by rw [← h, moveSlice]; omega)
  have hinj : (s.emEntries (v.em t)).Pairwise fun x y =>
      moveSlice x.1 ((v.em t).copySlice c x.1) ≠ moveSlice y.1 ((v.em t).copySlice c y.1) :=
    ((pairwise_of_srising hr).filter _).imp_of_mem fun hx hy hlt =>
      EmDesc.moveSlice_ne (slice_le_of_mem_emEntries hx) (slice_le_of_mem_emEntries hy) (Nat.ne_of_lt hlt)
  have hcopy := ((State.emSlot_foldl_copySlot (v.em t) c _ s hapart hinj).1 e he)
  simp only [State.fillEm_eq, hw]
  exact hcopy.trans (sget_of_mem hr (List.mem_filter.1 he).1)

/-! ### The end of a fill -/

section

variable {s : State} {t : Fin 256}

theorem copyFillDone_idle (h : (s.table t).filling = [] ∨ s.fillWaits t = true) : exec (.copyFillDone t) s = .next s :=
  if_pos (by simpa using h)

/-- The state in which the copies of a table have their content, those of an exact-match table from copy 0 (R142). -/
def State.copiesFilled (s : State) (t : Nat) : State :=
  if (s.view.tbl t).kind = 2 then (s.table t).filling.foldl (fun u c => u.fillEm (s.view.em t) c) s.catchUp else s.catchUp

/-- The copies of a table are complete (R82). -/
def State.copiesEnded (s : State) (t : Nat) : State :=
  (s.copiesFilled t).setTable t { (s.copiesFilled t).table t with filling := [], fillPos := [] }

/-- In a table whose trie is READY that ends a build (R135). -/
def State.fillNoted (s : State) (t : Nat) : State :=
  if (s.view.tbl t).kind = 1 && ((s.copiesEnded t).table t).trieReady then
    (s.copiesEnded t).record .pfxBuildDone (some (s.view.tbl t).room) hubMaint [(8, t), (8, 0)] else s.copiesEnded t

theorem copyFillDone_ends (h : (s.table t).filling ≠ []) (hw : s.fillWaits t = false) :
    exec (.copyFillDone t) s = .next (s.fillNoted t) := if_neg (by simp [h, hw])

theorem View.tbl_room_lt (v : View) (t : Nat) : (v.tbl t).room < 16 := bits_lt _ 127 124

theorem State.onlyRecords_fillNoted (s : State) (t : Nat) : OnlyRecords (s.copiesEnded t) (s.fillNoted t) := by
  rw [State.fillNoted]
  split
  · exact onlyRecords_record _ _ _ _ _ _ fun r hr => Option.some.inj hr ▸ s.view.tbl_room_lt t
  · exact OnlyRecords.refl _

theorem State.copiesFilled_of_ne {t : Nat} (h : (s.view.tbl t).kind ≠ 2) : s.copiesFilled t = s.catchUp := if_neg h

theorem State.slotsCopied_copiesFilled (s : State) (t : Nat) : SlotsCopied s.catchUp (s.copiesFilled t) := by
  rw [State.copiesFilled]
  split
  · exact slotsCopied_foldl (State.slotsCopied_fillEm _) _ _
  · exact ⟨Touches.refl _ _, rfl⟩

theorem State.copiesEnded_table (s : State) (t : Nat) :
    (s.copiesEnded t).table t = { s.catchUp.table t with filling := [], fillPos := [] } ∧
      ∀ j, j ≠ t → (s.copiesEnded t).table j = s.catchUp.table j := by
  have htab : (s.copiesFilled t).tables = s.catchUp.tables := (s.slotsCopied_copiesFilled t).touches .tables (by simp)
  refine ⟨?_, fun j hj => ?_⟩
  · rw [State.copiesEnded, State.table_setTable, State.table, htab, State.table]
  · rw [State.copiesEnded, State.table_setTable_ne _ _ _ _ hj, State.table, htab, State.table]

/-- The end of a fill changes tables alone, but in an exact-match table (R82). -/
theorem State.touches_fillNoted {t : Nat} (h : (s.view.tbl t).kind ≠ 2) : Touches [.tables] s.catchUp (s.fillNoted t) := by
  have hend : Touches [.tables] (s.copiesFilled t) (s.copiesEnded t) := touches_tables _ _
  rw [State.copiesFilled_of_ne h] at hend
  exact hend.of_records (s.onlyRecords_fillNoted t)

/-- A table whose trie is READY records the end of the build that its fill was (R135). -/
theorem State.recorded_fillNoted {t : Nat} (hk : (s.view.tbl t).kind = 1) (hr : (s.catchUp.table t).trieReady = true)
    (ho : s.catchUp.ringOpen (s.view.tbl t).room) : (s.fillNoted t).recorded (s.view.tbl t).room .pfxBuildDone := by
  have hready : ((s.copiesEnded t).table t).trieReady = true := by rw [(s.copiesEnded_table t).1, hr]
  rw [State.fillNoted, if_pos (by simp [hk, hready])]
  refine State.recorded_room _ _ _ rfl ?_
  rw [State.copiesEnded, State.copiesFilled_of_ne (by omega)]
  exact (State.ringOpen_congr _ (State.setTable_rings _ _ _) (State.setTable_now _ _ _)).2 ho

/-- The end of a fill of an exact-match table changes slots and marks besides tables (R142). -/
theorem State.touches_fillNoted_em (s : State) (t : Nat) : Touches [.tables, .em, .health] s.catchUp (s.fillNoted t) ∧
    (s.fillNoted t).em.stamps = s.catchUp.em.stamps := by
  obtain ⟨htouch, hstamps⟩ := s.slotsCopied_copiesFilled t
  have hend : Touches [.tables] (s.copiesFilled t) (s.copiesEnded t) := touches_tables _ _
  have hrec := s.onlyRecords_fillNoted t
  exact ⟨((htouch.mono (by simp)).followed hend (by simp)).of_records hrec, by rw [hrec.em]; exact hstamps⟩

theorem State.emSlot_fillNoted {t c : Nat} (hk : (s.view.tbl t).kind = 2) (hf : (s.table t).filling = [c]) (i : Nat) :
    (s.fillNoted t).emSlot i = (s.catchUp.fillEm (s.view.em t) c).emSlot i := by
  have hfill : s.copiesFilled t = s.catchUp.fillEm (s.view.em t) c := by
    rw [State.copiesFilled, if_pos hk, hf, List.foldl_cons, List.foldl_nil]
  rw [← hfill, State.emSlot, State.emSlot, (s.onlyRecords_fillNoted t).em, State.copiesEnded, State.setTable_em]

end

end Sys2Proof.Machine
end

section
open Sys2Proof Sys2Proof.Machine

/-- Settles O26: the request, the test and the end of the fill, each by what its operation leaves. -/
theorem banksAndCopies : Obligations.BanksAndCopies := by
  constructor
  · intro s sl lv b bad
    refine ⟨bankTestRequest_idle, fun hbad ht hd => ?_, fun h r => bankTest_idle h r, fun h r => ?_⟩
    · obtain ⟨n, hx⟩ := bankTestRequest_asks hbad ht hd
      have hnow : Touches [.now] s (s.at n) := touches_now s _
      refine ⟨fun hu => ?_, fun t hu => ?_⟩
      · rw [hu] at hx
        obtain ⟨htesting, hdead, htable, htouch⟩ := (s.at n).bankTaken_spec b
        refine ⟨_, hx, htesting, hdead, fun t hin => ?_, fun t hin => (htable t).trans (if_neg hin),
          (hnow.mono (by simp)).followed htouch (by simp)⟩
        rw [(htable t).trans (if_pos hin)]
        exact ⟨rfl, rfl, rfl, rfl, rfl⟩
      · rw [hu] at hx
        obtain ⟨htesting, hdead, hasked, hrec, htouch⟩ := (s.at n).bankRefused_spec b t
        exact ⟨_, hx, htesting, hdead, hasked, fun h => hrec (h.later n), (hnow.mono (by simp)).followed htouch (by simp)⟩
    · have hx := bankTest_ends h r
      obtain ⟨hpfx, hpoison, hrepairs, hzero, hrec, htouch⟩ := s.bankTested_spec b r.val
      have htesting : (s.bankTested b r.val).pfx.testing = s.pfx.testing.filter (· ≠ b) := by rw [hpfx]
      have hdead : (s.bankTested b r.val).pfx.dead = s.pfx.dead := by rw [hpfx]
      by_cases h2 : r.val = 2
      · exact ⟨_, hx.trans (if_pos h2), htesting, fun ho => (hrec ho).of_rings rfl, fun h0 => absurd (h2.symm.trans h0) (by decide),
          hrepairs, fun _ => ⟨congrArg (· ++ [b]) hdead, hpoison⟩, fun h => absurd h2 h,
          htouch.followed (touches_pfx _ _) (by simp)⟩
      · obtain ⟨hpfx', hfree', hhealth', htouch'⟩ := (s.bankTested b r.val).bankBack_spec b
        have hrows : ((s.bankTested b r.val).bankBack b).health.repairs = (s.bankTested b r.val).health.repairs := by rw [hhealth']
        refine ⟨_, hx.trans (if_neg h2), (congrArg PfxEngine.testing hpfx').trans htesting,
          fun ho => (hrec ho).of_touches htouch' (by simp), fun h0 => ⟨hrows.trans (by rw [(hzero h0).1]), hfree'.trans (hzero h0).2⟩,
          fun y hy => hrepairs y (hrows ▸ hy), fun h => absurd h h2, fun _ => ⟨(congrArg PfxEngine.dead hpfx').trans hdead, ?_⟩,
          htouch.followed htouch' (by simp)⟩
        rw [← hpoison]
        exact congrArg Health.poison hhealth'
  · intro s t v s1
    refine ⟨copyFillDone_idle, fun hf hw => ?_⟩
    obtain ⟨hself, hothers⟩ := s.copiesEnded_table t
    have htables := (s.onlyRecords_fillNoted t).tables
    refine ⟨_, copyFillDone_ends hf hw, ?_, fun j hj => ?_, State.touches_fillNoted, State.recorded_fillNoted, fun hk => ?_⟩
    · rw [State.table, htables]
      exact hself
    · rw [State.table, htables]
      exact hothers j hj
    · obtain ⟨htouch, hstamps⟩ := s.touches_fillNoted_em t
      refine ⟨htouch, hstamps, fun c hc hw hr hfree e he => ?_⟩
      rw [State.emSlot_fillNoted hk hc]
      exact State.emSlot_fillEm hw hr hfree he

end

section
/-! Row operations (R93, R184): what a row that is written holds, in the bay and in the shadow store, and which rows stay. -/

namespace Sys2Proof.Machine

/-- The shadow word of a row (R93). -/
def State.shadowWord (s : State) (k : Nat) : BitVec 160 := sget (fun _ => 0) s.bays.shadow k

/-- The row of operation `o` is written on logical bay `l`, and no other (R93, R184). -/
structure RowWritten (l : Nat) (o : RowOp) (s u : State) : Prop where
  shadow : ∀ a, o.atom = some a → u.shadowWord (rowKey l o.mat o.row) = a
  row : ∀ p, s.view.phys l = some p → (∀ a, o.atom = some a → u.atom (rowKey p o.mat o.row) = a) ∧
    (∀ w, o.side = some w → u.sideWord (rowKey p o.mat o.row) = w)
  others : ∀ k, (∀ p, s.view.phys l = some p → k ≠ rowKey p o.mat o.row) → u.atom k = s.atom k ∧ u.sideWord k = s.sideWord k
  shadows : ∀ k, k ≠ rowKey l o.mat o.row → u.shadowWord k = s.shadowWord k

/-- What comes after the write of a row and leaves the bays. -/
theorem RowWritten.of_bays {l : Nat} {o : RowOp} {s u v : State} (h : RowWritten l o s u) (hb : v.bays = u.bays) :
    RowWritten l o s v := by
  obtain ⟨h1, h2, h3, h4⟩ := h
  constructor <;> simp only [State.shadowWord, State.atom, State.sideWord, hb] at * <;> assumption

/-- A store in which an operation writes at most one word. -/
def putIf {n : Nat} (m : Store (BitVec n)) (k : Option Nat) (x : Option (BitVec n)) : Store (BitVec n) :=
  match k, x with
  | some k, some x => sput (fun _ => 0) m k x
  | _, _ => m

theorem sget_putIf_self {n : Nat} (m : Store (BitVec n)) (k : Nat) (x : BitVec n) :
    sget (fun _ => 0) (putIf m (some k) (some x)) k = x := sget_sput_self _ _ _

theorem sget_putIf_getD {n : Nat} (m : Store (BitVec n)) (k : Nat) (x : Option (BitVec n)) :
    sget (fun _ => 0) (putIf m (some k) x) k = x.getD (sget (fun _ => 0) m k) := by
  cases x with
  | none => rfl
  | some x => exact sget_putIf_self _ _ _

theorem sget_putIf_ne {n : Nat} (m : Store (BitVec n)) (k : Option Nat) (x : Option (BitVec n)) (j : Nat) (h : k ≠ some j) :
    sget (fun _ => 0) (putIf m k x) j = sget (fun _ => 0) m j := by
  cases k with
  | none => rfl
  | some k => cases x with
    | none => rfl
    | some x => exact sget_sput_ne _ _ _ _ fun hk => h (hk ▸ rfl)

theorem touches_bays_health (s : State) (b : Bays) (h : Health) :
    Touches [.bays, .health] s { s with bays := b, health := h } := by
  intro p hp
  cases p <;> simp_all [Piece.same, State.ring, State.port]

/-- A row operation writes the shadow word, and on a mapped bay the atom and the side word (R93; log 26). -/
theorem State.rowOp_eq (s : State) (o : RowOp) : ∃ h, s.rowOp o = { s with
    bays := { s.bays with
      shadow := putIf s.bays.shadow (some (rowKey o.lbay o.mat o.row)) o.atom
      atoms := putIf s.bays.atoms ((s.view.phys o.lbay).map fun p => rowKey p o.mat o.row) o.atom
      sides := putIf s.bays.sides ((s.view.phys o.lbay).map fun p => rowKey p o.mat o.row) o.side }, health := h } := by
  obtain ⟨l, m, r, a, w⟩ := o
  refine ⟨(s.rowOp ⟨l, m, r, a, w⟩).health, ?_⟩
  cases hp : s.view.phys l <;> cases a <;> cases w <;> simp [State.rowOp, putIf, hp, State.cleanse, State.view] at hp ⊢

theorem State.touches_rowOp (s : State) (o : RowOp) : Touches [.bays, .health] s (s.rowOp o) := by
  obtain ⟨h, he⟩ := s.rowOp_eq o
  exact he ▸ touches_bays_health s _ h

/-- A row operation writes its row and no other (R93, R184). -/
theorem State.rowWritten_rowOp (s : State) {o : RowOp} {l : Nat} (hl : o.lbay = l) : RowWritten l o s (s.rowOp o) := by
  subst hl
  obtain ⟨h, he⟩ := s.rowOp_eq o
  rw [he]
  refine ⟨fun a ha => ?_, fun p hp => ⟨fun a ha => ?_, fun w hw => ?_⟩, fun k hk => ?_, fun k hk => ?_⟩
  · simp only [State.shadowWord, ha, sget_putIf_self]
  · simp only [State.atom, hp, ha, Option.map_some, sget_putIf_self]
  · simp only [State.sideWord, hp, hw, Option.map_some, sget_putIf_self]
  · have hne : (s.view.phys o.lbay).map (fun p => rowKey p o.mat o.row) ≠ some k := fun hk' => by
      obtain ⟨p, hp, rfl⟩ := Option.map_eq_some_iff.1 hk'
      exact hk p hp rfl
    exact ⟨sget_putIf_ne _ _ _ _ hne, sget_putIf_ne _ _ _ _ hne⟩
  · exact sget_putIf_ne _ _ _ _ fun h => hk (Option.some.inj h).symm

end Sys2Proof.Machine
end

section
/-! A maintenance slot of a unit: what it goes to (R102, R107, R198, R446). -/

namespace Sys2Proof.Machine

/-- The physical bay that a unit's slot serves (R198). -/
def State.slotBay (s : State) (u : Nat) : Option Nat := if u < 64 then s.view.phys u else none

/-- The slot is noted as used, without a number (R107). -/
def State.slotTaken (s : State) (u c : Nat) : State :=
  s.setBays fun x => { x with slotAt := sput (fun _ => 0) x.slotAt u (c + 1) }

theorem State.slotTaken_slotAt (s : State) (u c : Nat) : sget (fun _ => 0) (s.slotTaken u c).bays.slotAt u = c + 1 := by
  simp [State.slotTaken, State.setBays]

/-- The slot takes its number (R198). -/
def State.slotNumbered (s : State) (u : Nat) : State :=
  s.setBays fun x => { x with slotNo := sput (fun _ => 0) x.slotNo u ((sget (fun _ => 0) x.slotNo u + 1) % 64) }

theorem State.slotNumbered_slotTaken (s : State) (u c : Nat) :
    (((s.at c).catchUpSlot).slotTaken u c).slotNumbered u = s.inSlot u c := by
  simp only [State.inSlot, State.slotTaken, State.slotNumbered, State.setBays]

theorem State.slotLost_slotTaken (s : State) (u c : Nat) : (s.slotTaken u c).slotLost u c = s.slotLost u c := rfl

/-- What slot number `n` of a unit is used for: collation's repair of the slot before, else the first claimant with
work (R198, R446). -/
def State.slotGiven (s : State) (u n : Nat) (f : RowFinding) : State :=
  match s.slotBay u, sget (fun _ => 0) s.health.colFix u with
  | some b, x + 1 => s.colRepair u b (x + 1) f
  | _, _ => match (unitClaimants u n).find? (s.hasWork u (s.slotBay u)) with
    | some c => s.claimSlot u (s.slotBay u) f c
    | none => s

theorem State.useSlot_eq (s : State) (u : Nat) (f : RowFinding) :
    s.useSlot u f = (s.slotNumbered u).slotGiven u (sget (fun _ => 0) s.bays.slotNo u) f := by
  have hb : (s.slotNumbered u).slotBay u = if u < 64 then s.view.phys u else none := rfl
  simp only [State.slotGiven, hb]
  rfl

theorem State.slotGiven_repairs (s : State) {u p k : Nat} (n : Nat) (f : RowFinding) (hb : s.slotBay u = some p)
    (hk : sget (fun _ => 0) s.health.colFix u = k + 1) : s.slotGiven u n f = s.colRepair u p (k + 1) f := by
  simp only [State.slotGiven, hb, hk]

section

variable {s : State} {u : Nat} (n : Nat) (f : RowFinding)
  (h : sget (fun _ => 0) s.health.colFix u = 0 ∨ s.slotBay u = none)
include h

theorem State.slotGiven_claimed {c : Claimant} (hc : (unitClaimants u n).find? (s.hasWork u (s.slotBay u)) = some c) :
    s.slotGiven u n f = s.claimSlot u (s.slotBay u) f c := by
  simp only [State.slotGiven]
  split
  · simp_all
  · simp only [hc]

theorem State.slotGiven_idle (hc : (unitClaimants u n).find? (s.hasWork u (s.slotBay u)) = none) : s.slotGiven u n f = s := by
  simp only [State.slotGiven]
  split
  · simp_all
  · simp only [hc]

end

variable {s : State} {unit : Fin 76} {x : RowFinding} {cyc : Nat}

/-- The slot of a unit that is up: lost, or used (R102, R107). -/
theorem exec_maintSlot (hup : s.catalogueUp = true) (hdie : s.dieHeld (dieOfUnit unit) = false)
    (hnext : s.nextSlot unit = some cyc) :
    exec (.maintSlot unit x) s = done (
      if ((s.at cyc).catchUpSlot).slotLost unit cyc then ((s.at cyc).catchUpSlot).slotTaken unit cyc
      else (s.inSlot unit cyc).slotGiven unit (sget (fun _ => 0) ((s.at cyc).catchUpSlot).bays.slotNo unit) x) := by
  have hexec : exec (.maintSlot unit x) s = execMaintSlot unit x s := rfl
  rw [hexec, execMaintSlot, if_neg (by simp [hup, hdie]), hnext]
  simp only [← State.slotNumbered_slotTaken]
  generalize (s.at cyc).catchUpSlot = w
  have hno : sget (fun _ => 0) w.bays.slotNo unit = sget (fun _ => 0) (w.slotTaken unit cyc).bays.slotNo unit := rfl
  rw [← State.slotLost_slotTaken, hno, ← State.useSlot_eq]
  rfl

end Sys2Proof.Machine
end

section
/-! The end of a reference (R214, R216), and what a command's last operation does (R183). -/

namespace Sys2Proof.Machine

/-! ### Watermarks and references -/

/-- Watermarks that are evaluated change registers and the memories' status at most, and no allocation (R220). -/
structure Evaluated (s t : State) : Prop where
  touches : Touches [.mem, .regs] s t
  allocs : t.mem.allocs = s.mem.allocs

theorem Evaluated.refl (s : State) : Evaluated s s := ⟨Touches.refl _ _, rfl⟩

theorem Evaluated.trans {a b c : State} (h : Evaluated a b) (k : Evaluated b c) : Evaluated a c :=
  ⟨h.touches.trans k.touches, k.allocs.trans h.allocs⟩

theorem Evaluated.alloc {s t : State} (h : Evaluated s t) (k : Nat) : t.alloc k = s.alloc k := by
  simp only [State.alloc, h.allocs]

/-- A crossing before its record (R221). -/
def State.crossed (s : State) (n m : Nat) (rise : Bool) : State :=
  let st := s.poolStatus n
  let st' := if rise then st ||| 2 ^ m else st ^^^ (st &&& 2 ^ m)
  let s := { s with mem := { s.mem with poolStatus := sput (fun _ => 0) s.mem.poolStatus n st' } }
  s.bump (if m = 0 then .poolXingNotice else if m = 1 then .poolXingRestrain else .poolXingStop) n

theorem State.evaluated_crossing (s : State) (n m : Nat) (rise : Bool) (level : Nat) :
    Evaluated s (s.crossing n m rise level) := by
  have hb : Touches [.mem, .regs] s (s.crossed n m rise) :=
    ((touches_mem s _).mono (by simp)).followed (touches_setReg _ _ _ _ _ _) (by simp)
  have he : Touches [.regs] (s.crossed n m rise) (s.crossing n m rise level) :=
    State.touches_record (s.crossed n m rise) .poolXing (some (s.view.pool n).room) hubPool _ _
  have hmem : (s.crossing n m rise level).mem = (s.crossed n m rise).mem := he .mem (by simp)
  exact ⟨hb.followed he (by simp), by rw [hmem]; rfl⟩

theorem State.evaluated_markRise (s : State) (n m : Nat) : Evaluated s (s.markRise n m) := by
  simp only [State.markRise]
  split
  · exact s.evaluated_crossing _ _ _ _
  · exact Evaluated.refl s

theorem State.evaluated_markFall (s : State) (n m : Nat) : Evaluated s (s.markFall n m) := by
  simp only [State.markFall]
  split
  · exact s.evaluated_crossing _ _ _ _
  · exact Evaluated.refl s

theorem State.evaluated_evalMarks (s : State) (n : Nat) : Evaluated s (s.evalMarks n) :=
  (((((s.evaluated_markRise n 0).trans (State.evaluated_markRise _ n 1)).trans (State.evaluated_markRise _ n 2)).trans
    (State.evaluated_markFall _ n 2)).trans (State.evaluated_markFall _ n 1)).trans (State.evaluated_markFall _ n 0)

/-- A release takes the hold and the count of its allocation, before watermarks (R214). -/
theorem State.evaluated_release (s : State) (ptr : Nat) :
    Evaluated (s.setAlloc ptr { s.alloc ptr with allocated := false, hold := false, count := 0 }) (s.release ptr) := by
  simp only [State.release]
  split
  · exact Evaluated.refl _
  split
  · exact State.evaluated_evalMarks _ _
  · exact ⟨(touches_mem _ _).mono (by simp), rfl⟩

theorem State.alloc_setAlloc (s : State) (ptr : Nat) (a : Alloc) (k : Nat) :
    (s.setAlloc ptr a).alloc k = if k = ptr then a else s.alloc k := sget_sput _ _ _ _

/-- A reference that goes is one less of its allocation's, and of no other's (R216). -/
theorem State.dropRef_spec (s : State) (ptr : Nat) : Touches [.mem, .regs] s (s.dropRef ptr) ∧
    ∀ k, ((s.dropRef ptr).alloc k).count = (s.alloc k).count - if k = ptr then 1 else 0 := by
  have hset (w : State) (a : Alloc) : Touches [.mem, .regs] w (w.setAlloc ptr a) := (touches_mem _ _).mono (by simp)
  simp only [State.dropRef]
  split
  case isTrue h =>
    obtain ⟨_, hone, _⟩ := h
    have hev := State.evaluated_release (s.setAlloc ptr { s.alloc ptr with count := (s.alloc ptr).count - 1 }) ptr
    refine ⟨((hset _ _).trans (hset _ _)).trans hev.touches, fun k => ?_⟩
    rw [hev.alloc]
    by_cases hk : k = ptr
    · subst hk
      simp only [State.alloc_setAlloc, if_true]
      omega
    · simp [State.alloc_setAlloc, hk]
  case isFalse =>
    refine ⟨hset _ _, fun k => ?_⟩
    rw [State.alloc_setAlloc]
    split
    · subst ‹k = ptr›; rfl
    · rfl

/-! ### The end of a command -/

/-- The state of a command's end before its answer (R183, R216). -/
def State.placedBy (s : State) (c : MqCmd) : State :=
  let t := c.hdr.table
  let s := c.drops.foldl State.dropRef s
  if c.adds.isEmpty && c.dels.isEmpty then s
  else s.setTable t { s.table t with placed := ((s.table t).placed.filter fun e => !c.dels.contains e) ++ c.adds }

theorem State.touches_drops (s : State) (l : List Nat) : Touches [.mem, .regs] s (l.foldl State.dropRef s) :=
  touches_foldl (fun s p => (s.dropRef_spec p).1) l s

theorem State.touches_placedBy (s : State) (c : MqCmd) : Touches [.mem, .regs, .tables] s (s.placedBy c) := by
  have h := (s.touches_drops c.drops).mono (m := [.mem, .regs, .tables]) (by simp)
  simp only [State.placedBy]
  split
  · exact h
  · exact h.followed (touches_tables _ _) (by simp)

/-- A command with no entry to place or remove changes no table (R183). -/
theorem State.complete_tables (s : State) {c : MqCmd} (r : Reply) (ha : c.adds = []) (hd : c.dels = []) :
    (s.complete c r).tables = s.tables := by
  have hans := (State.answered_answer c r (s.placedBy c)).touches .tables (by simp)
  refine hans.trans ?_
  simp only [State.placedBy, ha, hd]
  exact s.touches_drops c.drops .tables (by simp)

/-- A command that places or removes entries does so in its table (R183). -/
theorem State.complete_placed (s : State) {c : MqCmd} (r : Reply) (h : c.adds ≠ [] ∨ c.dels ≠ []) :
    ((s.complete c r).table c.hdr.table).placed =
      ((s.table c.hdr.table).placed.filter fun e => !c.dels.contains e) ++ c.adds := by
  have hans : (s.complete c r).tables = (s.placedBy c).tables :=
    (State.answered_answer c r (s.placedBy c)).touches .tables (by simp)
  have hdrops : (c.drops.foldl State.dropRef s).tables = s.tables := s.touches_drops c.drops .tables (by simp)
  have hne : ¬ (c.adds.isEmpty && c.dels.isEmpty) = true := by simpa [imp_iff_not_or] using h
  have htab : (c.drops.foldl State.dropRef s).table c.hdr.table = s.table c.hdr.table := by simp only [State.table, hdrops]
  simp only [State.table, hans] at htab ⊢
  simp only [State.placedBy, if_neg hne]
  simp [State.setTable, State.table, hdrops]

theorem State.touches_complete (s : State) (c : MqCmd) (r : Reply) :
    Touches [.mem, .regs, .tables, .arb, .ports] s (s.complete c r) :=
  ((s.touches_placedBy c).mono (by simp)).followed (State.answered_answer c r _).touches (by simp)

end Sys2Proof.Machine
end

section
/-! Table commands' slots: a row operation, a row of a copy fill, a READ or SCAN (R82, R183, R184, R198). -/

namespace Sys2Proof.Machine

/-! ### A row operation -/

/-- The running command whose operation lies on a bay begins with that operation (R184). -/
theorem State.opOn_lbay {s : State} {l : Nat} {c : MqCmd} {o : RowOp} {rest : List RowOp} (h : s.opOn l = some (c, o, rest)) :
    o.lbay = l := by
  simp only [State.opOn] at h
  split at h
  · simp at h
  obtain ⟨room, -, h⟩ := List.exists_of_findSome?_eq_some h
  obtain ⟨c', -, h⟩ := List.exists_of_findSome?_eq_some h
  split at h
  · simp only [Option.ite_none_right_eq_some, Bool.and_eq_true, decide_eq_true_eq, Option.some.injEq, Prod.mk.injEq] at h
    obtain ⟨⟨-, hl⟩, -, ho, -⟩ := h
    exact ho ▸ hl
  · simp at h

theorem State.freshOp_place (s : State) (t : Nat) (o : RowOp) :
    (s.freshOp t o).lbay = o.lbay ∧ (s.freshOp t o).mat = o.mat ∧ (s.freshOp t o).row = o.row := by
  simp only [State.freshOp]
  split
  · split <;> simp
  · simp

/-- A command's operation has been made, counted and struck off (R184, R199). -/
def State.opMade (s : State) (c : MqCmd) (o : RowOp) (rest : List RowOp) : State :=
  ((s.rowOp (s.freshOp c.hdr.table o)).spend 0 (dieOfUnit o.lbay) 1).setCmd { c with ops := rest }

theorem State.runOp_more (s : State) (c : MqCmd) (o : RowOp) {rest : List RowOp} (h : rest ≠ []) :
    s.runOp c o rest = s.opMade c o rest := if_neg (by simpa using h)

theorem State.touches_spend (s : State) (kind die n : Nat) : Touches [.arb] s (s.spend kind die n) :=
  Touches.ite _ (Touches.refl _ _) (touches_arb _ _)

theorem State.touches_opMade_rowOp (s : State) (c : MqCmd) (o : RowOp) (rest : List RowOp) :
    Touches [.arb] (s.rowOp (s.freshOp c.hdr.table o)) (s.opMade c o rest) :=
  (State.touches_spend _ _ _ _).trans (touches_arb _ _)

theorem State.touches_opMade (s : State) (c : MqCmd) (o : RowOp) (rest : List RowOp) :
    Touches [.bays, .arb, .health] s (s.opMade c o rest) :=
  ((s.touches_rowOp _).mono (by simp)).followed (s.touches_opMade_rowOp c o rest) (by simp)

theorem State.touches_runOp (s : State) (c : MqCmd) (o : RowOp) (rest : List RowOp) :
    Touches [.bays, .arb, .health, .tables, .mem, .regs, .ports] s (s.runOp c o rest) := by
  have h := (s.touches_opMade c o rest).mono (m := [.bays, .arb, .health, .tables, .mem, .regs, .ports]) (by simp)
  cases rest with
  | nil => exact h.followed (State.touches_complete _ _ _) (by simp)
  | cons r rest => exact s.runOp_more c o (List.cons_ne_nil r rest) ▸ h

theorem State.runOp_bays (s : State) (c : MqCmd) (o : RowOp) (rest : List RowOp) :
    (s.runOp c o rest).bays = (s.rowOp (s.freshOp c.hdr.table o)).bays := by
  have h : (s.opMade c o rest).bays = _ := s.touches_opMade_rowOp c o rest .bays (by simp)
  cases rest with
  | nil => exact (State.touches_complete _ _ _ .bays (by simp) : (s.runOp c o []).bays = _).trans h
  | cons r rest => exact s.runOp_more c o (List.cons_ne_nil r rest) ▸ h

/-- A row operation of a command writes its row on the bay of the slot (R184). -/
theorem State.rowWritten_runOp {s : State} {l : Nat} {c : MqCmd} {o : RowOp} {rest : List RowOp}
    (h : s.opOn l = some (c, o, rest)) : RowWritten l (s.freshOp c.hdr.table o) s (s.runOp c o rest) :=
  (s.rowWritten_rowOp ((s.freshOp_place _ o).1.trans (State.opOn_lbay h))).of_bays (s.runOp_bays c o rest)

theorem State.opMade_tables (s : State) (c : MqCmd) (o : RowOp) (rest : List RowOp) : (s.opMade c o rest).tables = s.tables :=
  s.touches_opMade c o rest .tables (by simp)

/-- The last operation of a command with no entry to place or remove changes no table (R183). -/
theorem State.runOp_tables (s : State) {c : MqCmd} (o : RowOp) (ha : c.adds = []) (hd : c.dels = []) :
    (s.runOp c o []).tables = s.tables := (State.complete_tables _ _ ha hd).trans (s.opMade_tables c o [])

/-- The last operation of a command that places or removes entries does so in its table (R183). -/
theorem State.runOp_placed (s : State) {c : MqCmd} (o : RowOp) (h : c.adds ≠ [] ∨ c.dels ≠ []) :
    ((s.runOp c o []).table c.hdr.table).placed =
      ((s.table c.hdr.table).placed.filter fun e => !c.dels.contains e) ++ c.adds := by
  have hplaced := State.complete_placed (s.opMade c o []) (c := { c with ops := [] }) c.held h
  rwa [State.table, State.table, s.opMade_tables] at hplaced

/-! ### A row of a copy fill -/

/-- What a fold of choices has chosen is one of the list. -/
theorem foldl_choice_mem {α : Type} {f : Option α → α → Option α} (hf : ∀ m x, f m x = some x ∨ f m x = m) (l : List α)
    (m : Option α) {y : α} (h : l.foldl f m = some y) : y ∈ l ∨ m = some y := by
  induction l generalizing m with
  | nil => exact .inr h
  | cons x l ih =>
    rcases ih _ h with h | h
    · exact .inl (List.mem_cons_of_mem _ h)
    · rcases hf m x with hx | hx <;> rw [hx] at h
      · exact .inl (Option.some.inj h ▸ List.mem_cons_self)
      · exact .inr h

/-- A fill's next row is one of those left on the bay (R82). -/
theorem State.fillOn_lbay {s : State} {l t p : Nat} {o : RowOp} (h : s.fillOn l = some (t, p, o)) : o.lbay = l := by
  obtain ⟨t', -, h⟩ := List.exists_of_findSome?_eq_some h
  split at h
  · simp at h
  obtain ⟨y, hy, he⟩ := Option.map_eq_some_iff.1 h
  have hmem : y ∈ s.fillLeft t' l := by
    refine (foldl_choice_mem (fun m x => ?_) _ _ hy).resolve_right nofun
    cases m with
    | none => exact .inl rfl
    | some z => exact ite_eq_or_eq _ _ _
  simp only [State.fillLeft, List.mem_flatMap, List.mem_filter, Bool.and_eq_true, decide_eq_true_eq] at hmem
  obtain ⟨c, -, rs, -, -, hl, -⟩ := hmem
  simp only [Prod.mk.injEq] at he
  exact he.2.2 ▸ hl

/-- A row of a fill is written, and its place noted, in its table alone (R82). -/
theorem State.runFill_spec {s : State} {l t p : Nat} {o : RowOp} (h : s.fillOn l = some (t, p, o)) :
    RowWritten l o s (s.runFill t p o) ∧ sget (fun _ => 0) ((s.runFill t p o).table t).fillPos l = p + 1 ∧
      (∀ j, j ≠ t → (s.runFill t p o).table j = s.table j) ∧ Touches [.bays, .health, .tables] s (s.runFill t p o) := by
  have hl := State.fillOn_lbay h
  have htab : (s.rowOp o).tables = s.tables := s.touches_rowOp o .tables (by simp)
  refine ⟨(s.rowWritten_rowOp hl).of_bays rfl, ?_, fun j hj => ?_, ?_⟩
  · simp only [State.runFill, State.table_setTable, hl, sget_sput_self]
  · rw [State.runFill, State.table_setTable_ne _ _ _ _ hj, State.table, htab, State.table]
  · exact ((s.touches_rowOp o).mono (by simp)).followed (touches_tables _ _) (by simp)

end Sys2Proof.Machine
end

section
/-! What a READ or SCAN does in its slot (R166, R178). -/

namespace Sys2Proof.Machine

variable {s : State} {c : MqCmd} {cur : Nat}

theorem State.readVisit_bad {u : Nat} (h : u < 64) :
    s.readVisit u c cur true = ((s.visitWord u c cur).map s.foundUncorr).getD s := if_pos h

/-! ### Ternary tables -/

theorem State.visit_trn (h : (s.view.tbl c.hdr.table).kind = 0) :
    s.visit c cur = trnVisit c cur (s.setCmd { c with cursor := none }) (s.view.trn c.hdr.table) := by
  have h' : ((s.setCmd { c with cursor := none }).view.tbl c.hdr.table).kind = 0 := h
  simp only [State.visit, h']
  rfl

/-- A READ of a placed entry answers with what its rows hold (R178). -/
theorem trnVisit_read {d : Trn} {r0 : Replica} {rs : List Replica} (hop : c.hdr.op = opRead)
    (he : s.entryAt c.hdr.table d c.hdr.addr = some (r0 :: rs)) : trnVisit c cur s d = trnRead c s d (r0 :: rs) r0 := by
  simp only [trnVisit, hop, if_true, he]

theorem State.walkOn_more {n per x : Nat} {found : List (Nat × List Granule)} (h : found.length < n) :
    s.walkOn c n per (some x) found = s.readNext c x found := if_neg (not_le.2 h)

/-- The entry word that a head's side word stands for, in the copy read (R178). -/
abbrev State.headEntry (s : State) (d : Trn) (r : Replica) : EntryWord := (s.repSide d (s.readCopy d r) r).entry

section

variable {d : Trn} {h : Nat} {r0 : Replica} {rs : List Replica} {z : Nat × List Replica} (hop : c.hdr.op = opScan)
  (he : s.headFrom c.hdr.table d cur = some (h, r0 :: rs)) (hz : s.headFrom c.hdr.table d (h + 1) = some z)
include hop he hz

/-- A SCAN passes by a head that it does not report, while other heads follow (R166, R176). -/
theorem trnVisit_scan_passes
    (hm : s.scanMatch c.hdr.room (scanWord (c.body.headD 0)).by_ d.direct (s.headEntry d r0).rset (s.headEntry d r0).first
      (s.headEntry d r0).retiring = false)
    (hn : c.found.length < walkMax (c.src = .reg) (scanWord (c.body.headD 0)).maxrec (trnPer d)) :
    trnVisit c cur s d = s.readNext c (h + 1) c.found := by
  have hne : ¬ c.hdr.op = opRead := by rw [hop]; decide
  simp only [trnVisit, if_neg hne, he, State.trnFrom, hz, State.trnRecord, hm]
  exact State.walkOn_more hn

/-- A SCAN takes the record of a head that it reports, while other heads follow (R166, R178). -/
theorem trnVisit_scan_takes
    (hm : s.scanMatch c.hdr.room (scanWord (c.body.headD 0)).by_ d.direct (s.headEntry d r0).rset (s.headEntry d r0).first
      (s.headEntry d r0).retiring = true)
    (hn : c.found.length + 1 < walkMax (c.src = .reg) (scanWord (c.body.headD 0)).maxrec (trnPer d)) :
    trnVisit c cur s d = s.readNext c (h + 1) (c.found ++
      [(h, (s.headEntry d r0).image h :: keyImage d.k (s.shadowKey d r0).1 (s.shadowKey d r0).2)]) := by
  have hne : ¬ c.hdr.op = opRead := by rw [hop]; decide
  simp only [trnVisit, if_neg hne, he, State.trnFrom, hz, State.trnRecord, hm, if_true]
  exact State.walkOn_more (by simpa using hn)

end

/-! ### Prefix tables -/

theorem State.visit_pfx (h : (s.view.tbl c.hdr.table).kind = 1) :
    s.visit c cur = pfxVisit c cur (s.setCmd { c with cursor := none }) (s.view.pfx c.hdr.table) := by
  have h' : ((s.setCmd { c with cursor := none }).view.tbl c.hdr.table).kind = 1 := h
  simp only [State.visit, h']
  rfl

section

variable {d : Pfx} {e : PfxEntry} {rest : List PfxEntry} (hop : c.hdr.op = opRead)
  (he : s.pfxNamed c.hdr.table c.hdr.room (pfxEntryOf c.body) 0 (BitVec.ofNat 16 c.hdr.addr) = e :: rest)
include hop he

/-- A READ of an entry whose record is uncorrectable is refused (R138). -/
theorem pfxVisit_read_lost (hl : s.recLost c.hdr.table d e = true) : pfxVisit c cur s d = s.refuse c 0x36 0 := by
  simp only [pfxVisit, hop, if_true, he, hl]

/-- A READ of any other answers with the entry (R178). -/
theorem pfxVisit_read (hl : s.recLost c.hdr.table d e = false) :
    pfxVisit c cur s d = s.answer c ⟨0, 0, false, [(0, e.image)]⟩ := by
  simp [pfxVisit, hop, he, hl]

end

/-! ### Exact-match tables -/

theorem State.visit_em (h : (s.view.tbl c.hdr.table).kind = 2) :
    s.visit c cur = emVisit c cur (s.setCmd { c with cursor := none }) (s.view.em c.hdr.table) := by
  have h' : ((s.setCmd { c with cursor := none }).view.tbl c.hdr.table).kind = 2 := h
  simp only [State.visit, h']
  rfl

/-- A READ answers with the slots of the position that it names (R178). -/
theorem emVisit_read {d : EmDesc} {j : Nat} (hop : c.hdr.op = opRead) (hj : s.emNamed c d = .ok j) :
    emVisit c cur s d = s.answer c ⟨0, 0, false, [(0, s.emSlot j :: (if d.wide then [s.emSlot (j + 1)] else []))]⟩ := by
  simp only [emVisit, hop, if_true, emRead, hj]

end Sys2Proof.Machine
end

section
/-! Shelf-reading's slots: a row of an entry that is lost, a side word, a step of a test (R102, R441, R444). -/

namespace Sys2Proof.Machine

/-! ### Removals -/

theorem State.touches_endRemoval (s : State) (r : Removal) : Touches [.mem, .regs] s (s.endRemoval r) :=
  (s.dropRef_spec r.ptr).1.followed (State.touches_record _ _ _ _ _ _) (by simp)

/-- The end of a removal takes one reference of its entry's action (R216, R444). -/
theorem State.endRemoval_count (s : State) (r : Removal) (k : Nat) :
    ((s.endRemoval r).alloc k).count = (s.alloc k).count - if k = r.ptr then 1 else 0 := by
  have hmem : (s.endRemoval r).mem = (s.dropRef r.ptr).mem :=
    State.touches_record (s.dropRef r.ptr) .entryLost (some (s.view.tbl r.table).room) hubMaint _ _ .mem (by simp)
  have h := (s.dropRef_spec r.ptr).2 k
  rwa [State.alloc, ← hmem] at h

theorem State.removalOn_lbay {s : State} {l : Nat} {r : Removal} {o : RowOp} {rest : List RowOp}
    (h : s.removalOn l = some (r, o, rest)) : o.lbay = l := by
  obtain ⟨r', -, h⟩ := List.exists_of_findSome?_eq_some h
  split at h
  · simp only [Option.ite_none_right_eq_some, Option.some.injEq, Prod.mk.injEq] at h
    obtain ⟨hl, -, ho, -⟩ := h
    exact ho ▸ hl
  · simp at h

/-- A row of a removal has been emptied and struck off (R444). -/
def State.removalMade (s : State) (r : Removal) (o : RowOp) (rest : List RowOp) : State :=
  let next := fun (x : Removal) => if x = r then (if rest.isEmpty then none else some { r with ops := rest }) else some x
  (s.rowOp o).setHealth fun h => { h with removals := h.removals.filterMap next }

theorem State.runRemoval_last (s : State) (r : Removal) (o : RowOp) :
    s.runRemoval r o [] = (s.removalMade r o []).endRemoval r := rfl

theorem State.runRemoval_more (s : State) (r : Removal) (o : RowOp) {rest : List RowOp} (h : rest ≠ []) :
    s.runRemoval r o rest = s.removalMade r o rest := if_neg (by simpa using h)

theorem State.touches_removalMade (s : State) (r : Removal) (o : RowOp) (rest : List RowOp) :
    Touches [.bays, .health] s (s.removalMade r o rest) :=
  (s.touches_rowOp o).followed (touches_health _ _) (by simp)

/-- A slot of a removal empties its row, and the last one takes the reference (R102, R216, R444). -/
theorem State.runRemoval_spec {s : State} {l : Nat} {r : Removal} {o : RowOp} {rest : List RowOp}
    (h : s.removalOn l = some (r, o, rest)) :
    RowWritten l o s (s.runRemoval r o rest) ∧ (rest ≠ [] → Touches [.bays, .health] s (s.runRemoval r o rest)) ∧
      (rest = [] → ∀ k, ((s.runRemoval r o rest).alloc k).count = (s.alloc k).count - if k = r.ptr then 1 else 0) ∧
      Touches [.bays, .health, .mem, .regs] s (s.runRemoval r o rest) := by
  have hmade := s.touches_removalMade r o rest
  have hrow : RowWritten l o s (s.removalMade r o rest) := (s.rowWritten_rowOp (State.removalOn_lbay h)).of_bays rfl
  cases rest with
  | nil =>
    have hend := (s.removalMade r o []).touches_endRemoval r
    have hmem : (s.removalMade r o []).mem = s.mem := hmade .mem (by simp)
    rw [State.runRemoval_last]
    refine ⟨hrow.of_bays (hend .bays (by simp)), fun hne => absurd rfl hne, fun _ k => ?_, ?_⟩
    · rw [State.endRemoval_count, State.alloc, hmem, State.alloc]
    · exact (hmade.mono (by simp)).followed hend (by simp)
  | cons x rest =>
    rw [State.runRemoval_more _ _ _ (List.cons_ne_nil x rest)]
    exact ⟨hrow, fun _ => hmade, fun hnil => absurd hnil (List.cons_ne_nil _ _), hmade.mono (by simp)⟩

/-! ### Side words -/

theorem State.loseEntry_bays (s : State) (o : RowOwner) (l mat row : Nat) : (s.loseEntry o l mat row).bays = s.bays := by
  simp only [State.loseEntry]
  split
  · exact State.touches_endRemoval _ _ .bays (by simp)
  · rfl

/-- A repair of a side word writes that word, and no other of the bays (R444). -/
theorem State.repairSide_eq (s : State) (b i : Nat) :
    ∃ (v : State) (w : BitVec 96), s.repairSide b i = v.putSide b i w ∧ v.bays = s.bays := by
  simp only [State.repairSide]
  split
  · exact ⟨s, _, rfl, rfl⟩
  split
  · exact ⟨s, _, rfl, rfl⟩
  · exact ⟨_, _, rfl, s.loseEntry_bays _ _ _ _⟩

theorem State.repairSide_spec (s : State) (b i : Nat) :
    (⟨.side, b, i⟩ : MemWord) ∉ (s.repairSide b i).health.poison ∧ (s.repairSide b i).bays.atoms = s.bays.atoms ∧
      ∀ k, k ≠ rowKey b (i / 1024) (i % 1024) → (s.repairSide b i).sideWord k = s.sideWord k := by
  obtain ⟨v, w, he, hv⟩ := s.repairSide_eq b i
  rw [he]
  refine ⟨?_, by rw [← hv]; rfl, fun k hk => ?_⟩
  · simp [State.putSide, State.cleanse]
  · simp only [State.sideWord, ← hv]
    exact sget_sput_ne _ _ _ _ hk

/-! ### Steps of a test -/

theorem State.shelfSlot_removal {s : State} {u : Nat} {b : Option Nat} {r : Removal} {o : RowOp} {rest : List RowOp}
    (h : s.removalOn u = some (r, o, rest)) : s.shelfSlot u b = s.runRemoval r o rest := by
  simp only [State.shelfSlot, h]

theorem State.shelfSlot_side {s : State} {u : Nat} {b : Option Nat} {p q : Nat} (h : s.removalOn u = none)
    (hs : s.sideDue u b = some (p, q)) : s.shelfSlot u b = s.repairSide p q := by
  simp only [State.shelfSlot, h, hs]

/-- With no removal and no side word due, the slot makes one step of the unit's test and no other (R441). -/
theorem State.shelfSlot_step {s : State} {u : Nat} {b : Option Nat} (h : s.removalOn u = none) (hs : s.sideDue u b = none)
    (hw : s.hasWork u b .shelf = true) : (s.shelfSlot u b).srLeft u + 1 = s.srLeft u ∧
      (∀ j, j ≠ u → (s.shelfSlot u b).srLeft j = s.srLeft j) ∧ Touches [.health] s (s.shelfSlot u b) := by
  have hpos : 0 < s.srLeft u := by simpa [State.hasWork, h, hs] using hw
  simp only [State.shelfSlot, h, hs]
  refine ⟨?_, fun j hj => sget_sput_ne _ _ _ _ hj, touches_health _ _⟩
  have hleft : (s.setHealth fun x => { x with srSteps := sput (fun _ => 0) x.srSteps u (s.srLeft u - 1) }).srLeft u =
      s.srLeft u - 1 := sget_sput_self _ _ _
  omega

end Sys2Proof.Machine
end

section
/-! Slots of collation and of the clamp sweep (R193, R194, R445, R446). -/

namespace Sys2Proof.Machine

/-! ### Collation's read -/

/-- Before the last row of a bay collation only goes on to the next (R445). -/
theorem State.colNext_spec {s : State} {l : Nat} (h : s.colAt l + 1 < bayRows) :
    (s.colNext l).colAt l = s.colAt l + 1 ∧ (s.colNext l).bays = s.bays ∧ (s.colNext l).health.colBad = s.health.colBad ∧
      Touches [.health] s (s.colNext l) := by
  simp only [State.colNext, if_pos h, Nat.mod_eq_of_lt h]
  exact ⟨by simp [State.colAt, State.setHealth], rfl, rfl, touches_health _ _⟩

theorem State.setFix_spec (s : State) (l x : Nat) : sget (fun _ => 0) (s.setFix l x).health.colFix l = x ∧
    (s.setFix l x).bays = s.bays ∧ Touches [.health] s (s.setFix l x) := ⟨sget_sput_self _ _ _, rfl, touches_health _ _⟩

theorem State.findAtom_none (s : State) (k : Nat) : s.findAtom k 0 = s := if_pos rfl

section

variable {s : State} {l b : Nat} {f : RowFinding} (hflip : f.flip = 0) (hsound : f.shadowBad = false)
include hflip hsound

/-- A row that agrees with its shadow leaves nothing but the place of the next (R446). -/
theorem State.collate_agrees (hp : s.colAt l + 1 < bayRows) (h : s.atom (rowKey b (s.colAt l / 1024) (s.colAt l % 1024)) =
    s.shadowWord (rowKey l (s.colAt l / 1024) (s.colAt l % 1024))) : s.collate l b f = s.colNext l := by
  obtain ⟨-, hb, -⟩ := State.colNext_spec hp
  simp only [State.shadowWord, State.atom] at h
  simp only [State.collate, hflip, hsound, State.findAtom_none, State.atom, hb, h, if_true, Bool.false_eq_true, if_false]

/-- A row that does not is counted, and noted for its rewriting in the next slot, while its bay has few of them (R446). -/
theorem State.collate_differs (hp : s.colAt l + 1 < bayRows) (h : s.atom (rowKey b (s.colAt l / 1024) (s.colAt l % 1024)) ≠
    s.shadowWord (rowKey l (s.colAt l / 1024) (s.colAt l % 1024))) (hfew : sget (fun _ => 0) s.health.colBad b + 1 < 16) :
    s.collate l b f = (((((s.colNext l).bump .colMismatch).record .colFix none (srcDie (dieOfBay b))
      [(8, b), (8, s.colAt l / 1024), (16, s.colAt l % 1024)]).setHealth fun x =>
        { x with colBad := sput (fun _ => 0) x.colBad b (sget (fun _ => 0) s.health.colBad b + 1) }).setFix l
          (2 * s.colAt l + 1)) := by
  obtain ⟨-, hb, hc, -⟩ := State.colNext_spec hp
  simp only [State.shadowWord, State.atom] at h
  simp only [State.collate, hflip, hsound, State.findAtom_none, State.atom, hb, hc, if_neg h, if_neg (not_le.2 hfew),
    Bool.false_eq_true, if_false]

end

theorem colMismatch_not_daybook : Obj.colMismatch.key ∉ daybookKeys := by decide

/-- A mismatch that is counted and recorded changes no register but its counter (R446). -/
theorem State.colCounted_spec {s w : State} (hrec : OnlyRecords (s.bump .colMismatch) w) :
    w.reg .colMismatch = wrapAdd 32 (s.reg .colMismatch) 1 ∧ RegsBut [Obj.colMismatch.key] s w ∧ w.health = s.health ∧
      Touches [.regs] s w :=
  ⟨(hrec.reg .colMismatch 0 0 0 colMismatch_not_daybook).trans (s.reg_bump .colMismatch 0),
    (regsBut_setReg s .colMismatch 0 0 0 _).trans (hrec.regsBut _), hrec.health,
    (touches_setReg s .colMismatch 0 0 0 _).of_records hrec⟩

/-- The slot that meets a mismatch goes on, counts it and notes the row (R446). -/
theorem State.collate_counts {s : State} {l b : Nat} {f : RowFinding} (hflip : f.flip = 0) (hsound : f.shadowBad = false)
    (hp : s.colAt l + 1 < bayRows) (h : s.atom (rowKey b (s.colAt l / 1024) (s.colAt l % 1024)) ≠
      s.shadowWord (rowKey l (s.colAt l / 1024) (s.colAt l % 1024))) (hfew : sget (fun _ => 0) s.health.colBad b + 1 < 16) :
    (s.collate l b f).colAt l = s.colAt l + 1 ∧ (s.collate l b f).bays = s.bays ∧
      sget (fun _ => 0) (s.collate l b f).health.colFix l = 2 * s.colAt l + 1 ∧
      (s.collate l b f).reg .colMismatch = wrapAdd 32 (s.reg .colMismatch) 1 ∧
      RegsBut [Obj.colMismatch.key] s (s.collate l b f) ∧ Touches [.regs, .health] s (s.collate l b f) := by
  obtain ⟨hat, -, -, hnext⟩ := State.colNext_spec hp
  obtain ⟨hreg, hbut, hhealth, htouch⟩ := State.colCounted_spec (s := s.colNext l) (onlyRecords_record _ .colFix none
    (srcDie (dieOfBay b)) [(8, b), (8, s.colAt l / 1024), (16, s.colAt l % 1024)] 0 nofun)
  have hregs := hnext .regs (by simp)
  rw [State.collate_differs hflip hsound hp h hfew]
  revert hreg hbut hhealth htouch
  generalize ((s.colNext l).bump .colMismatch).record .colFix none (srcDie (dieOfBay b))
    [(8, b), (8, s.colAt l / 1024), (16, s.colAt l % 1024)] = w
  intro hreg hbut hhealth htouch
  have hw : Touches [.regs, .health] s w := (hnext.mono (by simp)).followed htouch (by simp)
  have hpos : sget (fun _ => 0) w.health.colPos l = s.colAt l + 1 := by rw [hhealth]; exact hat
  exact ⟨hpos, hw .bays (by simp), (State.setFix_spec _ l _).1,
    hreg.trans (congrArg (wrapAdd 32 · 1) (hregs _ colMismatch_not_daybook)),
    RegsBut.trans (fun k hk _ => hregs k hk) hbut,
    (hw.followed (touches_health _ _) (by simp)).followed (touches_health _ _) (by simp)⟩

/-! ### Collation's repair -/

/-- The slot after a mismatch rewrites the atom from its shadow (R446). -/
theorem State.colRepair_rewrites {s : State} {l b q : Nat} {f : RowFinding} (hf : f.stuck = false) :
    sget (fun _ => 0) (s.colRepair l b (2 * q + 1) f).health.colFix l = 2 * q + 2 ∧
      (s.colRepair l b (2 * q + 1) f).atom (rowKey b (q / 1024) (q % 1024)) = s.shadowWord (rowKey l (q / 1024) (q % 1024)) ∧
      (∀ k, k ≠ rowKey b (q / 1024) (q % 1024) → (s.colRepair l b (2 * q + 1) f).atom k = s.atom k) ∧
      Touches [.bays, .health] s (s.colRepair l b (2 * q + 1) f) := by
  have hodd : (2 * q + 1) % 2 = 1 := by omega
  have hq : (2 * q + 1 - 1) / 2 = q := by omega
  simp only [State.colRepair, hodd, hq, hf, if_true, Bool.false_eq_true, if_false]
  exact ⟨by simp [State.setFix, State.setHealth], sget_sput_self s.bays.atoms _ _, fun k hk => sget_sput_ne _ _ _ _ hk,
    ((touches_bays s _).mono (by simp)).followed (touches_health _ _) (by simp)⟩

/-- The slot after it finds the atom as its shadow is, and the repair is over (R446). -/
theorem State.colRepair_agrees {s : State} {l b q : Nat} {f : RowFinding} (hf : f.flip = 0)
    (h : s.atom (rowKey b (q / 1024) (q % 1024)) = s.shadowWord (rowKey l (q / 1024) (q % 1024))) :
    s.colRepair l b (2 * q + 2) f = s.setFix l 0 := by
  have heven : ¬ (2 * q + 2) % 2 = 1 := by omega
  have hq : (2 * q + 2 - 1) / 2 = q := by omega
  have h' : (s.setFix l 0).atom (rowKey b (q / 1024) (q % 1024)) =
      sget (fun _ => 0) s.bays.shadow (rowKey l (q / 1024) (q % 1024)) := h
  simp only [State.colRepair, if_neg heven, hq, hf, State.findAtom_none, h', if_true]

/-! ### The clamp sweep -/

/-- The sweep has gone on to the next row of a bay (R194). -/
def State.clampNoted (s : State) (l : Nat) : State :=
  { s with ed := { s.ed with clampPos := sput (fun _ => 0) s.ed.clampPos l (s.clampAt l + 1) } }

theorem State.clampNoted_spec (s : State) (l : Nat) :
    (s.clampNoted l).clampAt l = s.clampAt l + 1 ∧ Touches [.ed] s (s.clampNoted l) :=
  ⟨by simp [State.clampNoted, State.clampAt], touches_ed s _⟩

section

variable {s : State} {l b p : Nat} {f : RowFinding} (hp : s.clampAt l = p) (hf : f.sideBad = false)
include hp hf

/-- The sweep goes past a row that is no head of an edition table (R193). -/
theorem State.clampStep_passes (h : s.headRoom l (p / 1024) (p % 1024) = none) : s.clampStep l b f = s.clampNoted l := by
  subst hp
  have h' : (s.clampNoted l).headRoom l (s.clampAt l / 1024) (s.clampAt l % 1024) = none := h
  simp only [State.clampNoted] at h'
  simp only [State.clampStep, hf, Bool.false_eq_true, if_false, h', State.clampNoted]

/-- At a head it visits its side word (R193). -/
theorem State.clampStep_visits {room : Nat} (h : s.headRoom l (p / 1024) (p % 1024) = some room) :
    s.clampStep l b f = (s.clampNoted l).clampRow room b (p / 1024) (p % 1024) := by
  subst hp
  have h' : (s.clampNoted l).headRoom l (s.clampAt l / 1024) (s.clampAt l % 1024) = some room := h
  simp only [State.clampNoted] at h'
  simp only [State.clampStep, hf, Bool.false_eq_true, if_false, h', State.clampNoted]

end

/-- What a visit with floor `f` makes of a side word (R193). -/
def clampedSide (f : Edition) (w : Side) : Option (BitVec 96) :=
  let y := clampStamps f w.rset w.first w.retiring
  if y = (w.first, w.retiring) then none else some (Side.image { w with first := y.1, retiring := y.2 })

/-- A visit changes the side word of its row at most: that of a sound head, whose stamps it moves (R193). -/
theorem State.clampRow_eq (s : State) (room b mat row : Nat) : ∃ w, s.clampRow room b mat row =
      { s with bays := { s.bays with sides := putIf s.bays.sides (some (rowKey b mat row)) w } } ∧
    ((sideOf (s.sideWord (rowKey b mat row))).role = 1 → s.poisoned .side b (mat * 1024 + row) = false →
      w = clampedSide (s.floor room) (sideOf (s.sideWord (rowKey b mat row)))) := by
  simp only [State.clampRow]
  split
  case isTrue h =>
    refine ⟨none, rfl, fun hr hp => ?_⟩
    simp [hr, hp] at h
  case isFalse =>
    split
    case isTrue h => exact ⟨none, rfl, fun _ _ => (if_pos h).symm⟩
    case isFalse h => exact ⟨some _, rfl, fun _ _ => (if_neg h).symm⟩

theorem State.touches_clampRow (s : State) (room b mat row : Nat) : Touches [.bays] s (s.clampRow room b mat row) := by
  obtain ⟨w, he, -⟩ := s.clampRow_eq room b mat row
  exact he ▸ touches_bays s _

theorem State.clampRow_frame (s : State) (room b mat row : Nat) : (s.clampRow room b mat row).bays.atoms = s.bays.atoms ∧
    ∀ j, j ≠ rowKey b mat row → (s.clampRow room b mat row).sideWord j = s.sideWord j := by
  obtain ⟨w, he, -⟩ := s.clampRow_eq room b mat row
  rw [he]
  exact ⟨rfl, fun j hj => sget_putIf_ne _ _ _ _ fun h => hj (Option.some.inj h).symm⟩

/-- The side word that a visit of a sound head leaves (R193). -/
theorem State.clampRow_head {s : State} {room b mat row : Nat} (hr : (sideOf (s.sideWord (rowKey b mat row))).role = 1)
    (hp : s.poisoned .side b (mat * 1024 + row) = false) :
    let w := sideOf (s.sideWord (rowKey b mat row))
    let y := clampStamps (s.floor room) w.rset w.first w.retiring
    (s.clampRow room b mat row).sideWord (rowKey b mat row) =
      if y = (w.first, w.retiring) then s.sideWord (rowKey b mat row)
      else Side.image { w with first := y.1, retiring := y.2 } := by
  intro w y
  obtain ⟨x, he, hx⟩ := s.clampRow_eq room b mat row
  rw [he, hx hr hp]
  refine (sget_putIf_getD _ _ _).trans ?_
  exact apply_ite (fun o : Option (BitVec 96) => o.getD (s.sideWord (rowKey b mat row))) _ none _

end Sys2Proof.Machine
end

section
/-! A maintenance slot that is lost, that goes to no one, to a repair or to a claimant (R102, R107, R198, R446). -/

namespace Sys2Proof.Machine

variable {s : State} {unit : Fin 76} {x : RowFinding} {cyc : Nat} (hup : s.catalogueUp = true)
  (hdie : s.dieHeld (dieOfUnit unit) = false) (hnext : s.nextSlot unit = some cyc)
include hup hdie hnext

theorem maintSlot_lost (h : ((s.at cyc).catchUpSlot).slotLost unit cyc = true) :
    RunsTo (.maintSlot unit x) s (((s.at cyc).catchUpSlot).slotTaken unit cyc) := by
  refine RunsTo.of_done (exec_maintSlot hup hdie hnext) ?_
  rw [if_pos h]
  exact OnlyRecords.refl _

theorem maintSlot_used (h : ((s.at cyc).catchUpSlot).slotLost unit cyc = false) :
    RunsTo (.maintSlot unit x) s
      ((s.inSlot unit cyc).slotGiven unit (sget (fun _ => 0) ((s.at cyc).catchUpSlot).bays.slotNo unit) x) := by
  refine RunsTo.of_done (exec_maintSlot hup hdie hnext) ?_
  rw [if_neg (by simp [h])]
  exact OnlyRecords.refl _

end Sys2Proof.Machine
end

section
open Sys2Proof Sys2Proof.Machine

/-- Settles O24: the slot is lost, or goes to a repair or to a claimant, and each does with it what its operation does. -/
theorem maintSlots : Obligations.MaintSlots := by
  unfold Obligations.MaintSlots
  intro s unit x cyc hup hdie hnext i l s0 s1 n b fix shadowAt goes wrote
  have hlost (h : s0.slotLost l cyc = true) : RunsTo i s (s0.slotTaken l cyc) := maintSlot_lost hup hdie hnext h
  have hused (h : s0.slotLost l cyc = false) : RunsTo i s (s1.slotGiven l n x) := maintSlot_used hup hdie hnext h
  clear_value s1 s0 i
  have hgoes {k : Claimant} (h : goes k) : RunsTo i s (s1.claimSlot l b x k) ∧ s1.hasWork l b k = true := by
    obtain ⟨hsound, hfix, hk⟩ := h
    exact ⟨s1.slotGiven_claimed n x hfix hk ▸ hused hsound, List.find?_some hk⟩
  have hwrote {o : RowOp} {u : State} (h : RowWritten l o s1 u) : wrote o u := ⟨h.shadow, h.row, h.others, h.shadows⟩
  have htable (h : goes .table) : RunsTo i s (s1.tableSlot l x.sideBad) := (hgoes h).1
  have hshelf (h : goes .shelf) : RunsTo i s (s1.shelfSlot l b) := (hgoes h).1
  have hcol {p : Nat} (h : goes .collation) (hb : b = some p) : RunsTo i s (s1.collate l p x) := by
    have h := (hgoes h).1
    rwa [hb] at h
  have hclamp {p : Nat} (h : goes .clamp) (hb : b = some p) : RunsTo i s (s1.clampStep l p x) := by
    have h := (hgoes h).1
    rwa [hb] at h
  have hread {c : MqCmd} {cur : Nat} (h : goes .table) (ho : s1.opOn l = none) (hf : s1.fillOn l = none)
      (hr : s1.readOn l = some (c, cur)) : RunsTo i s (s1.readVisit l c cur x.sideBad) := by
    have h := htable h
    simp only [State.tableSlot, ho, hf, hr] at h
    exact h
  refine ⟨fun h => ?_, fun h hfix hnone => ?_, fun c o rest h ho => ?_, fun t p o h ho hf => ?_,
    fun c cur h ho hf hr hbad hl => ?_, fun c cur h ho hf hr hbad => ?_, fun r o rest h hr => ?_, fun p q h hr hs => ?_,
    fun h hr hs => ?_, fun p0 h hb hflip hsh => ?_, fun p0 q h hb hfix hst => ?_, fun p0 q h hb hfix hflip heq => ?_,
    fun p0 h hb hbad => ?_⟩
  · -- lost to a lookup under the old rota
    exact ⟨_, hlost h, rfl, s0.slotTaken_slotAt l cyc, touches_bays s0 _⟩
  · -- no claimant with work
    exact s1.slotGiven_idle n x hfix hnone ▸ hused h
  · -- a row operation of a command
    have hrun := htable h
    simp only [State.tableSlot, ho] at hrun
    refine ⟨_, hrun, hwrote (State.rowWritten_runOp ho), ?_, ?_, ?_, s1.touches_runOp c o rest⟩
    · rintro rfl ha hd
      exact s1.runOp_tables o ha hd
    · rintro rfl had
      exact s1.runOp_placed o had
    · intro hne
      exact s1.runOp_more c o hne ▸ s1.touches_opMade c o rest
  · -- a row of a copy fill
    have hrun := htable h
    simp only [State.tableSlot, ho, hf] at hrun
    obtain ⟨hw, hpos, hother, htouch⟩ := State.runFill_spec hf
    exact ⟨_, hrun, hwrote hw, hpos, hother, htouch⟩
  · -- a READ or SCAN that finds an uncorrectable side word
    have hrun := hread h ho hf hr
    rwa [hbad, State.readVisit_bad hl] at hrun
  · -- a READ or SCAN of a sound word
    intro s2 v t room
    have hrun := hread h ho hf hr
    rw [hbad] at hrun
    refine ⟨hrun, fun hop hk r0 rs he => ?_, fun hop hk z r0 rs h2 he hz => ?_,
      fun hop hk e rest he => ⟨fun hl => ?_, fun hl => ?_⟩, fun hop hk j hj => ?_⟩
    · exact (State.visit_trn hk).trans (trnVisit_read hop he)
    · exact ⟨fun hm hn => (State.visit_trn hk).trans (trnVisit_scan_passes hop he hz hm hn),
        fun hm hn => (State.visit_trn hk).trans (trnVisit_scan_takes hop he hz hm hn)⟩
    · exact (State.visit_pfx hk).trans (pfxVisit_read_lost hop he hl)
    · exact (State.visit_pfx hk).trans (pfxVisit_read hop he hl)
    · exact (State.visit_em hk).trans (emVisit_read hop hj)
  · -- the next row of an entry that is lost
    have hrun := hshelf h
    rw [State.shelfSlot_removal hr] at hrun
    obtain ⟨hw, hmore, hlast, htouch⟩ := State.runRemoval_spec hr
    exact ⟨_, hrun, hwrote hw, hmore, hlast, htouch⟩
  · -- a side word
    have hrun := hshelf h
    rw [State.shelfSlot_side hr hs] at hrun
    obtain ⟨hp, ha, hw⟩ := s1.repairSide_spec p q
    exact ⟨_, hrun, hp, ha, hw⟩
  · -- a step of the test
    obtain ⟨hstep, hother, htouch⟩ := State.shelfSlot_step hr hs (hgoes h).2
    exact ⟨_, hshelf h, hstep, hother, htouch⟩
  · -- a read of collation
    intro p at_ hp
    have hrun := hcol h hb
    obtain ⟨hat, hbays, -, htouch⟩ := State.colNext_spec hp
    refine ⟨fun heq => ?_, fun hne hfew => ?_⟩
    · rw [State.collate_agrees hflip hsh hp heq] at hrun
      exact ⟨_, hrun, hat, hbays, htouch⟩
    · obtain ⟨hat, hbays, hnoted, hreg, hbut, htouch⟩ := State.collate_counts hflip hsh hp hne hfew
      exact ⟨_, hrun, hat, hbays, hnoted, hreg, hbut, htouch⟩
  · -- the slot after a mismatch
    have hrun := s1.slotGiven_repairs n x hb hfix ▸ hused h
    obtain ⟨hnoted, hrow, hothers, htouch⟩ := State.colRepair_rewrites (s := s1) (l := l) (b := p0) (q := q) hst
    exact ⟨_, hrun, hnoted, hrow, hothers, htouch⟩
  · -- the one after it
    have hrun := s1.slotGiven_repairs n x hb hfix ▸ hused h
    rw [State.colRepair_agrees hflip heq] at hrun
    obtain ⟨hnoted, hbays, htouch⟩ := s1.setFix_spec l 0
    exact ⟨_, hrun, hnoted, hbays, htouch⟩
  · -- a visit of the clamp sweep
    intro q k w
    have hrun := hclamp h hb
    obtain ⟨hat, hed⟩ := s1.clampNoted_spec l
    cases hr : s1.headRoom l (q / 1024) (q % 1024) with
    | none =>
      rw [State.clampStep_passes rfl hbad hr] at hrun
      exact ⟨_, hrun, hat, rfl, fun _ _ => rfl, fun _ => rfl, nofun, hed.mono (by simp)⟩
    | some room =>
      rw [State.clampStep_visits rfl hbad hr] at hrun
      have hrow := (s1.clampNoted l).touches_clampRow room p0 (q / 1024) (q % 1024)
      obtain ⟨hatoms, hothers⟩ := (s1.clampNoted l).clampRow_frame room p0 (q / 1024) (q % 1024)
      refine ⟨_, hrun, ?_, hatoms, hothers, nofun, fun room' hroom hrole hp => ?_, ?_⟩
      · have hsame : _ = (s1.clampNoted l).ed := hrow .ed (by simp)
        rwa [State.clampAt, hsame]
      · cases hroom
        exact State.clampRow_head (s := s1.clampNoted l) hrole hp
      · exact (hed.mono (by simp)).followed hrow (by simp)

end

section
/-! Prefix tables' images that are replaced (R119, R124, R137, R444): what a write of a table's images leaves, and how its words
and its switch settle. -/

namespace Sys2Proof.Machine

/-! ### Images replaced -/

theorem State.table_setImages (s : State) (t : Nat) (tb : Table) : (s.setImages t tb).table t = tb :=
  State.table_setTable s t tb

theorem State.table_setImages_ne (s : State) {t j : Nat} (tb : Table) (h : j ≠ t) : (s.setImages t tb).table j = s.table j :=
  State.table_setTable_ne s t j tb h

/-- Images that are replaced change tables, and marks of the words written (R444). -/
theorem State.touches_setImages (s : State) (t : Nat) (tb : Table) : Touches [.tables, .health] s (s.setImages t tb) :=
  ((touches_tables s _).mono (by simp)).followed (touches_health _ _) (by simp)

/-- The new state of a table stands with its records in the daybook, and every other table stays. -/
theorem State.table_setImages_records {s u : State} {t : Nat} {tb : Table} (h : OnlyRecords (s.setImages t tb) u) :
    u.table t = tb ∧ (∀ j, j ≠ t → u.table j = s.table j) ∧ Touches [.tables, .health] s u := by
  refine ⟨?_, fun j hj => ?_, (s.touches_setImages t tb).of_records h⟩
  · rw [State.table, h.tables]
    exact s.table_setImages t tb
  · rw [State.table, h.tables]
    exact s.table_setImages_ne tb hj

/-! ### Places of records -/

theorem bare_foldl_recs (f : List PfxEntry → PfxEntry → Store Nat) (es done : List PfxEntry) :
    bare (es.foldl (fun done e => done ++ [{ e with recs := f done e }]) done) = bare done ++ bare es := by
  induction es generalizing done with
  | nil => simp [bare]
  | cons e es ih =>
    rw [List.foldl_cons, ih]
    simp [bare]

/-- Entries whose records are placed are the same entries (R119; log 9). -/
theorem bare_placeRecs (others : List PfxEntry) (d : Pfx) (hash : Bool) (es : List PfxEntry) :
    bare (placeRecs others d hash es) = bare es := bare_foldl_recs _ es []

/-! ### Settling -/

/-- The switch of a table that settles at a floor, with its edition (R137). -/
def Table.switchDue (tb : Table) (f : Edition) : Option (Bool × Edition) :=
  match tb.switch with
  | .unsettled h e => if edLe e f then some (h, e) else Option.none
  | _ => Option.none

theorem Table.switchDue_eq_some {tb : Table} {f e : Edition} {h : Bool} :
    tb.switchDue f = some (h, e) ↔ tb.switch = .unsettled h e ∧ edLe e f = true := by
  simp only [Table.switchDue]
  split
  · rename_i h' e' hs
    by_cases hle : edLe e' f = true
    · simp only [hle, if_true, hs, Option.some.injEq, Prod.mk.injEq, PfxSwitch.unsettled.injEq]
      exact ⟨fun ⟨hh, he⟩ => ⟨⟨hh, he⟩, he ▸ hle⟩, And.left⟩
    · simp only [hle, hs, PfxSwitch.unsettled.injEq]
      exact ⟨nofun, fun ⟨⟨_, he⟩, hd⟩ => (hle (he ▸ hd)).elim⟩
  · rename_i hs
    exact ⟨nofun, fun ⟨h1, _⟩ => (hs _ _ h1).elim⟩

theorem Table.switchDue_isSome {tb : Table} {f : Edition} :
    (tb.switchDue f).isSome = true ↔ ∃ h e, tb.switch = .unsettled h e ∧ edLe e f = true := by
  simp only [Option.isSome_iff_exists, Prod.exists, Table.switchDue_eq_some]

/-- A table whose switch settles, when one does: a hash image that is not kept goes with a switch from HASH (R137). -/
def Table.settleSwitch (tb : Table) (keep : Bool) : Option (Bool × Edition) → Table
  | Option.none => tb
  | some (h, _) =>
    if !h && !keep then { tb with switch := .none, cells := [], filter := [], hashReady := false, hashHeld := false }
    else { tb with switch := .none }

/-- A table in which what has come to a floor has settled (R124, R137). -/
def Table.settled (tb : Table) (f : Edition) (keep : Bool) : Table :=
  (tb.settleWords f).settleSwitch keep (tb.switchDue f)

/-- A switch that settles changes neither entries nor leaves, nor the mode. -/
theorem Table.settleSwitch_frame (tb : Table) (keep : Bool) (sw : Option (Bool × Edition)) :
    (tb.settleSwitch keep sw).entries = tb.entries ∧ (tb.settleSwitch keep sw).leaves = tb.leaves ∧
      (tb.settleSwitch keep sw).hash = tb.hash ∧ ∀ c ∈ (tb.settleSwitch keep sw).cells, c ∈ tb.cells := by
  cases sw with
  | none => exact ⟨rfl, rfl, rfl, fun _ h => h⟩
  | some x =>
    simp only [Table.settleSwitch]
    split
    · exact ⟨rfl, rfl, rfl, nofun⟩
    · exact ⟨rfl, rfl, rfl, fun _ h => h⟩

theorem Table.settleSwitch_some (tb : Table) (keep h : Bool) (e : Edition) :
    (tb.settleSwitch keep (some (h, e))).switch = .none ∧ (h = false → keep = false →
      (tb.settleSwitch keep (some (h, e))).cells = [] ∧ (tb.settleSwitch keep (some (h, e))).hashReady = false) := by
  cases h <;> cases keep <;> simp [Table.settleSwitch]

/-- An answer word that still holds a change holds one that has not come to the floor (R124). -/
theorem AnsWord.settle_swset {w : AnsWord} {f : Edition} (h : (w.settle f).swset = true) : edLe (w.settle f).sw f = false := by
  by_cases hd : (w.swset && edLe w.sw f) = true
  · simp [AnsWord.settle, hd] at h
  · simp only [AnsWord.settle, hd] at h ⊢
    simpa [show w.swset = true from h] using hd

/-- What a settled table still waits for has not come to the floor (R124). -/
theorem Table.pendingSw_settled (tb : Table) (f : Edition) (keep : Bool) {c : Edition × Nat}
    (hc : c ∈ (tb.settled f keep).pendingSw) : edLe c.1 f = false := by
  obtain ⟨-, hleaves, -, hcells⟩ := (tb.settleWords f).settleSwitch_frame keep (tb.switchDue f)
  simp only [Table.pendingSw, Table.settled, List.mem_append, List.mem_map, List.mem_filter] at hc
  rcases hc with ⟨r, ⟨hr, hset⟩, rfl⟩ | ⟨r, ⟨hr, hset⟩, rfl⟩
  · rw [hleaves] at hr
    obtain ⟨q, -, rfl⟩ := List.mem_map.1 (List.mem_of_mem_filter hr)
    exact AnsWord.settle_swset hset
  · obtain ⟨q, -, rfl⟩ := List.mem_map.1 (hcells r hr)
    exact AnsWord.settle_swset hset

/-- A switch that settles leaves none, and a hash image that is not kept goes with one from HASH; another switch goes on (R137). -/
theorem Table.switch_settled (tb : Table) (f : Edition) (keep : Bool) :
    let u := tb.settled f keep
    (∀ h, (∃ e, tb.switch = .unsettled h e ∧ edLe e f = true) →
      u.switch = .none ∧ (h = false → keep = false → u.cells = [] ∧ u.hashReady = false)) ∧
    ((∀ h, ¬ ∃ e, tb.switch = .unsettled h e ∧ edLe e f = true) → u.switch = tb.switch) := by
  refine ⟨fun h ⟨e, he⟩ => ?_, fun hn => ?_⟩
  · rw [Table.settled, Table.switchDue_eq_some.2 he]
    exact (tb.settleWords f).settleSwitch_some keep h e
  · have hs : tb.switchDue f = Option.none :=
      Option.not_isSome_iff_eq_none.1 fun hs => (Table.switchDue_isSome.1 hs).elim hn
    rw [Table.settled, hs]
    rfl

/-- The editions of the changes that a table holds and its room's floor has reached (R124). -/
def State.swsDue (s : State) (t : Nat) : List Edition :=
  ((s.table t).pendingSw.map Prod.fst).filter fun c => edLe c (s.floor (s.view.tbl t).room)

/-- The switch of a table that its room's floor has reached (R137). -/
abbrev State.switchDue (s : State) (t : Nat) : Option (Bool × Edition) := (s.table t).switchDue (s.floor (s.view.tbl t).room)

/-- A table after what has come to its room's floor has settled. -/
abbrev State.settledTable (s : State) (t : Nat) : Table :=
  (s.table t).settled (s.floor (s.view.tbl t).room) (s.view.pfx t).keep

/-- The last word of a table settles, or a switch does. -/
def State.settleEnds (s : State) (t : Nat) : Bool :=
  (!(s.swsDue t).isEmpty && decide ((s.swsDue t).length = ((s.table t).pendingSw.map Prod.fst).length)) || (s.switchDue t).isSome

theorem State.settleEnds_iff {s : State} {t : Nat} : s.settleEnds t = true ↔
    (s.swsDue t ≠ [] ∧ (s.swsDue t).length = ((s.table t).pendingSw.map Prod.fst).length) ∨ (s.switchDue t).isSome = true := by
  simp [State.settleEnds]

/-- Nothing settles in a table of another kind, or before the floor has come to something (R124). -/
theorem State.pfxSettle_idle {s : State} {t : Nat} (h : (s.view.tbl t).kind ≠ 1 ∨ (s.swsDue t = [] ∧ s.switchDue t = none)) :
    s.pfxSettle t = s := by
  refine if_pos (h.imp_right fun ⟨hd, hs⟩ => ?_)
  exact ⟨List.isEmpty_iff.2 hd, Option.isNone_iff_eq_none.2 hs⟩

/-- Otherwise the table settles, with a record when its last word or its switch does (R124, R137). -/
theorem State.pfxSettle_settles {s : State} {t : Nat} (hk : (s.view.tbl t).kind = 1)
    (h : s.swsDue t ≠ [] ∨ (s.switchDue t).isSome = true) : ∃ fs, s.pfxSettle t =
      if s.settleEnds t then
        (s.setImages t (s.settledTable t)).record .pfxSettled (some (s.view.tbl t).room) hubMaint fs
      else s.setImages t (s.settledTable t) := by
  have hn : ¬ ((s.view.tbl t).kind ≠ 1 ∨ ((s.swsDue t).isEmpty = true ∧ (s.switchDue t).isNone = true)) := by
    rintro (hk' | ⟨hd, hs⟩)
    · exact hk' hk
    · rcases h with h | h
      · exact h (List.isEmpty_iff.1 hd)
      · simp [Option.isNone_iff_eq_none.1 hs] at h
  exact ⟨_, if_neg hn⟩

/-- A table that settles is its settled state, with a record that finds its room's ring open when its last word or its switch
settles; nothing else changes (R124, R137). -/
theorem State.pfxSettle_spec {s : State} {t : Nat} (hk : (s.view.tbl t).kind = 1)
    (h : s.swsDue t ≠ [] ∨ (s.switchDue t).isSome = true) :
    OnlyRecords (s.setImages t (s.settledTable t)) (s.pfxSettle t) ∧
      (s.settleEnds t = true → s.ringOpen (s.view.tbl t).room → (s.pfxSettle t).recorded (s.view.tbl t).room .pfxSettled) := by
  obtain ⟨fs, he⟩ := State.pfxSettle_settles hk h
  rw [he]
  split
  · exact ⟨onlyRecords_record _ _ _ _ _ _ fun r hr => Option.some.inj hr ▸ s.view.tbl_room_lt t,
      fun _ ho => State.recorded_room _ _ _ rfl ((State.ringOpen_congr _ rfl rfl).2 ho)⟩
  · exact ⟨OnlyRecords.refl _, fun he => absurd he ‹_›⟩

/-- Settling changes tables, and marks of the words written. -/
theorem State.touches_pfxSettle (s : State) (t : Nat) : Touches [.tables, .health] s (s.pfxSettle t) := by
  by_cases h : (s.view.tbl t).kind ≠ 1 ∨ (s.swsDue t = [] ∧ s.switchDue t = none)
  · rw [State.pfxSettle_idle h]
    exact Touches.refl _ _
  · rw [not_or, not_ne_iff, not_and_or, ← ne_eq, ← ne_eq, Option.ne_none_iff_isSome] at h
    obtain ⟨hk, hdue⟩ := h
    exact (s.touches_setImages t _).of_records (State.pfxSettle_spec hk hdue).1

end Sys2Proof.Machine
end

section
/-! Prefix tables' mode requests (R135, R136, R138, R387): the answer to a write of PFX_MODE_REQ, and the build or the switch that
an accepted one starts. -/

namespace Sys2Proof.Machine

/-! ### Images under build -/

/-- A build that starts writes its image from the table's entries; the other image and the mode stay (R135). -/
theorem State.buildImage_spec (s : State) (t : Nat) (h : Bool) :
    let tb := s.table t
    let u := s.buildImage t h
    u.building h = true ∧ u.ready h = tb.ready h ∧ u.building (!h) = tb.building (!h) ∧ u.ready (!h) = tb.ready (!h) ∧
      u.hash = tb.hash ∧ bare u.entries = bare tb.entries := by
  cases h
  · exact ⟨rfl, rfl, rfl, rfl, rfl, bare_placeRecs _ _ _ _⟩
  · exact ⟨rfl, rfl, rfl, rfl, rfl, bare_placeRecs _ _ _ _⟩

/-! ### The answer -/

section

variable {s : State} {m : Master} {t : Fin 256}

/-- No value of PFX_MODE_REQ fails row 9, 10 or 11 of R320, so that the table decides (R387). -/
theorem pfxModeReq_writeCode {v : Nat} (w : s.CanWrite m .pfxModeReq t) (hv : v < 256) :
    s.writeCode m ⟨.pfxModeReq, t, 0⟩ (Obj.pfxModeReq.row.ty.bytes v) = 0 :=
  State.writeCode_of_canWrite w (by decide) (by decide) hv (fun _ _ => rfl) rfl

/-- A write of PFX_MODE_REQ ends with the code of its checks, and acts when they pass. -/
theorem writes_pfxModeReq {c : Instr} {v : Nat} (w : s.CanWrite m .pfxModeReq t) (hv : v < 256)
    (hc : requestOf c = some (.of m .pfxModeReq t v)) (he : exec c s = s.control m .pfxModeReq t v) :
    Writes c s m .pfxModeReq t (s.pfxModeCode t v) (s.wrMode t v).1 := by
  refine Writes.of_performed hc he w rfl (pfxModeReq_writeCode w hv) ?_
  show s.performWrite m ⟨.pfxModeReq, t, 0⟩ (Obj.pfxModeReq.row.ty.bytes v) = _
  simp only [State.performWrite, State.writeRooms, OType.value_bytes Obj.pfxModeReq.row.ty v hv]
  rfl

/-- The commands that write PFX_MODE_REQ, each with its value (R387). -/
abbrev modeRequests (m : Master) (t : Fin 256) : List (Instr × Nat) :=
  [(.buildTrie m t, 1), (.buildHash m t, 2), (.trie m t, 3), (.hash m t, 4)]

theorem writes_modeRequests (w : s.CanWrite m .pfxModeReq t) :
    ∀ x ∈ modeRequests m t, Writes x.1 s m .pfxModeReq t (s.pfxModeCode t x.2) (s.wrMode t x.2).1 := by
  simp only [modeRequests, List.forall_mem_cons, List.not_mem_nil, false_imp_iff, implies_true, and_true]
  exact ⟨writes_pfxModeReq w (by decide) rfl rfl, writes_pfxModeReq w (by decide) rfl rfl,
    writes_pfxModeReq w (by decide) rfl rfl, writes_pfxModeReq w (by decide) rfl rfl⟩

theorem value_of_mem_modeRequests {x : Instr × Nat} (h : x ∈ modeRequests m t) : 0 < x.2 ∧ x.2 ≤ 4 := by
  revert x
  simp [modeRequests]

/-- The value that asks for a build of an image, and the one that asks for a mode (R387). -/
def buildReq (h : Bool) : Nat := if h then 2 else 1
def modeReq (h : Bool) : Nat := if h then 4 else 3

theorem mem_modeRequests_build {x : Instr × Bool} (h : x ∈ [(Instr.buildTrie m t, false), (.buildHash m t, true)]) :
    (x.1, buildReq x.2) ∈ modeRequests m t := by
  revert x
  simp [modeRequests, buildReq]

theorem mem_modeRequests_mode {x : Instr × Bool} (h : x ∈ [(Instr.trie m t, false), (.hash m t, true)]) :
    (x.1, modeReq x.2) ∈ modeRequests m t := by
  revert x
  simp [modeRequests, modeReq]

theorem writes_refused (w : s.CanWrite m .pfxModeReq t) {x : Instr × Nat} (hx : x ∈ modeRequests m t) {code : Nat}
    (hc : s.pfxModeCode t x.2 = code) (h0 : code ≠ 0) : Writes x.1 s m .pfxModeReq t code s := by
  have h := writes_modeRequests w x hx
  rwa [State.wrMode, hc, if_neg h0] at h

theorem writes_accepted (w : s.CanWrite m .pfxModeReq t) {x : Instr × Nat} (hx : x ∈ modeRequests m t)
    (hc : s.pfxModeCode t x.2 = 0) : Writes x.1 s m .pfxModeReq t 0 (s.pfxModeApply t x.2) := by
  have h := writes_modeRequests w x hx
  rwa [State.wrMode, hc, if_pos rfl] at h

end

section

variable {s : State} {t : Nat}

theorem State.pfxModeCode_other {v : Nat} (h : ¬ ((s.view.tbl t).present = true ∧ (s.view.tbl t).kind = 1)) :
    s.pfxModeCode t v = Ab.range := by
  refine if_pos (.inr (.inr ?_))
  simpa [imp_iff_not_or] using h

section

variable (hp : (s.view.tbl t).present = true ∧ (s.view.tbl t).kind = 1)
include hp

/-- No request of a table with modes is out of range. -/
theorem State.pfxModeCode_inRange {v : Nat} (h0 : 0 < v) (h4 : v ≤ 4) :
    ¬ (v = 0 ∨ 4 < v ∨ (!(s.view.tbl t).present) = true ∨ (s.view.tbl t).kind ≠ 1) := by
  obtain ⟨hpresent, hkind⟩ := hp
  rintro (h | h | h | h)
  · omega
  · omega
  · simp [hpresent] at h
  · exact h hkind

theorem State.pfxModeCode_switching {v : Nat} (h0 : 0 < v) (h4 : v ≤ 4) (hs : (s.table t).switch ≠ .none) :
    s.pfxModeCode t v = Ab.modeBusy := (if_neg (s.pfxModeCode_inRange hp h0 h4)).trans (if_pos hs)

variable (hs : (s.table t).switch = .none)
include hs

theorem State.pfxModeCode_build (h : Bool) : s.pfxModeCode t (buildReq h) =
    if (s.table t).ready h || (s.table t).building h then Ab.modeBusy else 0 := by
  have hn := s.pfxModeCode_inRange (v := buildReq h) hp (by cases h <;> decide) (by cases h <;> decide)
  refine (if_neg hn).trans ((if_neg (not_not.2 hs)).trans ?_)
  cases h <;> rfl

theorem State.pfxModeCode_mode (h : Bool) : s.pfxModeCode t (modeReq h) =
    if (s.table t).hash = h then 0 else if !(s.table t).ready h then Ab.modeNotReady
    else if !s.bothServed t then Ab.modeRota else 0 := by
  have hn := s.pfxModeCode_inRange (v := modeReq h) hp (by cases h <;> decide) (by cases h <;> decide)
  refine (if_neg hn).trans ((if_neg (not_not.2 hs)).trans ?_)
  cases h <;> rfl

end

theorem State.pfxModeApply_build (h : Bool) : s.pfxModeApply t (buildReq h) = s.setImages t (s.buildImage t h) := by
  cases h <;> rfl

theorem State.pfxModeApply_mode (h : Bool) : s.pfxModeApply t (modeReq h) =
    if (s.table t).hash = h then s else s.setTable t { s.table t with switch := .requested h } := by
  cases h <;> rfl

end

end Sys2Proof.Machine
end

section
/-! How a build of an image ends (R135, R138, R452). -/

namespace Sys2Proof.Machine

variable {s : State} {t : Fin 256} {h : Bool}

/-! ### Completion -/

/-- The table whose build ends, its entries and images up to date (R135). -/
def State.builtTable (s : State) (t : Nat) (h : Bool) : Table :=
  let tb := s.pfxImages t (s.table t).entries (s.table t).cells (s.floor (s.view.tbl t).room)
  if h then { tb with buildingHash := false, hashReady := true }
  else { tb with buildingTrie := false, trieReady := true, trieFault := false }

/-- The state with the image complete, its marks gone, and the record of its end (R135, R444). -/
def State.buildEnded (s : State) (t : Nat) (h : Bool) : State :=
  ((s.setImages t (s.builtTable t h)).cleanseImage t h).record .pfxBuildDone (some (s.view.tbl t).room) hubMaint
    [(8, t), (8, b2n h)]

theorem pfxBuildDone_idle (hu : (if h then (s.table t).buildingHash else (s.table t).buildingTrie) = false) :
    exec (.pfxBuildDone ⟨t, h⟩) s = .next s := if_pos (by simp [hu])

theorem pfxBuildDone_ends {s1 : State} (h1 : s.catchUp.pfxSettle t = s1)
    (hu : (if h then (s.table t).buildingHash else (s.table t).buildingTrie) = true)
    (ho : s1.buildOver t h = []) (hd : s1.buildDead t h = []) (hw : s1.buildWaits t h = false)
    (h2 : s1.buildTwice t h = false) : exec (.pfxBuildDone ⟨t, h⟩) s =
      .next (s1.buildEnded t h) := by
  show execPfxBuildDone ⟨t, h⟩ s = _
  simp only [execPfxBuildDone, h1]
  rw [if_neg (by simp [hu]), if_neg (by simp [ho, hd, hw, h2])]
  rfl

/-- An image that is complete is READY, a trie's without fault; the entries are those that it was built from (R135). -/
theorem State.builtTable_spec (s : State) (t : Nat) (h : Bool) :
    let tb := s.table t
    let u := s.builtTable t h
    (h = true → u.buildingHash = false ∧ u.trieReady = tb.trieReady) ∧
      (h = false → u.buildingTrie = false ∧ u.trieReady = true ∧ u.trieFault = false) ∧
      (h = true → u.hashReady = true) ∧ bare u.entries = bare tb.entries := by
  cases h
  · exact ⟨nofun, fun _ => ⟨rfl, rfl, rfl⟩, nofun, bare_placeRecs _ _ _ _⟩
  · exact ⟨fun _ => ⟨rfl, rfl⟩, nofun, fun _ => rfl, bare_placeRecs _ _ _ _⟩

/-- The end of a build leaves the table with its image complete, a trie's words without marks, and a record that finds its room's
ring open; every other table stays (R135, R444). -/
theorem State.buildEnded_spec (s : State) (t : Nat) (h : Bool) :
    let u := s.buildEnded t h
    u.table t = s.builtTable t h ∧
      (h = false → ∀ w ∈ u.health.poison, w.kind = .trieNode ∨ w.kind = .trieAnswer → (pfxWord w).1 ≠ t) ∧
      (s.ringOpen (s.view.tbl t).room → u.recorded (s.view.tbl t).room .pfxBuildDone) ∧
      (∀ j, j ≠ t → u.table j = s.table j) ∧ Touches [.tables, .health] s u := by
  have hrec : OnlyRecords ((s.setImages t (s.builtTable t h)).cleanseImage t h) (s.buildEnded t h) :=
    onlyRecords_record _ _ _ _ _ _ fun r hr => Option.some.inj hr ▸ s.view.tbl_room_lt t
  have htouch : Touches [.tables, .health] s ((s.setImages t (s.builtTable t h)).cleanseImage t h) :=
    (s.touches_setImages t _).followed (touches_health _ _) (by simp)
  refine ⟨?_, ?_, fun ho => State.recorded_room _ _ _ rfl ((State.ringOpen_congr _ rfl rfl).2 ho), fun j hj => ?_,
    htouch.of_records hrec⟩
  · rw [State.table, hrec.tables]
    exact s.table_setImages t _
  · rintro rfl w hw hk
    rw [hrec.health] at hw
    have hm := (List.mem_filter.1 hw).2
    rcases hk with hk | hk <;> simpa [hk] using hm
  · rw [State.table, hrec.tables]
    exact s.table_setImages_ne _ hj

/-! ### Failure -/

/-- The table whose build stops, its partial image released (R138). -/
def Table.buildStopped (tb : Table) (h : Bool) : Table :=
  if h then { tb with buildingHash := false, cells := [], filter := [], hashHeld := false }
  else { tb with buildingTrie := false, nodes := [], leaves := [] }

theorem pfxBuildFail_stops {bank : Bool} {sl : Fin 4}
    (hu : (if h then (s.table t).buildingHash else (s.table t).buildingTrie) = true)
    (hd : sl.val ∈ (if bank then s.buildDead t h else s.buildOver t h)) :
    ∃ fs, exec (.pfxBuildFail ⟨t, h⟩ bank sl) s =
      .next ((s.setImages t ((s.table t).buildStopped h)).record .pfxBuildFail (some (s.view.tbl t).room) hubMaint fs) := by
  refine ⟨_, if_neg ?_⟩
  cases bank <;> simp_all

theorem Table.buildStopped_spec (tb : Table) (h : Bool) :
    let u := tb.buildStopped h
    (h = true → u.buildingHash = false ∧ u.cells = [] ∧ u.filter = [] ∧ u.hashHeld = false ∧ u.nodes = tb.nodes ∧
      u.leaves = tb.leaves) ∧
    (h = false → u.buildingTrie = false ∧ u.nodes = [] ∧ u.leaves = [] ∧ u.cells = tb.cells) ∧
    u.entries = tb.entries ∧ u.trieReady = tb.trieReady := by
  cases h
  · exact ⟨nofun, fun _ => ⟨rfl, rfl, rfl, rfl⟩, rfl, rfl⟩
  · exact ⟨fun _ => ⟨rfl, rfl, rfl, rfl, rfl, rfl⟩, nofun, rfl, rfl⟩

end Sys2Proof.Machine
end

section
open Sys2Proof Sys2Proof.Machine

/-- Settles O25: the requests by the code of their checks, the end of a build and the settling by the table that they leave. -/
theorem prefixModes : Obligations.PrefixModes := by
  refine ⟨fun s m t w => ⟨fun hp x hx => ?_, fun hp hs x hx => ?_, fun hp hs =>
      ⟨fun x hx => ⟨fun hr => ?_, fun hr hb => ?_⟩,
        fun x hx => ⟨fun hh => ?_, fun hh hr => ?_, fun hh hr hb => ?_, fun hh hr hb => ?_⟩⟩⟩,
    fun s t h => ⟨pfxBuildDone_idle, fun hu => ⟨fun ho hd hw h2 => ?_, fun bank sl hsl => ?_⟩⟩,
    fun s t => ⟨fun h => ?_, fun hk h => ?_⟩⟩
  · -- a table without modes
    exact writes_refused w hx (State.pfxModeCode_other hp) (by decide)
  · -- a switch is under way
    obtain ⟨h0, h4⟩ := value_of_mem_modeRequests hx
    exact writes_refused w hx (State.pfxModeCode_switching hp h0 h4 hs) (by decide)
  · -- the image is READY or under build
    refine writes_refused w (mem_modeRequests_build hx) ((State.pfxModeCode_build hp hs x.2).trans (if_pos ?_)) (by decide)
    simpa using hr
  · -- a build that starts
    have hc := (State.pfxModeCode_build hp hs x.2).trans (if_neg (by simp [hr, hb]))
    have hw := writes_accepted w (mem_modeRequests_build hx) hc
    obtain ⟨hbuild, hready, hbuild', hready', hhash, hbare⟩ := s.buildImage_spec t x.2
    refine ⟨_, State.pfxModeApply_build x.2 ▸ hw, ?_⟩
    rw [State.table_setImages]
    exact ⟨hbuild, hready.trans hr, hbuild', hready', hhash, hbare, fun j hj => s.table_setImages_ne _ hj,
      s.touches_setImages t _⟩
  · -- the mode in force
    have hw := writes_accepted w (mem_modeRequests_mode hx) ((State.pfxModeCode_mode hp hs x.2).trans (if_pos hh))
    rwa [State.pfxModeApply_mode, if_pos hh] at hw
  · -- an image that is not READY
    have hc : s.pfxModeCode t (modeReq x.2) = Ab.modeNotReady := (State.pfxModeCode_mode hp hs x.2).trans (by simp [hh, hr])
    exact writes_refused w (mem_modeRequests_mode hx) hc (by decide)
  · -- a rota that does not serve both modes
    have hc : s.pfxModeCode t (modeReq x.2) = Ab.modeRota := (State.pfxModeCode_mode hp hs x.2).trans (by simp [hh, hr, hb])
    exact writes_refused w (mem_modeRequests_mode hx) hc (by decide)
  · -- a switch that is requested
    have hc : s.pfxModeCode t (modeReq x.2) = 0 := (State.pfxModeCode_mode hp hs x.2).trans (by simp [hh, hr, hb])
    have hw := writes_accepted w (mem_modeRequests_mode hx) hc
    rwa [State.pfxModeApply_mode, if_neg hh] at hw
  · -- a build that ends
    generalize h1 : s.catchUp.pfxSettle t = s1 at ho hd hw h2 ⊢
    have hroom : (s.catchUp.view.tbl t).room = (s1.view.tbl t).room := by
      rw [← h1, (s.catchUp.touches_pfxSettle t).view_eq (by simp) (by simp)]
    obtain ⟨hhash, htrie, hready, hbare⟩ := s1.builtTable_spec t h
    obtain ⟨hself, hmarks, hrecorded, hothers, htouch⟩ := s1.buildEnded_spec t h
    refine ⟨_, pfxBuildDone_ends h1 hu ho hd hw h2, ?_⟩
    rw [hself, hroom]
    refine ⟨hhash, fun hh => ?_, hready, hbare, hrecorded, hothers, htouch⟩
    obtain ⟨hended, htrieReady, hsound⟩ := htrie hh
    exact ⟨hended, htrieReady, hsound, hmarks hh⟩
  · -- a build that stops
    obtain ⟨fs, hx⟩ := pfxBuildFail_stops hu hsl
    have hrec := onlyRecords_record (s.setImages t ((s.table t).buildStopped h)) .pfxBuildFail (some (s.view.tbl t).room) hubMaint
      fs 0 fun r hr => Option.some.inj hr ▸ s.view.tbl_room_lt t
    obtain ⟨hself, hothers, htouch⟩ := State.table_setImages_records hrec
    obtain ⟨hhash, htrie, hentries, hready⟩ := (s.table t).buildStopped_spec h
    refine ⟨_, hx, ?_⟩
    rw [hself]
    exact ⟨hhash, htrie, hentries, hready, fun ho => State.recorded_room _ _ _ rfl ((State.ringOpen_congr _ rfl rfl).2 ho),
      hothers, htouch⟩
  · -- nothing has come to the floor
    refine congrArg Host.Outcome.next (State.pfxSettle_idle (h.imp_right fun ⟨hd, hs⟩ => ⟨hd, ?_⟩))
    rw [← Option.not_isSome_iff_eq_none, Table.switchDue_isSome]
    rintro ⟨k, hk⟩
    exact hs k hk
  · -- what has come to the floor settles
    refine ⟨_, rfl, ?_⟩
    generalize s.catchUp = s1 at hk h ⊢
    have hdue : s1.swsDue t ≠ [] ∨ (s1.switchDue t).isSome = true := h.imp_right Table.switchDue_isSome.2
    obtain ⟨hrec, hrecorded⟩ := State.pfxSettle_spec hk hdue
    obtain ⟨hself, hothers, htouch⟩ := State.table_setImages_records hrec
    obtain ⟨hentries, hleaves, hhash, -⟩ :=
      ((s1.table t).settleWords _).settleSwitch_frame (s1.view.pfx t).keep (s1.switchDue t)
    obtain ⟨hswitch, hkeeps⟩ := (s1.table t).switch_settled (s1.floor (s1.view.tbl t).room) (s1.view.pfx t).keep
    rw [hself]
    exact ⟨fun _ => Table.pendingSw_settled _ _ _, hleaves, hswitch, hkeeps, hentries, hhash,
      fun he => hrecorded (State.settleEnds_iff.2 (he.imp_right Table.switchDue_isSome.2)), hothers, htouch⟩

end

section
/-! Prefix commands that already hold a ternary entry when they start (R183, R184). A command arrives in its queue with nothing
to place, and only a ternary command comes to hold entries, once it has started; but a statement over every queued command also
speaks of one that holds an entry from the first. Its end places that entry in its table, whatever the table's kind. -/

namespace Sys2Proof.Machine

/-- A DELETE of the dead entries of table 0 with PREFIX and LEN 0, on the command registers of room 0 (R169, R170, R491), which
holds an entry of no replica to place. -/
def laden : MqCmd :=
  { id := 0, room := 0,
    frame := ⟨granule [(28, 0), (4, 4), (20, 0), (32, 2 ^ 30), (44, 0)], [0, 0]⟩,
    src := .reg, came := 0, started := false, cursor := none, found := [], ops := [], drops := [], adds := [[]], dels := [],
    reply := [], doneAt := none }

/-- The machine after reset with its dies up, the command in its queue, and table 0 of room 0, of kind 1, with editions and without
entries. -/
def ladenQueue : State :=
  { State.reset with
      dev := { Dev.reset with diesUp := true }
      cat := { Cat.reset with force := [(Obj.tblHdr.key 0, 2 ^ 123 + 2 ^ 121)] }
      arb := { Arbiter.reset with queues := [(0, [laden])] } }

/-- The start slot of cycle 0 grants the command. -/
def ladenGranted : State :=
  { ladenQueue with arb := ladenQueue.arb.granted 0 (ladenQueue.reg .mqBurst 0) ladenQueue.canStart }

/-- The command as it starts, with the state in which it runs. -/
def ladenStarted : MqCmd := { laden with started := true }
def ladenStart : State :=
  ({ ladenGranted with arb := { ladenGranted.arb with nextAt := ladenGranted.now + 2 } } : State).setCmd ladenStarted

theorem starts_laden : ladenQueue.Starts opDelete ladenStarted ladenStart := by
  have hg : ladenQueue.atSlot.grant = some (ladenGranted, 0) := by decide +kernel
  have hh : ladenGranted.head 0 = some ([], laden) := by decide +kernel
  exact ⟨by decide +kernel, rfl, ladenGranted, 0, [], laden, hg, hh, rfl, rfl⟩

/-- The checks of the command pass, and no entry is dead. -/
theorem ladenStart_checks :
    let t := ladenStarted.hdr.table
    let d := ladenStart.view.pfx t
    (ladenStart.view.tbl t).kind = 1 ∧ ladenStart.tableStatus ladenStarted (pfxBad d ladenStarted.hdr ladenStarted.body) = none ∧
      (pfxEntryOf ladenStarted.body).len ≤ d.w ∧ bits ladenStarted.hdr.addr 31 30 = 1 ∧
      ((ladenStart.pfxSettle t).table t).entries = [] ∧ ((ladenStart.pfxSettle t).table t).placed = [] := by decide +kernel

/-- The ternary entries of table 0 after a command. -/
def placedAfter (i : Instr) (s : State) : Option (List (List Replica)) :=
  match exec i s with | .next t => some (t.table ladenStarted.hdr.table).placed | _ => none

/-- The command, whose only update is made as it starts, places what it holds. -/
theorem placedAfter_laden : placedAfter .delete ladenQueue = some [[]] := by decide +kernel

end Sys2Proof.Machine
end

section
open Sys2Proof Sys2Proof.Machine

/-- Refutes O19: a DELETE that has nothing to delete does not leave its table as `pfxImages` gives it when the command holds a
ternary entry to place, which its end places in the table. The statement asks nothing of what the command holds. The queues get
none such, since every command arrives with nothing to place and only a ternary command comes to hold entries, as it starts. -/
theorem not_prefixCommands : ¬ Obligations.PrefixCommands := by
  intro h
  obtain ⟨hk, hs, hw, hsel, hentries, hplaced⟩ := ladenStart_checks
  obtain ⟨-, -, -, hdelete, -⟩ := h ladenQueue ladenStart ladenStarted hk hs hw
  have hnone (x : PfxEntry) (sel : Nat) (a : Edition) :
      (ladenStart.pfxSettle ladenStarted.hdr.table).pfxNamed ladenStarted.hdr.table ladenStarted.hdr.room x sel a = [] := by
    rw [State.pfxNamed, hentries, List.filter_nil]
  obtain ⟨u, hu, ⟨⟨l, htable⟩, -⟩, -⟩ :=
    hdelete starts_laden (.inr hsel) (by rw [hnone]; nofun) (.inr (.inl (by rw [hnone]; nofun)))
  have hrun := placedAfter_laden
  rw [placedAfter, hu] at hrun
  have hsame : (u.table ladenStarted.hdr.table).placed = [] := (congrArg Table.placed htable).trans hplaced
  exact absurd (hsame.symm.trans (Option.some.inj hrun)) nofun

end

section
/-! Exact-match commands that already hold a ternary entry when they start (R183, R184), as the prefix command of `laden` does. -/

namespace Sys2Proof.Machine

/-- A DELETE of slot 0 of table 0, by its index and without an age guard (R155, R170), that holds an entry of no replica to
place. -/
def ladenByAddr : MqCmd := { laden with frame := ⟨granule [(28, 0), (4, 4), (16, 0), (1, 1), (79, 0)], []⟩ }

/-- The machine of `ladenQueue` with this command in its queue, and table 0 an exact-match table of one bucket on slice 0, with
INLINE and a live entry in slot 0 (R141, R143). -/
def ladenExact : State :=
  { ladenQueue with
      cat := { Cat.reset with force := [(Obj.tblHdr.key 0, 2 ^ 123 + 2 ^ 122 + 2 ^ 111)] }
      em := { Em.reset with slots := [(0, 2 ^ 127)] }
      arb := { Arbiter.reset with queues := [(0, [ladenByAddr])] } }

/-- The start slot of cycle 0 grants the command. -/
def ladenExactGranted : State :=
  { ladenExact with arb := ladenExact.arb.granted 0 (ladenExact.reg .mqBurst 0) ladenExact.canStart }

/-- The command as it starts, with the state in which it runs. -/
def ladenByAddrStarted : MqCmd := { ladenByAddr with started := true }
def ladenExactStart : State :=
  ({ ladenExactGranted with arb := { ladenExactGranted.arb with nextAt := ladenExactGranted.now + 2 } } : State).setCmd
    ladenByAddrStarted

theorem starts_ladenByAddr : ladenExact.Starts opDelete ladenByAddrStarted ladenExactStart := by
  have hg : ladenExact.atSlot.grant = some (ladenExactGranted, 0) := by decide +kernel
  have hh : ladenExactGranted.head 0 = some ([], ladenByAddr) := by decide +kernel
  exact ⟨by decide +kernel, rfl, ladenExactGranted, 0, [], ladenByAddr, hg, hh, rfl, rfl⟩

/-- The checks of the command pass, it names slot 0, and its table is empty of ternary entries. -/
theorem ladenExactStart_checks :
    let t := ladenByAddrStarted.hdr.table
    let d := ladenExactStart.view.em t
    (ladenExactStart.view.tbl t).kind = 2 ∧
      ladenExactStart.tableStatus ladenByAddrStarted (emBad d ladenByAddrStarted.hdr ladenByAddrStarted.body) = none ∧
      ladenExactStart.copyFilling t = false ∧ ladenExactStart.emNamed ladenByAddrStarted d = .ok 0 ∧
      ladenByAddrStarted.hdr.aux = 0 ∧ (ladenExactStart.table ladenStarted.hdr.table).placed = [] := by decide +kernel

/-- The command, whose only update is made as it starts, places what it holds. -/
theorem placedAfter_ladenByAddr : placedAfter .delete ladenExact = some [[]] := by decide +kernel

end Sys2Proof.Machine
end

section
open Sys2Proof Sys2Proof.Machine

/-- Refutes O20: a DELETE of an exact-match entry changes its table's row when the command holds a ternary entry to place, which
its end places there; `CommandFrame` has the tables stay. The statement asks nothing of what the command holds. The queues get
none such, since every command arrives with nothing to place and only a ternary command comes to hold entries, as it starts. -/
theorem not_exactCommands : ¬ Obligations.ExactCommands := by
  intro h
  obtain ⟨hkind, hstatus, hfill, hnamed, haux, hplaced⟩ := ladenExactStart_checks
  obtain ⟨-, -, hdelete, -⟩ := h ladenExact ladenExactStart ladenByAddrStarted hkind hstatus hfill
  obtain ⟨u, hu, -, -, -, -, -, hframe, -⟩ := (hdelete 0 starts_ladenByAddr hnamed).1 (haux ▸ Nat.zero_le _)
  have htables : u.tables = ladenExactStart.tables := hframe .tables (by decide)
  have hrun := placedAfter_ladenByAddr
  rw [placedAfter, hu] at hrun
  have hsame : (u.table ladenStarted.hdr.table).placed = [] := by rw [State.table, htables]; exact hplaced
  exact absurd (hsame.symm.trans (Option.some.inj hrun)) nofun

end

section
/-! Stamp words (R145, R151, R162, R163): what a write and a repair of one leave, and what a stamp reads after them. -/

namespace Sys2Proof.Machine

/-! ### Fields of a stamp word -/

theorem stampIns_packed (hit ins last : Nat) :
    stampIns (BitVec.ofNat 33 (pack [(1, hit), (16, ins), (16, last)])) = ins % 65536 := by
  simp only [stampIns, fld, bits, pack, List.foldl_cons, List.foldl_nil, BitVec.toNat_ofNat]
  omega

theorem stampIns_freshStamp (s : State) (hit : Bool) : stampIns (s.freshStamp hit) = s.emNow % 65536 := stampIns_packed _ _ _

/-- A field that is cut to its width once is not cut further. -/
theorem pack_mod_ins (hit ins last : Nat) : pack [(1, hit), (16, ins % 65536), (16, last)] = pack [(1, hit), (16, ins), (16, last)] := by
  simp [pack]

/-! ### Writes -/

theorem State.stamp_putStamp (s : State) (i : Nat) (hit : Bool) (ins last j : Nat) : (s.putStamp i hit ins last).stamp j =
    if j = i then BitVec.ofNat 33 (pack [(1, b2n hit), (16, ins), (16, last)]) else s.stamp j := sget_sput _ _ _ _

theorem State.touches_putStamp (s : State) (i : Nat) (hit : Bool) (ins last : Nat) :
    Touches [.em] s (s.putStamp i hit ins last) := touches_em s _

theorem State.poisoned_cleanse (s : State) (k : MemKind) (u i : Nat) : (s.cleanse k u i).poisoned k u i = false := by
  simp [State.poisoned, State.cleanse]

/-! ### Repairs -/

/-- A stamp word rewritten as fresh, before its record (R163). -/
def State.stampFixed (s : State) (i : Nat) : State :=
  (s.putStamp i true s.emNow s.emNow).cleanse .stamp (i / 2097152) i

/-- A stamp word repaired when it is uncorrectable, before the repair's record (R163). -/
def State.stampRepaired (s : State) (i : Nat) : State := if s.poisoned .stamp (i / 2097152) i then s.stampFixed i else s

theorem State.stamp_stampFixed (s : State) (i j : Nat) : (s.stampFixed i).stamp j = if j = i then s.freshStamp true else s.stamp j :=
  s.stamp_putStamp i true s.emNow s.emNow j

theorem State.touches_stampFixed (s : State) (i : Nat) : Touches [.em, .health] s (s.stampFixed i) := touches_em_health s _ _

theorem State.onlyRecords_fixStamp (s : State) (i : Nat) : OnlyRecords (s.stampFixed i) (s.fixStamp i) := by
  refine onlyRecords_record _ _ _ _ _ _ fun r hr => ?_
  obtain ⟨t, -, rfl⟩ := Option.map_eq_some_iff.1 hr
  exact View.tbl_room_lt _ t

theorem State.onlyRecords_soundStamp (s : State) (i : Nat) : OnlyRecords (s.stampRepaired i) (s.soundStamp i) := by
  simp only [State.stampRepaired, State.soundStamp]
  split
  · exact s.onlyRecords_fixStamp i
  · exact OnlyRecords.refl s

theorem State.soundStamp_of_sound {s : State} {i : Nat} (h : s.poisoned .stamp (i / 2097152) i = false) : s.soundStamp i = s := by
  simp [State.soundStamp, h]

theorem State.soundStamp_of_poisoned {s : State} {i : Nat} (h : s.poisoned .stamp (i / 2097152) i = true) :
    s.soundStamp i = s.fixStamp i := if_pos h

/-- A repaired word holds the present tick twice, is sound, and no other stamp and no slot changes (R163). -/
theorem State.fixStamp_spec (s : State) (i : Nat) : (s.fixStamp i).stamp i = s.freshStamp true ∧
    (s.fixStamp i).poisoned .stamp (i / 2097152) i = false ∧ (∀ j, j ≠ i → (s.fixStamp i).stamp j = s.stamp j) ∧
    (s.fixStamp i).em.slots = s.em.slots ∧ Touches [.em, .health] s (s.fixStamp i) := by
  have hrec := s.onlyRecords_fixStamp i
  have hstamp (j : Nat) : (s.fixStamp i).stamp j = if j = i then s.freshStamp true else s.stamp j := by
    rw [State.stamp, hrec.em]
    exact s.stamp_stampFixed i j
  refine ⟨by simp [hstamp], ?_, fun j hj => by simp [hstamp, hj], (congrArg Em.slots hrec.em).trans rfl,
    (s.touches_stampFixed i).of_records hrec⟩
  rw [State.poisoned, hrec.health]
  exact State.poisoned_cleanse _ _ _ _

/-! ### The stamp clock -/

theorem emNow_not_daybook : Obj.emNow.key ∉ daybookKeys :=
  not_mem_daybookKeys (by rw [Obj.key_index _ _ _ _ (by decide) (by decide)]; decide)

theorem OnlyRecords.emNow {s u : State} (h : OnlyRecords s u) : u.emNow = s.emNow := h.reg .emNow 0 0 0 emNow_not_daybook

theorem Touches.emNow {l : List Piece} {s u : State} (h : Touches l s u) (hl : Piece.regs ∉ l) : u.emNow = s.emNow :=
  h .regs hl _ emNow_not_daybook

/-! ### Words found uncorrectable -/

/-- A stamp word found uncorrectable is marked and recorded; its repair is the sweeper's (R163, R443). -/
theorem State.touches_foundUncorr_stamp (s : State) (u i : Nat) : Touches [.health] s (s.foundUncorr ⟨.stamp, u, i⟩) := by
  simp only [State.foundUncorr]
  split
  · exact Touches.refl _ _
  · exact (touches_health s _).of_records (onlyRecords_record _ _ none _ _ _ nofun)

end Sys2Proof.Machine
end

section
/-! The stamp clock, the tick length and the seed (R159, R162, R388), the stamp sweeper (R163) and the stamp writes of hits
(R151). -/

namespace Sys2Proof.Machine

/-! ### EM_NOW_TICK -/

/-- A register is written with a change of the exact-match engine. -/
def State.setRegEm (s : State) (o : Obj) (v : Nat) (e : Em) : State := { s.setReg o 0 0 0 v with em := e }

theorem State.setRegEm_spec (s : State) (o : Obj) (v : Nat) (e : Em) : (s.setRegEm o v e).reg o = v ∧
    (s.setRegEm o v e).em = e ∧ RegsBut [o.key] s (s.setRegEm o v e) ∧ Touches [.regs, .em] s (s.setRegEm o v e) :=
  ⟨State.reg_setReg _ _ _ _ _ _, rfl, regsBut_setReg _ o 0 0 0 _,
    ((touches_setReg s _ _ _ _ _).mono (by simp)).followed (touches_em _ _) (by simp)⟩

/-- The stamp clock moved on by a tick (R162). -/
def State.ticked (s : State) : State :=
  s.setRegEm .emNow (wrapAdd 16 s.emNow 1) { s.em with nextTick := s.em.nextTick + s.reg .emTick * Config.msec }

theorem emNowTick_exec (s : State) : exec .emNowTick s = .next ((s.at s.em.nextTick).catchUp).ticked := by
  have hexec : exec .emNowTick s = execEmNowTick s := rfl
  rw [hexec, execEmNowTick]
  generalize (s.at s.em.nextTick).catchUp = w
  have htick : (w.setReg .emNow 0 0 0 (wrapAdd 16 w.emNow 1)).reg .emTick = w.reg .emTick :=
    State.regs_setReg_ne _ _ _ _ _ _ _ (by decide)
  simp only [htick, State.setReg_em]
  rfl

/-! ### EM_TICK and EM_LFSR_SEED -/

section
variable {s : State} {m : Master}

theorem emTick_writeCode {v : BitVec 16} (w : s.CanWrite m .emTick 0) :
    s.writeCode m ⟨.emTick, 0, 0⟩ (Obj.emTick.row.ty.bytes v.toNat) = if v.toNat = 0 then Ab.range else 0 :=
  (State.writeCode_of_canWrite w (by decide) (by decide) v.isLt (fun _ _ => rfl) rfl).trans (by simp [State.outOfRange])

theorem writes_emTick_range {v : BitVec 16} (w : s.CanWrite m .emTick 0) (h : v.toNat = 0) :
    Writes (.emTick m v) s m .emTick 0 Ab.range s :=
  Writes.of_refused (r := .of m .emTick 0 v.toNat) rfl rfl w rfl ((emTick_writeCode w).trans (if_pos h)) (by decide)

theorem writes_emTick {v : BitVec 16} (w : s.CanWrite m .emTick 0) (h : v.toNat ≠ 0) :
    Writes (.emTick m v) s m .emTick 0 0 (s.setRegEm .emTick v.toNat { s.em with nextTick := s.now + v.toNat * Config.msec }) := by
  refine Writes.of_performed (r := .of m .emTick 0 v.toNat) rfl rfl w rfl ((emTick_writeCode w).trans (if_neg h)) ?_
  show s.performWrite m ⟨.emTick, 0, 0⟩ (Obj.emTick.row.ty.bytes v.toNat) = _
  simp only [State.performWrite, State.writeRooms, OType.value_bytes Obj.emTick.row.ty v.toNat v.isLt]
  rfl

theorem writes_emLfsrSeed {v : BitVec 32} (w : s.CanWrite m .emLfsrSeed 0) :
    Writes (.emLfsrSeed m v) s m .emLfsrSeed 0 0 (s.setRegEm .emLfsrSeed v.toNat (s.wrSeed v.toNat).1.em) := by
  refine Writes.of_performed (r := .of m .emLfsrSeed 0 v.toNat) rfl rfl w rfl
    ((State.writeCode_of_canWrite w (by decide) (by decide) v.isLt (fun _ _ => rfl) rfl).trans rfl) ?_
  show s.performWrite m ⟨.emLfsrSeed, 0, 0⟩ (Obj.emLfsrSeed.row.ty.bytes v.toNat) = _
  simp only [State.performWrite, State.writeRooms, OType.value_bytes Obj.emLfsrSeed.row.ty v.toNat v.isLt]
  rfl

/-- Every slice's LFSR takes the seed (R159). -/
theorem State.lfsr_wrSeed (s : State) (v : BitVec 32) {i : Nat} (h : i < 4) :
    (s.wrSeed v.toNat).1.lfsr i = if v.toNat = 0 then 1 else v := by
  obtain rfl | rfl | rfl | rfl : i = 0 ∨ i = 1 ∨ i = 2 ∨ i = 3 := by omega
  all_goals simp [State.wrSeed, State.lfsr, sget_sput]

end

/-! ### STAMP_SWEEP -/

section
variable {s : State} (i : BitVec 23)

/-- The sweeper finds a word sound (R163). -/
theorem stampSweep_sound (h : s.catchUp.poisoned .stamp (i.toNat / 2097152) i.toNat = false) :
    let w := s.catchUp
    RunsTo (.stampSweep i false) s (w.putStamp i.toNat (wasHit (w.stamp i.toNat)) (w.clampStamp (stampIns (w.stamp i.toNat)))
      (w.clampStamp (stampLast (w.stamp i.toNat)))) := by
  refine RunsTo.of_done ?_ (OnlyRecords.refl _)
  have hexec : exec (.stampSweep i false) s = execStampSweep i false s := rfl
  rw [hexec, execStampSweep]
  simp [h]

/-- The sweeper finds a word uncorrectable, marked before or not (R163, R443). -/
theorem stampSweep_repairs {bad : Bool} (h : bad = true ∨ s.catchUp.poisoned .stamp (i.toNat / 2097152) i.toNat = true) :
    ∃ w, Touches [.health] s.catchUp w ∧ w.em = s.catchUp.em ∧ RunsTo (.stampSweep i bad) s (w.fixStamp i.toNat) := by
  have hexec : exec (.stampSweep i bad) s = execStampSweep i bad s := rfl
  cases bad with
  | true =>
    have hfound := s.catchUp.touches_foundUncorr_stamp (i.toNat / 2097152) i.toNat
    exact ⟨_, hfound, hfound .em (by simp), RunsTo.of_done hexec (OnlyRecords.refl _)⟩
  | false =>
    have hpoison := h.resolve_left nofun
    refine ⟨s.catchUp, Touches.refl _ _, rfl, RunsTo.of_done ?_ (OnlyRecords.refl _)⟩
    rw [hexec, execStampSweep]
    simp [hpoison]

end

/-! ### The stamp writes of hits -/

/-- No stamp write of a hit waits. -/
def State.hitless (s : State) : State := { s with em := { s.em with hits := [] } }

section
variable {s : State} {t : Nat} {h : StampHit} (hits : s.em.hits = [h])
include hits

theorem State.stampHits_early (ht : t < h.due) : s.stampHits t = s := by
  have hlate : ¬ h.due ≤ t := by omega
  simp [State.stampHits, hits, hlate]

/-- The hit that is due sets its stamp, in a word repaired first (R151, R163). -/
theorem State.stampHits_due (ht : h.due ≤ t) : s.stampHits t =
    (s.hitless.soundStamp h.slot).putStamp h.slot true (stampIns ((s.hitless.soundStamp h.slot).stamp h.slot))
      (s.hitless.soundStamp h.slot).emNow := by
  simp only [State.stampHits, hits]
  simp [ht, stampIns, State.hitless]

/-- The stamp write of a hit on a sound word (R151). -/
theorem State.stampHits_sound (ht : h.due ≤ t) (hp : s.poisoned .stamp (h.slot / 2097152) h.slot = false) :
    s.stampHits t = s.hitless.putStamp h.slot true (stampIns (s.stamp h.slot)) s.emNow := by
  rw [State.stampHits_due hits ht, State.soundStamp_of_sound (s := s.hitless) hp]
  rfl

/-- The stamp write of a hit on a word that is repaired first: both write the present tick (R151, R163). -/
theorem State.stampHits_poisoned (ht : h.due ≤ t) (hp : s.poisoned .stamp (h.slot / 2097152) h.slot = true) :
    let u := s.stampHits t
    u.em.hits = [] ∧ u.em.slots = s.em.slots ∧ (∀ j, j ≠ h.slot → u.stamp j = s.stamp j) ∧
      u.stamp h.slot = s.freshStamp true ∧ u.poisoned .stamp (h.slot / 2097152) h.slot = false ∧ Touches [.em, .health] s u := by
  have hrec := s.hitless.onlyRecords_fixStamp h.slot
  obtain ⟨hfresh, hsound, hothers, hslots, htouch⟩ := s.hitless.fixStamp_spec h.slot
  have hnow : (s.hitless.fixStamp h.slot).emNow = s.emNow := hrec.emNow
  rw [State.stampHits_due hits ht, State.soundStamp_of_poisoned (s := s.hitless) hp, hfresh, stampIns_freshStamp, hnow]
  refine ⟨congrArg Em.hits hrec.em, hslots, fun j hj => ?_, ?_, hsound, ?_⟩
  · rw [State.stamp_putStamp, if_neg hj, hothers j hj]
    rfl
  · rw [State.stamp_putStamp, if_pos rfl, pack_mod_ins]
    rfl
  · exact (((touches_em s _).mono (by simp)).trans htouch).followed (State.touches_putStamp _ _ _ _ _) (by simp)

end

end Sys2Proof.Machine
end

section
open Sys2Proof Sys2Proof.Machine

/-- Settles O27, command by command: the clock, the writes of its two registers, the sweeper's two findings, and the hit that is
due or not, its word sound or uncorrectable. -/
theorem stampsAndSeeds : Obligations.StampsAndSeeds := by
  unfold Obligations.StampsAndSeeds
  refine ⟨⟨fun s => ?_, fun s m v w => ⟨writes_emTick_range w, fun h => ?_⟩, fun s m v w => ?_⟩,
    fun s i => ⟨fun h => ?_, fun bad h => ?_⟩, fun s t h hits => ⟨State.stampHits_early hits, fun ht => ?_⟩⟩
  · -- the clock
    refine ⟨_, emNowTick_exec s, ?_⟩
    generalize (s.at s.em.nextTick).catchUp = w
    obtain ⟨hreg, hem, hregs, htouch⟩ := w.setRegEm_spec .emNow (wrapAdd 16 w.emNow 1)
      { w.em with nextTick := w.em.nextTick + w.reg .emTick * Config.msec }
    exact ⟨rfl, hreg, hem, hregs, htouch⟩
  · -- the tick length
    exact ⟨_, writes_emTick w h, State.setRegEm_spec _ _ _ _⟩
  · -- the seed
    obtain ⟨hreg, hem, hregs, htouch⟩ := s.setRegEm_spec .emLfsrSeed v.toNat (s.wrSeed v.toNat).1.em
    exact ⟨_, writes_emLfsrSeed w, hreg, fun i hi => s.lfsr_wrSeed v hi, rfl, hregs, htouch⟩
  · -- a sound word is swept
    exact ⟨_, stampSweep_sound i h, by simp [State.stamp_putStamp], fun j hj => by simp [State.stamp_putStamp, hj], rfl,
      State.touches_putStamp _ _ _ _ _⟩
  · -- an uncorrectable word is swept
    obtain ⟨w, htouch, hem, hrun⟩ := stampSweep_repairs i h
    obtain ⟨hfresh, hsound, hothers, hslots, hfix⟩ := w.fixStamp_spec i.toNat
    refine ⟨_, hrun, ?_, hsound, fun j hj => ?_, hslots.trans (by rw [hem]), (htouch.mono (by simp)).trans hfix⟩
    · rw [hfresh, State.freshStamp, htouch.emNow (by simp)]
      rfl
    · rw [hothers j hj, State.stamp, hem, State.stamp]
  · -- a hit that is due
    cases hp : s.poisoned .stamp (h.slot / 2097152) h.slot with
    | false =>
      rw [State.stampHits_sound hits ht hp]
      exact ⟨rfl, rfl, fun j hj => by rw [State.stamp_putStamp, if_neg hj]; rfl,
        fun _ => ⟨by rw [State.stamp_putStamp, if_pos rfl]; rfl, touches_em _ _⟩, nofun⟩
    | true =>
      obtain ⟨hhits, hslots, hothers, hfresh, hsound, htouch⟩ := State.stampHits_poisoned hits ht hp
      exact ⟨hhits, hslots, hothers, nofun, fun _ => ⟨hfresh, hsound, htouch⟩⟩

end

section
/-! The update ports of the exact-match engine (R147, R153, R154): what a new entry and a rewritten one leave in the slots of their
position on every copy, in the stamps, and in the references of their DATA (R216). -/

namespace Sys2Proof.Machine

/-! ### Slots -/

/-- A write of a position's slots changes slots, and what goes with a slot, alone (R151, R153). -/
structure SlotsPut (s u : State) : Prop where
  touches : Touches [.em, .health] s u
  em : u.em = { s.em with slots := u.em.slots, late := u.em.late, hits := u.em.hits }

theorem SlotsPut.refl (s : State) : SlotsPut s s := ⟨Touches.refl _ _, rfl⟩

theorem SlotsPut.trans {s t u : State} (h : SlotsPut s t) (k : SlotsPut t u) : SlotsPut s u :=
  ⟨h.touches.trans k.touches, k.em.trans (by rw [h.em])⟩

/-- One position written on one slice (R147, R154). -/
def State.putEntry (d : EmDesc) (i : Nat) (head : BitVec 128) (tail : Option (BitVec 128)) (s : State) (x : Nat × Nat) : State :=
  let j := moveSlice i x.1
  let s := s.putEmSlot j x.2 head
  match tail with
  | some t => if d.wide then s.putEmSlot (j + 1) x.2 t else s
  | none => s

theorem State.emPut_eq (s : State) (d : EmDesc) (w : List (Nat × Nat)) (i : Nat) (head : BitVec 128)
    (tail : Option (BitVec 128)) : s.emPut d w i head tail = w.foldl (State.putEntry d i head tail) s := rfl

theorem State.emSlot_putEmSlot (s : State) (j t : Nat) (x : BitVec 128) (a : Nat) :
    (s.putEmSlot j t x).emSlot a = if a = j then x else s.emSlot a := sget_sput _ _ _ _

theorem State.slotsPut_putEmSlot (s : State) (j t : Nat) (x : BitVec 128) : SlotsPut s (s.putEmSlot j t x) :=
  ⟨touches_em_health s _ _, rfl⟩

/-- The tail that a position takes after its head, in a double slot alone (R144). -/
def EmDesc.tailWord (d : EmDesc) (tail : Option (BitVec 128)) : Option (BitVec 128) := if d.wide then tail else none

section
variable (d : EmDesc) (i : Nat) (head : BitVec 128) (tail : Option (BitVec 128))

theorem State.putEntry_eq (s : State) (x : Nat × Nat) : s.putEntry d i head tail x =
    ((d.tailWord tail).elim id fun t u => u.putEmSlot (moveSlice i x.1 + 1) x.2 t) (s.putEmSlot (moveSlice i x.1) x.2 head) := by
  simp only [State.putEntry, EmDesc.tailWord]
  split <;> split <;> rfl

theorem State.slotsPut_putEntry (s : State) (x : Nat × Nat) : SlotsPut s (s.putEntry d i head tail x) := by
  rw [State.putEntry_eq]
  cases d.tailWord tail with
  | none => exact s.slotsPut_putEmSlot _ _ _
  | some t => exact (s.slotsPut_putEmSlot _ _ _).trans (State.slotsPut_putEmSlot _ _ _ _)

/-- A position written on some slices: its heads, its tails, and every other slot. -/
theorem State.emSlot_putEntry (s : State) (x : Nat × Nat) (a : Nat) : (s.putEntry d i head tail x).emSlot a =
    if a = moveSlice i x.1 then head
    else if a = moveSlice i x.1 + 1 then (d.tailWord tail).getD (s.emSlot a) else s.emSlot a := by
  rw [State.putEntry_eq]
  cases d.tailWord tail with
  | none => simp [State.emSlot_putEmSlot]
  | some t =>
    simp only [Option.elim_some, State.emSlot_putEmSlot, Option.getD_some]
    by_cases h : a = moveSlice i x.1
    · simp [h]
    · simp [h]

theorem State.slotsPut_emPut (w : List (Nat × Nat)) (s : State) : SlotsPut s (s.emPut d w i head tail) := by
  rw [State.emPut_eq]
  induction w generalizing s with
  | nil => exact SlotsPut.refl s
  | cons x w ih => exact (s.slotsPut_putEntry d i head tail x).trans (ih _)

/-- A head and a tail of one position do not share a slot, whatever their slices. -/
theorem moveSlice_ne_succ (i a b : Nat) : moveSlice i a ≠ moveSlice i b + 1 := by
  simp only [moveSlice]
  omega

/-- A head slot of a position holds the head that was written. -/
theorem State.emSlot_emPut_head {w : List (Nat × Nat)} {x : Nat × Nat} (hx : x ∈ w) (s : State) :
    (s.emPut d w i head tail).emSlot (moveSlice i x.1) = head := by
  rw [State.emPut_eq]
  induction w using List.reverseRecOn with
  | nil => exact (List.not_mem_nil hx).elim
  | append_singleton w y ih =>
    rw [List.foldl_append, List.foldl_cons, List.foldl_nil, State.emSlot_putEntry]
    rcases List.mem_append.1 hx with hx | hx
    · rw [if_neg (moveSlice_ne_succ i x.1 y.1), ih hx, ite_self]
    · rw [if_pos (by rw [List.mem_singleton.1 hx])]

/-- A tail slot of a position holds the tail that was written. -/
theorem State.emSlot_emPut_tail {w : List (Nat × Nat)} {x : Nat × Nat} (hx : x ∈ w) (s : State) {t : BitVec 128}
    (ht : d.tailWord tail = some t) : (s.emPut d w i head tail).emSlot (moveSlice i x.1 + 1) = t := by
  rw [State.emPut_eq]
  induction w using List.reverseRecOn with
  | nil => exact (List.not_mem_nil hx).elim
  | append_singleton w y ih =>
    rw [List.foldl_append, List.foldl_cons, List.foldl_nil, State.emSlot_putEntry, if_neg (moveSlice_ne_succ i y.1 x.1).symm, ht]
    rcases List.mem_append.1 hx with hx | hx
    · rw [ih hx, Option.getD_some, ite_self]
    · rw [if_pos (by rw [List.mem_singleton.1 hx]), Option.getD_some]

/-- Every slot that is no head and no tail of the position stays. -/
theorem State.emSlot_emPut_other {w : List (Nat × Nat)} {a : Nat} (s : State) (hhead : ∀ x ∈ w, a ≠ moveSlice i x.1)
    (htail : d.tailWord tail ≠ none → ∀ x ∈ w, a ≠ moveSlice i x.1 + 1) : (s.emPut d w i head tail).emSlot a = s.emSlot a := by
  rw [State.emPut_eq]
  induction w generalizing s with
  | nil => rfl
  | cons x w ih =>
    rw [List.foldl_cons, ih _ (fun y hy => hhead y (.tail _ hy)) fun h y hy => htail h y (.tail _ hy), State.emSlot_putEntry,
      if_neg (hhead x List.mem_cons_self)]
    split
    · rename_i h
      cases ht : d.tailWord tail with
      | none => rfl
      | some t => exact absurd h (htail (by simp [ht]) x List.mem_cons_self)
    · rfl

end

/-! ### The slices and cycles of an entry's updates -/

/-- One update on the owner slice of a copy, after those of other copies (R153). -/
def State.emTime (d : EmDesc) (k : Nat) (r : State × List (Nat × Nat)) (c : Nat) : State × List (Nat × Nat) :=
  (r.1.spend 2 (d.owner c k) 1, r.2 ++ [(d.owner c k, r.1.portTime 2 (d.owner c k))])

theorem State.emTimes_eq (s : State) (d : EmDesc) (k : Nat) :
    s.emTimes d k = (List.range d.ncopy).foldl (State.emTime d k) (s, []) := rfl

section
variable (d : EmDesc) (k : Nat)

theorem touches_foldl_emTime (l : List Nat) (r : State × List (Nat × Nat)) :
    Touches [.arb] r.1 (l.foldl (State.emTime d k) r).1 := by
  induction l generalizing r with
  | nil => exact Touches.refl _ _
  | cons c l ih =>
    have hspend : Touches [.arb] r.1 (State.emTime d k r c).1 := r.1.touches_spend 2 (d.owner c k) 1
    exact hspend.trans (ih _)

theorem State.touches_emTimes (s : State) : Touches [.arb] s (s.emTimes d k).1 := touches_foldl_emTime d k _ (s, [])

theorem foldl_emTime_slices (l : List Nat) (r : State × List (Nat × Nat)) :
    (l.foldl (State.emTime d k) r).2.map Prod.fst = r.2.map Prod.fst ++ l.map fun c => d.owner c k := by
  induction l generalizing r with
  | nil => simp
  | cons c l ih => simp [ih, State.emTime]

/-- The updates go to the owner slice of every copy (R147, R154). -/
theorem State.mem_emTimes (s : State) (sl : Nat) :
    (∃ x ∈ (s.emTimes d k).2, x.1 = sl) ↔ ∃ n, n < d.ncopy ∧ d.owner n k = sl := by
  have h := foldl_emTime_slices d k (List.range d.ncopy) (s, [])
  rw [← State.emTimes_eq, List.map_nil, List.nil_append] at h
  rw [← List.mem_map, h]
  simp

/-- The limits and the clock decide the cycles of updates (R153, R199). -/
theorem foldl_emTime_congr (l : List Nat) {a b : State} (harb : b.arb = a.arb) (hnow : b.now = a.now) (w : List (Nat × Nat)) :
    (l.foldl (State.emTime d k) (b, w)).2 = (l.foldl (State.emTime d k) (a, w)).2 := by
  induction l generalizing a b w with
  | nil => rfl
  | cons c l ih =>
    have htime : b.portTime 2 (d.owner c k) = a.portTime 2 (d.owner c k) := by
      simp only [State.portTime, State.limitAt, harb, hnow]
    simp only [List.foldl_cons, State.emTime, htime]
    exact ih (by simp [State.spend, harb, htime]) (by simp [State.spend, hnow]) _

theorem State.emTimes_congr {a b : State} (harb : b.arb = a.arb) (hnow : b.now = a.now) :
    (b.emTimes d k).2 = (a.emTimes d k).2 := foldl_emTime_congr d k _ harb hnow []

end

theorem State.le_lastOf (s : State) (w : List (Nat × Nat)) : s.now ≤ s.lastOf w := by
  have h (l : List Nat) (n : Nat) : n ≤ l.foldl max n := by
    induction l generalizing n with
    | nil => exact Nat.le_refl n
    | cons a l ih => exact (Nat.le_max_left n a).trans (ih _)
  exact h _ _

/-! ### Stamps -/

/-- Stamp words are repaired or written, and nothing else of the engine changes (R145, R163). -/
structure StampsPut (s u : State) : Prop where
  touches : Touches [.em, .health] s u
  em : u.em = { s.em with stamps := u.em.stamps }

theorem StampsPut.refl (s : State) : StampsPut s s := ⟨Touches.refl _ _, rfl⟩

theorem StampsPut.trans {s t u : State} (h : StampsPut s t) (k : StampsPut t u) : StampsPut s u :=
  ⟨h.touches.trans k.touches, k.em.trans (by rw [h.em])⟩

theorem State.stampsPut_putStamp (s : State) (i : Nat) (hit : Bool) (ins last : Nat) : StampsPut s (s.putStamp i hit ins last) :=
  ⟨(s.touches_putStamp i hit ins last).mono (by simp), rfl⟩

theorem State.stampsPut_soundStamp (s : State) (i : Nat) : StampsPut s (s.soundStamp i) := by
  have hrec := s.onlyRecords_soundStamp i
  refine ⟨Touches.of_records ?_ hrec, ?_⟩
  · exact Touches.ite _ (s.touches_stampFixed i) (Touches.refl _ _)
  · rw [hrec.em, State.stampRepaired]
    split <;> rfl

/-- A stamp after a repair (R163). -/
theorem State.stamp_soundStamp (s : State) (i j : Nat) : (s.soundStamp i).stamp j =
    if j = i ∧ s.poisoned .stamp (i / 2097152) i = true then s.freshStamp true else s.stamp j := by
  rw [State.stamp, (s.onlyRecords_soundStamp i).em, ← State.stamp, State.stampRepaired]
  split
  · simp [State.stamp_stampFixed, *]
  · simp [*]

theorem State.stamp_soundStamp_ne (s : State) {i j : Nat} (h : j ≠ i) : (s.soundStamp i).stamp j = s.stamp j := by
  simp [State.stamp_soundStamp, h]

theorem StampsPut.emNow {s u : State} (h : StampsPut s u) : u.emNow = s.emNow := h.touches.emNow (by simp)

/-- A stamp written in a word that is repaired first (R145, R163). -/
theorem State.setStamp_spec (s : State) (i : Nat) (hit : Bool) (ins last : Nat) : StampsPut s (s.setStamp i hit ins last) ∧
    (s.setStamp i hit ins last).stamp i = BitVec.ofNat 33 (pack [(1, b2n hit), (16, ins), (16, last)]) ∧
    ∀ j, j ≠ i → (s.setStamp i hit ins last).stamp j = s.stamp j := by
  refine ⟨(s.stampsPut_soundStamp i).trans (State.stampsPut_putStamp _ _ _ _ _), ?_, fun j hj => ?_⟩
  · rw [State.setStamp, State.stamp_putStamp, if_pos rfl]
  · rw [State.setStamp, State.stamp_putStamp, if_neg hj, s.stamp_soundStamp_ne hj]

end Sys2Proof.Machine
end

section
/-! The references of DATA in a POINTER table (R216), and the watermark counters that a release may move (R220, R221). -/

namespace Sys2Proof.Machine

/-! ### Watermark counters -/

theorem mem_poolKeys {o : Obj} {n : Nat} (ho : o ∈ [Obj.poolXingNotice, .poolXingRestrain, .poolXingStop]) (hn : n < 64) :
    o.key n ∈ poolKeys := by
  simp only [poolKeys, List.mem_flatMap, List.mem_range]
  refine ⟨n, hn, ?_⟩
  simp only [List.mem_cons, List.not_mem_nil, or_false] at ho ⊢
  rcases ho with rfl | rfl | rfl <;> simp

section
variable (s : State) {n : Nat} (hn : n < 64)
include hn

theorem State.regsBut_crossing (m : Nat) (rise : Bool) (level : Nat) : RegsBut poolKeys s (s.crossing n m rise level) := by
  have hbump : RegsBut poolKeys s (s.crossed n m rise) := by
    refine (regsBut_setReg _ _ _ _ _ _).mono fun k hk => ?_
    rw [List.mem_singleton.1 hk]
    refine mem_poolKeys ?_ hn
    split_ifs <;> simp
  have hrec := onlyRecords_record (s.crossed n m rise) .poolXing (some (s.view.pool n).room) hubPool [(8, n), (8, m), (32, level)]
    (if rise then 1 else 2) fun r hr => Option.some.inj hr ▸ bits_lt _ 127 124
  exact hbump.trans (hrec.regsBut _)

theorem State.regsBut_markRise (m : Nat) : RegsBut poolKeys s (s.markRise n m) := by
  simp only [State.markRise]
  split
  · exact s.regsBut_crossing hn _ _ _
  · exact RegsBut.refl _ _

theorem State.regsBut_markFall (m : Nat) : RegsBut poolKeys s (s.markFall n m) := by
  simp only [State.markFall]
  split
  · exact s.regsBut_crossing hn _ _ _
  · exact RegsBut.refl _ _

theorem State.regsBut_evalMarks : RegsBut poolKeys s (s.evalMarks n) :=
  (((((s.regsBut_markRise hn 0).trans (State.regsBut_markRise _ hn 1)).trans (State.regsBut_markRise _ hn 2)).trans
    (State.regsBut_markFall _ hn 2)).trans (State.regsBut_markFall _ hn 1)).trans (State.regsBut_markFall _ hn 0)

end

theorem View.poolOf_lt {v : View} {b n i : Nat} (h : v.poolOf b n = some i) : i < 64 :=
  List.mem_range.1 (List.mem_of_find?_eq_some h)

theorem State.regsBut_release (s : State) (ptr : Nat) : RegsBut poolKeys s (s.release ptr) := by
  simp only [State.release]
  split
  · exact RegsBut.of_eq _ rfl
  · rename_i n hn
    split
    · exact State.regsBut_evalMarks (s.setAlloc ptr _) (View.poolOf_lt hn)
    · exact RegsBut.of_eq _ rfl

/-- A reference that goes may move the watermark counters of its pool, and no other register (R216, R221). -/
theorem State.regsBut_dropRef (s : State) (ptr : Nat) : RegsBut poolKeys s (s.dropRef ptr) := by
  simp only [State.dropRef]
  split
  · exact State.regsBut_release (s.setAlloc ptr _) ptr
  · exact RegsBut.of_eq _ rfl

/-! ### References of DATA -/

theorem State.touches_gainData (s : State) (d : EmDesc) (data : Nat) : Touches [.mem] s (s.gainData d data) :=
  Touches.ite _ (Touches.refl _ _) (s.touches_addRef _)

theorem State.loseData_spec (s : State) (d : EmDesc) (data : Nat) :
    Touches [.mem, .regs] s (s.loseData d data) ∧ RegsBut poolKeys s (s.loseData d data) := by
  simp only [State.loseData]
  split
  · exact ⟨Touches.refl _ _, RegsBut.refl _ _⟩
  · exact ⟨(s.dropRef_spec _).1, s.regsBut_dropRef _⟩

/-- The reference of new DATA has come and the references to some blocks have gone; with INLINE DATA there are none (R216). -/
def State.Refers (s : State) (d : EmDesc) (data : Nat) (drops : List Nat) (u : State) : Prop :=
  (d.inline = true → u.mem = s.mem) ∧
  (d.inline = false → ∀ b, (u.alloc b).count = ((s.addRef (data / 4)).alloc b).count - drops.count b)

theorem State.Refers.of_mem {s u v : State} {d : EmDesc} {data : Nat} {drops : List Nat} (h : s.Refers d data drops v)
    (hm : u.mem = v.mem) : s.Refers d data drops u := by
  simpa only [State.Refers, State.alloc, hm] using h

section
variable {s v : State} {d : EmDesc} {data : Nat} (h : v.mem = (s.gainData d data).mem)
include h

theorem State.refers_gained : s.Refers d data [] v := by
  cases hd : d.inline <;> simp [State.Refers, State.alloc, h, State.gainData, hd]

theorem State.refers_lost (old : Nat) : s.Refers d data [old / 4] (v.loseData d old) := by
  have hgain := State.refers_gained h
  refine ⟨fun hd => ?_, fun hd b => ?_⟩
  · rw [State.loseData, if_pos hd]
    exact hgain.1 hd
  · rw [State.loseData, if_neg (by simp [hd]), (v.dropRef_spec _).2 b, hgain.2 hd b, List.count_nil, Nat.sub_zero]
    by_cases hb : b = old / 4
    · simp [hb]
    · simp [hb, Ne.symm hb]

end

end Sys2Proof.Machine
end

section
/-! A new entry and a rewritten one (R154, R155, R158). -/

namespace Sys2Proof.Machine

theorem EmDesc.not_mem_slotsOf {d : EmDesc} {k i j : Nat} (h : j ∉ d.slotsOf k i) {n : Nat} (hn : n < d.ncopy) :
    j ≠ moveSlice i (d.owner n k) ∧ (d.wide = true → j ≠ moveSlice i (d.owner n k) + 1) := by
  simp only [EmDesc.slotsOf, List.mem_flatMap, List.mem_range, not_exists, not_and] at h
  have h := h n hn
  cases hw : d.wide <;> simp_all

theorem State.slotsPut_dropHits (s : State) (i : Nat) : SlotsPut s (s.dropHits i) := ⟨(touches_em s _).mono (by simp), rfl⟩

/-! ### The position of a key on every copy -/

/-- Updates go to the owner slice of a key on every copy, and to no other (R147, R154). -/
def EmDesc.Covers (d : EmDesc) (k : Nat) (w : List (Nat × Nat)) : Prop :=
  ∀ sl, (∃ x ∈ w, x.1 = sl) ↔ ∃ n, n < d.ncopy ∧ d.owner n k = sl

section
variable {d : EmDesc} {k : Nat} {w : List (Nat × Nat)} (hw : d.Covers k w) (s : State) (i : Nat) (head : BitVec 128)
include hw

theorem EmDesc.Covers.owner {x : Nat × Nat} (hx : x ∈ w) : ∃ n, n < d.ncopy ∧ d.owner n k = x.1 := (hw x.1).1 ⟨x, hx, rfl⟩

/-- A head is written at its position on every copy (R147). -/
theorem State.emSlot_emPut_copies (tail : Option (BitVec 128)) {n : Nat} (hn : n < d.ncopy) :
    (s.emPut d w i head tail).emSlot (moveSlice i (d.owner n k)) = head := by
  obtain ⟨x, hx, he⟩ := (hw _).2 ⟨n, hn, rfl⟩
  exact he ▸ State.emSlot_emPut_head d i head tail hx s

/-- A head written without its tail changes no other slot. -/
theorem State.emSlot_emPut_none {j : Nat} (hj : ∀ n, n < d.ncopy → j ≠ moveSlice i (d.owner n k)) :
    (s.emPut d w i head none).emSlot j = s.emSlot j := by
  refine State.emSlot_emPut_other d i head none s (fun x hx => ?_) fun h => absurd (ite_self _) h
  obtain ⟨n, hn, he⟩ := hw.owner hx
  exact he ▸ hj n hn

/-- An entry written with its tail stands on every copy (R144, R147). -/
theorem State.emStands_emPut : (s.emPut d w i head (some (d.tail k))).emStands d k i head := by
  refine fun n hn => ⟨State.emSlot_emPut_copies hw s i head _ hn, fun hwide => ?_⟩
  obtain ⟨x, hx, he⟩ := (hw _).2 ⟨n, hn, rfl⟩
  exact he ▸ State.emSlot_emPut_tail d i head _ hx s (if_pos hwide)

/-- An entry written with its tail changes no slot of another position. -/
theorem State.emSlot_emPut_some {j : Nat} (hj : j ∉ d.slotsOf k i) :
    (s.emPut d w i head (some (d.tail k))).emSlot j = s.emSlot j := by
  refine State.emSlot_emPut_other d i head _ s (fun x hx => ?_) fun ht x hx => ?_
  · obtain ⟨n, hn, he⟩ := hw.owner hx
    exact he ▸ (EmDesc.not_mem_slotsOf hj hn).1
  · obtain ⟨n, hn, he⟩ := hw.owner hx
    exact he ▸ (EmDesc.not_mem_slotsOf hj hn).2 (by by_contra hn; simp [EmDesc.tailWord, hn] at ht)

end

section
variable (s : State) (d : EmDesc) (k i data : Nat) (static learnt : Bool)

theorem State.covers_emTimes : d.Covers k (s.emTimes d k).2 := State.mem_emTimes d k s

/-- The updates of a write wait for the same cycles with the reference of its DATA added or not. -/
theorem State.emTimes_gainData : ((s.gainData d data).emTimes d k).2 = (s.emTimes d k).2 :=
  State.emTimes_congr d k (s.touches_gainData d data .arb (by simp)) (s.touches_gainData d data .now (by simp))

/-! ### A new entry -/

/-- An entry of a key stands at its position on every copy with fresh stamps, and no other position has changed (R147, R154,
R158). -/
structure EntryPut (d : EmDesc) (k i : Nat) (head : BitVec 128) (s u : State) : Prop where
  stands : u.emStands d k i head
  slots : ∀ j, j ∉ d.slotsOf k i → u.emSlot j = s.emSlot j
  stamp : u.stamp i = s.freshStamp false
  stamps : ∀ j, j ≠ i → u.stamp j = s.stamp j
  queues : u.em.queues = s.em.queues
  lfsr : u.em.lfsr = s.em.lfsr

/-- The slots of a new entry written, before its stamps (R154). -/
def State.entrySlots (s : State) : State :=
  (((s.gainData d data).emTimes d k).1.emPut d (s.emTimes d k).2 i (d.head true static learnt data k) (some (d.tail k))).dropHits i

theorem State.emNew_eq : s.emNew d k i data static learnt =
    ((s.entrySlots d k i data static learnt).setStamp i false s.emNow s.emNow, s.lastOf (s.emTimes d k).2) := by
  simp only [State.emNew, State.emTimes_gainData]
  rfl

theorem State.entrySlots_spec :
    let u := s.entrySlots d k i data static learnt
    u.emStands d k i (d.head true static learnt data k) ∧ (∀ j, j ∉ d.slotsOf k i → u.emSlot j = s.emSlot j) ∧
      u.em = { s.em with slots := u.em.slots, late := u.em.late, hits := u.em.hits } ∧ u.mem = (s.gainData d data).mem ∧
      Touches [.em, .mem, .health, .arb] s u := by
  have hgain := s.touches_gainData d data
  have htimes := (s.gainData d data).touches_emTimes d k
  have hcovers := s.covers_emTimes d k
  simp only [State.entrySlots]
  generalize ((s.gainData d data).emTimes d k).1 = a at htimes ⊢
  have hem : a.em = s.em := (htimes .em (by simp)).trans (hgain .em (by simp))
  have hslot (j : Nat) : a.emSlot j = s.emSlot j := by rw [State.emSlot, hem, State.emSlot]
  have hput := (State.slotsPut_emPut d i (d.head true static learnt data k) (some (d.tail k)) (s.emTimes d k).2 a).trans
    (State.slotsPut_dropHits _ i)
  refine ⟨State.emStands_emPut hcovers a i _, fun j hj => (State.emSlot_emPut_some hcovers a i _ hj).trans (hslot j), ?_, ?_, ?_⟩
  · exact hput.em.trans (by rw [hem])
  · exact (hput.touches .mem (by simp)).trans (htimes .mem (by simp))
  · exact ((hgain.mono (by simp)).followed htimes (by simp)).followed hput.touches (by simp)

theorem State.emNew_spec :
    let u := (s.emNew d k i data static learnt).1
    u.mem = (s.gainData d data).mem ∧ Touches [.em, .mem, .health, .arb] s u ∧
      EntryPut d k i (d.head true static learnt data k) s u := by
  rw [State.emNew_eq]
  obtain ⟨hstands, hslots, hem, hmem, htouch⟩ := s.entrySlots_spec d k i data static learnt
  generalize s.entrySlots d k i data static learnt = p at *
  obtain ⟨hput, hstamp, hstamps⟩ := p.setStamp_spec i false s.emNow s.emNow
  have hslot (j : Nat) : (p.setStamp i false s.emNow s.emNow).emSlot j = p.emSlot j := by rw [State.emSlot, hput.em, State.emSlot]
  have hold (j : Nat) : p.stamp j = s.stamp j := by rw [State.stamp, hem, State.stamp]
  refine ⟨(hput.touches .mem (by simp)).trans hmem, htouch.followed hput.touches (by simp), ?_, ?_, hstamp, ?_, ?_, ?_⟩
  · exact fun n hn => ⟨(hslot _).trans (hstands n hn).1, fun hw => (hslot _).trans ((hstands n hn).2 hw)⟩
  · exact fun j hj => (hslot j).trans (hslots j hj)
  · exact fun j hj => (hstamps j hj).trans (hold j)
  · rw [hput.em, hem]
  · rw [hput.em, hem]

/-! ### A rewritten entry -/

/-- The state of a rewrite with the reference of its DATA added, when it is another one (R216). -/
def State.rewriteGains (s : State) : State := if data / 4 ≠ slotData (s.emSlot i) / 4 then s.gainData d data else s

/-- The heads of a rewritten entry hold what was written on every copy; no other slot and no stamp has changed (R147, R154). -/
theorem State.emRewrite_spec :
    let r := s.emRewrite d k i data static learnt
    r.2.1 = s.lastOf (s.emTimes d k).2 ∧
      (∀ n, n < d.ncopy → r.1.emSlot (moveSlice i (d.owner n k)) = d.head true static learnt data k) ∧
      (∀ j, (∀ n, n < d.ncopy → j ≠ moveSlice i (d.owner n k)) → r.1.emSlot j = s.emSlot j) ∧
      r.1.em = { s.em with slots := r.1.em.slots, late := r.1.em.late, hits := r.1.em.hits } ∧
      r.1.mem = (s.rewriteGains d i data).mem ∧ Touches [.em, .mem, .health, .arb] s r.1 := by
  have hgain : Touches [.mem] s (s.rewriteGains d i data) := Touches.ite _ (s.touches_gainData d data) (Touches.refl _ _)
  have hsame : ((s.rewriteGains d i data).emTimes d k).2 = (s.emTimes d k).2 :=
    State.emTimes_congr d k (hgain .arb (by simp)) (hgain .now (by simp))
  have htimes := (s.rewriteGains d i data).touches_emTimes d k
  have hcovers := s.covers_emTimes d k
  have he : s.emRewrite d k i data static learnt =
      ((((s.rewriteGains d i data).emTimes d k).1.emPut d (s.emTimes d k).2 i (d.head true static learnt data k) none).dropHits i,
        s.lastOf (s.emTimes d k).2, (s.emRewrite d k i data static learnt).2.2) := by
    rw [← hsame]
    simp only [State.emRewrite, State.rewriteGains, decide_eq_true_eq]
  rw [he]
  generalize ((s.rewriteGains d i data).emTimes d k).1 = a at htimes ⊢
  have hem : a.em = s.em := (htimes .em (by simp)).trans (hgain .em (by simp))
  have hslot (j : Nat) : a.emSlot j = s.emSlot j := by rw [State.emSlot, hem, State.emSlot]
  have hput := (State.slotsPut_emPut d i (d.head true static learnt data k) none (s.emTimes d k).2 a).trans
    (State.slotsPut_dropHits _ i)
  refine ⟨rfl, fun n hn => State.emSlot_emPut_copies hcovers a i _ none hn, fun j hj => ?_, ?_, ?_, ?_⟩
  · exact (State.emSlot_emPut_none hcovers a i _ hj).trans (hslot j)
  · exact hput.em.trans (by rw [hem])
  · exact (hput.touches .mem (by simp)).trans (htimes .mem (by simp))
  · exact ((hgain.mono (by simp)).followed htimes (by simp)).followed hput.touches (by simp)

end

end Sys2Proof.Machine
end

section
/-! What a learn does beside its entry (R158 to R161): notices, counters, the victim of a weeding. -/

namespace Sys2Proof.Machine

/-! ### Registers and pieces together -/

/-- The pieces and the registers that a step may change. -/
structure Within (l : List Piece) (ks : List Nat) (s u : State) : Prop where
  touches : Touches l s u
  regs : RegsBut ks s u

theorem Within.trans {l : List Piece} {ks : List Nat} {a b c : State} (h : Within l ks a b) (k : Within l ks b c) :
    Within l ks a c := ⟨h.touches.trans k.touches, h.regs.trans k.regs⟩

theorem Within.mono {l m : List Piece} {ks js : List Nat} {a b : State} (h : Within l ks a b) (hl : ∀ p ∈ l, p ∈ m)
    (hk : ∀ k ∈ ks, k ∈ js) : Within m js a b := ⟨h.touches.mono hl, h.regs.mono hk⟩

/-- A change that is not one of the registers. -/
theorem Touches.within {l : List Piece} {s u : State} (h : Touches l s u) (hl : Piece.regs ∉ l) (ks : List Nat) :
    Within l ks s u := ⟨h, fun k hk _ => h .regs hl k hk⟩

theorem Within.of_records {l : List Piece} {ks : List Nat} {s u v : State} (h : Within l ks s u) (r : OnlyRecords u v) :
    Within l ks s v := ⟨h.touches.of_records r, h.regs.trans (r.regsBut ks)⟩

theorem State.within_bump (s : State) (o : Obj) (i off : Nat) : Within [.regs] [o.key i off] s (s.bump o i off) :=
  ⟨touches_setReg s _ _ _ _ _, regsBut_setReg s _ _ _ _ _⟩

/-! ### Keys -/

theorem sub_of_mem_daybookKeys {k : Nat} (h : k ∈ daybookKeys) : k / 65536 % 256 = 3 ∨ k / 65536 % 256 = 5 := by
  simp only [daybookKeys, List.mem_cons, List.mem_map, List.mem_range] at h
  rcases h with rfl | ⟨r, -, rfl⟩
  · exact .inl (Obj.key_sub .faultXing 0 0 0 (by decide) (by omega))
  · exact .inr (Obj.key_sub .dbDropped r 0 0 (by decide) (by omega))

theorem sub_of_mem_poolKeys {k : Nat} (h : k ∈ poolKeys) : 4 ≤ k / 65536 % 256 ∧ k / 65536 % 256 ≤ 7 := by
  simp only [poolKeys, List.mem_flatMap, List.mem_range, List.mem_cons, List.not_mem_nil, or_false] at h
  obtain ⟨n, -, rfl | rfl | rfl | rfl⟩ := h <;> rw [Obj.key_sub _ _ _ _ (by decide) (by omega)] <;> decide

/-- The registers that an applied learn may write beside its own counters (R161, R221, R262). -/
def besideKeys (slice : Fin 4) (p : Nat) : List Nat := Obj.emBacklogXing.key 0 slice :: Obj.portTxDiscard.key p :: poolKeys

theorem sub_of_mem_besideKeys {slice : Fin 4} {p k : Nat} (h : k ∈ besideKeys slice p) : 4 ≤ k / 65536 % 256 ∧ k / 65536 % 256 < 0x30 := by
  have hslice := slice.isLt
  have hrow : Obj.emBacklogXing.row.sub = 0x18 := rfl
  rcases List.mem_cons.1 h with rfl | h
  · rw [Obj.key_sub .emBacklogXing 0 slice 0 (by omega) (by omega)]
    omega
  rcases List.mem_cons.1 h with rfl | h
  · rw [Obj.key_sub .portTxDiscard p 0 0 (by decide) (by omega)]
    decide
  · have := sub_of_mem_poolKeys h
    omega

/-- A register of a table's or the engine's own (R387, R388) reads the same after records and what goes beside a learn. -/
theorem State.reg_of_regsBut {ks : List Nat} {s u : State} (h : RegsBut ks s u) (o : Obj) (i : Nat)
    (hs : o.row.sub < 256) (hd : o.row.sub ≠ 3 ∧ o.row.sub ≠ 5) (hk : ∀ k ∈ ks, k / 65536 % 256 ≠ o.row.sub) :
    u.reg o i = s.reg o i := by
  have hsub : o.key i / 65536 % 256 = o.row.sub := Obj.key_sub o i 0 0 hs (by omega)
  refine h _ (fun hm => ?_) fun hm => hk _ hm hsub
  have := sub_of_mem_daybookKeys hm
  omega

theorem sub_portTxDiscard (p : Nat) : ∀ k ∈ [Obj.portTxDiscard.key p], k / 65536 % 256 = 0x1B := fun k hk => by
  rw [List.mem_singleton.1 hk]
  exact Obj.key_sub .portTxDiscard p 0 0 (by decide) (by omega)

/-! ### Notices and refusals -/

section
variable (s : State) (d : EmDesc) (x : Learn)

/-- A notice joins the class-3 frames of its port, or is discarded there (R160, R262). -/
theorem State.within_notice (kind data old slot k stamps : Nat) :
    Within [.regs, .ports] [Obj.portTxDiscard.key d.nport] s (s.notice d x kind data old slot k stamps) := by
  have hsend (f : Frame) : Within [.regs, .ports] [Obj.portTxDiscard.key d.nport] s (s.send3 d.nport f) := by
    obtain ⟨htouch, hregs, -⟩ := s.txDrop_frame d.nport
    simp only [State.send3]
    split
    · exact ((touches_setPort s _ _).within (by simp) []).mono (by simp) (by simp)
    · exact ⟨htouch.mono (by simp), hregs⟩
  simp only [State.notice]
  generalize (if kind = 1 then nbit d.nmask 2 else if kind = 2 then nbit d.nmask 1 else if kind = 4 then nbit d.nmask 0 else true) = on
  cases on with
  | true => exact hsend _
  | false => exact ⟨Touches.refl _ _, RegsBut.refl _ _⟩

/-- A refused learn is counted, and noticed or not (R158). -/
theorem State.learnRefuse_spec (k status : Nat) :
    Within [.regs, .ports] [Obj.emLearnRefused.key x.table, Obj.portTxDiscard.key d.nport] s (s.learnRefuse d x k status) ∧
      (s.learnRefuse d x k status).reg .emLearnRefused x.table = wrapAdd 32 (s.reg .emLearnRefused x.table) 1 := by
  have hnotice := (s.bump .emLearnRefused x.table).within_notice d x 4 x.data status 0 k 0
  refine ⟨((s.within_bump _ _ _).mono (by simp) (by simp)).trans (hnotice.mono (by simp) (by simp)), ?_⟩
  have hreg := State.reg_of_regsBut hnotice.regs .emLearnRefused x.table (by decide) (by decide) fun k hk =>
    ne_of_eq_of_ne (sub_portTxDiscard d.nport k hk) (by decide)
  exact hreg.trans (State.reg_bump s _ _)

/-! ### Weeding -/

/-- A victim's stamp is sound, and it is noticed, counted and recorded (R158, R159). -/
theorem State.weed_spec (v : Nat) (hr : x.room < 16) :
    Within [.em, .health, .regs, .ports] [Obj.emWeedCnt.key x.table, Obj.portTxDiscard.key d.nport] s (s.weed d x v) ∧
      (s.weed d x v).em = (s.soundStamp v).em ∧
      (s.weed d x v).reg .emWeedCnt x.table = wrapAdd 32 (s.reg .emWeedCnt x.table) 1 := by
  have hsound := (s.stampsPut_soundStamp v).touches.within (by simp) [Obj.portTxDiscard.key d.nport]
  simp only [State.weed]
  generalize s.soundStamp v = a at hsound ⊢
  generalize hb : a.notice d x 3 (slotData (a.emSlot v)) 0 v (a.slotKey d v) (stampIns (a.stamp v) * 65536 + stampLast (a.stamp v)) = b
  have hnotice : Within [.regs, .ports] [Obj.portTxDiscard.key d.nport] a b := hb ▸ a.within_notice d x _ _ _ _ _ _
  have hbefore : Within [.em, .health, .regs, .ports] [Obj.portTxDiscard.key d.nport] s b :=
    (hsound.mono (by simp) (by simp)).trans (hnotice.mono (by simp) (by simp))
  have hrec := onlyRecords_record (b.bump .emWeedCnt x.table) .emWeed (some x.room) (srcOpen .emWeed)
    [(8, x.table), (32, v), (64, sliceAt (a.slotKey d v) d.w 0 64)] 0 fun r h => Option.some.inj h ▸ hr
  refine ⟨?_, hrec.em.trans (hnotice.touches .em (by simp)), ?_⟩
  · exact ((hbefore.mono (by simp) (by simp)).trans ((b.within_bump .emWeedCnt x.table 0).mono (by simp) (by simp))).of_records hrec
  · have hsame := State.reg_of_regsBut hbefore.regs .emWeedCnt x.table (by decide) (by decide) fun k hk =>
      ne_of_eq_of_ne (sub_portTxDiscard d.nport k hk) (by decide)
    have hcount := State.reg_of_regsBut (hrec.regsBut []) .emWeedCnt x.table (by decide) (by decide) nofun
    rw [hcount, State.reg_bump, hsame]

end

/-! ### The victim -/

/-- Words repaired one after another (R159, R163). -/
theorem stampsPut_foldl (l : List Nat) (s : State) : StampsPut s (l.foldl State.soundStamp s) := by
  induction l generalizing s with
  | nil => exact StampsPut.refl s
  | cons i l ih => exact (s.stampsPut_soundStamp i).trans (ih _)

/-- Two states whose stamps, marks and stamp clock are the same. -/
structure SameStamps (a b : State) : Prop where
  stamps : b.em.stamps = a.em.stamps
  poison : b.health.poison = a.health.poison
  now : b.emNow = a.emNow

theorem SameStamps.soundStamp {a b : State} (h : SameStamps a b) (i : Nat) : SameStamps (a.soundStamp i) (b.soundStamp i) := by
  obtain ⟨hstamps, hpoison, hnow⟩ := h
  have hmark : b.poisoned .stamp (i / 2097152) i = a.poisoned .stamp (i / 2097152) i := by simp only [State.poisoned, hpoison]
  refine ⟨?_, ?_, by rw [(b.stampsPut_soundStamp i).emNow, (a.stampsPut_soundStamp i).emNow, hnow]⟩
  · rw [(a.onlyRecords_soundStamp i).em, (b.onlyRecords_soundStamp i).em, State.stampRepaired, State.stampRepaired, hmark]
    split
    · simp [State.stampFixed, State.putStamp, hstamps, hnow]
    · exact hstamps
  · rw [(a.onlyRecords_soundStamp i).health, (b.onlyRecords_soundStamp i).health, State.stampRepaired, State.stampRepaired, hmark]
    split
    · simp [State.stampFixed, State.putStamp, State.cleanse, hpoison]
    · exact hpoison

theorem SameStamps.foldl {a b : State} (h : SameStamps a b) (l : List Nat) :
    SameStamps (l.foldl State.soundStamp a) (l.foldl State.soundStamp b) := by
  induction l generalizing a b with
  | nil => exact h
  | cons i l ih => exact ih (h.soundStamp i)

theorem SameStamps.stamp {a b : State} (h : SameStamps a b) (j : Nat) : b.stamp j = a.stamp j := by
  rw [State.stamp, h.stamps, State.stamp]

theorem SameStamps.oldest {a b : State} (h : SameStamps a b) (l : List Nat) : b.oldest l = a.oldest l := by
  rw [State.oldest, funext h.stamp, h.now, State.oldest]

/-- The stamp word of a renewed entry: HIT set, INS kept of the repaired word, LAST the present tick (R151, R158). -/
def State.renewedWord (s : State) (i : Nat) : BitVec 33 :=
  BitVec.ofNat 33 (pack [(1, 1), (16, stampIns ((s.soundStamp i).stamp i)), (16, s.emNow)])

theorem SameStamps.renewedWord {a b : State} (h : SameStamps a b) (i : Nat) : b.renewedWord i = a.renewedWord i := by
  rw [State.renewedWord, (h.soundStamp i).stamp, h.now, State.renewedWord]

section
variable {s : State} {d : EmDesc} {k : Nat}

theorem State.victim_none (h : d.weed = 0 ∨ s.weedable d k = []) : s.victim d k = (s, none) := by
  simp only [State.victim]
  exact if_pos (by simpa using h)

theorem State.victim_oldest (h0 : d.weed ≠ 0) (h1 : d.weed ≠ 1) (hl : s.weedable d k ≠ []) : s.victim d k =
    ((s.weedable d k).foldl State.soundStamp s, ((s.weedable d k).foldl State.soundStamp s).oldest (s.weedable d k)) := by
  simp only [State.victim]
  rw [if_neg (by simpa [h0] using hl), if_neg h1]

/-- The state with the LFSR of a key's slice stepped (R159). -/
def State.shuffled (s : State) (d : EmDesc) (k : Nat) : State :=
  { s with em := { s.em with lfsr := sput (fun _ => 1) s.em.lfsr (d.owner 0 k) (lfsrStep (s.lfsr (d.owner 0 k))) } }

theorem State.victim_random (h1 : d.weed = 1) {v : Nat}
    (hv : (s.weedable d k)[(lfsrStep (s.lfsr (d.owner 0 k))).toNat * (s.weedable d k).length / 2 ^ 32]? = some v) :
    s.victim d k = (s.shuffled d k, some v) := by
  have hl : s.weedable d k ≠ [] := fun h => by simp [h] at hv
  simp only [State.victim]
  rw [if_neg (by simpa [h1] using hl), if_pos h1, hv]
  rfl

end

end Sys2Proof.Machine
end

section
/-! LEARN_APPLY outcome by outcome (R158, R159, R161, R163, R216): a refused learn, a new entry at a free place or in place of a
victim, a renewed stamp, a rewritten entry. -/

namespace Sys2Proof.Machine

/-! ### What a learn may change -/

/-- The pieces that an applied learn may change. -/
abbrev learnPieces : List Piece := [.now, .regs, .em, .mem, .health, .ports, .arb]

/-- The registers that an applied learn may write (R161, R221, R262). -/
def learnKeys (t : Nat) (slice : Fin 4) (p : Nat) : List Nat :=
  Obj.emLearnRefused.key t :: Obj.emWeedCnt.key t :: besideKeys slice p

section
variable {t : Nat} {slice : Fin 4} {p : Nat}

theorem besideKeys_subset : ∀ k ∈ besideKeys slice p, k ∈ learnKeys t slice p := fun _ h => .tail _ (.tail _ h)
theorem poolKeys_subset : ∀ k ∈ poolKeys, k ∈ besideKeys slice p := fun _ h => .tail _ (.tail _ h)
theorem portTxDiscard_subset : ∀ k ∈ [Obj.portTxDiscard.key p], k ∈ besideKeys slice p := by simp [besideKeys]

end

/-- A learn that was applied: it was taken from no other queue, and ended in a cycle (R158, R161). -/
structure Applied (x : Learn) (d : EmDesc) (slice : Fin 4) (t : Nat) (s w : State) : Prop where
  within : Within learnPieces (learnKeys x.table slice d.nport) s w
  queues : w.em.queues = s.em.queues
  now : w.now = t

section
variable (s : State) (d : EmDesc) (x : Learn)

/-! ### Refusals -/

/-- A refused learn changes no slot, stamp or reference, and is counted (R158). -/
structure LearnRefused (s w : State) : Prop where
  em : w.em = s.em
  mem : w.mem = s.mem
  counted : w.reg .emLearnRefused x.table = wrapAdd 32 (s.reg .emLearnRefused x.table) 1

theorem State.refused_learnRefuse (slice : Fin 4) (k status : Nat) :
    Applied x d slice s.now s (s.learnRefuse d x k status) ∧ LearnRefused x s (s.learnRefuse d x k status) := by
  obtain ⟨hwithin, hcount⟩ := s.learnRefuse_spec d x k status
  have hem := hwithin.touches .em (by simp)
  refine ⟨⟨hwithin.mono (by simp) ?_, congrArg Em.queues hem, hwithin.touches .now (by simp)⟩,
    hem, hwithin.touches .mem (by simp), hcount⟩
  simp [learnKeys, besideKeys]

/-! ### A new entry -/

theorem State.gainData_mem {a b : State} (h : b.mem = a.mem) (data : Nat) : (b.gainData d data).mem = (a.gainData d data).mem := by
  simp only [State.gainData]
  split
  · exact h
  · simp [State.addRef, State.setAlloc, State.alloc, h]

/-- The entry of a learn written at a position, at its last update (R154, R158). -/
def State.entered (k i : Nat) : State :=
  (s.emNew d k i x.data false true).1.at (s.emNew d k i x.data false true).2

/-- The head of an entry that was learnt (R143, R158). -/
abbrev EmDesc.learntHead (k : Nat) : BitVec 128 := d.head true false true x.data k

theorem State.entered_spec (k i : Nat) :
    let v := s.entered d x k i
    v.now = s.lastOf (s.emTimes d k).2 ∧ v.mem = (s.gainData d x.data).mem ∧ Touches [.now, .em, .mem, .health, .arb] s v ∧
      EntryPut d k i (d.learntHead x k) s v := by
  obtain ⟨hmem, htouch, hput⟩ := s.emNew_spec d k i x.data false true
  have hnow : (s.emNew d k i x.data false true).1.now = s.now := htouch .now (by simp)
  have hlast : (s.emNew d k i x.data false true).2 = s.lastOf (s.emTimes d k).2 := by rw [State.emNew_eq]
  refine ⟨?_, hmem, (htouch.mono (by simp)).followed (touches_now _ _) (by simp), ?_⟩
  · rw [State.entered, hlast]
    exact (congrArg (max · _) hnow).trans (Nat.max_eq_right (s.le_lastOf _))
  · exact ⟨hput.stands, hput.slots, hput.stamp, hput.stamps, hput.queues, hput.lfsr⟩

/-- What comes after the entry of a learn: a reference may go, and a notice is sent (R158, R216). -/
theorem State.notice_within (slice : Fin 4) (kind data old slot k stamps : Nat) :
    Within [.regs, .mem, .ports] (besideKeys slice d.nport) s (s.notice d x kind data old slot k stamps) :=
  (s.within_notice d x kind data old slot k stamps).mono (by simp) portTxDiscard_subset

theorem State.loseData_within (slice : Fin 4) (old : Nat) :
    Within [.regs, .mem, .ports] (besideKeys slice d.nport) s (s.loseData d old) :=
  have h := s.loseData_spec d old
  ⟨h.1.mono (by simp), h.2.mono poolKeys_subset⟩

end

/-- A learn has placed a new entry at position `i`; the stamps of the others are those of `c`, where a victim was chosen (R158,
R159). -/
structure NewLearnt (x : Learn) (d : EmDesc) (k i : Nat) (drops : List Nat) (s c w : State) : Prop where
  stands : w.emStands d k i (d.learntHead x k)
  stamp : w.stamp i = s.freshStamp false
  slots : ∀ j, j ∉ d.slotsOf k i → w.emSlot j = s.emSlot j
  stamps : ∀ j, j ≠ i → w.stamp j = c.stamp j
  refers : s.Refers d x.data drops w
  lfsr : w.em.lfsr = c.em.lfsr

section
variable {s : State} {d : EmDesc} {x : Learn} {k i : Nat} (slice : Fin 4)

theorem State.learnNew_place (hd : s.dataStatus d x.room none x.data = none) (hp : s.emPlace d k = some i) :
    s.learnNew d x k = (s.entered d x k i).notice d x 1 x.data 0 i k 0 := by
  simp only [State.learnNew, hd, hp]
  rfl

theorem State.learnNew_weed {c : State} {v : Nat} (hd : s.dataStatus d x.room none x.data = none) (hp : s.emPlace d k = none)
    (hv : s.victim d k = (c, some v)) : s.learnNew d x k =
      (((c.weed d x v).entered d x k v).loseData d (slotData (c.emSlot v))).notice d x 1 x.data 0 v k 0 := by
  simp only [State.learnNew, hd, hp, hv]
  rfl

/-- A new entry in a state whose slots are those of the learn's, followed by what leaves the engine alone. -/
theorem EntryPut.newLearnt {b c v w : State} {drops : List Nat} (h : EntryPut d k i (d.learntHead x k) b v) (hw : w.em = v.em)
    (hslots : b.em.slots = s.em.slots) (hnow : b.emNow = s.emNow) (hstamps : ∀ j, j ≠ i → b.stamp j = c.stamp j)
    (hlfsr : b.em.lfsr = c.em.lfsr) (hrefers : s.Refers d x.data drops w) : NewLearnt x d k i drops s c w := by
  have hslot (j : Nat) : w.emSlot j = v.emSlot j := by rw [State.emSlot, hw, State.emSlot]
  have hstamp (j : Nat) : w.stamp j = v.stamp j := by rw [State.stamp, hw, State.stamp]
  have hbase (j : Nat) : b.emSlot j = s.emSlot j := by rw [State.emSlot, hslots, State.emSlot]
  refine ⟨fun n hn => ⟨(hslot _).trans (h.stands n hn).1, fun hwide => (hslot _).trans ((h.stands n hn).2 hwide)⟩, ?_,
    fun j hj => ((hslot j).trans (h.slots j hj)).trans (hbase j), fun j hj => ((hstamp j).trans (h.stamps j hj)).trans (hstamps j hj),
    hrefers, ?_⟩
  · rw [hstamp, h.stamp, State.freshStamp, hnow, State.freshStamp]
  · rw [hw, h.lfsr, hlfsr]

/-- A new key takes the free place (R158). -/
theorem State.newLearnt_place (hd : s.dataStatus d x.room none x.data = none) (hp : s.emPlace d k = some i) :
    Applied x d slice (s.lastOf (s.emTimes d k).2) s (s.learnNew d x k) ∧ NewLearnt x d k i [] s s (s.learnNew d x k) := by
  rw [State.learnNew_place hd hp]
  obtain ⟨hnow, hmem, htouch, hput⟩ := s.entered_spec d x k i
  generalize s.entered d x k i = v at *
  have hnotice := v.within_notice d x 1 x.data 0 i k 0
  generalize v.notice d x 1 x.data 0 i k 0 = w at *
  have hem : w.em = v.em := hnotice.touches .em (by simp)
  refine ⟨⟨?_, ?_, (hnotice.touches .now (by simp)).trans hnow⟩, ?_⟩
  · exact ((htouch.within (by simp) []).mono (by simp) (by simp)).trans
      (hnotice.mono (by simp) fun k h => besideKeys_subset k (portTxDiscard_subset k h))
  · rw [hem, hput.queues]
  · exact hput.newLearnt hem rfl rfl (fun _ _ => rfl) rfl ((State.refers_gained hmem).of_mem (hnotice.touches .mem (by simp)))

/-- A victim has been chosen: stamps are repaired or the LFSR stepped, and nothing else (R159, R163). -/
structure VictimChosen (s c : State) : Prop where
  touches : Touches [.em, .health] s c
  em : c.em = { s.em with stamps := c.em.stamps, lfsr := c.em.lfsr }

theorem StampsPut.victimChosen {c : State} (h : StampsPut s c) : VictimChosen s c := ⟨h.touches, h.em.trans (by rw [h.em])⟩

theorem State.victimChosen_shuffled (s : State) (d : EmDesc) (k : Nat) : VictimChosen s (s.shuffled d k) :=
  ⟨(touches_em s _).mono (by simp), rfl⟩

/-- The state in which a victim `i` gives way, after it was noticed, counted and recorded (R158, R159). -/
structure Weeded (x : Learn) (d : EmDesc) (i : Nat) (s c b : State) : Prop where
  within : Within [.em, .health, .regs, .ports] [Obj.emWeedCnt.key x.table, Obj.portTxDiscard.key d.nport] s b
  slots : b.em.slots = s.em.slots
  queues : b.em.queues = s.em.queues
  lfsr : b.em.lfsr = c.em.lfsr
  stamps : ∀ j, j ≠ i → b.stamp j = c.stamp j
  clock : b.emNow = s.emNow
  counted : b.reg .emWeedCnt x.table = wrapAdd 32 (s.reg .emWeedCnt x.table) 1

theorem VictimChosen.weed {c : State} (hc : VictimChosen s c) (hr : x.room < 16) (i : Nat) : Weeded x d i s c (c.weed d x i) := by
  obtain ⟨hweed, hem, hcount⟩ := c.weed_spec d x i hr
  have hsound := c.stampsPut_soundStamp i
  have hchosen := hc.touches.within (by simp) []
  have hwithin := (hchosen.mono (by simp) (by simp)).trans hweed
  have hsame := State.reg_of_regsBut hchosen.regs .emWeedCnt x.table (by decide) (by decide) nofun
  refine ⟨hwithin, ?_, ?_, ?_, fun j hj => ?_, ?_, hsame ▸ hcount⟩
  · rw [hem, hsound.em, hc.em]
  · rw [hem, hsound.em, hc.em]
  · rw [hem, hsound.em]
  · rw [State.stamp, hem, ← State.stamp, c.stamp_soundStamp_ne hj]
  · refine State.reg_of_regsBut hwithin.regs .emNow 0 (by decide) (by decide) fun k hk => ?_
    rcases List.mem_cons.1 hk with rfl | hk
    · exact ne_of_eq_of_ne (Obj.key_sub _ _ _ _ (by decide) (by decide)) (by decide)
    · exact ne_of_eq_of_ne (sub_portTxDiscard _ k hk) (by decide)

/-- A new key takes the place of a victim (R158, R159, R216). -/
theorem State.newLearnt_weed {c : State} (hr : x.room < 16) (hd : s.dataStatus d x.room none x.data = none)
    (hp : s.emPlace d k = none) (hv : s.victim d k = (c, some i)) (hc : VictimChosen s c) :
    Applied x d slice (s.lastOf (s.emTimes d k).2) s (s.learnNew d x k) ∧
      NewLearnt x d k i [slotData (s.emSlot i) / 4] s c (s.learnNew d x k) ∧
      (s.learnNew d x k).reg .emWeedCnt x.table = wrapAdd 32 (s.reg .emWeedCnt x.table) 1 := by
  have hold : c.emSlot i = s.emSlot i := by rw [State.emSlot, hc.em, State.emSlot]
  rw [State.learnNew_weed hd hp hv, hold]
  obtain ⟨hwithin, hslots, hqueues, hlfsr, hstamps, hclock, hcount⟩ := hc.weed (d := d) hr i
  generalize c.weed d x i = b at *
  obtain ⟨hnow, hmem, htouch, hput⟩ := b.entered_spec d x k i
  rw [State.lastOf, State.emTimes_congr d k (hwithin.touches .arb (by simp)) (hwithin.touches .now (by simp)),
    hwithin.touches .now (by simp)] at hnow
  rw [State.gainData_mem d (hwithin.touches .mem (by simp))] at hmem
  generalize b.entered d x k i = v at *
  have hlose := v.loseData_within d slice (slotData (s.emSlot i))
  have hrefers := State.refers_lost hmem (slotData (s.emSlot i))
  generalize v.loseData d (slotData (s.emSlot i)) = u at *
  have hnotice := u.notice_within d x slice 1 x.data 0 i k 0
  have hnoticed : (u.notice d x 1 x.data 0 i k 0).mem = u.mem := (u.within_notice d x 1 x.data 0 i k 0).touches .mem (by simp)
  generalize u.notice d x 1 x.data 0 i k 0 = w at *
  have hend := hlose.trans hnotice
  refine ⟨⟨?_, ?_, (hend.touches .now (by simp)).trans hnow⟩, ?_, ?_⟩
  · exact ((hwithin.mono (by simp) (by simp [learnKeys, besideKeys])).trans
      ((htouch.within (by simp) []).mono (by simp) (by simp))).trans (hend.mono (by simp) besideKeys_subset)
  · rw [hend.touches .em (by simp), hput.queues, hqueues]
  · exact hput.newLearnt (hend.touches .em (by simp)) hslots hclock hstamps hlfsr (hrefers.of_mem hnoticed)
  · have hentered := State.reg_of_regsBut (htouch.within (by simp) []).regs .emWeedCnt x.table (by decide) (by decide) nofun
    have hended := State.reg_of_regsBut hend.regs .emWeedCnt x.table (by decide) (by decide) fun k hk =>
      ne_of_lt ((sub_of_mem_besideKeys hk).2.trans (by decide))
    rw [hended, hentered, hcount]

end

/-! ### A present key -/

/-- The stamp of a present entry is renewed: HIT and LAST are set, in a word repaired first, and no other stamp changes (R158,
R163). -/
structure Renewed (i : Nat) (s w : State) : Prop where
  stamp : w.stamp i = s.renewedWord i
  stamps : ∀ j, j ≠ i → w.stamp j = s.stamp j

theorem Renewed.of_stamps {i : Nat} {s v w : State} (h : Renewed i s v) (hw : w.em.stamps = v.em.stamps) : Renewed i s w := by
  have hstamp (j : Nat) : w.stamp j = v.stamp j := by rw [State.stamp, hw, State.stamp]
  exact ⟨(hstamp i).trans h.stamp, fun j hj => (hstamp j).trans (h.stamps j hj)⟩

/-- A stamp written with the INS of the repaired word renews it, whatever slots change before. -/
theorem State.renewed_putStamp (s : State) (i : Nat) {v : State} (h : v.em.stamps = (s.soundStamp i).em.stamps) :
    Renewed i s (v.putStamp i true (stampIns ((s.soundStamp i).stamp i)) s.emNow) := by
  refine ⟨by rw [State.stamp_putStamp, if_pos rfl]; rfl, fun j hj => ?_⟩
  rw [State.stamp_putStamp, if_neg hj, State.stamp, h, ← State.stamp, s.stamp_soundStamp_ne hj]

section
variable {s : State} {d : EmDesc} {x : Learn} {i : Nat} (slice : Fin 4)

/-- A learn of the DATA that its entry holds renews the stamp alone (R158). -/
theorem State.learn_same (hf : s.emFind d (d.owner 0 (d.learnKey x.key)) (d.learnKey x.key) = some i)
    (hs : slotData (s.emSlot i) = x.data) :
    Applied x d slice s.now s (s.learn d x) ∧ (s.learn d x).em.slots = s.em.slots ∧ (s.learn d x).mem = s.mem ∧
      Renewed i s (s.learn d x) := by
  have he : s.learn d x = (s.soundStamp i).putStamp i true (stampIns ((s.soundStamp i).stamp i)) s.emNow := by
    simp only [State.learn, hf, hs, if_true]
  have hput := (s.stampsPut_soundStamp i).trans
    (State.stampsPut_putStamp _ i true (stampIns ((s.soundStamp i).stamp i)) s.emNow)
  have hrenewed := s.renewed_putStamp i rfl
  rw [he]
  exact ⟨⟨(hput.touches.within (by simp) []).mono (by simp) (by simp), by rw [hput.em], hput.touches .now (by simp)⟩,
    by rw [hput.em], hput.touches .mem (by simp), hrenewed⟩

/-- The entry of a present key rewritten with its stamp renewed, at its last update (R154, R158). -/
def State.relearnt (s : State) (d : EmDesc) (x : Learn) (i : Nat) : State :=
  let r := (s.soundStamp i).emRewrite d (d.learnKey x.key) i x.data false true
  (r.1.putStamp i true (stampIns ((s.soundStamp i).stamp i)) s.emNow).at r.2.1

/-- A learn of other DATA rewrites the heads of its entry, then the reference of the DATA that went goes (R158, R216). -/
theorem State.learn_rewrites (hf : s.emFind d (d.owner 0 (d.learnKey x.key)) (d.learnKey x.key) = some i)
    (hs : slotData (s.emSlot i) ≠ x.data) (hstatic : slotStatic (s.emSlot i) = false)
    (hd : s.dataStatus d x.room (some (slotData (s.emSlot i))) x.data = none) : s.learn d x =
      (if x.data / 4 ≠ slotData (s.emSlot i) / 4 then (s.relearnt d x i).loseData d (slotData (s.emSlot i)) else s.relearnt d x i).notice
        d x 2 x.data (slotData (s.emSlot i)) i (d.learnKey x.key) 0 := by
  have hslot : (s.soundStamp i).emSlot i = s.emSlot i := by rw [State.emSlot, (s.stampsPut_soundStamp i).em, State.emSlot]
  have hdrops : ((s.soundStamp i).emRewrite d (d.learnKey x.key) i x.data false true).2.2 =
      if x.data / 4 ≠ slotData (s.emSlot i) / 4 ∧ d.inline = false then [slotData (s.emSlot i) / 4] else [] := by
    simp [State.emRewrite, hslot]
  have hend (a : State) : ((if x.data / 4 ≠ slotData (s.emSlot i) / 4 ∧ d.inline = false then [slotData (s.emSlot i) / 4] else
      []).foldl State.dropRef a) = if x.data / 4 ≠ slotData (s.emSlot i) / 4 then a.loseData d (slotData (s.emSlot i)) else a := by
    by_cases hm : x.data / 4 = slotData (s.emSlot i) / 4 <;> cases hi : d.inline <;> simp [State.loseData, hm, hi]
  simp only [State.learn, hf, if_neg hs, hstatic, hd, hdrops, hend, Bool.false_eq_true, if_false]
  rfl

/-- The heads of a key's entry hold the learnt DATA on every copy, and no other slot has changed (R147, R158). -/
structure Relearnt (x : Learn) (d : EmDesc) (i : Nat) (s w : State) : Prop where
  heads : ∀ n, n < d.ncopy → w.emSlot (moveSlice i (d.owner n (d.learnKey x.key))) = d.learntHead x (d.learnKey x.key)
  slots : ∀ j, (∀ n, n < d.ncopy → j ≠ moveSlice i (d.owner n (d.learnKey x.key))) → w.emSlot j = s.emSlot j
  renewed : Renewed i s w

theorem Relearnt.of_em {v w : State} (h : Relearnt x d i s v) (hslots : w.em.slots = v.em.slots)
    (hstamps : w.em.stamps = v.em.stamps) : Relearnt x d i s w := by
  have hslot (j : Nat) : w.emSlot j = v.emSlot j := by rw [State.emSlot, hslots, State.emSlot]
  exact ⟨fun n hn => (hslot _).trans (h.heads n hn), fun j hj => (hslot j).trans (h.slots j hj), h.renewed.of_stamps hstamps⟩

theorem State.rewriteGains_mem {a b : State} (hslot : b.emSlot i = a.emSlot i) (hmem : b.mem = a.mem) (data : Nat) :
    (b.rewriteGains d i data).mem = if data / 4 ≠ slotData (a.emSlot i) / 4 then (a.gainData d data).mem else a.mem := by
  simp only [State.rewriteGains, hslot]
  split
  · exact State.gainData_mem d hmem data
  · exact hmem

theorem State.relearnt_spec (s : State) (d : EmDesc) (x : Learn) (i : Nat) :
    let v := s.relearnt d x i
    v.now = s.lastOf (s.emTimes d (d.learnKey x.key)).2 ∧
      v.mem = (if x.data / 4 ≠ slotData (s.emSlot i) / 4 then (s.gainData d x.data).mem else s.mem) ∧
      v.em.queues = s.em.queues ∧ Touches [.now, .em, .mem, .health, .arb] s v ∧ Relearnt x d i s v := by
  have hsound := s.stampsPut_soundStamp i
  obtain ⟨hlast, hheads, hothers, hem, hmem, htouch⟩ :=
    (s.soundStamp i).emRewrite_spec d (d.learnKey x.key) i x.data false true
  have hrenewed := s.renewed_putStamp i (v := ((s.soundStamp i).emRewrite d (d.learnKey x.key) i x.data false true).1)
    (by rw [hem])
  have hslot (j : Nat) : (s.soundStamp i).emSlot j = s.emSlot j := by rw [State.emSlot, hsound.em, State.emSlot]
  rw [State.rewriteGains_mem (hslot i) (hsound.touches .mem (by simp))] at hmem
  rw [State.lastOf, State.emTimes_congr d _ (hsound.touches .arb (by simp)) (hsound.touches .now (by simp)),
    hsound.touches .now (by simp)] at hlast
  have hnow : ((s.soundStamp i).emRewrite d (d.learnKey x.key) i x.data false true).1.now = s.now :=
    (htouch .now (by simp)).trans (hsound.touches .now (by simp))
  simp only [State.relearnt]
  generalize (s.soundStamp i).emRewrite d (d.learnKey x.key) i x.data false true = r at *
  refine ⟨?_, hmem, ?_, ?_, hheads, fun j hj => (hothers j hj).trans (hslot j), hrenewed.stamp, hrenewed.stamps⟩
  · rw [hlast]
    exact (congrArg (max · _) hnow).trans (Nat.max_eq_right (s.le_lastOf _))
  · show r.1.em.queues = s.em.queues
    rw [hem, hsound.em]
  · exact (((hsound.touches.mono (by simp)).followed htouch (by simp)).followed (State.touches_putStamp _ _ _ _ _)
      (by simp)).followed (touches_now _ _) (by simp)

/-- A learn of other DATA of a present key (R158, R163, R216). -/
theorem State.learn_rewrite (hf : s.emFind d (d.owner 0 (d.learnKey x.key)) (d.learnKey x.key) = some i)
    (hs : slotData (s.emSlot i) ≠ x.data) (hstatic : slotStatic (s.emSlot i) = false)
    (hd : s.dataStatus d x.room (some (slotData (s.emSlot i))) x.data = none) :
    Applied x d slice (s.lastOf (s.emTimes d (d.learnKey x.key)).2) s (s.learn d x) ∧ Relearnt x d i s (s.learn d x) ∧
      (x.data / 4 ≠ slotData (s.emSlot i) / 4 → s.Refers d x.data [slotData (s.emSlot i) / 4] (s.learn d x)) ∧
      (x.data / 4 = slotData (s.emSlot i) / 4 → (s.learn d x).mem = s.mem) := by
  rw [State.learn_rewrites hf hs hstatic hd]
  obtain ⟨hnow, hmem, hqueues, htouch, hwritten⟩ := s.relearnt_spec d x i
  generalize s.relearnt d x i = v at *
  have hbefore : Within learnPieces (learnKeys x.table slice d.nport) s v := (htouch.within (by simp) []).mono (by simp) (by simp)
  have hnotice := fun (u : State) => u.notice_within d x slice 2 x.data (slotData (s.emSlot i)) i (d.learnKey x.key) 0
  have hnoticed := fun (u : State) =>
    (u.within_notice d x 2 x.data (slotData (s.emSlot i)) i (d.learnKey x.key) 0).touches .mem (by simp)
  have hafter {u w : State} (hlose : Within [.regs, .mem, .ports] (besideKeys slice d.nport) v u)
      (hend : Within [.regs, .mem, .ports] (besideKeys slice d.nport) u w) :
      Applied x d slice (s.lastOf (s.emTimes d (d.learnKey x.key)).2) s w ∧ Relearnt x d i s w := by
    have hem : w.em = v.em := (hlose.trans hend).touches .em (by simp)
    refine ⟨⟨hbefore.trans ((hlose.trans hend).mono (by simp) besideKeys_subset), by rw [hem, hqueues], ?_⟩,
      hwritten.of_em (congrArg Em.slots hem) (congrArg Em.stamps hem)⟩
    exact ((hlose.trans hend).touches .now (by simp)).trans hnow
  by_cases hmoved : x.data / 4 = slotData (s.emSlot i) / 4
  · rw [if_neg (not_not.2 hmoved)] at hmem ⊢
    obtain ⟨happlied, hrelearnt⟩ := hafter ⟨Touches.refl _ _, RegsBut.refl _ _⟩ (hnotice v)
    exact ⟨happlied, hrelearnt, fun h => absurd hmoved h, fun _ => (hnoticed v).trans hmem⟩
  · rw [if_pos hmoved] at hmem ⊢
    obtain ⟨happlied, hrelearnt⟩ := hafter (v.loseData_within d slice (slotData (s.emSlot i))) (hnotice _)
    exact ⟨happlied, hrelearnt, fun _ => (State.refers_lost hmem _).of_mem (hnoticed _), fun h => absurd h hmoved⟩

end

end Sys2Proof.Machine
end

section
/-! The commands LEARN (R156, R157, R161, R323) and LEARN_APPLY (R158, R161): which outcome a frame or a learn that was queued
comes to, and the backlog that follows its queue. -/

namespace Sys2Proof.Machine

/-! ### The backlog -/

/-- LEARN_BACKLOG of a slice follows its queue: its counter and the list of slices change alone (R161). -/
structure BacklogFollows (slice : Nat) (s u : State) : Prop where
  within : Within [.regs, .em] [Obj.emBacklogXing.key 0 slice] s u
  em : u.em = { s.em with backlog := u.em.backlog }

theorem BacklogFollows.learnQueue {slice : Nat} {s u : State} (h : BacklogFollows slice s u) (j : Nat) :
    u.learnQueue j = s.learnQueue j := by rw [State.learnQueue, h.em]; rfl

theorem State.backlogFollows_cross (s : State) (slice : Nat) (rise : Bool) : BacklogFollows slice s (s.backlogCross slice rise) := by
  simp only [State.backlogCross]
  generalize (if rise = true then insertNew slice s.em.backlog else s.em.backlog.filter fun x => decide (x ≠ slice)) = l
  generalize ha : ({ s with em := { s.em with backlog := l } } : State) = a
  have hlist : Touches [.em] s a := ha ▸ touches_em s _
  have hrec := onlyRecords_record (a.bump .emBacklogXing 0 slice) .emBacklog none hubMaint
    [(8, slice), (32, (a.bump .emBacklogXing 0 slice).reg .emBacklogXing 0 slice)] (if rise then 1 else 2) nofun
  refine ⟨?_, ?_⟩
  · exact (((hlist.within (by simp) []).mono (by simp) (by simp)).trans
      ((a.within_bump .emBacklogXing 0 slice).mono (by simp) (by simp))).of_records hrec
  · rw [hrec.em, State.bump_em, ← ha]

theorem State.backlogFollows_update (s : State) (slice : Nat) : BacklogFollows slice s (s.updateBacklog slice) := by
  simp only [State.updateBacklog]
  split
  · exact s.backlogFollows_cross slice true
  split
  · exact s.backlogFollows_cross slice false
  · exact ⟨⟨Touches.refl _ _, RegsBut.refl _ _⟩, rfl⟩

theorem State.learnQueue_setLearnQueue (s : State) (slice : Nat) (l : List Learn) (j : Nat) :
    (s.setLearnQueue slice l).learnQueue j = if j = slice then l else s.learnQueue j := sget_sput _ _ _ _

theorem State.sameStamps_setLearnQueue (s : State) (slice : Nat) (l : List Learn) : SameStamps s (s.setLearnQueue slice l) :=
  ⟨rfl, rfl, rfl⟩

/-! ### LEARN -/

section
variable {s : State} {port : Fin 32} {f : Frame}

theorem learn_held (h : s.heldFrame port 3 f = true) : exec (.learn port f) s = .next (s.bump .portHeldDrop port) := by
  have hexec : exec (.learn port f) s = execLearn port f s := rfl
  rw [hexec, execLearn]
  exact if_pos h

section
variable (h : s.heldFrame port 3 f = false)
include h

/-- A port that does not act for the room (R323). -/
theorem learn_unauthorised (ha : s.portActs port (fld f.hdr 111 108) = false) : exec (.learn port f) s =
    .next (((s.takeRx port 3 f).authReject port (fld f.hdr 111 108) 7 0).learnReject (fld f.hdr 107 100) (fld f.hdr 111 108) 6 port) := by
  have hexec : exec (.learn port f) s = execLearn port f s := rfl
  have ha : (s.takeRx port 3 f).portActs port (fld f.hdr 111 108) = false := ha
  rw [hexec, execLearn]
  simp [h, ha]

/-- A frame that fails a check (R157). -/
theorem learn_rejected {cause : Nat} (ha : s.portActs port (fld f.hdr 111 108) = true)
    (hc : s.learnCause (fld f.hdr 107 100) (fld f.hdr 111 108) (frameLen f) = some cause) : exec (.learn port f) s =
    .next ((s.takeRx port 3 f).learnReject (fld f.hdr 107 100) (fld f.hdr 111 108) cause port) := by
  have hexec : exec (.learn port f) s = execLearn port f s := rfl
  have ha : (s.takeRx port 3 f).portActs port (fld f.hdr 111 108) = true := ha
  have hc : (s.takeRx port 3 f).learnCause (fld f.hdr 107 100) (fld f.hdr 111 108) (frameLen f) = some cause := hc
  rw [hexec, execLearn]
  simp [h, ha, hc]

/-- A frame that passes its checks comes to its queue (R157, R161). -/
theorem learn_enters (ha : s.portActs port (fld f.hdr 111 108) = true)
    (hc : s.learnCause (fld f.hdr 107 100) (fld f.hdr 111 108) (frameLen f) = none) : exec (.learn port f) s =
    .next ((s.takeRx port 3 f).learnEnter
      ⟨fld f.hdr 111 108, fld f.hdr 107 100, fld f.hdr 99 76, fld f.hdr 75 60, f.body, port⟩) := by
  have hexec : exec (.learn port f) s = execLearn port f s := rfl
  have ha : (s.takeRx port 3 f).portActs port (fld f.hdr 111 108) = true := ha
  have hc : (s.takeRx port 3 f).learnCause (fld f.hdr 107 100) (fld f.hdr 111 108) (frameLen f) = none := hc
  rw [hexec, execLearn]
  simp [h, ha, hc]

end
end

section
variable (s : State)

/-- A learn that is dropped is counted and recorded (R157). -/
theorem State.learnReject_spec (t cause port : Nat) {room : Nat} (hr : room < 16) :
    let u := s.learnReject t room cause port
    u.reg .emLearnRej t = wrapAdd 32 (s.reg .emLearnRej t) 1 ∧ Within [.regs] [Obj.emLearnRej.key t] s u ∧
      (s.ringOpen room → u.recorded room .learnReject) := by
  have hrec := onlyRecords_record (s.bump .emLearnRej t) .learnReject (some room) (srcPort port)
    [(8, t), (8, cause), (8, port)] 0 fun r h => Option.some.inj h ▸ hr
  have hcount := State.reg_of_regsBut (hrec.regsBut []) .emLearnRej t (by decide) (by decide) nofun
  refine ⟨hcount.trans (State.reg_bump s _ _), (s.within_bump _ _ _).of_records hrec, fun ho => ?_⟩
  exact State.recorded_room _ _ _ rfl ((State.ringOpen_congr (s := s) room rfl rfl).2 ho)

/-- A frame refused for its authority is recorded, then dropped as a learn (R157, R323). -/
theorem State.unauthorised_spec (t port : Nat) {room : Nat} (hr : room < 16) :
    let u := (s.authReject port room 7 0).learnReject t room 6 port
    u.reg .emLearnRej t = wrapAdd 32 (s.reg .emLearnRej t) 1 ∧ Within [.regs] [Obj.emLearnRej.key t] s u ∧
      (s.ringOpen room → u.recorded room .portAuthReject) := by
  have hrec : OnlyRecords s (s.authReject port room 7 0) :=
    onlyRecords_record s .portAuthReject (some room) _ _ _ fun r h => Option.some.inj h ▸ hr
  have hrecorded (ho : s.ringOpen room) : (s.authReject port room 7 0).recorded room .portAuthReject :=
    State.recorded_room _ _ _ rfl ho
  have hsame := State.reg_of_regsBut (hrec.regsBut []) .emLearnRej t (by decide) (by decide) nofun
  generalize s.authReject port room 7 0 = a at *
  obtain ⟨hcount, hwithin, -⟩ := a.learnReject_spec t 6 port hr
  have hbefore : Within [.regs] [Obj.emLearnRej.key t] s a := ⟨hrec.touches _, hrec.regsBut _⟩
  exact ⟨hsame ▸ hcount, hbefore.trans hwithin, fun ho => (hrecorded ho).of_touches hwithin.touches (by simp)⟩

section
variable (x : Learn)

/-- The slice whose queue a learn joins: the owner of its key on copy 0 (R157). -/
def State.learnSlice : Nat := (s.view.em x.table).owner 0 ((s.view.em x.table).learnKey x.key)

/-- A learn whose queue is full is dropped and counted (R161). -/
theorem State.learnEnter_full (h : 4096 ≤ (s.learnQueue (s.learnSlice x)).length) :
    (s.learnEnter x).reg .emLearnDrop 0 (s.learnSlice x) = wrapAdd 32 (s.reg .emLearnDrop 0 (s.learnSlice x)) 1 ∧
      Within [.regs] [Obj.emLearnDrop.key 0 (s.learnSlice x)] s (s.learnEnter x) := by
  have he : s.learnEnter x = s.bump .emLearnDrop 0 (s.learnSlice x) := if_pos h
  rw [he]
  exact ⟨State.reg_setReg s _ _ _ _ _, s.within_bump _ _ _⟩

/-- A learn joins its queue last (R157). -/
theorem State.learnEnter_room (h : (s.learnQueue (s.learnSlice x)).length < 4096) :
    let u := s.learnEnter x
    u.learnQueue (s.learnSlice x) = s.learnQueue (s.learnSlice x) ++ [x] ∧
      (∀ j, j ≠ s.learnSlice x → u.learnQueue j = s.learnQueue j) ∧ u.em.slots = s.em.slots ∧ u.em.stamps = s.em.stamps ∧
      Within [.regs, .em] [Obj.emBacklogXing.key 0 (s.learnSlice x)] s u := by
  have he : s.learnEnter x = (s.setLearnQueue (s.learnSlice x) (s.learnQueue (s.learnSlice x) ++ [x])).updateBacklog
      (s.learnSlice x) := if_neg (Nat.not_le.2 h)
  rw [he]
  generalize s.learnSlice x = sl
  have hjoin : Touches [.em] s (s.setLearnQueue sl (s.learnQueue sl ++ [x])) := touches_em s _
  have hfollow := (s.setLearnQueue sl (s.learnQueue sl ++ [x])).backlogFollows_update sl
  have hqueue (j : Nat) := (hfollow.learnQueue j).trans (s.learnQueue_setLearnQueue sl (s.learnQueue sl ++ [x]) j)
  refine ⟨by rw [hqueue, if_pos rfl], fun j hj => by rw [hqueue, if_neg hj], by rw [hfollow.em]; rfl, by rw [hfollow.em]; rfl, ?_⟩
  exact ((hjoin.within (by simp) []).mono (by simp) (by simp)).trans hfollow.within

end
end

/-! ### LEARN_APPLY -/

section
variable {s : State} {d : EmDesc} {x : Learn}

/-- A key with no clean entry and an uncorrectable candidate is refused (R158). -/
theorem State.learn_bad (hf : s.emFind d (d.owner 0 (d.learnKey x.key)) (d.learnKey x.key) = none)
    (hb : s.emBad d (d.owner 0 (d.learnKey x.key)) (d.learnKey x.key) = true) :
    s.learn d x = s.learnRefuse d x (d.learnKey x.key) 0x46 := by
  simp only [State.learn, hf, hb, if_true]

theorem State.learn_absent (hf : s.emFind d (d.owner 0 (d.learnKey x.key)) (d.learnKey x.key) = none)
    (hb : s.emBad d (d.owner 0 (d.learnKey x.key)) (d.learnKey x.key) = false) :
    s.learn d x = s.learnNew d x (d.learnKey x.key) := by
  simp only [State.learn, hf, hb, Bool.false_eq_true, if_false]

theorem State.learn_static {i : Nat} (hf : s.emFind d (d.owner 0 (d.learnKey x.key)) (d.learnKey x.key) = some i)
    (hs : slotData (s.emSlot i) ≠ x.data) (hstatic : slotStatic (s.emSlot i) = true) :
    s.learn d x = s.learnRefuse d x (d.learnKey x.key) 0x44 := by
  simp only [State.learn, hf, if_neg hs, hstatic, if_true]

theorem State.learn_pointer {i st : Nat} (hf : s.emFind d (d.owner 0 (d.learnKey x.key)) (d.learnKey x.key) = some i)
    (hs : slotData (s.emSlot i) ≠ x.data) (hstatic : slotStatic (s.emSlot i) = false)
    (hd : s.dataStatus d x.room (some (slotData (s.emSlot i))) x.data = some st) :
    s.learn d x = s.learnRefuse d x (d.learnKey x.key) st := by
  simp only [State.learn, hf, if_neg hs, hstatic, hd, Bool.false_eq_true, if_false]

section
variable {k : Nat}

theorem State.learnNew_pointer {st : Nat} (hd : s.dataStatus d x.room none x.data = some st) :
    s.learnNew d x k = s.learnRefuse d x k st := by
  simp only [State.learnNew, hd]

theorem State.learnNew_full (hd : s.dataStatus d x.room none x.data = none) (hp : s.emPlace d k = none)
    (hv : d.weed = 0 ∨ s.weedable d k = []) : s.learnNew d x k = s.learnRefuse d x k 0x40 := by
  simp only [State.learnNew, hd, hp, State.victim_none hv]

end
end

/-- A learn that passes the checks again is applied, and its cycle ends (R158, R161; log 84). -/
theorem learnApply_exec {s : State} {slice : Fin 4} {x : Learn} {rest : List Learn} (hq : s.learnQueue slice = x :: rest)
    (hn : s.noticesHeld ≤ 8188) (hc : s.learnCause x.table x.room (1 + x.key.length) = none)
    (hh : s.learnHeld (s.view.em x.table) = false) :
    let s1 := (s.at (max (s.limitAt 2 slice) (s.limitAt 2 7))).catchUp
    let w := ((s1.setLearnQueue slice rest).learn (s.view.em x.table) x).updateBacklog slice
    exec (.learnApply slice) s = .next (w.at (w.now + 1)) := by
  have hexec : exec (.learnApply slice) s = execLearnApply slice s := rfl
  rw [hexec, execLearnApply, hq]
  simp [hc, hh, Nat.not_lt.2 hn]

theorem State.room_of_learnCause {s : State} {t room shape : Nat} (h : s.learnCause t room shape = none) : room < 16 := by
  simp only [State.learnCause] at h
  split at h
  · cases h
  split at h
  · cases h
  · rename_i hroom
    exact not_not.1 hroom ▸ s.view.tbl_room_lt t

/-- What stays of an applied learn when its cycle has ended and the backlog has followed its queue. -/
structure LearnEnded (x : Learn) (w u : State) : Prop where
  slots : u.em.slots = w.em.slots
  stamps : u.em.stamps = w.em.stamps
  lfsr : u.em.lfsr = w.em.lfsr
  mem : u.mem = w.mem
  refused : u.reg .emLearnRefused x.table = w.reg .emLearnRefused x.table
  weeded : u.reg .emWeedCnt x.table = w.reg .emWeedCnt x.table

section
variable {x : Learn} {d : EmDesc} {slice : Fin 4} {t : Nat} {s w : State}

/-- The end of an applied learn's cycle (R158, R161; log 84). -/
theorem Applied.ends {rest : List Learn} (h : Applied x d slice t (s.setLearnQueue slice rest) w) :
    let u := (w.updateBacklog slice).at ((w.updateBacklog slice).now + 1)
    u.now = t + 1 ∧ u.learnQueue slice = rest ∧ RegsBut (learnKeys x.table slice d.nport) s u ∧ Touches learnPieces s u ∧
      LearnEnded x w u := by
  have hfollow := w.backlogFollows_update slice
  have htaken : Touches [.em] s (s.setLearnQueue slice rest) := touches_em s _
  have hqueue : w.learnQueue slice = rest := by
    rw [State.learnQueue, h.queues]
    exact (s.learnQueue_setLearnQueue slice rest slice).trans (if_pos rfl)
  have hwithin : Within learnPieces (learnKeys x.table slice d.nport) s (w.updateBacklog slice) :=
    (((htaken.within (by simp) []).mono (by simp) (by simp)).trans h.within).trans
      (hfollow.within.mono (by simp) (by simp [learnKeys, besideKeys]))
  have hnow : (w.updateBacklog slice).now = t := (hfollow.within.touches .now (by simp)).trans h.now
  have hkey : ∀ k ∈ [Obj.emBacklogXing.key 0 slice], k / 65536 % 256 < 0x30 := fun k hk =>
    (sub_of_mem_besideKeys (slice := slice) (p := 0) (by rw [List.mem_singleton.1 hk]; exact List.mem_cons_self)).2
  have hmem : (w.updateBacklog slice).mem = w.mem := hfollow.within.touches .mem (by simp)
  have hslots : (w.updateBacklog slice).em.slots = w.em.slots := by rw [hfollow.em]
  have hstamps : (w.updateBacklog slice).em.stamps = w.em.stamps := by rw [hfollow.em]
  have hlfsr : (w.updateBacklog slice).em.lfsr = w.em.lfsr := by rw [hfollow.em]
  refine ⟨?_, (hfollow.learnQueue _).trans hqueue, hwithin.regs, hwithin.touches.followed (touches_now _ _) (by simp),
    hslots, hstamps, hlfsr, hmem, ?_, ?_⟩
  · exact (Nat.max_eq_right (Nat.le_succ _)).trans (by rw [hnow])
  · exact State.reg_of_regsBut hfollow.within.regs .emLearnRefused x.table (by decide) (by decide) fun k hk =>
      ne_of_lt ((hkey k hk).trans (by decide))
  · exact State.reg_of_regsBut hfollow.within.regs .emWeedCnt x.table (by decide) (by decide) fun k hk =>
      ne_of_lt ((hkey k hk).trans (by decide))

theorem State.lfsr_of_shuffled {k : Nat} {c : State} (h : c.em.lfsr = (s.shuffled d k).em.lfsr) :
    c.lfsr (d.owner 0 k) = lfsrStep (s.lfsr (d.owner 0 k)) := by
  rw [State.lfsr, h]
  exact sget_sput_self _ _ _

theorem NewLearnt.ended {k i : Nat} {drops : List Nat} {c u : State} (h : NewLearnt x d k i drops s c w) (he : LearnEnded x w u) :
    NewLearnt x d k i drops s c u := by
  have hslot (j : Nat) : u.emSlot j = w.emSlot j := by rw [State.emSlot, he.slots, State.emSlot]
  have hstamp (j : Nat) : u.stamp j = w.stamp j := by rw [State.stamp, he.stamps, State.stamp]
  exact ⟨fun n hn => ⟨(hslot _).trans (h.stands n hn).1, fun hw => (hslot _).trans ((h.stands n hn).2 hw)⟩,
    (hstamp i).trans h.stamp, fun j hj => (hslot j).trans (h.slots j hj), fun j hj => (hstamp j).trans (h.stamps j hj),
    h.refers.of_mem he.mem, he.lfsr.trans h.lfsr⟩

end

end Sys2Proof.Machine
end

section
open Sys2Proof Sys2Proof.Machine

/-- Settles O28, outcome by outcome: a frame of LEARN is dropped, refused, or joins its queue; a learn that is applied is refused, or
enters, renews or rewrites its entry, after which the backlog of its slice alone follows. The state that `State.learn` works on
differs from `s1` in the queue that the learn was taken from, which no lookup of slots, stamps or places reads. -/
theorem learning : Obligations.Learning := by
  unfold Obligations.Learning
  refine ⟨fun s port f h => learn_held h, fun s port f h => ?_, ?_⟩
  · intro room t s0 d sl rejected
    have hroom : room < 16 := bits_lt _ 111 108
    refine ⟨fun ha => ?_, fun cause ha hc => ?_, fun ha hc => ⟨fun hfull => ?_, fun hfree => ?_⟩⟩
    · obtain ⟨hcount, hwithin, hrecorded⟩ := s0.unauthorised_spec t port hroom
      exact ⟨_, learn_unauthorised h ha, ⟨hcount, hwithin.regs, hwithin.touches⟩,
        fun ho => hrecorded ((State.ringOpen_congr room rfl rfl).2 ho)⟩
    · obtain ⟨hcount, hwithin, hrecorded⟩ := s0.learnReject_spec t cause port hroom
      exact ⟨_, learn_rejected h ha hc, ⟨hcount, hwithin.regs, hwithin.touches⟩,
        fun ho => hrecorded ((State.ringOpen_congr room rfl rfl).2 ho)⟩
    · obtain ⟨hcount, hwithin⟩ := s0.learnEnter_full ⟨room, t, fld f.hdr 99 76, fld f.hdr 75 60, f.body, port⟩ hfull
      exact ⟨_, learn_enters h ha hc, hcount, hwithin.regs, hwithin.touches⟩
    · obtain ⟨hlast, hothers, hslots, hstamps, hwithin⟩ :=
        s0.learnEnter_room ⟨room, t, fld f.hdr 99 76, fld f.hdr 75 60, f.body, port⟩ hfree
      exact ⟨_, learn_enters h ha hc, hlast, hothers, hslots, hstamps, hwithin.regs, hwithin.touches⟩
  · intro s slice x rest s1 d k sl hq hn hc hh last runs learnt written refers refused renewed
    have hroom : x.room < 16 := State.room_of_learnCause hc
    let s' := s1.setLearnQueue slice rest
    have hexec : exec (.learnApply slice) s = .next (((s'.learn d x).updateBacklog slice).at
      (((s'.learn d x).updateBacklog slice).now + 1)) := learnApply_exec hq hn hc hh
    clear_value d s1
    have hend {t : Nat} (h : Applied x d slice t s' (s'.learn d x)) : ∃ u, runs t u ∧ LearnEnded x (s'.learn d x) u := by
      obtain ⟨hnow, hrest, hregs, htouch, hended⟩ := h.ends
      exact ⟨_, ⟨hexec, hnow, hrest, hregs, htouch⟩, hended⟩
    have hrefused {status : Nat} (h : s'.learn d x = s'.learnRefuse d x k status) : ∃ u, refused u := by
      obtain ⟨happlied, hkept⟩ := s'.refused_learnRefuse d x slice k status
      rw [← h] at happlied hkept
      obtain ⟨u, hruns, hended⟩ := hend happlied
      exact ⟨u, hruns, hended.slots.trans (by rw [hkept.em]; rfl), hended.stamps.trans (by rw [hkept.em]; rfl),
        hended.mem.trans hkept.mem, hended.refused.trans hkept.counted⟩
    have hlast : s'.lastOf (s'.emTimes d k).2 = last := by
      rw [State.lastOf, State.emTimes_congr (a := s1) (b := s') d k rfl rfl]
      rfl
    have hword := (s1.sameStamps_setLearnQueue slice rest).renewedWord
    refine ⟨fun hf hb => hrefused (State.learn_bad (s := s') hf hb), fun st hf hb hd => ?_,
      fun hf hb hd => ⟨fun i hp => ?_, fun hp hv => ?_, fun i hp h0 h1 hl => ?_, fun i hp h1 hv => ?_⟩,
      fun i hf hs => ?_, fun i hf hs hstatic => ?_, fun i st hf hs hstatic hd => ?_, fun i hf hs hstatic hd => ?_⟩
    · exact hrefused ((State.learn_absent (s := s') hf hb).trans (State.learnNew_pointer hd))
    · obtain ⟨happlied, hnew⟩ := State.newLearnt_place (s := s') slice hd hp
      rw [← State.learn_absent (s := s') hf hb] at happlied hnew
      obtain ⟨u, hruns, hended⟩ := hend (hlast ▸ happlied)
      obtain ⟨hstands, hstamp, hslots, hstamps, hrefers, -⟩ := hnew.ended hended
      exact ⟨u, hruns, ⟨hstands, hstamp, hslots, hstamps⟩, hrefers⟩
    · exact hrefused ((State.learn_absent (s := s') hf hb).trans (State.learnNew_full hd hp hv))
    · intro s2 hv
      have hsame : SameStamps s2 ((s1.weedable d k).foldl State.soundStamp s') := (s1.sameStamps_setLearnQueue slice rest).foldl _
      have hvictim := (State.victim_oldest (s := s') h0 h1 hl).trans (congrArg _ ((hsame.oldest _).trans hv))
      obtain ⟨happlied, hnew, hcount⟩ := State.newLearnt_weed (s := s') slice hroom hd hp hvictim (stampsPut_foldl _ _).victimChosen
      rw [← State.learn_absent (s := s') hf hb] at happlied hnew hcount
      obtain ⟨u, hruns, hended⟩ := hend (hlast ▸ happlied)
      obtain ⟨hstands, hstamp, hslots, hstamps, hrefers, -⟩ := hnew.ended hended
      exact ⟨u, hruns, ⟨hstands, hstamp, hslots, fun j hj => (hstamps j hj).trans (hsame.stamp j)⟩, hrefers,
        hended.weeded.trans hcount⟩
    · have hvictim := State.victim_random (s := s') h1 hv
      obtain ⟨happlied, hnew, hcount⟩ := State.newLearnt_weed (s := s') slice hroom hd hp hvictim (s'.victimChosen_shuffled d k)
      rw [← State.learn_absent (s := s') hf hb] at happlied hnew hcount
      obtain ⟨u, hruns, hended⟩ := hend (hlast ▸ happlied)
      obtain ⟨hstands, hstamp, hslots, hstamps, hrefers, hlfsr⟩ := hnew.ended hended
      exact ⟨u, hruns, s'.lfsr_of_shuffled hlfsr, ⟨hstands, hstamp, hslots, hstamps⟩, hrefers, hended.weeded.trans hcount⟩
    · obtain ⟨happlied, hslots, hmem, hrenewed⟩ := State.learn_same (s := s') slice hf hs
      obtain ⟨u, hruns, hended⟩ := hend happlied
      obtain ⟨hstamp, hstamps⟩ := hrenewed.of_stamps hended.stamps
      exact ⟨u, hruns, hended.slots.trans hslots, hended.mem.trans hmem, hstamp.trans (hword i), hstamps⟩
    · exact hrefused (State.learn_static (s := s') hf hs hstatic)
    · exact hrefused (State.learn_pointer (s := s') hf hs hstatic hd)
    · obtain ⟨happlied, hrelearnt, hrefers, hmem⟩ := State.learn_rewrite (s := s') slice hf hs hstatic hd
      obtain ⟨u, hruns, hended⟩ := hend (hlast ▸ happlied)
      obtain ⟨hheads, hslots, hstamp, hstamps⟩ := hrelearnt.of_em hended.slots hended.stamps
      exact ⟨u, hruns, ⟨hstamp.trans (hword i), hstamps⟩, hheads, hslots, fun h => (hrefers h).of_mem hended.mem,
        fun h => hended.mem.trans (hmem h)⟩
end

section
/-! Answers on states that differ by records alone (R177 to R182): a refused command leaves its answer but for the record. -/

namespace Sys2Proof.Machine

namespace OnlyRecords

variable {s t : State} (h : OnlyRecords s t)
include h

/-- A register written alike stays alike; what the daybook's own counters read is not asked. -/
theorem setReg (o : Obj) (i off ext : Nat) {v w : Nat} (hv : o.key i off ext ∉ daybookKeys → w = v) :
    OnlyRecords (s.setReg o i off ext v) (t.setReg o i off ext w) := by
  refine { h with regs := fun k hk => ?_ }
  by_cases he : k = o.key i off ext
  · subst he
    exact (State.reg_setReg t o i off ext w).trans ((hv hk).trans (State.reg_setReg s o i off ext v).symm)
  · rw [State.regs_setReg_ne _ _ _ _ _ _ _ he, State.regs_setReg_ne _ _ _ _ _ _ _ he]
    exact h.regs k hk

theorem setPort (p : Nat) {q r : Port} (hq : r.core = q.core) : OnlyRecords (s.setPort p q) (t.setPort p r) := by
  refine { h with ports := fun j => ?_ }
  by_cases hj : j = p
  · rw [hj, State.port_setPort, State.port_setPort, hq]
  · rw [State.port_setPort_ne _ _ _ _ hj, State.port_setPort_ne _ _ _ _ hj]
    exact h.ports j

theorem dequeue (room id : Nat) : OnlyRecords (s.dequeue room id) (t.dequeue room id) :=
  { h with arb := by simp only [State.dequeue, State.setQueue, State.queue, h.arb] }

theorem port_keeps (p : Nat) : (t.port p).keeps = (s.port p).keeps :=
  show (t.port p).core.keeps = (s.port p).core.keeps by rw [h.ports p]

theorem txDrop (p : Nat) : OnlyRecords (s.txDrop p) (t.txDrop p) := by
  have hup : (t.port p).everUp = (s.port p).everUp := show (t.port p).core.everUp = (s.port p).core.everUp by rw [h.ports p]
  simp only [State.txDrop, hup]
  split
  · exact h.setReg .portTxDiscard p 0 0 fun hk => by rw [h.reg _ _ _ _ hk]
  · exact h

theorem send1 (p : Nat) (f : Frame) (d : TxDone) : OnlyRecords (s.send1 p f d) (t.send1 p f d) := by
  simp only [State.send1, h.port_keeps]
  split
  · have hq : ∀ q : Port, ({ q with tx1 := q.tx1 ++ [⟨f, d⟩] } : Port).core =
        { q.core with tx1 := q.core.tx1 ++ [⟨f, d⟩] } := fun _ => rfl
    exact h.setPort p (by rw [hq, hq, h.ports p])
  · exact h.txDrop p

theorem replyReg (room status : Nat) (f : Frame) : OnlyRecords (s.replyReg room status f) (t.replyReg room status f) := by
  have fill : ∀ (l : List Nat) (g : Nat → Nat) {u v : State}, OnlyRecords u v →
      OnlyRecords (l.foldl (fun s i => s.setReg .tblReply room i 0 (g i)) u) (l.foldl (fun s i => s.setReg .tblReply room i 0 (g i)) v) := by
    intro l g
    induction l with
    | nil => exact fun h => h
    | cons i l ih => exact fun h => ih (h.setReg .tblReply room i 0 fun _ => rfl)
  exact (fill _ _ h).setReg .tblStatus room 0 0 fun _ => rfl

theorem replyAdv (room status : Nat) : OnlyRecords (s.replyAdv room status) (t.replyAdv room status) := by
  have hcur : t.reg .edCurrent room = s.reg .edCurrent room :=
    State.reg_of_regsBut (h.regsBut []) .edCurrent room (by decide) (by decide) nofun
  exact h.setReg .edAdvStatus room 0 0 fun _ => by rw [hcur]

end OnlyRecords

theorem OnlyRecords.sendTcomps {s t : State} (h : OnlyRecords s t) (p room id : Nat) (l : List Frame) :
    OnlyRecords (s.sendTcomps p room id l) (t.sendTcomps p room id l) := by
  induction l generalizing s t with
  | nil => exact h
  | cons f l ih =>
    cases l with
    | nil =>
      simp only [State.sendTcomps, h.port_keeps]
      split
      · exact h.send1 p f _
      · exact (h.send1 p f _).dequeue room id
    | cons g l => exact ih (h.send1 p f _)

/-- States that differ by records alone do so after the same answer. -/
theorem OnlyRecords.answer {s t : State} (h : OnlyRecords s t) (c : MqCmd) (r : Reply) :
    OnlyRecords (s.answer c r) (t.answer c r) := by
  simp only [State.answer]
  split
  · exact h.sendTcomps _ _ _ _
  · exact (h.replyReg _ _ _).dequeue _ _
  · exact (h.replyAdv _ _).dequeue _ _

/-- A refused command leaves its answer and the record of its refusal (R182). -/
theorem State.onlyRecords_refuse (s : State) (c : MqCmd) (status result : Nat) :
    OnlyRecords (s.answer c (Machine.reply status result)) (s.refuse c status result) :=
  (onlyRecords_record s .tcmdReject (some c.hdr.room) _ _ 0 fun _ h => Option.some.inj h ▸ c.hdr_room_lt).answer c _

/-! ### A failed check -/

/-- A command on a table that fails one of checks 1 to 5 is refused, whatever the kind of its table (R182). -/
theorem tableCommand_refused {s : State} {c : MqCmd} {st : Nat} (hk : (s.view.tbl c.hdr.table).kind < 3)
    (h : s.tableStatus c (if (s.view.tbl c.hdr.table).kind = 0 then trnBad (s.view.trn c.hdr.table) c.hdr c.body
      else if (s.view.tbl c.hdr.table).kind = 1 then pfxBad (s.view.pfx c.hdr.table) c.hdr c.body
      else emBad (s.view.em c.hdr.table) c.hdr c.body) = some st) : tableCommand c s = s.refuse c st 0 := by
  obtain hk | hk | hk : (s.view.tbl c.hdr.table).kind = 0 ∨ (s.view.tbl c.hdr.table).kind = 1 ∨
    (s.view.tbl c.hdr.table).kind = 2 := by omega
  · rw [hk, if_pos rfl] at h
    simp only [tableCommand, hk, trnCommand, h]
  · rw [hk, if_neg (by decide), if_pos rfl] at h
    simp only [tableCommand, hk, pfxCommand, h]
  · rw [hk, if_neg (by decide), if_neg (by decide)] at h
    simp only [tableCommand, hk, emCommand, h]

end Sys2Proof.Machine
end

section
open Sys2Proof Sys2Proof.Machine

/-- Settles O16: whatever the kind of its table, the command is refused at once, with the record of its refusal beside the answer. -/
theorem failedChecksChangeNothing : Obligations.FailedChecksChangeNothing := by
  intro s s1 c st d hk hs x hx hst
  have hrun : exec x.2 s = .next (tableCommand c s1) := by
    simp only [List.mem_cons, List.not_mem_nil, or_false] at hx
    rcases hx with rfl | rfl | rfl | rfl | rfl | rfl <;> exact congrArg _ (State.startSlot_of_starts _ _ hst rfl)
  rw [tableCommand_refused hk hs] at hrun
  exact ⟨_, hrun, s1.onlyRecords_refuse c st 0, (State.answered_refuse c st 0 s1).commandFrame⟩

end

section
/-! Ternary commands on an entry at its handle (R169, R178, R184, R187 to R189): which operation each runs, and the row
operations with which it waits in its queue. -/

namespace Sys2Proof.Machine

/-! ### A command that begins -/

/-- A command with rows to write waits in its queue with its operations (R184). -/
theorem State.begins (s : State) (c : MqCmd) {ops : List RowOp} (drops : List Nat) (adds dels : List (List Replica))
    (result : Nat) (hops : ops ≠ []) :
    let u := s.beginOps c ops drops adds dels result
    (∀ x ∈ s.queue c.room, x.id = c.id → ∃ y ∈ u.queue c.room, y.id = c.id ∧ y.ops = ops ∧ y.drops = drops ∧
      y.adds = adds ∧ y.dels = dels) ∧ CommandFrame c [] s u ∧ u.mem = s.mem := by
  have hu : s.beginOps c ops drops adds dels result = s.setCmd { c with
      ops := ops, drops := drops, adds := adds, dels := dels, reply := (Machine.reply 0 result).tcomps c.hdr } := by
    rw [State.beginOps, if_neg (by simpa using hops)]
  simp only [hu]
  exact ⟨fun x hx hid => ⟨_, State.mem_queue_setCmd hx hid, rfl, rfl, rfl, rfl, rfl⟩,
    ⟨(State.touches_setCmd _ _).mono (by simp), RegsBut.of_eq _ rfl, fun r hr => State.queue_setCmd_ne hr⟩, rfl⟩

theorem CommandFrame.mono {c : MqCmd} {l m : List Piece} {s t : State} (h : CommandFrame c l s t) (hl : ∀ p ∈ l, p ∈ m) :
    CommandFrame c m s t := by
  obtain ⟨htouch, hregs, hqueue⟩ := h
  refine ⟨htouch.mono fun p hp => ?_, hregs, hqueue⟩
  simp only [List.mem_cons] at hp ⊢
  exact hp.imp_right (Or.imp_right (Or.imp_right (hl p)))

/-- The same with a reference taken first (R216). -/
theorem State.begins_holding (s : State) (c : MqCmd) (p : Nat) {ops : List RowOp} (drops : List Nat)
    (adds dels : List (List Replica)) (result : Nat) (hops : ops ≠ []) :
    let u := (s.addRef p).beginOps c ops drops adds dels result
    (u.alloc p).count = (s.alloc p).count + 1 ∧
    (∀ x ∈ s.queue c.room, x.id = c.id → ∃ y ∈ u.queue c.room, y.id = c.id ∧ y.ops = ops ∧ y.drops = drops ∧
      y.adds = adds ∧ y.dels = dels) ∧ CommandFrame c [.mem] s u := by
  obtain ⟨hqueue, ⟨htouch, hregs, hothers⟩, hmem⟩ := (s.addRef p).begins c drops adds dels result hops
  refine ⟨?_, hqueue, ((s.touches_addRef p).mono (by simp)).followed htouch (by simp), hregs, hothers⟩
  rw [State.alloc, hmem]
  exact congrArg Alloc.count (sget_sput_self _ _ _)

/-! ### Rows to write -/

theorem inCopies_ne_nil {d : Trn} {f : Nat → List RowOp} (hd : 0 < d.ncopy) (h : f 0 ≠ []) : inCopies d f ≠ [] := fun hn =>
  h (List.flatMap_eq_nil_iff.1 hn 0 (List.mem_range.2 hd))

theorem newOps_ne_nil {d : Trn} {rs : List Replica} {e : EntryWord} {value mask c : Nat} (h : rs ≠ []) :
    newOps d rs e value mask c ≠ [] := List.append_ne_nil_of_right_ne_nil _ (stepOps_ne_nil h)

theorem emptyHeads_ne_nil {d : Trn} {rs : List Replica} {c : Nat} (h : rs ≠ []) : emptyHeads d rs c ≠ [] := stepOps_ne_nil h

theorem sideOps_ne_nil {d : Trn} {rs : List Replica} {e : EntryWord} {c : Nat} (h : rs ≠ []) : sideOps d rs e c ≠ [] :=
  stepOps_ne_nil h

/-- The row operations of a DELETE: heads before continuations (R184). -/
def deleteOps (d : Trn) (rs : List Replica) : List RowOp := inCopies d fun i => emptyHeads d rs i ++ emptyConts d rs i

theorem deleteOps_ne_nil {d : Trn} {rs : List Replica} (hd : 0 < d.ncopy) (h : rs ≠ []) : deleteOps d rs ≠ [] :=
  inCopies_ne_nil hd (List.append_ne_nil_of_left_ne_nil (emptyHeads_ne_nil h) _)

/-- The row operations of a MOVE in an edition table, with the edition `next` from which the new rows are live and the old ones
retire (R184, R188). -/
def editionMoveOps (d : Trn) (rs new : List Replica) (old : EntryWord) (kv : Nat × Nat) (next : Edition) : List RowOp :=
  inCopies d fun i => newOps d new { old with first := next } kv.1 kv.2 i ++
    sideOps d rs { old with rset := true, retiring := next } i

theorem editionMoveOps_ne_nil {d : Trn} {rs : List Replica} (new : List Replica) (old : EntryWord) (kv : Nat × Nat) (next : Edition)
    (hd : 0 < d.ncopy) (h : rs ≠ []) : editionMoveOps d rs new old kv next ≠ [] :=
  inCopies_ne_nil hd (List.append_ne_nil_of_right_ne_nil _ (sideOps_ne_nil h))

/-- The row operations of a MOVE in a direct table (R184, R188). -/
def directMoveOps (d : Trn) (rs new : List Replica) (old : EntryWord) (kv : Nat × Nat) : List RowOp :=
  inCopies d fun i => emptyHeads d rs i ++ newOps d new old kv.1 kv.2 i ++ emptyConts d (rs.filter fun r => !new.contains r) i

theorem directMoveOps_ne_nil {d : Trn} {rs : List Replica} (new : List Replica) (old : EntryWord) (kv : Nat × Nat)
    (hd : 0 < d.ncopy) (h : rs ≠ []) : directMoveOps d rs new old kv ≠ [] :=
  inCopies_ne_nil hd (List.append_ne_nil_of_left_ne_nil (List.append_ne_nil_of_left_ne_nil (emptyHeads_ne_nil h) _) _)

/-- The row operations of a WRITE at the handle of a direct entry: its heads alone when the atoms stay (R92, R184). -/
def rewriteOps (d : Trn) (rs : List Replica) (e : EntryWord) (kv old : Nat × Nat) : List RowOp :=
  if kv = old then inCopies d (sideOps d rs e)
  else if d.k = 1 then inCopies d (newOps d rs e kv.1 kv.2)
  else inCopies d fun i => emptyHeads d rs i ++ newOps d rs e kv.1 kv.2 i

theorem rewriteOps_ne_nil {d : Trn} {rs : List Replica} (e : EntryWord) (kv old : Nat × Nat) (hd : 0 < d.ncopy) (h : rs ≠ []) :
    rewriteOps d rs e kv old ≠ [] := by
  simp only [rewriteOps]
  split
  · exact inCopies_ne_nil hd (sideOps_ne_nil h)
  split
  · exact inCopies_ne_nil hd (newOps_ne_nil h)
  · exact inCopies_ne_nil hd (List.append_ne_nil_of_left_ne_nil (emptyHeads_ne_nil h) _)

theorem rewriteOps_same {d : Trn} {rs : List Replica} {e : EntryWord} {kv old : Nat × Nat} (h : kv = old) :
    rewriteOps d rs e kv old = inCopies d (sideOps d rs e) := if_pos h

theorem rewriteOps_atoms {d : Trn} {rs : List Replica} {e : EntryWord} {kv old : Nat × Nat} (h : kv ≠ old) (hk : d.k ≠ 1) :
    rewriteOps d rs e kv old = inCopies d fun i => emptyHeads d rs i ++ newOps d rs e kv.1 kv.2 i :=
  (if_neg h).trans (if_neg hk)

/-! ### The command of each operation -/

section

variable {s : State} {c : MqCmd} {rs : List Replica} {r0 : Replica} (hk : (s.view.tbl c.hdr.table).kind = 0)
  (hs : s.tableStatus c (trnBad (s.view.trn c.hdr.table) c.hdr c.body) = none)
include hk hs

/-- A ternary SCAN past checks 1 to 5. -/
theorem tableCommand_trnScan (ho : c.hdr.op = opScan) : tableCommand c s = trnScan c s (s.view.trn c.hdr.table) := by
  simp [tableCommand, trnCommand, hk, hs, ho]

variable (he : s.entryAt c.hdr.table (s.view.trn c.hdr.table) c.hdr.addr = some rs) (hr : rs.head? = some r0)
include he hr

/-- A ternary READ past checks 1 to 5 of a handle that holds an entry. -/
theorem tableCommand_trnRead (ho : c.hdr.op = opRead) : tableCommand c s = s.readNext c 0 [] := by
  obtain ⟨t, rfl⟩ : ∃ t, rs = r0 :: t := List.head?_eq_some_iff.1 hr
  simp [tableCommand, trnCommand, hk, hs, he, ho]

variable (hf : (s.table c.hdr.table).filling = [])
include hf

/-- A ternary WRITE past checks 1 to 5 at a handle that holds an entry, with no copy of its table filling. -/
theorem tableCommand_trnRewrite (ho : c.hdr.op = opWrite) (hp : c.hdr.placed = false) :
    tableCommand c s = trnRewrite c s (s.view.trn c.hdr.table) rs r0 := by
  obtain ⟨t, rfl⟩ : ∃ t, rs = r0 :: t := List.head?_eq_some_iff.1 hr
  simp [tableCommand, trnCommand, hk, hs, hf, he, ho, hp]

/-- A ternary DELETE, likewise. -/
theorem tableCommand_trnDelete (ho : c.hdr.op = opDelete) :
    tableCommand c s = trnDelete c s (s.view.trn c.hdr.table) rs r0 := by
  obtain ⟨t, rfl⟩ : ∃ t, rs = r0 :: t := List.head?_eq_some_iff.1 hr
  simp [tableCommand, trnCommand, hk, hs, hf, he, ho]

/-- A ternary MOVE, likewise. -/
theorem tableCommand_trnMove (ho : c.hdr.op = opMove) : tableCommand c s = trnMove c s (s.view.trn c.hdr.table) rs r0 := by
  obtain ⟨t, rfl⟩ : ∃ t, rs = r0 :: t := List.head?_eq_some_iff.1 hr
  simp [tableCommand, trnCommand, hk, hs, hf, he, ho]

end

/-! ### DELETE, MOVE and SCAN -/

/-- The entry word of an entry, as READ finds it (R178). -/
abbrev State.oldEntry (s : State) (d : Trn) (r0 : Replica) : EntryWord := (s.repSide d (s.readCopy d r0) r0).entry

/-- The handle that a MOVE answers: that of the first row named, 0 with none. -/
def destOf (d : Trn) (new : List Replica) : Nat := match new with | r :: _ => handleOf d r | [] => 0

section

variable {s : State} {c : MqCmd} {d : Trn} {rs : List Replica} {r0 : Replica}

/-- A DELETE of an entry that may go (R184, R189). -/
theorem trnDelete_ok (h : s.deletable c.hdr.room d.direct (s.oldEntry d r0).rset (s.oldEntry d r0).first
    (s.oldEntry d r0).retiring = true) : trnDelete c s d rs r0 =
      s.beginOps c (deleteOps d rs) [(s.oldEntry d r0).ptr] [] [rs] 0 := by
  simp only [trnDelete, h, Bool.not_true, Bool.false_eq_true, if_false]
  rfl

/-- A ternary command that the placement rules do not fail leaves the answer of its status but for records (R92, R182). -/
theorem State.failTrn_of_not_placement (s : State) (c : MqCmd) {status : Nat} (result : Nat)
    (h : ¬ (0x20 ≤ status ∧ status ≤ 0x26)) : s.failTrn c status result = s.refuse c status result := by
  rw [State.failTrn, if_neg h]

/-- A MOVE of an entry of an edition table that retires (R188). -/
theorem trnMove_retiring (hd : d.direct = false) (h : (s.oldEntry d r0).rset = true) :
    trnMove c s d rs r0 = s.refuse c 0x27 c.hdr.addr := by
  simp only [trnMove, hd, h, Bool.not_false, Bool.and_true, if_true]
  exact s.failTrn_of_not_placement c _ (by decide)

section

variable (hd : d.direct = false) (ho : (s.oldEntry d r0).rset = false)
  (hn : s.namedStatus d (s.shadowKey d r0).1 (s.shadowKey d r0).2 (repDescs c.body) [] = none)
include hd ho hn

/-- A MOVE in an edition table whose action takes no more references (R188, R217). -/
theorem trnMove_unreferable (h : s.ptrCheck s.view c.hdr.room (s.oldEntry d r0).ptr ((s.oldEntry d r0).plen + 1) = some 0x64) :
    trnMove c s d rs r0 = s.refuse c 0x64 c.hdr.addr := by
  simp only [trnMove, hd, ho, hn, h, Bool.and_false, Bool.false_eq_true, if_false, if_true]
  exact s.failTrn_of_not_placement c _ (by decide)

/-- A MOVE in an edition table past its checks (R188, R216). -/
theorem trnMove_edition (h : s.ptrCheck s.view c.hdr.room (s.oldEntry d r0).ptr ((s.oldEntry d r0).plen + 1) ≠ some 0x64) :
    trnMove c s d rs r0 = (s.addRef (s.oldEntry d r0).ptr).beginOps c
      (editionMoveOps d rs (namedReps d (repDescs c.body)) (s.oldEntry d r0) (s.shadowKey d r0) (s.current c.hdr.room + 1))
      [] [namedReps d (repDescs c.body)] [] (destOf d (namedReps d (repDescs c.body))) := by
  rw [editionMoveOps]
  simp only [trnMove, hd, ho, hn, h, Bool.and_false, Bool.false_eq_true, if_false]
  rfl

end

/-- A MOVE in a direct table past its checks (R188). -/
theorem trnMove_direct (hd : d.direct = true)
    (hn : s.namedStatus d (s.shadowKey d r0).1 (s.shadowKey d r0).2 (repDescs c.body) rs = none) :
    trnMove c s d rs r0 = s.beginOps c (directMoveOps d rs (namedReps d (repDescs c.body)) (s.oldEntry d r0) (s.shadowKey d r0))
      [] [namedReps d (repDescs c.body)] [rs] (destOf d (namedReps d (repDescs c.body))) := by
  simp only [trnMove, hd, hn, Bool.not_true, Bool.false_and, Bool.false_eq_true, if_false, if_true]
  rfl

/-- A SCAN with nothing left to read is answered at once (R166, R178). -/
theorem trnScan_end (h : s.headFrom c.hdr.table d (scanWord (c.body.headD 0)).start = none) :
    trnScan c s d = s.answer c (walkReply (trnPer d) none []) := by
  simp only [trnScan, State.walkOn, State.trnFrom, h, Option.map_none]

/-- A SCAN with an entry left to read waits for the slot in which it reads (R166, R178). -/
theorem trnScan_reads (h : s.headFrom c.hdr.table d (scanWord (c.body.headD 0)).start ≠ none)
    (hm : 0 < walkMax (c.src = .reg) (scanWord (c.body.headD 0)).maxrec (trnPer d)) :
    trnScan c s d = s.readNext c (scanWord (c.body.headD 0)).start [] := by
  obtain ⟨x, hx⟩ := Option.ne_none_iff_exists'.1 h
  simp only [trnScan, State.walkOn, State.trnFrom, hx, Option.map_some, List.length_nil, if_neg (Nat.not_le.2 hm)]

end

/-! ### WRITE at a handle -/

/-- A rewrite changes the allocation to which the entry refers (R216). -/
abbrev EntryWord.moves (e old : EntryWord) : Prop := e.ptr ≠ old.ptr ∨ classOf (e.plen + 1) ≠ classOf (old.plen + 1)

section

variable {s : State} {c : MqCmd} {d : Trn} {rs : List Replica} {r0 : Replica}
  (hp : s.pointerStatus c.hdr.room (some ((s.oldEntry d r0).ptr, (s.oldEntry d r0).plen)) c.entry.ptr c.entry.plen = none)
include hp

/-- A WRITE at the handle of an edition entry past its checks rewrites its heads (R187). -/
theorem trnRewrite_edition (hd : d.direct = false) (hkey : c.key d = s.shadowKey d r0)
    (hprio : c.entry.prio = (s.oldEntry d r0).prio) (hfirst : c.entry.first = (s.oldEntry d r0).first)
    (hptr : c.entry.ptr = (s.oldEntry d r0).ptr) (hplen : c.entry.plen = (s.oldEntry d r0).plen)
    (hst : s.rewriteEdition c.hdr.room (s.oldEntry d r0).rset (s.oldEntry d r0).retiring c.entry.rset c.entry.retiring = none) :
    trnRewrite c s d rs r0 = s.beginOps c (inCopies d (sideOps d rs { c.entry with valid := (s.oldEntry d r0).valid }))
      [] [] [] c.hdr.addr := by
  rw [hptr, hplen] at hp
  simp only [trnRewrite, hd, hkey, hprio, hfirst, hptr, hplen, hst, hp, Bool.not_false, if_true, decide_true, Bool.and_self,
    Bool.not_true, Bool.false_eq_true, if_false]

/-- A WRITE at the handle of a direct entry past its checks (R92, R187, R216). -/
theorem trnRewrite_direct (hd : d.direct = true)
    (hkey : c.key d = s.shadowKey d r0 ∨ rewriteStatus d rs (c.key d).1 (c.key d).2 = none) :
    trnRewrite c s d rs r0 = (if c.entry.moves (s.oldEntry d r0) then s.addRef c.entry.ptr else s).beginOps c
      (rewriteOps d rs c.entry (c.key d) (s.shadowKey d r0))
      (if c.entry.moves (s.oldEntry d r0) then [(s.oldEntry d r0).ptr] else []) [] [] c.hdr.addr := by
  have hpos : (if c.key d = s.shadowKey d r0 then none else rewriteStatus d rs (c.key d).1 (c.key d).2) = none := by
    split
    · rfl
    · exact hkey.resolve_left ‹_›
  simp only [trnRewrite, hd, Bool.not_true, Bool.false_eq_true, if_false, decide_eq_true_eq, hpos, hp]
  rfl

/-- It waits with its operations; when it changes the allocation, the new reference is taken and the old one goes at its end
(R187, R216). -/
theorem trnRewrite_direct_spec (hn : 0 < d.ncopy) (hrs : rs ≠ []) (hd : d.direct = true)
    (hkey : c.key d = s.shadowKey d r0 ∨ rewriteStatus d rs (c.key d).1 (c.key d).2 = none) :
    let u := trnRewrite c s d rs r0
    (c.entry.moves (s.oldEntry d r0) → (u.alloc c.entry.ptr).count = (s.alloc c.entry.ptr).count + 1) ∧
      (¬ c.entry.moves (s.oldEntry d r0) → u.mem = s.mem) ∧
      (∀ x ∈ s.queue c.room, x.id = c.id → ∃ y ∈ u.queue c.room, y.id = c.id ∧
        y.ops = rewriteOps d rs c.entry (c.key d) (s.shadowKey d r0) ∧
        (c.entry.moves (s.oldEntry d r0) → y.drops = [(s.oldEntry d r0).ptr]) ∧
        (¬ c.entry.moves (s.oldEntry d r0) → y.drops = [])) ∧ CommandFrame c [.mem] s u := by
  have hops := rewriteOps_ne_nil c.entry (c.key d) (s.shadowKey d r0) hn hrs
  simp only [trnRewrite_direct hp hd hkey]
  by_cases hm : c.entry.moves (s.oldEntry d r0)
  · simp only [if_pos hm]
    obtain ⟨hcount, hqueue, hframe⟩ := s.begins_holding c c.entry.ptr [(s.oldEntry d r0).ptr] [] [] c.hdr.addr hops
    refine ⟨fun _ => hcount, fun h => absurd hm h, fun x hx hid => ?_, hframe⟩
    obtain ⟨y, hy, hyid, hyops, hdrops, -⟩ := hqueue x hx hid
    exact ⟨y, hy, hyid, hyops, fun _ => hdrops, fun h => absurd hm h⟩
  · simp only [if_neg hm]
    obtain ⟨hqueue, hframe, hmem⟩ := s.begins c [] [] [] c.hdr.addr hops
    refine ⟨fun h => absurd h hm, fun _ => hmem, fun x hx hid => ?_, hframe.mono nofun⟩
    obtain ⟨y, hy, hyid, hyops, hdrops, -⟩ := hqueue x hx hid
    exact ⟨y, hy, hyid, hyops, fun h => absurd h hm, fun _ => hdrops⟩

end

end Sys2Proof.Machine
end

section
open Sys2Proof Sys2Proof.Machine

/-- Settles O18: past its checks each command is refused, waits for its reads, or begins with its row operations. -/
theorem ternaryEntries : Obligations.TernaryEntries := by
  intro s s1 c rs r0 t d old hk hs hf he hr hd
  have hrs : rs ≠ [] := fun h => by simp [h] at hr
  have run {op : Nat} {i : Instr} {u : State} (hi : exec i s = .next (s.startSlot [op] tableCommand)) (hst : s.Starts op c s1)
      (hu : tableCommand c s1 = u) : exec i s = .next u :=
    hi.trans (congrArg _ ((State.startSlot_of_starts [op] tableCommand hst (by simp)).trans hu))
  refine ⟨fun hst hdel => ?_, fun hst hdir hrset hnamed => ⟨fun hptr => ?_, fun hptr => ?_⟩, fun hst hdir hrset => ?_,
    fun hst => ?_, fun hst => ⟨fun hend => ?_, fun hleft hmax => ?_⟩, fun hst hpl hdir hkey hfix => ?_,
    fun hst hpl hdir hptr hkey => ?_, fun hst hdir hnamed => ?_⟩
  · obtain ⟨hqueue, hframe, -⟩ := s1.begins c [old.ptr] [] [rs] 0 (deleteOps_ne_nil hd hrs)
    refine ⟨_, run rfl hst ((tableCommand_trnDelete hk hs he hr hf hst.1).trans (trnDelete_ok hdel)), fun x hx hid => ?_, hframe⟩
    obtain ⟨y, hy, hyid, hops, hdrops, hadds, hdels⟩ := hqueue x hx hid
    exact ⟨y, hy, hyid, hops, hdrops, hdels, hadds⟩
  · obtain ⟨hcount, hqueue, hframe⟩ := s1.begins_holding c old.ptr [] [namedReps d (repDescs c.body)] []
      (destOf d (namedReps d (repDescs c.body))) (editionMoveOps_ne_nil (namedReps d (repDescs c.body)) old (s1.shadowKey d r0)
        (s1.current c.hdr.room + 1) hd hrs)
    refine ⟨_, run rfl hst ((tableCommand_trnMove hk hs he hr hf hst.1).trans (trnMove_edition hdir hrset hnamed hptr)), hcount,
      fun x hx hid => ?_, hframe⟩
    obtain ⟨y, hy, hyid, hops, hdrops, hadds, hdels⟩ := hqueue x hx hid
    exact ⟨y, hy, hyid, hops, hadds, hdels, hdrops⟩
  · exact ⟨_, run rfl hst ((tableCommand_trnMove hk hs he hr hf hst.1).trans (trnMove_unreferable hdir hrset hnamed hptr)),
      s1.onlyRecords_refuse c _ _, (State.answered_refuse c _ _ s1).commandFrame⟩
  · exact ⟨_, run rfl hst ((tableCommand_trnMove hk hs he hr hf hst.1).trans (trnMove_retiring hdir hrset)),
      s1.onlyRecords_refuse c _ _, (State.answered_refuse c _ _ s1).commandFrame⟩
  · exact run rfl hst (tableCommand_trnRead hk hs he hr hst.1)
  · exact run rfl hst ((tableCommand_trnScan hk hs hst.1).trans (trnScan_end hend))
  · exact run rfl hst ((tableCommand_trnScan hk hs hst.1).trans (trnScan_reads hleft hmax))
  · obtain ⟨hprio, hfirst, hptr, hplen, hed, href⟩ := hfix
    obtain ⟨hqueue, hframe, -⟩ := s1.begins c [] [] [] c.hdr.addr (inCopies_ne_nil hd
      (f := sideOps d rs { c.entry with valid := old.valid }) (sideOps_ne_nil hrs))
    refine ⟨_, run rfl hst ((tableCommand_trnRewrite hk hs he hr hf hst.1 hpl).trans
      (trnRewrite_edition href hdir hkey hprio hfirst hptr hplen hed)), fun x hx hid => ?_, hframe⟩
    obtain ⟨y, hy, hyid, hops, -⟩ := hqueue x hx hid
    exact ⟨y, hy, hyid, hops⟩
  · obtain ⟨hholds, hkeeps, hqueue, hframe⟩ := trnRewrite_direct_spec hptr hd hrs hdir hkey
    refine ⟨_, run rfl hst (tableCommand_trnRewrite hk hs he hr hf hst.1 hpl), hholds, hkeeps, fun x hx hid => ?_, hframe⟩
    obtain ⟨y, hy, hyid, hops, hdrop, hkeep⟩ := hqueue x hx hid
    exact ⟨y, hy, hyid, hdrop, hkeep, fun h => hops.trans (rewriteOps_same h), fun h h1 => hops.trans (rewriteOps_atoms h h1)⟩
  · obtain ⟨hqueue, hframe, -⟩ := s1.begins c [] [namedReps d (repDescs c.body)] [rs] (destOf d (namedReps d (repDescs c.body)))
      (directMoveOps_ne_nil (namedReps d (repDescs c.body)) old (s1.shadowKey d r0) hd hrs)
    refine ⟨_, run rfl hst ((tableCommand_trnMove hk hs he hr hf hst.1).trans (trnMove_direct hdir hnamed)), fun x hx hid => ?_, hframe⟩
    obtain ⟨y, hy, hyid, hops, hdrops, hadds, hdels⟩ := hqueue x hx hid
    exact ⟨y, hy, hyid, hops, hadds, hdels, hdrops⟩

end

section
/-! The FLOOR notice of a room (R192), the visit of a clamp (R193), and the end of a clamp pass (R194; log 30). -/

namespace Sys2Proof.Machine

/-- The floor of a room follows its edition registers, the instructions in flight and the time (R192). -/
theorem State.floor_congr {s u : State} {room : Nat} (hc : u.reg .edCurrent room = s.reg .edCurrent room)
    (hl : u.reg .edPinLag room = s.reg .edPinLag room) (hn : u.now = s.now) (hs : u.search = s.search) :
    u.floor room = s.floor room := by
  simp only [State.floor, State.drain, State.editionsOf, State.flightOf, State.current, hc, hl, hn, hs]

/-! ### FLOOR notices -/

/-- The cycle in which the next FLOOR notice of a room may go: 1 µs after its last (R192). -/
def State.floorDue (s : State) (room : Nat) : Nat :=
  let last := sget (fun _ => 0) s.ed.lastFloor room
  if last = 0 then 0 else last - 1 + Config.usec

/-- The notice of a room's floor is noted, in the cycle in which it goes (R192). -/
def State.floorNoted (s : State) (room : Nat) : State :=
  { s.at (s.floorDue room) with ed := { s.ed with
      notified := sput (fun _ => (0 : BitVec 16)) s.ed.notified room (s.floor room),
      lastFloor := sput (fun _ => 0) s.ed.lastFloor room ((s.at (s.floorDue room)).now + 1) } }

theorem State.touches_floorNoted (s : State) (room : Nat) : Touches [.now, .ed] s (s.floorNoted room) :=
  ((touches_now s _).mono (by simp)).followed (touches_ed (s.at (s.floorDue room)) _) (by simp)

theorem editionFloor_unmoved {s : State} {room : Fin 16} (h : s.floor room = sget (fun _ => (0 : BitVec 16)) s.ed.notified room) :
    exec (.editionFloor room) s = .next s := if_pos h

theorem editionFloor_moved {s : State} {room : Fin 16} (h : s.floor room ≠ sget (fun _ => (0 : BitVec 16)) s.ed.notified room) :
    exec (.editionFloor room) s = .next ((s.floorNoted room).notifyEdition room 2 0) := if_neg h

/-- The notices leave the edition registers that they speak of (R191). -/
theorem Notified.reg {f : Frame} {l : List Nat} {s u : State} (h : Notified f l s u) (o : Obj) (i : Nat) (hs : o.row.sub < 256)
    (hd : o.row.sub ≠ 3 ∧ o.row.sub ≠ 5 ∧ o.row.sub ≠ 0x1B) : u.reg o i = s.reg o i := by
  refine State.reg_of_regsBut h.regs o i hs ⟨hd.1, hd.2.1⟩ fun k hk => ?_
  obtain ⟨p, -, rfl⟩ := List.mem_map.1 hk
  rw [sub_portTxDiscard p _ (List.mem_singleton.2 rfl)]
  exact hd.2.2.symm

/-- The notice of a room's floor, its frames sent (R192). -/
theorem State.floorNotified_spec (s : State) (room : Nat) :
    let u := (s.floorNoted room).notifyEdition room 2 0
    u.now = max s.now (s.floorDue room) ∧ sget (fun _ => (0 : BitVec 16)) u.ed.notified room = s.floor room ∧
      (∀ r, r ≠ room → sget (fun _ => (0 : BitVec 16)) u.ed.notified r = sget (fun _ => 0) s.ed.notified r) ∧
      (∀ p, p < 32 → nbit (s.reg .edNotify room) p = true → (s.port p).keeps = true →
        (u.port p).tx3 = (s.port p).tx3 ++ [⟨u.editionFrame room 2 0, .none⟩]) ∧
      RegsBut ((List.range 32).map fun p => Obj.portTxDiscard.key p) s u ∧ Touches [.now, .regs, .ed, .ports] s u := by
  have h := (s.floorNoted room).notified_notifyEdition room 2 0
  have hed := h.touches .ed (by simp)
  have hframe := State.editionFrame_congr 2 0 (h.reg .edCurrent room (by decide) (by decide))
    (h.reg .edPinLag room (by decide) (by decide)) (h.touches .now (by simp)) (h.touches .search (by simp))
    (h.touches.device_eq (by simp) (by simp) (by simp))
  refine ⟨h.touches .now (by simp), ?_, fun r hr => ?_, fun p hp hn hk => ?_, h.regs,
    ((s.touches_floorNoted room).mono (by simp)).followed h.touches (by simp)⟩
  · rw [hed]
    exact sget_sput_self _ _ _
  · rw [hed]
    exact sget_sput_ne _ _ _ _ hr
  · rw [hframe]
    exact h.sends p (mem_setBits.2 ⟨hp, hn⟩) hk

/-! ### The visit of a clamp -/

section

variable {f first retiring : Edition} {rset : Bool}

/-- FIRST too far behind the floor becomes the floor, and RETIRING at or before it too (R193). -/
theorem clampStamps_far (hle : edLe first f = true) (hfar : 4096 ≤ (f - first).toNat) :
    clampStamps f rset first retiring = (f, if rset = true ∧ edLe retiring f = true then f else retiring) := by
  rw [clampStamps, if_pos (Bool.and_eq_true_iff.2 ⟨hle, decide_eq_true hfar⟩)]
  simp only [Bool.and_eq_true]

/-- FIRST after the floor, or less than 4,096 editions behind it, stays with RETIRING (R193). -/
theorem clampStamps_near (h : edLe first f = false ∨ (f - first).toNat < 4096) :
    clampStamps f rset first retiring = (first, retiring) := by
  refine if_neg fun hc => ?_
  obtain ⟨hle, hfar⟩ := Bool.and_eq_true_iff.1 hc
  rcases h with h | h
  · exact absurd (hle.symm.trans h) (by decide)
  · exact absurd (of_decide_eq_true hfar) (Nat.not_le.2 h)

end

/-! ### The visits of a pass to the records that `PfxEntry` keeps -/

/-- An entry after a visit with floor `f` (R193). -/
def PfxEntry.clamped (f : Edition) (e : PfxEntry) : PfxEntry :=
  { e with first := (clampStamps f e.rset e.first e.retiring).1, retiring := (clampStamps f e.rset e.first e.retiring).2 }

/-- A table after the visits to its records (R193). -/
def State.clampedTable (s : State) (t : Nat) : Table :=
  { s.table t with entries := (s.table t).entries.map (PfxEntry.clamped (s.floor (s.view.tbl t).room)) }

theorem State.clampPfx_direct {s : State} {t : Nat} (h : (s.view.pfx t).direct = true) : s.clampPfx t = s := if_pos h

theorem State.clampPfx_edition {s : State} {t : Nat} (h : (s.view.pfx t).direct = false) :
    s.clampPfx t = s.setTable t (s.clampedTable t) := if_neg (by simp [h])

/-- The edition tables listed have been visited, and nothing else has changed. -/
structure Clamped (l : List Nat) (s u : State) : Prop where
  rest : u = { s with tables := u.tables }
  takes : ∀ t ∈ l, (s.view.pfx t).direct = false → u.table t = s.clampedTable t
  others : ∀ t, t ∉ l ∨ (s.view.pfx t).direct = true → u.table t = s.table t

theorem tables_alone_trans {s t u : State} (h : t = { s with tables := t.tables }) (k : u = { t with tables := u.tables }) :
    u = { s with tables := u.tables } := by
  rw [h] at k
  exact k

theorem State.clamped_clampPfx (s : State) (t : Nat) : Clamped [t] s (s.clampPfx t) := by
  cases h : (s.view.pfx t).direct
  case true =>
    rw [State.clampPfx_direct h]
    refine ⟨rfl, fun j hj hd => ?_, fun _ _ => rfl⟩
    rw [List.mem_singleton.1 hj, h] at hd
    cases hd
  case false =>
    rw [State.clampPfx_edition h]
    refine ⟨rfl, fun j hj _ => ?_, fun j hj => State.table_setTable_ne s t j _ fun hjt => ?_⟩
    · rw [List.mem_singleton.1 hj]
      exact State.table_setTable s t _
    · rw [hjt, h] at hj
      exact hj.elim (fun hn => hn (List.mem_singleton.2 rfl)) nofun

theorem State.clamped_foldl (l : List Nat) (hl : l.Nodup) (s : State) : Clamped l s (l.foldl State.clampPfx s) := by
  induction l generalizing s with
  | nil => exact ⟨rfl, fun _ h => (List.not_mem_nil h).elim, fun _ _ => rfl⟩
  | cons t l ih =>
    obtain ⟨ht, hl⟩ := List.nodup_cons.1 hl
    have h1 := s.clamped_clampPfx t
    have h2 := ih hl (s.clampPfx t)
    have hview : (s.clampPfx t).view = s.view := by rw [h1.rest]; rfl
    have hfloor (r : Nat) : (s.clampPfx t).floor r = s.floor r := by rw [h1.rest]; rfl
    refine ⟨tables_alone_trans h1.rest h2.rest, fun j hj hd => ?_, fun j hj => ?_⟩
    · rcases List.mem_cons.1 hj with rfl | hj
      · rw [List.foldl_cons, h2.others j (.inl ht)]
        exact h1.takes j (List.mem_singleton.2 rfl) hd
      · have hne : j ∉ [t] := fun h => ht (List.mem_singleton.1 h ▸ hj)
        rw [List.foldl_cons, h2.takes j hj (by rw [hview]; exact hd), State.clampedTable, h1.others j (.inl hne), hview, hfloor,
          State.clampedTable]
    · rw [List.foldl_cons, h2.others j (hj.imp (fun h k => h (List.mem_cons_of_mem _ k)) fun h => by rw [hview]; exact h),
        h1.others j (hj.imp_left fun h k => h (List.mem_singleton.1 k ▸ List.mem_cons_self))]

/-! ### The marks of the rooms -/

theorem edMark_key_inj {r q : Nat} (h : Obj.edMark.key r = Obj.edMark.key q) : r = q := by
  simpa [Obj.key, Obj.index, Obj.row, regKey] using h

/-- ED_MARK of a room takes the floor that the room had when the pass began (R194). -/
def State.markFloor (s : State) (r : Nat) : State :=
  s.setReg .edMark r 0 0 (sget (fun _ => (0 : BitVec 16)) s.ed.passFloors r).toNat

/-- The marks of the rooms listed have been set, and nothing else has changed. -/
structure Marked (l : List Nat) (s u : State) : Prop where
  rest : u = { s with cat := { s.cat with regs := u.cat.regs } }
  marks : ∀ r ∈ l, u.reg .edMark r = (sget (fun _ => (0 : BitVec 16)) s.ed.passFloors r).toNat
  regs : RegsBut (l.map fun r => Obj.edMark.key r) s u
  touches : Touches [.regs] s u

theorem State.marked_foldl (l : List Nat) (s : State) (h16 : ∀ r ∈ l, r < 16) : Marked l s (l.foldl State.markFloor s) := by
  induction l generalizing s with
  | nil => exact ⟨rfl, fun _ h => (List.not_mem_nil h).elim, RegsBut.refl _ _, Touches.refl _ _⟩
  | cons r l ih =>
    obtain ⟨hrest, hmarks, hregs, htouch⟩ := ih (s.markFloor r) fun q hq => h16 q (List.mem_cons_of_mem _ hq)
    refine ⟨hrest, fun q hq => ?_, ?_, (touches_setReg s _ _ _ _ _).trans htouch⟩
    · by_cases hl : q ∈ l
      · exact hmarks q hl
      · obtain rfl := (List.mem_cons.1 hq).resolve_right hl
        have hkey : Obj.edMark.key q ∉ l.map fun r => Obj.edMark.key r := fun hm => by
          obtain ⟨p, hp, hpq⟩ := List.mem_map.1 hm
          exact hl (edMark_key_inj hpq ▸ hp)
        exact (hregs.reg .edMark q 0 0 (edKey_not_daybook (h16 q hq) rfl rfl (by decide)) hkey).trans (State.reg_setReg s _ _ _ _ _)
    · have h1 : RegsBut [Obj.edMark.key r] s (s.markFloor r) := regsBut_setReg s _ _ _ _ _
      exact (h1.mono (by simp)).trans (hregs.mono (by simp +contextual))

/-- The marks leave the floors as they are. -/
theorem Marked.floor {l : List Nat} {s u : State} (h : Marked l s u) (room : Nat) : u.floor room = s.floor room := by
  have hreg (o : Obj) (hs : o.row.sub < 256) (hd : o.row.sub ≠ 3 ∧ o.row.sub ≠ 5) (hm : o.row.sub ≠ 0x15) :
      u.reg o room = s.reg o room := by
    refine State.reg_of_regsBut h.regs o room hs hd fun k hk => ?_
    obtain ⟨q, -, rfl⟩ := List.mem_map.1 hk
    rw [Obj.key_sub .edMark q 0 0 (by decide) (by omega)]
    exact hm.symm
  exact State.floor_congr (hreg .edCurrent (by decide) (by decide) (by decide)) (hreg .edPinLag (by decide) (by decide) (by decide))
    (by rw [h.rest]) (by rw [h.rest])

/-! ### The end of a pass -/

theorem State.passDone_iff {s : State} : s.passDone = true ↔
    (∀ t ∈ s.view.tablesOf 0, s.headsLeft t = false) ∧ ∀ t ∈ s.view.tablesOf 1, s.recsHeld t = false := by
  simp [State.passDone]

/-- The end of a pass is the visits to the records of `PfxEntry`, the marks, and the floors with which the next pass begins. -/
structure PassEnds (s v w u : State) : Prop where
  visits : Clamped (s.view.tablesOf 1) s v
  marks : Marked (List.range 16) v w
  next : u = { w with ed := { w.ed with
    passFloors := (List.range 16).foldl (fun m r => sput (fun _ => 0) m r (w.floor r)) w.ed.passFloors, clampPos := [] } }

theorem State.passEnds_endPass (s : State) : ∃ v w, PassEnds s v w s.endPass :=
  ⟨_, _, s.clamped_foldl _ (View.tablesOf_nodup _ _), State.marked_foldl _ _ fun _ h => List.mem_range.1 h, rfl⟩

namespace PassEnds

variable {s v w u : State} (h : PassEnds s v w u)
include h

theorem ed_marked : w.ed = s.ed := by rw [h.marks.rest, h.visits.rest]

theorem floor_marked (room : Nat) : w.floor room = s.floor room :=
  (h.marks.floor room).trans (by rw [h.visits.rest]; rfl)

theorem passFloor {r : Nat} (hr : r < 16) : sget (fun _ => (0 : BitVec 16)) u.ed.passFloors r = s.floor r := by
  have hput := (puts_sput (d := fun _ => (0 : BitVec 16))).foldl_of_mem ((List.range 16).map fun r => (r, w.floor r))
    w.ed.passFloors r (w.floor r) (fun e he hk => ?_) ⟨_, List.mem_map.2 ⟨r, List.mem_range.2 hr, rfl⟩, rfl⟩
  · rw [List.foldl_map] at hput
    rw [h.next]
    exact hput.trans (h.floor_marked r)
  · obtain ⟨q, -, rfl⟩ := List.mem_map.1 he
    exact congrArg w.floor hk

theorem mark {r : Nat} (hr : r < 16) : u.reg .edMark r = (sget (fun _ => (0 : BitVec 16)) s.ed.passFloors r).toNat := by
  have hv : v.ed = s.ed := by rw [h.visits.rest]
  rw [h.next, ← hv]
  exact h.marks.marks r (List.mem_range.2 hr)

theorem table (t : Nat) : u.table t = v.table t := by
  rw [h.next, h.marks.rest]
  rfl

theorem touches : Touches [.regs, .ed, .tables] s u := by
  have h1 : Touches [.tables] s v := by
    rw [h.visits.rest]
    exact touches_tables s _
  have h2 : Touches [.ed] w u := by
    rw [h.next]
    exact touches_ed w _
  exact ((h1.mono (by simp)).followed h.marks.touches (by simp)).followed h2 (by simp)

theorem regs : RegsBut ((List.range 16).map fun r => Obj.edMark.key r) s u := by
  have h1 : RegsBut ((List.range 16).map fun r => Obj.edMark.key r) s v := RegsBut.of_eq _ (by rw [h.visits.rest])
  have h2 : RegsBut ((List.range 16).map fun r => Obj.edMark.key r) w u := RegsBut.of_eq _ (by rw [h.next])
  exact (h1.trans h.marks.regs).trans h2

end PassEnds

end Sys2Proof.Machine
end

section
open Sys2Proof Sys2Proof.Machine

/-- Settles O23: the notice goes with its frames, the clamp by its two guards, and the end of a pass is its visits, its marks and
the floors of the next. -/
theorem floorsAndClamps : Obligations.FloorsAndClamps := by
  refine ⟨?_, fun f first retiring rset => ⟨clampStamps_far, clampStamps_near⟩, fun s => ⟨fun hleft => ?_, fun hheads hrecs => ?_⟩⟩
  · intro s room f last
    exact ⟨fun h => editionFloor_unmoved h, fun h => ⟨_, editionFloor_moved h, s.floorNotified_spec room⟩⟩
  · have hdone : ¬ s.passDone = true := fun hd => by
      obtain ⟨hheads, hrecs⟩ := State.passDone_iff.1 hd
      rcases hleft with ⟨t, ht, hl⟩ | ⟨t, ht, hl⟩
      · exact absurd (hheads t ht) (by simp [hl])
      · exact absurd (hrecs t ht) (by simp [hl])
    exact congrArg Host.Outcome.next (if_neg hdone)
  · obtain ⟨v, w, h⟩ := s.passEnds_endPass
    have hed : s.endPass.ed = { s.ed with passFloors := s.endPass.ed.passFloors, clampPos := [] } := by
      rw [h.next, h.ed_marked]
    refine ⟨_, congrArg Host.Outcome.next (if_pos (State.passDone_iff.2 ⟨hheads, hrecs⟩)), fun r hr => ⟨h.mark hr, h.passFloor hr⟩,
      by rw [hed], by rw [hed], by rw [hed], fun t ht hd => ?_, fun t ht => ?_, h.regs, h.touches⟩
    · rw [h.table, h.visits.takes t ht hd]
      rfl
    · rw [h.table, h.visits.others t ht]

end

section
/-! Commands that come to their room's queue (R179 to R181, R190, R191, R323): where they join it, what a full queue does with
them, and the three ways by which they come. -/

namespace Sys2Proof.Machine

/-! ### Joining a queue -/

/-- A queued command of the cycle of `c` that has not started and whose source comes after that of `c` (R181). -/
def MqCmd.precedes (c x : MqCmd) : Prop := x.came = c.came ∧ x.started = false ∧ c.src.order < x.src.order

theorem joinQueue_precedes {c x : MqCmd} (h : c.precedes x) (l : List MqCmd) : joinQueue c (x :: l) = c :: x :: l := by
  obtain ⟨hcame, hstarted, horder⟩ := h
  simp [joinQueue, hcame, hstarted, horder]

theorem joinQueue_follows {c x : MqCmd} (h : ¬ c.precedes x) (l : List MqCmd) : joinQueue c (x :: l) = x :: joinQueue c l := by
  refine if_neg fun hx => h ?_
  simpa [MqCmd.precedes, and_assoc] using hx

theorem joinQueue_perm (c : MqCmd) (l : List MqCmd) : (joinQueue c l).Perm (c :: l) := by
  induction l with
  | nil => exact .refl _
  | cons x l ih =>
    by_cases h : c.precedes x
    · rw [joinQueue_precedes h]
    · rw [joinQueue_follows h]
      exact (ih.cons x).trans (.swap _ _ _)

theorem sublist_joinQueue (c : MqCmd) (l : List MqCmd) : l.Sublist (joinQueue c l) := by
  induction l with
  | nil => exact List.nil_sublist _
  | cons x l ih =>
    by_cases h : c.precedes x
    · rw [joinQueue_precedes h]
      exact List.sublist_cons_self _ _
    · rw [joinQueue_follows h]
      exact ih.cons_cons x

theorem mem_joinQueue {c x : MqCmd} {l : List MqCmd} : x ∈ joinQueue c l ↔ x = c ∨ x ∈ l :=
  (joinQueue_perm c l).mem_iff.trans List.mem_cons

/-- A command stands behind those that it does not precede and before the first that it precedes (R181). -/
theorem joinQueue_between {c : MqCmd} {before after : List MqCmd} (hb : ∀ x ∈ before, ¬ c.precedes x)
    (ha : ∀ x ∈ after.head?, c.precedes x) : joinQueue c (before ++ after) = before ++ c :: after := by
  induction before with
  | nil =>
    cases after with
    | nil => rfl
    | cons x l => exact joinQueue_precedes (ha x rfl) l
  | cons x l ih =>
    rw [List.cons_append, joinQueue_follows (hb x List.mem_cons_self), ih fun y hy => hb y (List.mem_cons_of_mem _ hy)]
    rfl

/-- A command whose source comes after every other joins its queue last (R181). -/
theorem joinQueue_last {c : MqCmd} {l : List MqCmd} (h : ∀ x ∈ l, x.src.order ≤ c.src.order) : joinQueue c l = l ++ [c] := by
  have := joinQueue_between (c := c) (before := l) (after := []) (fun x hx hp => absurd hp.2.2 (Nat.not_lt.2 (h x hx))) nofun
  rwa [List.append_nil] at this

/-! ### Queueing -/

/-- The command that a frame becomes when it joins its queue now (R181). -/
def State.newCmd (s : State) (room : Nat) (f : Frame) (src : CmdSrc) : MqCmd :=
  ⟨s.arb.nextId, room, f, src, s.now, false, none, [], [], [], [], [], [], none⟩

section

variable (s : State) (room : Nat) (f : Frame) (src : CmdSrc)

theorem State.queue_setQueue (l : List MqCmd) : (s.setQueue room l).queue room = l := sget_sput_self _ _ _

theorem State.queue_setQueue_ne {r : Nat} (l : List MqCmd) (h : r ≠ room) : (s.setQueue room l).queue r = s.queue r :=
  sget_sput_ne _ _ _ _ h

theorem State.queue_enqueue : (s.enqueue room f src).queue room = joinQueue (s.newCmd room f src) (s.queue room) :=
  State.queue_setQueue _ _ _

theorem State.queue_enqueue_ne {r : Nat} (h : r ≠ room) : (s.enqueue room f src).queue r = s.queue r :=
  State.queue_setQueue_ne _ _ _ h

theorem State.queue_enqueue_perm : ((s.enqueue room f src).queue room).Perm (s.newCmd room f src :: s.queue room) :=
  (s.queue_enqueue room f src).symm ▸ joinQueue_perm _ _

/-- A command that joins a queue leaves every register. -/
theorem State.reg_enqueue (o : Obj) (i : Nat) : (s.enqueue room f src).reg o i = s.reg o i := rfl

theorem State.regsBut_enqueue (ks : List Nat) : RegsBut ks s (s.enqueue room f src) := RegsBut.of_eq _ rfl

theorem State.touches_enqueue : Touches [.arb] s (s.enqueue room f src) := touches_arb s _

theorem State.queue_dequeue (id : Nat) : (s.dequeue room id).queue room = (s.queue room).filter fun c => c.id ≠ id :=
  State.queue_setQueue _ _ _

theorem State.queue_dequeue_ne {r : Nat} (id : Nat) (h : r ≠ room) : (s.dequeue room id).queue r = s.queue r :=
  State.queue_setQueue_ne _ _ _ h

theorem State.touches_dequeue (id : Nat) : Touches [.arb] s (s.dequeue room id) := touches_arb s _

/-- The queues follow the arbiter alone. -/
theorem State.queue_of_arb {b : State} (h : b.arb = s.arb) (r : Nat) : b.queue r = s.queue r := by
  rw [State.queue, h, State.queue]

/-- A command of a register, whose source comes after those of every port, joins its queue last (R181). -/
theorem State.enqueue_last {b : State} (h : b.arb = s.arb) (hsrc : src.order = 32) :
    let u := b.enqueue room f src
    ((∀ x ∈ s.queue room, x.src.order ≤ 32) → u.queue room = s.queue room ++ [b.newCmd room f src]) ∧
      (u.queue room).Perm (b.newCmd room f src :: s.queue room) ∧ ∀ r, r ≠ room → u.queue r = s.queue r := by
  simp only [← State.queue_of_arb s h]
  refine ⟨fun hlast => ?_, b.queue_enqueue_perm room f src, fun r hr => b.queue_enqueue_ne room f src hr⟩
  rw [State.queue_enqueue, joinQueue_last (c := b.newCmd room f src) fun x hx => (hlast x hx).trans_eq hsrc.symm]

/-! ### A full queue -/

/-- A frame of class 1 joins the transmitter of its port, or is discarded (R262). -/
theorem State.send1_frame (p : Nat) (d : TxDone) :
    Touches [.regs, .ports] s (s.send1 p f d) ∧ RegsBut [Obj.portTxDiscard.key p] s (s.send1 p f d) := by
  obtain ⟨ht, hr, -⟩ := State.txDrop_frame s p
  simp only [State.send1]
  split
  · exact ⟨(touches_setPort s p _).mono (by simp), RegsBut.of_eq _ rfl⟩
  · exact ⟨ht.mono (by simp), hr⟩

/-- Whether a frame of class 1 is kept depends on its port alone (R262). -/
theorem State.ports_send1 {u : State} (h : u.ports = s.ports) (p : Nat) (d : TxDone) :
    (u.send1 p f d).ports = (s.send1 p f d).ports := by
  have hp : u.port p = s.port p := by rw [State.port, h, State.port]
  have hdrop (v : State) : (v.txDrop p).ports = v.ports := (State.txDrop_frame v p).2.2
  simp only [State.send1, hp]
  split
  · simp only [State.setPort, h]
  · rw [hdrop, hdrop, h]

/-- A frame turned away is answered on its port as any frame is, beside the count (R181). -/
theorem State.ports_turnAway (p : Nat) :
    (s.turnAway room f (.port p)).ports = (s.send1 p (tcomp (tabHdr f.hdr) 0x55 true false 0 0 0 [])).ports :=
  s.ports_send1 (tcomp (tabHdr f.hdr) 0x55 true false 0 0 0 []) (u := s.bump .mqFull room) rfl p .none

/-- The registers of a reply image (R179, R180). -/
def replyKeys (room : Nat) : List Nat := (List.range 16).map fun i => Obj.tblReply.key room i

theorem sub_of_mem_replyKeys {room k : Nat} (h : k ∈ replyKeys room) : 0x20 ≤ k / 65536 % 256 := by
  obtain ⟨i, hi, rfl⟩ := List.mem_map.1 h
  have hrow : Obj.tblReply.row.sub = 0x20 := rfl
  have := List.mem_range.1 hi
  rw [Obj.key_sub .tblReply room i 0 (by omega) (by omega), hrow]
  omega

/-- The reply image and its status fill the command-register set of a room (R179, R180). -/
theorem State.replyReg_spec (status : Nat) :
    let u := s.replyReg room status f
    u.reg .tblStatus room = pack [(1, 0), (1, 1), (6, 0), (8, status), (4, f.body.length), (12, 0)] ∧
      RegsBut (Obj.tblStatus.key room :: replyKeys room) s u ∧ Touches [.regs] s u := by
  have fill (g : Nat → Nat) (l : List Nat) (v : State) :
      let u := l.foldl (fun s i => s.setReg .tblReply room i 0 (g i)) v
      RegsBut (l.map fun i => Obj.tblReply.key room i) v u ∧ Touches [.regs] v u := by
    induction l generalizing v with
    | nil => exact ⟨RegsBut.refl _ _, Touches.refl _ _⟩
    | cons i l ih =>
      obtain ⟨hregs, htouch⟩ := ih (v.setReg .tblReply room i 0 (g i))
      refine ⟨((regsBut_setReg v _ _ _ _ _).mono (by simp)).trans (hregs.mono fun k hk => ?_), (touches_setReg v _ _ _ _ _).trans htouch⟩
      exact List.mem_cons_of_mem _ hk
  obtain ⟨hregs, htouch⟩ := fill (fun i => ((f.hdr :: f.body).getD i 0).toNat) (List.range 16) s
  exact ⟨State.reg_setReg _ _ _ _ _ _, (hregs.mono fun k hk => List.mem_cons_of_mem _ hk).trans
    ((regsBut_setReg _ _ _ _ _ _).mono (by simp)), htouch.trans (touches_setReg _ _ _ _ _ _)⟩

/-- A command register turned away has its answer in its room's registers, and is counted (R180, R181). -/
theorem State.turnAway_reg :
    let u := s.turnAway room f .reg
    u.reg .tblStatus room = pack [(1, 0), (1, 1), (6, 0), (8, 0x55), (4, 0), (12, 0)] ∧
      RegsBut (Obj.mqFull.key room :: Obj.tblStatus.key room :: replyKeys room) s u ∧ Touches [.regs] s u := by
  obtain ⟨hstatus, hregs, htouch⟩ := (s.bump .mqFull room).replyReg_spec room (tcomp (tabHdr f.hdr) 0x55 true false 0 0 0 []) 0x55
  have hcount : RegsBut [Obj.mqFull.key room] s (s.bump .mqFull room) := regsBut_setReg s _ _ _ _ _
  exact ⟨hstatus, (hcount.mono (by simp)).trans (hregs.mono fun k hk => List.mem_cons_of_mem _ hk),
    (touches_setReg s _ _ _ _ _).trans htouch⟩

/-- A command turned away is counted and answered on its path (R180, R181). -/
theorem State.turnAway_spec :
    let u := s.turnAway room f src
    u.reg .mqFull room = wrapAdd 32 (s.reg .mqFull room) 1 ∧ Touches [.ports, .regs] s u := by
  have hcount : (s.bump .mqFull room).reg .mqFull room = wrapAdd 32 (s.reg .mqFull room) 1 := s.reg_bump _ _
  have htouch : Touches [.regs] s (s.bump .mqFull room) := touches_setReg s _ _ _ _ _
  have image (g : Frame) : ((s.bump .mqFull room).replyReg room 0x55 g).reg .mqFull room = wrapAdd 32 (s.reg .mqFull room) 1 ∧
      Touches [.ports, .regs] s ((s.bump .mqFull room).replyReg room 0x55 g) := by
    obtain ⟨-, hregs, hsent⟩ := (s.bump .mqFull room).replyReg_spec room g 0x55
    refine ⟨(State.reg_of_regsBut hregs .mqFull room (by decide) (by decide) fun k hk => ?_).trans hcount,
      (htouch.trans hsent).mono (by simp)⟩
    have hrow : Obj.mqFull.row.sub = 0x0B := rfl
    rcases List.mem_cons.1 hk with rfl | hk
    · rw [Obj.key_sub .tblStatus room 0 0 (by decide) (by omega)]
      decide
    · have := sub_of_mem_replyKeys hk
      omega
  cases src with
  | port p =>
    obtain ⟨hsent, hregs⟩ := (s.bump .mqFull room).send1_frame (tcomp (tabHdr f.hdr) 0x55 true false 0 0 0 []) p .none
    refine ⟨(State.reg_of_regsBut hregs .mqFull room (by decide) (by decide) fun k hk => ?_).trans hcount,
      (htouch.mono (by simp)).followed hsent (by simp)⟩
    rw [sub_portTxDiscard p k hk]
    decide
  | reg => exact image _
  | catalogue => exact image _

end

section

variable {s : State} {room : Nat} {f : Frame} {src : CmdSrc}

/-- A queue with room takes the command (R181). -/
theorem State.submit_joins (h : s.queueFull room = false) : s.submit room f src = s.enqueue room f src := by
  simp only [State.submit, h, Bool.not_false, if_true]

/-- A full queue that gives up no command turns the new one away (R181). -/
theorem State.submit_full (h : s.queueFull room = true) (hd : s.displaced room src = none) :
    s.submit room f src = s.turnAway room f src := by
  simp only [State.submit, h, hd, Bool.not_true, Bool.false_eq_true, if_false]

/-- A full queue gives up a command of the same cycle that goes behind the new one (R181). -/
theorem State.submit_displaces {x : MqCmd} (h : s.queueFull room = true) (hd : s.displaced room src = some x) :
    s.submit room f src = ((s.dequeue room x.id).turnAway room x.frame x.src).enqueue room f src := by
  simp only [State.submit, h, hd, Bool.not_true, Bool.false_eq_true, if_false]

/-- The command joins the queue that another has left (R181). -/
theorem State.submit_displaces_spec {x : MqCmd} (h : s.queueFull room = true) (hd : s.displaced room src = some x) :
    let t := s.submit room f src
    s.newCmd room f src ∈ t.queue room ∧ (∀ y ∈ s.queue room, y.id ≠ x.id → y ∈ t.queue room) ∧
      (∀ y ∈ t.queue room, y = s.newCmd room f src ∨ y.id ≠ x.id) ∧ (∀ r, r ≠ room → t.queue r = s.queue r) ∧
      t.reg .mqFull room = wrapAdd 32 (s.reg .mqFull room) 1 ∧ Touches [.ports, .regs, .arb] s t := by
  obtain ⟨hcount, htouch⟩ := (s.dequeue room x.id).turnAway_spec room x.frame x.src
  rw [State.submit_displaces h hd]
  generalize (s.dequeue room x.id).turnAway room x.frame x.src = a at hcount htouch
  have harb : a.arb = (s.dequeue room x.id).arb := htouch .arb (by simp)
  have hnow : a.now = s.now := htouch .now (by simp)
  have hcmd : a.newCmd room f src = s.newCmd room f src := by rw [State.newCmd, harb, hnow]; rfl
  have hqueue : a.queue room = (s.queue room).filter fun y => y.id ≠ x.id := by
    rw [State.queue, harb]
    exact s.queue_dequeue room x.id
  have hmem (y : MqCmd) : y ∈ (a.enqueue room f src).queue room ↔ y = s.newCmd room f src ∨ y ∈ s.queue room ∧ y.id ≠ x.id := by
    rw [State.queue_enqueue, mem_joinQueue, hcmd, hqueue, List.mem_filter, decide_eq_true_eq]
  refine ⟨(hmem _).2 (.inl rfl), fun y hy hid => (hmem y).2 (.inr ⟨hy, hid⟩), fun y hy => ((hmem y).1 hy).imp_right And.right,
    fun r hr => ?_, hcount, ?_⟩
  · rw [State.queue_enqueue_ne _ _ _ _ hr, State.queue, harb]
    exact s.queue_dequeue_ne room x.id hr
  · exact (((s.touches_dequeue room x.id).mono (by simp)).followed htouch (by simp)).followed (a.touches_enqueue room f src) (by simp)

/-- The source of a command register comes after every port, so none gives its place for one of it (R181). -/
theorem State.displaced_none (h : ∀ x ∈ s.queue room, x.src.order ≤ src.order) : s.displaced room src = none := by
  rw [State.displaced, List.filter_eq_nil_iff.2 fun x hx => ?_]
  · rfl
  · simp [Nat.not_lt.2 (h x hx)]

end

/-! ### TABLE_FRAME -/

section

variable {s s0 : State} {port : Fin 32} {f : Frame} (hh : s.dieHeld (dieOfPort port) = false) (hout : s.outFull port = false)
  (h0 : s0 = (s.takeRx port 1 f).completeDue)
include hh hout h0

theorem tableFrame_exec : exec (.tableFrame port f) s = .next (
    if !s0.portActs port (tabHdr f.hdr).room then
      (s0.authReject port (tabHdr f.hdr).room 4 (tabHdr f.hdr).ctag).send1 port (tcomp (tabHdr f.hdr) 0x5C true false 0 0 0 [])
    else s0.submit (tabHdr f.hdr).room f (.port port)) := by
  have hexec : exec (.tableFrame port f) s = execTableFrame port f s := rfl
  have hheld : s.heldFrame port 1 f = false := by simp [State.heldFrame, hh]
  simp only [hexec, execTableFrame, hheld, hout, ← h0, Bool.false_eq_true, if_false]
  split <;> rfl

/-- A frame of a port that acts for its room comes to the room's queue (R181, R323). -/
theorem tableFrame_comes (ha : s0.portActs port (tabHdr f.hdr).room = true) :
    exec (.tableFrame port f) s = .next (s0.submit (tabHdr f.hdr).room f (.port port)) := by
  rw [tableFrame_exec hh hout h0, ha]
  rfl

/-- A frame of a port without authority is answered PORT_ROOM (R323). -/
theorem tableFrame_unauthorised (ha : s0.portActs port (tabHdr f.hdr).room = false) :
    exec (.tableFrame port f) s = .next ((s0.authReject port (tabHdr f.hdr).room 4 (tabHdr f.hdr).ctag).send1 port
      (tcomp (tabHdr f.hdr) 0x5C true false 0 0 0 [])) := by
  rw [tableFrame_exec hh hout h0, ha]
  rfl

end

/-- The refusal of a port leaves its record and its answer (R323). -/
theorem State.portRoom_spec (s : State) (port room ctag : Nat) (f : Frame) (hr : room < 16) :
    let t := (s.authReject port room 4 ctag).send1 port f
    t.arb = s.arb ∧ (s.ringOpen room → t.recorded room .portAuthReject) ∧ Touches [.ports, .regs] s t := by
  have hrec : OnlyRecords s (s.authReject port room 4 ctag) :=
    onlyRecords_record s .portAuthReject (some room) _ _ _ fun r h => Option.some.inj h ▸ hr
  obtain ⟨hsent, -⟩ := (s.authReject port room 4 ctag).send1_frame f port .none
  have htouch : Touches [.ports, .regs] s _ := (hrec.touches _).followed hsent (by simp)
  exact ⟨htouch .arb (by simp), fun ho => (State.recorded_room _ _ _ rfl ho).of_touches hsent (by simp), htouch⟩

/-! ### TBL_CMD and ED_ADVANCE -/

section

variable {s : State} {m : Master} {room : Fin 16}

theorem tblCmd_writeCode {v : BitVec 32} (w : s.CanWrite m .tblCmd room) :
    s.writeCode m ⟨.tblCmd, room, 0⟩ (Obj.tblCmd.row.ty.bytes v.toNat) = if v.toNat % 2 ^ 27 ≠ 0 then Ab.range else 0 :=
  (State.writeCode_of_canWrite w (by decide) (by decide) v.isLt (fun _ _ => rfl) rfl).trans (by simp [State.outOfRange])

theorem writes_tblCmd {v : BitVec 32} (w : s.CanWrite m .tblCmd room) (h : v.toNat % 2 ^ 27 = 0) :
    Writes (.tblCmd m room v) s m .tblCmd room (s.wrTblCmd room v.toNat).2 (s.wrTblCmd room v.toNat).1 := by
  refine Writes.of_performed (r := .of m .tblCmd room v.toNat) rfl rfl w rfl ((tblCmd_writeCode w).trans (if_neg (not_not.2 h))) ?_
  show s.performWrite m ⟨.tblCmd, room, 0⟩ (Obj.tblCmd.row.ty.bytes v.toNat) = _
  simp only [State.performWrite, State.writeRooms, OType.value_bytes Obj.tblCmd.row.ty v.toNat v.isLt]

theorem writes_tblCmd_range {v : BitVec 32} (w : s.CanWrite m .tblCmd room) (h : v.toNat % 2 ^ 27 ≠ 0) :
    Writes (.tblCmd m room v) s m .tblCmd room Ab.range s :=
  Writes.of_refused (r := .of m .tblCmd room v.toNat) rfl rfl w rfl ((tblCmd_writeCode w).trans (if_pos h)) (by decide)

theorem writes_edAdvance {e : BitVec 16} (w : s.CanWrite m .edAdvance room) :
    Writes (.edAdvance m room e) s m .edAdvance room (s.queueAdvance room e.toNat).2 (s.queueAdvance room e.toNat).1 := by
  have hcode : s.writeCode m ⟨.edAdvance, room, 0⟩ (Obj.edAdvance.row.ty.bytes e.toNat) = 0 :=
    (State.writeCode_of_canWrite w (by decide) (by decide) e.isLt (fun _ _ => rfl) rfl).trans
      (by simp [State.outOfRange, Obj.reservedSet])
  refine Writes.of_performed (r := .of m .edAdvance room e.toNat) rfl rfl w rfl hcode ?_
  show s.performWrite m ⟨.edAdvance, room, 0⟩ (Obj.edAdvance.row.ty.bytes e.toNat) = _
  simp only [State.performWrite, State.writeRooms, OType.value_bytes Obj.edAdvance.row.ty e.toNat e.isLt]

end

/-- The state of a TBL_CMD with its value kept (R179). -/
def State.commanded (s : State) (room v : Nat) : State := s.setReg .tblCmd room 0 0 (v % 2 ^ 31)

section

variable {s s0 : State} {room v : Nat} (h0 : s0 = s.completeDue)
include h0

theorem State.wrTblCmd_busy (h : s0.regBusy room = true) : s.wrTblCmd room v = (s, Ab.cmdBusy) := by
  subst h0
  exact if_pos h

theorem State.wrTblCmd_idle (h : s0.regBusy room = false) (hg : nbit v 31 = false) :
    s.wrTblCmd room v = (s0.commanded room v, 0) := by
  rw [State.wrTblCmd]
  simp only [← h0, h, hg, Bool.false_eq_true, if_false]
  rfl

theorem State.wrTblCmd_go (h : s0.regBusy room = false) (hg : nbit v 31 = true) : s.wrTblCmd room v =
    ((s0.commanded room v).queueImage room ((s0.commanded room v).stagedFrame room (bits v 30 27 + 1)), 0) := by
  rw [State.wrTblCmd]
  simp only [← h0, h, hg, Bool.false_eq_true, if_false, if_true]
  rfl

end

theorem stagedFrame_length (s : State) (room n : Nat) : (s.stagedFrame room (n + 1)).body.length = n := by
  simp [State.stagedFrame, linkFrame]

/-- Marks the room's command registers as busy (R179). -/
def State.busied (s : State) (room : Nat) : State := s.setReg .tblStatus room 0 0 (2 ^ 31)

section

variable {s : State} {room v : Nat} {f : Frame}

theorem State.arb_busied : ((s.commanded room v).busied room).arb = s.arb := by
  rw [State.busied, State.setReg_arb, State.commanded, State.setReg_arb]

theorem State.queueFull_of_arb {b : State} (h : b.arb = s.arb) (r : Nat) : b.queueFull r = s.queueFull r := by
  rw [State.queueFull, s.queue_of_arb h, State.queueFull]

theorem State.queueImage_joins (h : s.queueFull room = false) :
    (s.commanded room v).queueImage room f = ((s.commanded room v).busied room).enqueue room f .reg :=
  State.submit_joins ((State.queueFull_of_arb State.arb_busied room).trans h)

theorem State.queueImage_full (h : s.queueFull room = true) (hlast : ∀ x ∈ s.queue room, x.src.order ≤ 32) :
    (s.commanded room v).queueImage room f = ((s.commanded room v).busied room).turnAway room f .reg := by
  have hqueue : ((s.commanded room v).busied room).queue room = s.queue room := s.queue_of_arb State.arb_busied room
  exact State.submit_full ((State.queueFull_of_arb State.arb_busied room).trans h)
    (State.displaced_none (src := .reg) (hqueue.symm ▸ hlast))

end

section

variable (s : State) (room v : Nat)

theorem State.regsBut_busied : RegsBut [Obj.tblCmd.key room, Obj.tblStatus.key room] s ((s.commanded room v).busied room) :=
  ((regsBut_setReg s .tblCmd room 0 0 (v % 2 ^ 31)).mono (by simp)).trans
    ((regsBut_setReg (s.commanded room v) .tblStatus room 0 0 (2 ^ 31)).mono (by simp))

theorem State.regBusy_busied : (s.busied room).regBusy room = true := by
  rw [State.regBusy, State.busied, State.reg_setReg]
  decide

theorem State.mqFull_busied : ((s.commanded room v).busied room).reg .mqFull room = s.reg .mqFull room := by
  refine State.reg_of_regsBut (s.regsBut_busied room v) .mqFull room (by decide) (by decide) fun k hk => ?_
  have htbl : ∀ o ∈ [Obj.tblCmd, Obj.tblStatus], o.key room / 65536 % 256 ≠ Obj.mqFull.row.sub := fun o ho => by
    simp only [List.mem_cons, List.not_mem_nil, or_false] at ho
    rcases ho with rfl | rfl <;> rw [Obj.key_sub _ _ _ _ (by decide) (by omega)] <;> decide
  simp only [List.mem_cons, List.not_mem_nil, or_false] at hk
  rcases hk with rfl | rfl
  · exact htbl _ (by simp)
  · exact htbl _ (by simp)

theorem State.touches_busied : Touches [.regs] s ((s.commanded room v).busied room) :=
  (touches_setReg s .tblCmd room 0 0 (v % 2 ^ 31)).trans (touches_setReg (s.commanded room v) .tblStatus room 0 0 (2 ^ 31))

end

/-- An image that joins its queue leaves its room's command registers busy (R179, R181). -/
theorem State.busied_enqueue_spec (s : State) (room v : Nat) (f : Frame) :
    let u := ((s.commanded room v).busied room).enqueue room f .reg
    u.regBusy room = true ∧ RegsBut [Obj.tblCmd.key room, Obj.tblStatus.key room] s u ∧ Touches [.regs, .arb] s u := by
  refine ⟨?_, (s.regsBut_busied room v).trans (State.regsBut_enqueue _ _ _ _ _),
    ((s.touches_busied room v).mono (by simp)).followed (State.touches_enqueue _ room f .reg) (by simp)⟩
  rw [State.regBusy, State.reg_enqueue]
  exact State.regBusy_busied _ _

/-- An image that finds its queue full leaves its room's command registers ready, with the answer in them (R179, R180). -/
theorem State.busied_turnAway_spec (s : State) (room v : Nat) (f : Frame) :
    let u := ((s.commanded room v).busied room).turnAway room f .reg
    u.regBusy room = false ∧ u.reg .mqFull room = wrapAdd 32 (s.reg .mqFull room) 1 ∧ bits (u.reg .tblStatus room) 23 16 = 0x55 ∧
      RegsBut ([Obj.tblCmd.key room, Obj.tblStatus.key room, Obj.mqFull.key room] ++ replyKeys room) s u ∧ Touches [.regs] s u := by
  obtain ⟨hstatus, hregs, htouch⟩ := ((s.commanded room v).busied room).turnAway_reg room f
  obtain ⟨hcount, -⟩ := ((s.commanded room v).busied room).turnAway_spec room f .reg
  refine ⟨?_, hcount.trans (by rw [State.mqFull_busied]), ?_, ?_, (s.touches_busied room v).trans htouch⟩
  · rw [State.regBusy, hstatus]
    decide
  · rw [hstatus]
    decide
  · exact ((s.regsBut_busied room v).mono (by simp)).trans (hregs.mono fun k hk => by
      simp only [List.mem_cons, List.mem_append, List.not_mem_nil, or_false] at hk ⊢
      exact hk.elim (fun h => .inl (.inr (.inr h))) fun hk => hk.elim (fun h => .inl (.inr (.inl h))) .inr)

theorem advanceImage_hdr (room : Nat) (e : BitVec 16) : (tabHdr (advanceImage room e.toNat).hdr).op = opAdvance ∧
    (tabHdr (advanceImage room e.toNat).hdr).aux = e.toNat := by
  have he := e.isLt
  simp -implicitDefEqProofs only [advanceImage, opAdvance, tabHdr, granule, pack, fld, bits, List.foldl_cons, List.foldl_nil, BitVec.toNat_ofNat, Nat.reduceAdd,
    Nat.reduceSub, Nat.reducePow]
  omega

/-- The state of an ED_ADVANCE with BUSY set (R191). -/
def State.advBusied (s : State) (room : Nat) : State :=
  s.setReg .edAdvStatus room 0 0 (2 ^ 31 + s.reg .edAdvStatus room % 2 ^ 31)

theorem State.advBusy_advBusied (s : State) (room : Nat) : (s.advBusied room).advBusy room = true := by
  rw [State.advBusy, State.advBusied, State.reg_setReg, nbit, beq_iff_eq]
  omega

/-- An ADVANCE that joins its queue leaves the status of ED_ADVANCE busy (R181, R191). -/
theorem State.advBusied_enqueue_spec (s : State) (room : Nat) (f : Frame) :
    let u := (s.advBusied room).enqueue room f .catalogue
    u.advBusy room = true ∧ RegsBut [Obj.edAdvStatus.key room] s u ∧ Touches [.regs, .arb] s u :=
  ⟨s.advBusy_advBusied room, (regsBut_setReg s .edAdvStatus room 0 0 _).trans (State.regsBut_enqueue _ room f .catalogue _),
    ((touches_setReg s .edAdvStatus room 0 0 _).mono (by simp)).followed (State.touches_enqueue _ room f .catalogue) (by simp)⟩

section

variable {s s0 : State} {room e : Nat} (h0 : s0 = s.completeDue)
include h0

theorem State.queueAdvance_full (h : s0.queueFull room = true) : s.queueAdvance room e = (s0.bump .mqFull room, Ab.cmdBusy) := by
  subst h0
  exact if_pos h

theorem State.queueAdvance_busy (h : s0.queueFull room = false) (hb : s0.advBusy room = true) :
    s.queueAdvance room e = (s, Ab.cmdBusy) := by
  rw [State.queueAdvance]
  simp only [← h0, h, hb, Bool.false_eq_true, if_false, if_true]

theorem State.queueAdvance_joins (h : s0.queueFull room = false) (hb : s0.advBusy room = false) :
    s.queueAdvance room e = ((s0.advBusied room).enqueue room (advanceImage room e) .catalogue, 0) := by
  rw [State.queueAdvance]
  simp only [← h0, h, hb, Bool.false_eq_true, if_false]
  rfl

end

end Sys2Proof.Machine
end

section
open Sys2Proof Sys2Proof.Machine

/-- Settles O15: each of the three ways ends in the queue, in a command turned away, or in a refusal that queues nothing. -/
theorem commandsQueue : Obligations.CommandsQueue := by
  refine ⟨?_, ?_⟩
  · intro s s0 port f hh hout h0 room c
    refine ⟨fun ha hfull => ?_, fun ha hfull hd => ?_, fun x ha hfull hd => ?_, fun ha => ?_⟩
    · refine ⟨_, (tableFrame_comes hh hout h0 ha).trans (congrArg _ (State.submit_joins hfull)), State.queue_enqueue_perm _ _ _ _, ?_,
        fun before after hq hb hafter => ?_, fun r hr => State.queue_enqueue_ne _ _ _ _ hr, rfl, State.touches_enqueue _ _ _ _⟩
      · rw [State.queue_enqueue]
        exact sublist_joinQueue _ _
      · rw [State.queue_enqueue, hq]
        refine joinQueue_between (fun x hx hp => ?_) hafter
        obtain ⟨hcame, hstarted, horder⟩ := hp
        rcases hb x hx with h | h | h
        · exact h hcame
        · exact absurd (hstarted.symm.trans h) (by decide)
        · exact absurd horder (Nat.not_lt.2 h)
    · obtain ⟨hcount, htouch⟩ := s0.turnAway_spec room f (.port port)
      exact ⟨_, (tableFrame_comes hh hout h0 ha).trans (congrArg _ (State.submit_full hfull hd)), htouch .arb (by simp), hcount,
        State.ports_turnAway _ _ _ _, htouch⟩
    · exact ⟨_, tableFrame_comes hh hout h0 ha, State.submit_displaces_spec hfull hd⟩
    · exact ⟨_, tableFrame_unauthorised hh hout h0 ha, State.portRoom_spec _ _ _ _ _ (tabHdr_room_lt _)⟩
  · intro s s0 m room h0
    refine ⟨fun v w hv => ?_, fun v w hv => writes_tblCmd_range w hv, fun e w => ?_⟩
    · have hw := writes_tblCmd w hv
      refine ⟨fun hb => ?_, fun hb hg => ?_, fun hb hg hfull => ?_, fun hb hg hfull hlast => ?_⟩
      · rwa [State.wrTblCmd_busy h0 hb] at hw
      · rwa [State.wrTblCmd_idle h0 hb hg] at hw
      · rw [State.wrTblCmd_go h0 hb hg, State.queueImage_joins hfull] at hw
        obtain ⟨hbusy, hregs, htouch⟩ := s0.busied_enqueue_spec room v.toNat
          ((s0.commanded room v.toNat).stagedFrame room (bits v.toNat 30 27 + 1))
        obtain ⟨hlast, hperm, hothers⟩ := s0.enqueue_last room
          ((s0.commanded room v.toNat).stagedFrame room (bits v.toNat 30 27 + 1)) .reg (State.arb_busied (v := v.toNat)) rfl
        exact ⟨_, _, hw, hlast, hperm, hothers, rfl, rfl, stagedFrame_length _ _ _, hbusy, hregs, htouch⟩
      · rw [State.wrTblCmd_go h0 hb hg, State.queueImage_full hfull hlast] at hw
        exact ⟨_, hw, s0.busied_turnAway_spec room v.toNat _⟩
    · have hw := writes_edAdvance w (e := e)
      refine ⟨fun hfull hb => ?_, fun hfull => ?_, fun hfull hb => ?_⟩
      · rwa [State.queueAdvance_busy h0 hfull hb] at hw
      · rw [State.queueAdvance_full h0 hfull] at hw
        exact ⟨_, hw, State.reg_bump _ _ _, regsBut_setReg _ _ _ _ _ _, touches_setReg _ _ _ _ _ _⟩
      · rw [State.queueAdvance_joins h0 hfull hb] at hw
        obtain ⟨hop, haux⟩ := advanceImage_hdr room e
        obtain ⟨hbusy, hregs, htouch⟩ := s0.advBusied_enqueue_spec room (advanceImage room e.toNat)
        obtain ⟨hlast, hperm, hothers⟩ := s0.enqueue_last (b := s0.advBusied room) room (advanceImage room e.toNat) .catalogue rfl rfl
        exact ⟨_, _, hw, hlast, hperm, hothers, rfl, hop, haux, hbusy, hregs, htouch⟩

end

section
/-! The addressed memories, the pools and what goes with them (R201, R205, R223, R235): every operation of the machine but those
that allot blocks or write, tally or clear words leaves `mem` as it is. One lemma for each operation, in the order of the model's
files, as for the queue of waiting commands. -/

namespace Sys2Proof.Machine

variable (s : State)

/-! ### Choices and folds -/

@[simp] theorem ite_mem (c : Prop) [Decidable c] (t u : State) :
    (if c then t else u).mem = if c then t.mem else u.mem :=
  apply_ite State.mem c t u

@[simp] theorem ite_fst_mem {α : Type} (c : Prop) [Decidable c] (t u : State × α) :
    (if c then t else u).1.mem = if c then t.1.mem else u.1.mem :=
  apply_ite (fun x : State × α => x.1.mem) c t u

@[simp] theorem ite_snd_mem {α : Type} (c : Prop) [Decidable c] (t u : α × State) :
    (if c then t else u).2.mem = if c then t.2.mem else u.2.mem :=
  apply_ite (fun x : α × State => x.2.mem) c t u

@[simp] theorem foldl_mem {α : Type} {f : State → α → State} (h : ∀ u a, (f u a).mem = u.mem)
    (l : List α) (s : State) : (l.foldl f s).mem = s.mem := by
  induction l generalizing s with
  | nil => rfl
  | cons a l ih => exact (ih _).trans (h s a)

@[simp] theorem foldl_fst_mem {α β : Type} {f : State × β → α → State × β}
    (h : ∀ x a, (f x a).1.mem = x.1.mem) (l : List α) (x : State × β) :
    (l.foldl f x).1.mem = x.1.mem := by
  induction l generalizing x with
  | nil => rfl
  | cons a l ih => exact (ih _).trans (h x a)

/-! ### Shared operations -/

@[simp] theorem State.fromLink_mem (p : Nat) (f : Frame) (age : Nat) :
    (s.fromLink p f age).2.mem = s.mem := by
  simp only [State.fromLink]
  split <;> simp

@[simp] theorem State.txDrop_mem (p : Nat) : (s.txDrop p).mem = s.mem := by simp [State.txDrop]

@[simp] theorem State.send1_mem (p : Nat) (f : Frame) (done : TxDone) : (s.send1 p f done).mem = s.mem := by
  simp [State.send1]

@[simp] theorem State.send2_mem (p : Nat) (f : Frame) (done : TxDone) : (s.send2 p f done).mem = s.mem := by
  simp [State.send2]

@[simp] theorem State.send3_mem (p : Nat) (f : Frame) : (s.send3 p f).mem = s.mem := by simp [State.send3]

@[simp] theorem State.deliver_mem (ring : Nat) (seq : BitVec 16) (x : Rec) :
    (s.deliver ring seq x).mem = s.mem := by
  simp [State.deliver]

@[simp] theorem State.toRing_mem (r : Nat) (x : Rec) : (s.toRing r x).mem = s.mem := by simp [State.toRing]

@[simp] theorem State.record_mem (c : Code) (room : Option Nat) (source : Nat) (fields : List (Nat × Nat))
    (dir : Nat) : (s.record c room source fields dir).mem = s.mem := by
  simp only [State.record]
  (repeat' split) <;> simp

@[simp] theorem State.overflow_mem (r : Nat) : (s.overflow r).mem = s.mem := by simp [State.overflow]

@[simp] theorem State.ackRing_mem (r : Nat) (seq : BitVec 16) : (s.ackRing r seq).mem = s.mem := by
  simp -implicitDefEqProofs only [State.ackRing, ite_mem, ite_self, foldl_mem, State.toRing_mem,
    State.setReg_mem, State.setRing_mem, State.overflow_mem, implies_true]

/-! ### Fault causes -/

@[simp] theorem State.settleBit_mem (b : Nat) (present : Bool) : (s.settleBit b present).mem = s.mem := by
  simp [State.settleBit]

@[simp] theorem State.settleBits_mem (b : Nat) (l : List Bool) : (s.settleBits b l).mem = s.mem := by
  induction l generalizing s b with
  | nil => rfl
  | cons p t ih => simp [State.settleBits, ih]

@[simp] theorem State.settleFaults_mem : s.settleFaults.mem = s.mem := s.settleBits_mem 0 _

/-! ### Lookups -/

/-! ### Lanes -/

@[simp] theorem State.closeBlock_mem (p : Nat) : (s.closeBlock p).mem = s.mem := by simp [State.closeBlock]

@[simp] theorem State.fillRun_mem (p : Nat) (f : Granule × Bool) (n : Nat) :
    (s.fillRun p f n).mem = s.mem := by
  simp [State.fillRun]

@[simp] theorem State.fillBlocks_mem (p : Nat) (f : Granule × Bool) (n : Nat) :
    (s.fillBlocks p f n).mem = s.mem := by
  simp [State.fillBlocks]

@[simp] theorem State.fillTo_mem (p k : Nat) : (s.fillTo p k).mem = s.mem := by
  simp only [State.fillTo]
  split <;> simp

@[simp] theorem State.payHello_mem (p k : Nat) : (s.payHello p k).mem = s.mem := by simp [State.payHello]

@[simp] theorem State.padTo_mem (p k : Nat) : (s.padTo p k).mem = s.mem := by simp [State.padTo]

@[simp] theorem State.putGranule_mem (p : Nat) (g : Granule) (head : Bool) :
    (s.putGranule p g head).mem = s.mem := by
  simp [State.putGranule]

@[simp] theorem State.putBody_mem (p : Nat) (l : List Granule) : (s.putBody p l).mem = s.mem := by
  induction l generalizing s with
  | nil => rfl
  | cons g t ih => simp [State.putBody, ih]

@[simp] theorem State.putOn_mem (p k : Nat) (f : Frame) : (s.putOn p k f).mem = s.mem := by
  simp [State.putOn]

/-! ### Cascade records -/

@[simp] theorem takeRec_mem (c : CasPart) (ed : Edition) (g : Granule) :
    (takeRec c ed g s).2.mem = s.mem := by
  simp [takeRec]

@[simp] theorem takeRecs_mem (c : CasPart) (ed : Edition) (l : List Granule) :
    (takeRecs c ed l s).2.mem = s.mem := by
  induction l generalizing c s with
  | nil => rfl
  | cons g t ih => simp [takeRecs, ih]

@[simp] theorem Inflight.absorb_mem (x : Inflight) (h : CandHdr) (body : List Granule) :
    (x.absorb h body s).2.mem = s.mem := by
  simp only [Inflight.absorb]
  split <;> simp

@[simp] theorem absorbPending_mem (x : Inflight) (l : List PendCand) :
    (absorbPending x l s).2.2.mem = s.mem := by
  induction l generalizing x s with
  | nil => rfl
  | cons p t ih =>
    simp only [absorbPending]
    (repeat' split) <;> simp [ih]

/-! ### Rooms and reductions -/

@[simp] theorem State.planReduction_mem : s.planReduction.mem = s.mem := by simp [State.planReduction]

@[simp] theorem State.degradeRoom_mem (room : Nat) : (s.degradeRoom room).mem = s.mem := by
  simp only [State.degradeRoom]
  split <;> simp

@[simp] theorem State.undegrade_mem (die room : Nat) : (State.undegrade die s room).mem = s.mem := by
  simp [State.undegrade]

@[simp] theorem State.updateDegraded_mem (die : Nat) : (s.updateDegraded die).mem = s.mem := by
  simp [State.updateDegraded]

@[simp] theorem State.loseUnits_mem (units : List Nat) (cause what : Nat) :
    (s.loseUnits units cause what).mem = s.mem := by
  simp [State.loseUnits]

@[simp] theorem State.applyRota_mem (q : Store Nat) : (s.applyRota q).mem = s.mem := by
  simp [State.applyRota]

@[simp] theorem State.unreduce_mem (room : Nat) : (s.unreduce room).mem = s.mem := by simp [State.unreduce]

@[simp] theorem State.shedRoom_mem (x : Nat × Nat × Nat × Nat) : (s.shedRoom x).mem = s.mem := by
  simp [State.shedRoom]

@[simp] theorem State.reduceMark_mem (room : Nat) : (s.reduceMark room).mem = s.mem := by
  simp [State.reduceMark]

@[simp] theorem State.rotaApplied_mem (cause : Nat) : (s.rotaApplied cause).mem = s.mem := by
  simp [State.rotaApplied]

/-! ### Repair -/

@[simp] theorem State.fence_mem (b : Nat) : (s.fence b).mem = s.mem := by simp [State.fence]

@[simp] theorem State.updateWaits_mem : s.updateWaits.mem = s.mem := by simp [State.updateWaits]

@[simp] theorem State.endColPass_mem : s.endColPass.mem = s.mem := by simp [State.endColPass]

@[simp] theorem State.dropTest_mem (l : Nat) : (s.dropTest l).mem = s.mem := by simp [State.dropTest]

@[simp] theorem State.loseBay_mem (l b cause : Nat) : (s.loseBay l b cause).mem = s.mem := by
  simp [State.loseBay]

@[simp] theorem State.failBay_mem (b cause : Nat) : (s.failBay b cause).mem = s.mem := by
  simp only [State.failBay]
  (repeat' split) <;> simp

@[simp] theorem State.pfxUncorr_mem (w : MemWord) : (s.pfxUncorr w).mem = s.mem := by
  simp only [State.pfxUncorr]
  split <;> simp

@[simp] theorem State.loseRecord_mem (ring : Nat) (seq : BitVec 16) :
    (s.loseRecord ring seq).mem = s.mem := by
  simp only [State.loseRecord]
  split <;> simp

@[simp] theorem State.treatUncorr_mem (w : MemWord) : (s.treatUncorr w).mem = s.mem := by
  simp only [State.treatUncorr]
  (repeat' split) <;> simp

@[simp] theorem State.foundUncorr_mem (w : MemWord) : (s.foundUncorr w).mem = s.mem := by
  simp [State.foundUncorr]

@[simp] theorem State.foundAll_mem (l : List MemWord) : (s.foundAll l).mem = s.mem := by
  simp [State.foundAll]

/-! ### Search pipelines -/

@[simp] theorem State.clash_mem (port : Nat) (h : SearchHdr) (status : Nat) :
    (s.clash port h status).mem = s.mem := by
  simp [State.clash]

@[simp] theorem State.errorResult_mem (v : View) (port a : Nat) (h : SearchHdr) (status : Nat) :
    (s.errorResult v port a h status).mem = s.mem := by
  simp [State.errorResult]

@[simp] theorem State.launch_mem (x : Inflight) : (s.launch x).mem = s.mem := by simp [State.launch]

@[simp] theorem State.reject_mem (v : View) (port a t status : Nat) (h : SearchHdr) (set : Option Nat) :
    (s.reject v port a t status h set).mem = s.mem := by
  simp only [State.reject]
  split <;> simp

@[simp] theorem State.accept_mem (v : View) (port a t : Nat) (h : SearchHdr) (key : List Byte) (set : Option Nat) :
    (s.accept v port a t h key set).mem = s.mem := by
  simp only [State.accept]
  (repeat' split) <;> simp

@[simp] theorem State.intake_mem (port a t : Nat) (f : Frame) : (s.intake port a t f).mem = s.mem := by
  simp only [State.intake]
  (repeat' split) <;> simp

@[simp] theorem State.stampHit_mem (c : Nat) (d : EmDesc) (n key : Nat) :
    (s.stampHit c d n key).mem = s.mem := by
  simp [State.stampHit]

@[simp] theorem State.putStamp_mem (i : Nat) (hit : Bool) (ins last : Nat) :
    (s.putStamp i hit ins last).mem = s.mem := by
  simp -implicitDefEqProofs [State.putStamp]

@[simp] theorem State.fixStamp_mem (i : Nat) : (s.fixStamp i).mem = s.mem := by
  simp -implicitDefEqProofs [State.fixStamp]

@[simp] theorem State.soundStamp_mem (i : Nat) : (s.soundStamp i).mem = s.mem := by simp [State.soundStamp]

@[simp] theorem State.stampHits_mem (t : Nat) : (s.stampHits t).mem = s.mem := by simp [State.stampHits]

@[simp] theorem State.lookupError_mem (x : Inflight) (i cause unit : Nat) :
    (s.lookupError x i cause unit).mem = s.mem := by
  simp [State.lookupError]

@[simp] theorem State.settle_mem (x : Inflight) (i : Nat) (f : Found) : (s.settle x i f).1.mem = s.mem := by
  simp only [State.settle]
  (repeat' split) <;> simp

@[simp] theorem State.settleShard_mem (x : Inflight) (i : Nat) (f : Found) :
    (s.settleShard x i f).1.mem = s.mem := by
  simp only [State.settleShard]
  split <;> simp

@[simp] theorem compareLookup_mem (c : Nat) (x : Inflight) (r : State × List (Nat × Found)) (i : Nat) :
    (compareLookup c x r i).1.mem = r.1.mem := by
  simp only [compareLookup]
  (repeat' split) <;> simp

@[simp] theorem runLookup_mem (c : Nat) (front : List (Nat × Found)) (r : State × Inflight) (i : Nat) :
    (runLookup c front r i).1.mem = r.1.mem := by
  simp only [runLookup]
  (repeat' split) <;> simp

@[simp] theorem State.strayHits_mem (v : View) (stray : List (Fin 68)) :
    (s.strayHits v stray).mem = s.mem := by
  simp only [State.strayHits]
  split <;> simp

@[simp] theorem State.compareStage_mem (x : Inflight) (uncorr : List MemWord) (stray : List (Fin 68)) :
    (s.compareStage x uncorr stray).1.mem = s.mem := by
  simp only [State.compareStage]
  split <;> simp

@[simp] theorem State.handCand_mem (x : Inflight) (c : CasPart) (f : Frame) :
    (s.handCand x c f).mem = s.mem := by
  simp only [State.handCand]
  split <;> simp

@[simp] theorem State.mergeOut_mem (x : Inflight) (w : CandRec) (i : Nat) (ptrOk : Bool) :
    (s.mergeOut x w i ptrOk).1.mem = s.mem := by
  simp [State.mergeOut]

@[simp] theorem State.retire_mem (x : Inflight) : (s.retire x).mem = s.mem := by simp [State.retire]

@[simp] theorem State.sendResult_mem (port due : Nat) (f : Frame) :
    (s.sendResult port due f).mem = s.mem := by
  simp [State.sendResult]

/-! ### Replies of table commands -/

@[simp] theorem State.dequeue_mem (room id : Nat) : (s.dequeue room id).mem = s.mem := by
  simp [State.dequeue]

@[simp] theorem State.sendTcomps_mem (p room id : Nat) (l : List Frame) :
    (s.sendTcomps p room id l).mem = s.mem := by
  induction l generalizing s with
  | nil => rfl
  | cons f t ih => cases t <;> simp [State.sendTcomps, ih]

@[simp] theorem State.replyReg_mem (room status : Nat) (f : Frame) :
    (s.replyReg room status f).mem = s.mem := by
  simp -implicitDefEqProofs [State.replyReg]

@[simp] theorem State.replyAdv_mem (room status : Nat) : (s.replyAdv room status).mem = s.mem := by
  simp -implicitDefEqProofs [State.replyAdv]

@[simp] theorem State.answer_mem (c : MqCmd) (r : Reply) : (s.answer c r).mem = s.mem := by
  simp only [State.answer]
  split <;> simp

@[simp] theorem State.refuse_mem (c : MqCmd) (status result : Nat) :
    (s.refuse c status result).mem = s.mem := by
  simp [State.refuse]

/-! ### Merges of shard sets -/

@[simp] theorem closeLookup_mem (c : CasPart) (r : State × Inflight) (i : Nat) :
    (closeLookup c r i).1.mem = r.1.mem := by
  simp [closeLookup]

@[simp] theorem State.closeOwner_mem (x : Inflight) : (s.closeOwner x).mem = s.mem := by
  simp only [State.closeOwner]
  split <;> simp

@[simp] theorem State.quarantine_mem (cause who gen expected : Nat) :
    (s.quarantine cause who gen expected).mem = s.mem := by
  simp [State.quarantine]

@[simp] theorem State.sendFence_mem (port sender stale : Nat) :
    (s.sendFence port sender stale).mem = s.mem := by
  simp [State.sendFence]

@[simp] theorem State.staleFrame_mem (port : Nat) (h : CandHdr) : (s.staleFrame port h).mem = s.mem := by
  simp [State.staleFrame]

@[simp] theorem State.lateFrame_mem (h : CandHdr) : (s.lateFrame h).mem = s.mem := by simp [State.lateFrame]

@[simp] theorem State.matchCand_mem (port : Nat) (h : CandHdr) (f : Frame) (arrived : Nat) :
    (s.matchCand port h f arrived).mem = s.mem := by
  simp only [State.matchCand]
  split <;> simp

@[simp] theorem State.takeCand_mem (port : Nat) (f : Frame) (arrived : Nat) :
    (s.takeCand port f arrived).mem = s.mem := by
  simp [State.takeCand]

@[simp] theorem State.takeFence_mem (f : Frame) : (s.takeFence f).mem = s.mem := by simp [State.takeFence]

@[simp] theorem State.candidateFrame_mem (port : Nat) (f : Frame) (arrived : Nat) :
    (s.candidateFrame port f arrived).mem = s.mem := by
  simp [State.candidateFrame]

@[simp] theorem State.arriveCand_mem (port : Nat) (f : Frame) {run : State → Nat → State}
    (h : ∀ u a, (run u a).mem = u.mem) : (s.arriveCand port f run).mem = s.mem := by
  simp [State.arriveCand, h]

@[simp] theorem State.earlyOn_mem (t p : Nat) : (State.earlyOn t s p).mem = s.mem := by simp [State.earlyOn]

/-! ### Start-up state -/

@[simp] theorem State.setVaultWord_mem (a v : Nat) : (s.setVaultWord a v).mem = s.mem := by
  simp [State.setVaultWord]

@[simp] theorem State.putWords_mem (n : Nat) (b : List Byte) : (s.putWords n b).mem = s.mem := by
  simp [State.putWords]

@[simp] theorem State.putSlot_mem (n : Nat) (b : List Byte) (late : Bool) :
    (s.putSlot n b late).mem = s.mem := by
  simp [State.putSlot]

@[simp] theorem State.mirrorSlot_mem (b : List Byte) : (s.mirrorSlot b).mem = s.mem := by
  simp [State.mirrorSlot]

@[simp] theorem State.writeSlot_mem (b : List Byte) : (s.writeSlot b).mem = s.mem := by
  simp [State.writeSlot]

@[simp] theorem State.trySucceed_mem : s.trySucceed.mem = s.mem := by simp [State.trySucceed]

/-! ### PDUs and sessions -/

@[simp] theorem State.sendPdu_mem (p : Pdu) : (s.sendPdu p).mem = s.mem := by
  simp only [State.sendPdu]
  split <;> simp

@[simp] theorem State.dropTransfer_mem (m : Master) : (s.dropTransfer m).mem = s.mem := by
  simp [State.dropTransfer]

@[simp] theorem State.abortTransfer_mem (m : Master) (code : Nat) :
    (s.abortTransfer m code).mem = s.mem := by
  simp only [State.abortTransfer]
  split <;> simp

@[simp] theorem State.endSession_mem (n cause : Nat) : (s.endSession n cause).mem = s.mem := by
  simp [State.endSession]

@[simp] theorem State.endSessions_mem (cause : Nat) (keep : Option Nat) :
    (s.endSessions cause keep).mem = s.mem := by
  simp [State.endSessions]

/-! ### Links -/

@[simp] theorem State.takeRx_mem (p cls : Nat) (f : Frame) : (s.takeRx p cls f).mem = s.mem := by
  simp [State.takeRx]

@[simp] theorem State.txDone_mem (d : TxDone) : (s.txDone d).mem = s.mem := by
  simp only [State.txDone]
  split <;> simp

@[simp] theorem State.candSent_mem (d : TxDone) (last : Nat) : (s.candSent d last).mem = s.mem := by
  simp only [State.candSent]
  split <;> simp

@[simp] theorem State.discardTx_mem (p : Nat) : (s.discardTx p).mem = s.mem := by simp [State.discardTx]

@[simp] theorem State.train_mem (p : Nat) : (s.train p).mem = s.mem := by simp [State.train]

@[simp] theorem State.leaveUp_mem (p cause lane : Nat) : (s.leaveUp p cause lane).mem = s.mem := by
  simp [State.leaveUp]

@[simp] theorem State.retrainFrom_mem (p cause lane : Nat) : (s.retrainFrom p cause lane).mem = s.mem := by
  simp [State.retrainFrom]

@[simp] theorem State.roleChange_mem (p : Nat) : (s.roleChange p).mem = s.mem := by simp [State.roleChange]

@[simp] theorem State.helloBad_mem (p : Nat) (c : Credit) (why : Nat) :
    (s.helloBad p c why).mem = s.mem := by
  simp [State.helloBad]

@[simp] theorem State.takeHello_mem (p : Nat) (c : Credit) : (s.takeHello p c).mem = s.mem := by
  simp [State.takeHello]

@[simp] theorem State.helloFrame_mem (p : Nat) (f : Frame) : (s.helloFrame p f).mem = s.mem := by
  simp only [State.helloFrame]
  split <;> simp

@[simp] theorem State.takeCredit_mem (p : Nat) (c : Credit) : (s.takeCredit p c).mem = s.mem := by
  simp [State.takeCredit]

@[simp] theorem State.receive_mem (p : Nat) {run : State → State} (h : ∀ u, (run u).mem = u.mem) :
    (s.receive p run).mem = s.mem := by
  simp [State.receive, h]

@[simp] theorem State.retrainHost_mem (p : Nat) : (s.retrainHost p).mem = s.mem := by
  simp [State.retrainHost]

@[simp] theorem State.dropFrame_mem (p cause : Nat) : (s.dropFrame p cause).mem = s.mem := by
  simp [State.dropFrame]

@[simp] theorem State.resyncs_mem (p : Nat) (b : Bool) : (s.resyncs p b).mem = s.mem := by
  simp [State.resyncs]

@[simp] theorem State.putIdle_mem (p k : Nat) : (s.putIdle p k).mem = s.mem := by simp [State.putIdle]

@[simp] theorem State.putHello_mem (p k : Nat) : (s.putHello p k).mem = s.mem := by simp [State.putHello]

@[simp] theorem State.putPick_mem (p k : Nat) (t : TxPick) : (s.putPick p k t).mem = s.mem := by
  simp only [State.putPick]
  (repeat' split) <;> simp

@[simp] theorem State.putZero_mem (p k : Nat) : (s.putZero p k).mem = s.mem := by simp [State.putZero]

@[simp] theorem State.muzzle_mem (p : Nat) : (s.muzzle p).mem = s.mem := by simp [State.muzzle]

/-! ### Trie and hash images -/

@[simp] theorem State.setImages_mem (t : Nat) (tb : Table) : (s.setImages t tb).mem = s.mem := by
  simp [State.setImages]

@[simp] theorem State.pfxSettle_mem (t : Nat) : (s.pfxSettle t).mem = s.mem := by simp [State.pfxSettle]

/-! ### Table commands -/

@[simp] theorem State.spend_mem (kind die n : Nat) : (s.spend kind die n).mem = s.mem := by
  simp [State.spend]

theorem State.grant_mem {u : State} {r : Nat} (h : s.grant = some (u, r)) : u.mem = s.mem := by
  simp only [State.grant] at h
  split at h
  · cases h; rfl
  · split at h
    · cases h
    · cases h; simp

@[simp] theorem State.readNext_mem (c : MqCmd) (cursor : Nat) (found : List (Nat × List Granule)) :
    (s.readNext c cursor found).mem = s.mem := by
  simp [State.readNext]

@[simp] theorem State.authReject_mem (p room ty ctag : Nat) :
    (s.authReject p room ty ctag).mem = s.mem := by
  simp [State.authReject]

@[simp] theorem State.enqueue_mem (room : Nat) (f : Frame) (src : CmdSrc) :
    (s.enqueue room f src).mem = s.mem := by
  simp [State.enqueue]

@[simp] theorem State.turnAway_mem (room : Nat) (f : Frame) (src : CmdSrc) :
    (s.turnAway room f src).mem = s.mem := by
  simp only [State.turnAway]
  split <;> simp

@[simp] theorem State.submit_mem (room : Nat) (f : Frame) (src : CmdSrc) :
    (s.submit room f src).mem = s.mem := by
  simp only [State.submit]
  (repeat' split) <;> simp

/-! ### Ternary commands -/

@[simp] theorem State.rowOp_mem (o : RowOp) : (s.rowOp o).mem = s.mem := by
  simp only [State.rowOp]
  (repeat' split) <;> simp

@[simp] theorem State.failTrn_mem (c : MqCmd) (status result : Nat) :
    (s.failTrn c status result).mem = s.mem := by
  simp [State.failTrn]

@[simp] theorem trnRead_mem (c : MqCmd) (d : Trn) (rs : List Replica) (r0 : Replica) :
    (trnRead c s d rs r0).mem = s.mem := by
  simp [trnRead]

@[simp] theorem State.walkOn_mem (c : MqCmd) (n per : Nat) (next : Option Nat) (found : List (Nat × List Granule)) :
    (s.walkOn c n per next found).mem = s.mem := by
  simp only [State.walkOn]
  split <;> simp

@[simp] theorem trnScan_mem (c : MqCmd) (d : Trn) : (trnScan c s d).mem = s.mem := by simp [trnScan]

@[simp] theorem trnVisit_mem (c : MqCmd) (cur : Nat) (d : Trn) : (trnVisit c cur s d).mem = s.mem := by
  simp only [trnVisit]
  (repeat' split) <;> simp

@[simp] theorem State.runFill_mem (t p : Nat) (o : RowOp) : (s.runFill t p o).mem = s.mem := by
  simp [State.runFill]

/-! ### Trie and hash commands -/

@[simp] theorem State.pfxStore_mem (t : Nat) (e : PfxEntry) (es : List PfxEntry) (cells : List Cell) :
    (s.pfxStore t e es cells).1.mem = s.mem := by
  simp [State.pfxStore]

@[simp] theorem State.cleanseRec_mem (t : Nat) (e : PfxEntry) : (s.cleanseRec t e).mem = s.mem := by
  simp -implicitDefEqProofs [State.cleanseRec]

@[simp] theorem pfxRead_mem (c : MqCmd) (d : Pfx) : (pfxRead c s d).mem = s.mem := by
  simp only [pfxRead]
  split <;> simp

@[simp] theorem pfxScan_mem (c : MqCmd) (d : Pfx) : (pfxScan c s d).mem = s.mem := by simp [pfxScan]

@[simp] theorem pfxVisit_mem (c : MqCmd) (cur : Nat) (d : Pfx) : (pfxVisit c cur s d).mem = s.mem := by
  simp only [pfxVisit]
  (repeat' split) <;> simp

@[simp] theorem State.pfxModeApply_mem (t v : Nat) : (s.pfxModeApply t v).mem = s.mem := by
  simp [State.pfxModeApply]

@[simp] theorem State.cleanseImage_mem (t : Nat) (hash : Bool) : (s.cleanseImage t hash).mem = s.mem := by
  simp [State.cleanseImage]

@[simp] theorem State.pfxAdvance_mem (room : Nat) (e : Edition) : (s.pfxAdvance room e).mem = s.mem := by
  refine foldl_mem (fun s t => ?_) _ _
  (repeat' split) <;> simp

/-! ### Exact-match commands and learns -/

@[simp] theorem State.emTimes_mem (d : EmDesc) (k : Nat) : (s.emTimes d k).1.mem = s.mem := by
  simp [State.emTimes]

@[simp] theorem State.putEmSlot_mem (j t : Nat) (x : BitVec 128) : (s.putEmSlot j t x).mem = s.mem := by
  simp [State.putEmSlot]

@[simp] theorem State.emPut_mem (d : EmDesc) (w : List (Nat × Nat)) (i : Nat) (head : BitVec 128)
    (tail : Option (BitVec 128)) : (s.emPut d w i head tail).mem = s.mem := by
  simp only [State.emPut]
  split <;> simp

@[simp] theorem State.dropHits_mem (i : Nat) : (s.dropHits i).mem = s.mem := by simp [State.dropHits]

@[simp] theorem State.setStamp_mem (i : Nat) (hit : Bool) (ins last : Nat) :
    (s.setStamp i hit ins last).mem = s.mem := by
  simp [State.setStamp]

@[simp] theorem emRead_mem (c : MqCmd) (d : EmDesc) : (emRead c s d).mem = s.mem := by
  simp only [emRead]
  split <;> simp

@[simp] theorem emExamine_mem (d : EmDesc) (w : EmScan) (n : Nat) (r : State × List (Nat × List Granule) × Nat)
    (i : Nat) : (emExamine d w n r i).1.mem = r.1.mem := by
  simp [emExamine]

@[simp] theorem emScanRun_mem (c : MqCmd) (d : EmDesc) : (emScanRun c s d).mem = s.mem := by
  simp only [emScanRun]
  split <;> simp

@[simp] theorem emVisit_mem (c : MqCmd) (cur : Nat) (d : EmDesc) : (emVisit c cur s d).mem = s.mem := by
  simp only [emVisit]
  (repeat' split) <;> simp

@[simp] theorem State.visit_mem (c : MqCmd) (cur : Nat) : (s.visit c cur).mem = s.mem := by
  simp only [State.visit]
  split <;> simp

@[simp] theorem State.backlogCross_mem (slice : Nat) (rise : Bool) :
    (s.backlogCross slice rise).mem = s.mem := by
  simp [State.backlogCross]

@[simp] theorem State.updateBacklog_mem (slice : Nat) : (s.updateBacklog slice).mem = s.mem := by
  simp [State.updateBacklog]

@[simp] theorem State.learnReject_mem (t room cause port : Nat) :
    (s.learnReject t room cause port).mem = s.mem := by
  simp [State.learnReject]

@[simp] theorem State.learnEnter_mem (x : Learn) : (s.learnEnter x).mem = s.mem := by
  simp [State.learnEnter]

@[simp] theorem State.notice_mem (d : EmDesc) (x : Learn) (kind data old slot k stamps : Nat) :
    (s.notice d x kind data old slot k stamps).mem = s.mem := by
  simp [State.notice]

@[simp] theorem State.learnRefuse_mem (d : EmDesc) (x : Learn) (k status : Nat) :
    (s.learnRefuse d x k status).mem = s.mem := by
  simp [State.learnRefuse]

@[simp] theorem State.victim_mem (d : EmDesc) (k : Nat) : (s.victim d k).1.mem = s.mem := by
  simp [State.victim]

@[simp] theorem State.weed_mem (d : EmDesc) (x : Learn) (v : Nat) : (s.weed d x v).mem = s.mem := by
  simp [State.weed]

/-! ### Editions -/

@[simp] theorem State.notifyEdition_mem (room kind ctag : Nat) :
    (s.notifyEdition room kind ctag).mem = s.mem := by
  simp [State.notifyEdition]

@[simp] theorem State.advance_mem (room ctag path : Nat) : (s.advance room ctag path).mem = s.mem := by
  simp [State.advance]

@[simp] theorem runAdvance_mem (c : MqCmd) : (runAdvance c s).mem = s.mem := by
  simp only [runAdvance]
  split <;> simp

@[simp] theorem State.clampRow_mem (room bay mat row : Nat) :
    (s.clampRow room bay mat row).mem = s.mem := by
  simp [State.clampRow]

@[simp] theorem State.clampPfx_mem (t : Nat) : (s.clampPfx t).mem = s.mem := by simp [State.clampPfx]

@[simp] theorem State.endPass_mem : s.endPass.mem = s.mem := by
  simp -implicitDefEqProofs [State.endPass]

/-! ### Memories and carrels -/

@[simp] theorem State.memRead_mem (port : Nat) (h : MemHdr) (uncorr : List MemWord) :
    (s.memRead port h uncorr).mem = s.mem := by
  simp only [State.memRead]
  split <;> simp

@[simp] theorem State.memReject_mem (port : Nat) (h : MemHdr) (status : Nat) :
    (s.memReject port h status).mem = s.mem := by
  simp [State.memReject]

/-! ### Contexts and guards -/

theorem State.takeCtx_mem {m : Master} {u : State} {c : Nat} (h : s.takeCtx m = some (u, c)) :
    u.mem = s.mem := by
  simp only [State.takeCtx] at h
  split at h
  · cases h; rfl
  · cases h; rfl
  · split at h <;> cases h; rfl

@[simp] theorem State.touchCtx_mem (m : Master) : (s.touchCtx m).mem = s.mem := by
  simp only [State.touchCtx]
  split <;> simp

@[simp] theorem State.nextBuild_mem (old : Option Nat) : (s.nextBuild old).mem = s.mem := by
  simp only [State.nextBuild]
  split <;> simp

@[simp] theorem State.releaseCtx_mem (c : Nat) : (s.releaseCtx c).mem = s.mem := by simp [State.releaseCtx]

@[simp] theorem State.before_mem (m : Master) : (s.before m).mem = s.mem := by simp [State.before]

@[simp] theorem State.byCore_mem {run : State → State × Nat} (h : ∀ u, (run u).1.mem = u.mem) :
    (s.byCore run).1.mem = s.mem := by
  simp [State.byCore, h]

/-! ### Accessions -/

@[simp] theorem State.refuseAcc_mem (r : Refused) : (s.refuseAcc r).mem = s.mem := by
  simp only [State.refuseAcc]
  split <;> simp

@[simp] theorem State.clearRegion_mem (d : Trn) (b : Nat) : (s.clearRegion d b).mem = s.mem := by
  simp [State.clearRegion]

@[simp] theorem State.clearBuckets_mem (d : EmDesc) (c : Nat) : (s.clearBuckets d c).mem = s.mem := by
  simp [State.clearBuckets]

@[simp] theorem State.takeCopies_mem (w : View) (t : Nat) : (s.takeCopies w t).mem = s.mem := by
  simp only [State.takeCopies]
  split
  · refine foldl_mem (fun s l => ?_) _ _
    split <;> simp
  · simp
  · rfl

@[simp] theorem State.retrie_mem (t : Nat) : (s.retrie t).mem = s.mem := by simp [State.retrie]

@[simp] theorem State.copiesDone_mem (t : Nat) : (s.copiesDone t).mem = s.mem := by simp [State.copiesDone]

@[simp] theorem State.restoreRoom_mem (room : Nat) : (s.restoreRoom room).mem = s.mem := by
  simp [State.restoreRoom]

@[simp] theorem State.clearReduced_mem : s.clearReduced.mem = s.mem := by simp [State.clearReduced]

@[simp] theorem State.unquarantine_mem : s.unquarantine.mem = s.mem := by simp [State.unquarantine]

@[simp] theorem State.switchCas_mem (o : View) (cluster : Bool) : (s.switchCas o cluster).mem = s.mem := by
  simp [State.switchCas]

@[simp] theorem State.switchTables_mem (w : View) (ts : List Nat) :
    (s.switchTables w ts).mem = s.mem := by
  simp -implicitDefEqProofs [State.switchTables]

@[simp] theorem State.newRate_mem : s.newRate.mem = s.mem := by simp [State.newRate]

@[simp] theorem State.discardStaged_mem (m : Master) (v : Nat) : (s.discardStaged m v).1.mem = s.mem := by
  simp [State.discardStaged]

@[simp] theorem State.fillEm_mem (d : EmDesc) (c : Nat) : (s.fillEm d c).mem = s.mem := by
  simp [State.fillEm]

/-! ### Control objects -/

@[simp] theorem State.queueImage_mem (room : Nat) (f : Frame) : (s.queueImage room f).mem = s.mem := by
  simp -implicitDefEqProofs [State.queueImage]

@[simp] theorem State.wrMode_mem (t v : Nat) : (s.wrMode t v).1.mem = s.mem := by simp [State.wrMode]

@[simp] theorem State.wrTick_mem (v : Nat) : (s.wrTick v).1.mem = s.mem := by simp [State.wrTick]

@[simp] theorem State.wrSeed_mem (v : Nat) : (s.wrSeed v).1.mem = s.mem := by simp [State.wrSeed]

@[simp] theorem State.wrProbe_mem (m : Master) (pool block : Nat) :
    (s.wrProbe m pool block).1.mem = s.mem := by
  simp only [State.wrProbe]
  split
  · rfl
  · next hc => simp -implicitDefEqProofs only [State.setCtxReg_mem, State.takeCtx_mem _ hc]

@[simp] theorem State.wrPortCtrl_mem (p v : Nat) : (s.wrPortCtrl p v).1.mem = s.mem := by
  simp [State.wrPortCtrl]

@[simp] theorem State.wrCodeCfg_mem (m : Master) (v : Nat) : (s.wrCodeCfg m v).1.mem = s.mem := by
  simp [State.wrCodeCfg]

/-! ### Vault -/

@[simp] theorem State.wrVaultData_mem (m : Master) (v : Nat) : (s.wrVaultData m v).1.mem = s.mem := by
  simp [State.wrVaultData]

@[simp] theorem State.endVaultWrite_mem : s.endVaultWrite.mem = s.mem := by simp [State.endVaultWrite]

@[simp] theorem State.wrPolicy_mem (v : Nat) : (s.wrPolicy v).1.mem = s.mem := by simp [State.wrPolicy]

@[simp] theorem State.putKey_mem (k : Nat) (key : List Byte) : (s.putKey k key).mem = s.mem := by
  simp [State.putKey]

@[simp] theorem State.endKeySessions_mem (m : Master) (k : Nat) (loaded : Bool) :
    (s.endKeySessions m k loaded).mem = s.mem := by
  simp [State.endKeySessions]

@[simp] theorem State.wrKeyLoad_mem (m : Master) (v : List Byte) : (s.wrKeyLoad m v).1.mem = s.mem := by
  simp [State.wrKeyLoad]

@[simp] theorem State.blow_mem (t : Nat) : (s.blow t).mem = s.mem := by simp [State.blow]

@[simp] theorem State.blankVault_mem : s.blankVault.mem = s.mem := by simp [State.blankVault]

/-! ### Firmware update and provenance -/

@[simp] theorem State.setImage_mem (b : Bool) (m : Store Byte) : (s.setImage b m).mem = s.mem := by
  simp [State.setImage]

@[simp] theorem State.writeUpdated_mem (b mirrorFail : Bool) :
    (s.writeUpdated b mirrorFail).mem = s.mem := by
  simp [State.writeUpdated]

@[simp] theorem State.wrUpdTarget_mem (v : Nat) : (s.wrUpdTarget v).1.mem = s.mem := by
  simp [State.wrUpdTarget]

@[simp] theorem State.beginImage_mem : s.beginImage.mem = s.mem := by simp [State.beginImage]

@[simp] theorem State.program_mem (l : List Byte) : (s.program l).mem = s.mem := by simp [State.program]

@[simp] theorem State.endImage_mem (flashOk mirrorFail : Bool) :
    (s.endImage flashOk mirrorFail).mem = s.mem := by
  simp [State.endImage]

@[simp] theorem State.wrProvReq_mem (m : Master) : (s.wrProvReq m).1.mem = s.mem := by
  simp only [State.wrProvReq]
  split
  · rfl
  · split
    · rfl
    · next hc => split <;> simp [State.takeCtx_mem _ hc]

/-! ### Health -/

@[simp] theorem State.putSide_mem (b i : Nat) (w : BitVec 96) : (s.putSide b i w).mem = s.mem := by
  simp [State.putSide]

@[simp] theorem State.readVisit_mem (u : Nat) (c : MqCmd) (cur : Nat) (bad : Bool) :
    (s.readVisit u c cur bad).mem = s.mem := by
  simp only [State.readVisit]
  cases s.visitWord u c cur <;> simp

@[simp] theorem State.colNext_mem (l : Nat) : (s.colNext l).mem = s.mem := by simp [State.colNext]

@[simp] theorem State.setFix_mem (l x : Nat) : (s.setFix l x).mem = s.mem := by simp [State.setFix]

@[simp] theorem State.findAtom_mem (k : Nat) (flip : BitVec 160) : (s.findAtom k flip).mem = s.mem := by
  simp [State.findAtom]

@[simp] theorem State.collate_mem (l b : Nat) (f : RowFinding) : (s.collate l b f).mem = s.mem := by
  simp [State.collate]

@[simp] theorem State.colRepair_mem (l b x : Nat) (f : RowFinding) : (s.colRepair l b x f).mem = s.mem := by
  simp [State.colRepair]

@[simp] theorem State.clampStep_mem (l b : Nat) (f : RowFinding) : (s.clampStep l b f).mem = s.mem := by
  simp only [State.clampStep]
  (repeat' split) <;> simp

theorem State.srPick_mem {u : State} {d r : Nat} (h : s.srPick = some (u, d, r)) : u.mem = s.mem := by
  simp only [State.srPick] at h
  split at h
  · cases h; rfl
  · split at h <;> cases h
    simp

@[simp] theorem State.srWrap_mem : s.srWrap.mem = s.mem := by simp [State.srWrap]

@[simp] theorem State.srTest_mem (d r : Nat) (o : SrOutcome) : (s.srTest d r o).mem = s.mem := by
  simp only [State.srTest]
  split <;> simp

@[simp] theorem State.srSettle_mem (d r : Nat) (passed : Bool) : (s.srSettle d r passed).mem = s.mem := by
  simp [State.srSettle]

@[simp] theorem State.assignRow_mem (d r row : Nat) : (s.assignRow d r row).mem = s.mem := by
  simp [State.assignRow]

@[simp] theorem State.srRows_mem (d r : Nat) (rows : List Nat) : (s.srRows d r rows).mem = s.mem := by
  simp [State.srRows]

@[simp] theorem State.freeRows_mem (d lo m n : Nat) : (s.freeRows d lo m n).mem = s.mem := by
  induction n generalizing s with
  | zero => rfl
  | succ n ih => simp [State.freeRows, ih]

@[simp] theorem State.srBeyond_mem (d r : Nat) : (s.srBeyond d r).mem = s.mem := by
  simp only [State.srBeyond]
  split <;> simp

@[simp] theorem State.putRebuild_mem (failed : Nat) (r : Option Rebuild) :
    (s.putRebuild failed r).mem = s.mem := by
  simp [State.putRebuild]

@[simp] theorem State.returnBay_mem (b : Nat) : (s.returnBay b).mem = s.mem := by simp [State.returnBay]

@[simp] theorem State.bankGone_mem (t slice : Nat) : (s.bankGone t slice).mem = s.mem := by
  simp [State.bankGone]

@[simp] theorem State.holdPort_mem (p : Nat) : (s.holdPort p).mem = s.mem := by
  simp only [State.holdPort]
  split <;> simp

@[simp] theorem State.stopRebuilds_mem (d : Nat) : (s.stopRebuilds d).mem = s.mem := by
  simp [State.stopRebuilds]

@[simp] theorem State.track_mem (k : Nat) (past : Bool) : (s.track k past).mem = s.mem := by
  simp [State.track]

@[simp] theorem State.trackAll_mem (r : RegionReading) : (s.trackAll r).mem = s.mem := by
  simp [State.trackAll]

@[simp] theorem State.drawTogether_mem : s.drawTogether.mem = s.mem := by simp [State.drawTogether]

@[simp] theorem State.alarmRegion_mem (r : RegionReading) (d : Nat) : (s.alarmRegion r d).mem = s.mem := by
  simp only [State.alarmRegion]
  split <;> simp

@[simp] theorem State.measure_mem (r : RegionReading) : (s.measure r).mem = s.mem := by simp [State.measure]

@[simp] theorem State.sampleTime_mem : s.sampleTime.mem = s.mem := by simp [State.sampleTime]

@[simp] theorem State.wrRgnCtrl_mem (d v : Nat) : (s.wrRgnCtrl d v).1.mem = s.mem := by
  simp [State.wrRgnCtrl]

@[simp] theorem State.fixRow_mem (stuck : List Nat) (b l k : Nat) :
    (State.fixRow stuck b l s k).mem = s.mem := by
  simp [State.fixRow]

@[simp] theorem State.collateBay_mem (f : DieFinding) (l b : Nat) :
    (State.collateBay f s l b).mem = s.mem := by
  simp [State.collateBay]

@[simp] theorem State.regainUnits_mem (d : Nat) : (s.regainUnits d).mem = s.mem := by
  simp [State.regainUnits]

@[simp] theorem State.freePort_mem (p : Nat) : (s.freePort p).mem = s.mem := by simp [State.freePort]

/-! ### Catalogue reads -/

@[simp] theorem State.afterRead_mem (m : Master) (p : Place) : (s.afterRead m p).mem = s.mem := by
  simp [State.afterRead]

/-! ### Mailboxes -/

@[simp] theorem State.fillMailbox_mem (c : Nat) (a : Answer) : (s.fillMailbox c a).mem = s.mem := by
  simp [State.fillMailbox]

@[simp] theorem State.wrMbxSel_mem (m : Master) (v : Nat) : (s.wrMbxSel m v).1.mem = s.mem := by
  simp only [State.wrMbxSel]
  split
  · rfl
  · next hc => split <;> simp [State.takeCtx_mem _ hc]

/-! ### Contested accesses -/

@[simp] theorem State.busHeard_mem (ident : Nat) : (s.busHeard ident).mem = s.mem := by
  simp only [State.busHeard]
  split <;> simp

@[simp] theorem State.takeCat_mem (p : Fin 32) (q : Pdu) : (s.takeCat p q).mem = s.mem := by
  simp only [State.takeCat]
  split <;> simp

@[simp] theorem State.reach_mem (q : Pdu) (service : Nat) : (s.reach q service).1.mem = s.mem := by
  simp only [State.reach]
  (repeat' split) <;> simp

@[simp] theorem State.guarded_mem (m : Master) (k code : Nat) (l : List Byte) (old : Option Nat)
    {run : State → State × Nat} (h : ∀ u, (run u).1.mem = u.mem) :
    (s.guarded m k code l old run).mem = s.mem := by
  simp [State.guarded, h]

/-! ### Catalogue writes -/

@[simp] theorem State.wrAck_mem (m : Master) (r v : Nat) : (s.wrAck m r v).1.mem = s.mem := by
  simp only [State.wrAck, ite_fst_mem, State.ackRing_mem, ite_self]

@[simp] theorem State.notePrio_mem (room : Nat) : (s.notePrio room).mem = s.mem := by simp [State.notePrio]

@[simp] theorem State.writePlain_mem (m : Master) (p : Place) (v : Nat) :
    (s.writePlain m p v).1.mem = s.mem := by
  simp only [State.writePlain]
  split
  · rfl
  · split
    · split
      · rfl
      · next hc => simp [State.takeCtx_mem _ hc]
    · simp

/-! ### Requests -/

@[simp] theorem State.inUse_mem (m : Master) : (s.inUse m).mem = s.mem := by
  simp only [State.inUse]
  split <;> simp

@[simp] theorem State.reply_mem (m : Master) (index sub : Nat) (l : List Pdu) :
    (s.reply m index sub l).mem = s.mem := by
  simp [State.reply]

@[simp] theorem State.macRefused_mem (n : Nat) (refusal : Pdu) : (s.macRefused n refusal).mem = s.mem := by
  simp [State.macRefused]

@[simp] theorem State.window_mem (t : Transfer) : (s.window t).1.mem = s.mem := by simp [State.window]

@[simp] theorem State.startDownload_mem (q : Pdu) (index sub size : Nat) :
    (s.startDownload q index sub size).1.mem = s.mem := by
  simp [State.startDownload]

@[simp] theorem State.failTransfer_mem (q : Pdu) (code : Nat) : (s.failTransfer q code).1.mem = s.mem := by
  simp only [State.failTransfer]
  split <;> simp

@[simp] theorem State.openFor_mem (q : Pdu) (level room : Nat) :
    (s.openFor q level room).1.mem = s.mem := by
  simp only [State.openFor]
  (repeat' split) <;> simp

@[simp] theorem State.proveFails_mem (q : Pdu) : (s.proveFails q).1.mem = s.mem := by
  simp [State.proveFails]

@[simp] theorem State.proveFor_mem (q : Pdu) (body : List Byte) : (s.proveFor q body).1.mem = s.mem := by
  simp only [State.proveFor]
  split <;> simp

/-! ### Resets and start attempts -/

@[simp] theorem State.takeMirror_mem (readable : Bool) : (s.takeMirror readable).mem = s.mem := by
  simp only [State.takeMirror]
  (repeat' split) <;> simp

@[simp] theorem State.checkVault_mem (readable : Bool) : (s.checkVault readable).mem = s.mem := by
  simp [State.checkVault]

@[simp] theorem State.measureRom_mem : s.measureRom.mem = s.mem := by simp [State.measureRom]

@[simp] theorem State.measureImage_mem : s.measureImage.mem = s.mem := by simp [State.measureImage]

@[simp] theorem State.chooseImage_mem : s.chooseImage.mem = s.mem := by simp [State.chooseImage]

@[simp] theorem State.beginSlot_mem : s.beginSlot.mem = s.mem := by simp [State.beginSlot]

@[simp] theorem State.bistBay_mem (b : Nat) : (s.bistBay b).mem = s.mem := by
  simp only [State.bistBay]
  split <;> simp

@[simp] theorem State.cfgWrite_mem (w : CfgWrite) : (s.cfgWrite w).mem = s.mem := by
  simp only [State.cfgWrite]
  (repeat' split) <;> simp

@[simp] theorem State.measureCfg_mem (w : CfgWrite) : (s.measureCfg w).mem = s.mem := by
  simp [State.measureCfg]

@[simp] theorem State.measureOwn_mem : s.measureOwn.mem = s.mem := by
  simp -implicitDefEqProofs [State.measureOwn]

/-! ### Power and the test port -/

@[simp] theorem State.fwRuns_mem : s.fwRuns.mem = s.mem := by simp [State.fwRuns]

/-! ### Dictionary bus -/

@[simp] theorem State.clashRecord_mem (dir : Nat) : (s.clashRecord dir).mem = s.mem := by
  simp [State.clashRecord]

@[simp] theorem State.clashFrame_mem : s.clashFrame.mem = s.mem := by simp [State.clashFrame]

@[simp] theorem State.announce_mem (prio service : Nat) (bytes : List Byte) :
    (s.announce prio service bytes).mem = s.mem := by
  simp [State.announce]

@[simp] theorem State.sendEvent_mem (ring kind seq : Nat) (body : List Byte) :
    (s.sendEvent ring kind seq body).mem = s.mem := by
  simp [State.sendEvent]

@[simp] theorem State.sleepRecord_mem (dir : Nat) : (s.sleepRecord dir).mem = s.mem := by
  simp [State.sleepRecord]

end Sys2Proof.Machine
end

section
/-! The canonical form of the addressed memories. Allotting and freeing blocks, and starting or dropping clears, leave the words
of the memories alone, and so the form. A reset blanks them. -/

namespace Sys2Proof.Machine

variable (s : State)

/-! ### Choices and folds -/

@[simp] theorem ite_wf (c : Prop) [Decidable c] (m n : Mem) : (if c then m else n).wf = if c then m.wf else n.wf :=
  apply_ite Mem.wf c m n

@[simp] theorem foldl_wf {α : Type} {f : State → α → State} (h : ∀ u a, (f u a).mem.wf = u.mem.wf)
    (l : List α) (s : State) : (l.foldl f s).mem.wf = s.mem.wf := by
  induction l generalizing s with
  | nil => rfl
  | cons a l ih => exact (ih _).trans (h s a)

/-- The form is of the words alone. -/
@[simp] theorem Mem.wf_frame (m : Mem) (allocs : Store Alloc) (releasing : List Releasing) (status : Store Nat)
    (clearing : List Clear) (at_ : Nat) (tallied : List (Nat × BitVec 64)) :
    ({ m with allocs := allocs, releasing := releasing, poolStatus := status, clearing := clearing, talliedAt := at_,
              tallied := tallied } : Mem).wf = m.wf := rfl

@[simp] theorem State.setAlloc_wf (b : Nat) (a : Alloc) : (s.setAlloc b a).mem.wf = s.mem.wf := rfl

/-! ### Pools -/

@[simp] theorem State.crossing_wf (n m : Nat) (rise : Bool) (level : Nat) :
    (s.crossing n m rise level).mem.wf = s.mem.wf := by
  simp [State.crossing]

@[simp] theorem State.markRise_wf (n m : Nat) : (s.markRise n m).mem.wf = s.mem.wf := by simp [State.markRise]

@[simp] theorem State.markFall_wf (n m : Nat) : (s.markFall n m).mem.wf = s.mem.wf := by simp [State.markFall]

@[simp] theorem State.evalMarks_wf (n : Nat) : (s.evalMarks n).mem.wf = s.mem.wf := by simp [State.evalMarks]

@[simp] theorem State.addRef_wf (ptr : Nat) : (s.addRef ptr).mem.wf = s.mem.wf := by simp [State.addRef]

@[simp] theorem State.release_wf (ptr : Nat) : (s.release ptr).mem.wf = s.mem.wf := by
  simp only [State.release]
  split <;> simp

@[simp] theorem State.dropRef_wf (ptr : Nat) : (s.dropRef ptr).mem.wf = s.mem.wf := by simp [State.dropRef]

@[simp] theorem State.doAlloc_wf (n : Nat) (w : PoolWord) : (s.doAlloc n w).1.mem.wf = s.mem.wf := by
  simp only [State.doAlloc]
  split <;> simp

@[simp] theorem State.doFree_wf (n : Nat) (w : PoolWord) : (s.doFree n w).1.mem.wf = s.mem.wf := by
  simp [State.doFree]

/-! ### Replies of table commands -/

@[simp] theorem State.complete_wf (c : MqCmd) (r : Reply) : (s.complete c r).mem.wf = s.mem.wf := by
  simp [State.complete]

@[simp] theorem State.finishAt_wf (c : MqCmd) (t : Nat) (drops : List Nat) (result : Nat) :
    (s.finishAt c t drops result).mem.wf = s.mem.wf := by
  simp [State.finishAt]

@[simp] theorem State.completeDue_wf : s.completeDue.mem.wf = s.mem.wf := by simp [State.completeDue]

/-! ### Start-up state -/

@[simp] theorem State.diesDown_wf : s.diesDown.mem.wf = s.mem.wf := by simp [State.diesDown]

@[simp] theorem State.enterMinimal_wf : s.enterMinimal.mem.wf = s.mem.wf := by simp [State.enterMinimal]

@[simp] theorem State.failStart_wf (reason detail : Nat) : (s.failStart reason detail).mem.wf = s.mem.wf := by
  simp [State.failStart]

/-! ### Links -/

@[simp] theorem State.portLate_wf (p : Nat) : (s.portLate p).mem.wf = s.mem.wf := by simp [State.portLate]

@[simp] theorem State.linkFail_wf (p : Nat) : (s.linkFail p).mem.wf = s.mem.wf := by simp [State.linkFail]

@[simp] theorem State.goUp_wf (p : Nat) : (s.goUp p).mem.wf = s.mem.wf := by simp [State.goUp]

@[simp] theorem State.idleFrame_wf (p : Nat) (f : Frame) : (s.idleFrame p f).mem.wf = s.mem.wf := by
  simp only [State.idleFrame]
  split <;> simp

@[simp] theorem State.passFrame_wf (p : Nat) (f : Frame) : (s.passFrame p f).mem.wf = s.mem.wf := by
  simp [State.passFrame]

@[simp] theorem State.judge_wf (p : Nat) (f : Frame) (a : Arrival) : (s.judge p f a).mem.wf = s.mem.wf := by
  simp only [State.judge]
  (repeat' split) <;> simp

/-! ### Table commands -/

theorem runPool_wf {op : State → Nat → PoolWord → State × Nat × Nat}
    (h : ∀ u n w, (op u n w).1.mem.wf = u.mem.wf) (c : MqCmd) (u : State) : (runPool op c u).mem.wf = u.mem.wf := by
  simp only [runPool]
  split <;> simp [h]

/-! ### Ternary commands -/

@[simp] theorem State.beginOps_wf (c : MqCmd) (ops : List RowOp) (drops : List Nat)
    (adds dels : List (List Replica)) (result : Nat) :
    (s.beginOps c ops drops adds dels result).mem.wf = s.mem.wf := by
  simp [State.beginOps]

@[simp] theorem trnInsert_wf (c : MqCmd) (d : Trn) : (trnInsert c s d).mem.wf = s.mem.wf := by
  simp only [trnInsert]
  (repeat' split) <;> simp

@[simp] theorem trnPlace_wf (c : MqCmd) (d : Trn) : (trnPlace c s d).mem.wf = s.mem.wf := by
  simp only [trnPlace]
  split <;> simp

@[simp] theorem trnRewrite_wf (c : MqCmd) (d : Trn) (rs : List Replica) (r0 : Replica) :
    (trnRewrite c s d rs r0).mem.wf = s.mem.wf := by
  simp only [trnRewrite]
  (repeat' split) <;> simp

@[simp] theorem trnDelete_wf (c : MqCmd) (d : Trn) (rs : List Replica) (r0 : Replica) :
    (trnDelete c s d rs r0).mem.wf = s.mem.wf := by
  simp [trnDelete]

@[simp] theorem trnMove_wf (c : MqCmd) (d : Trn) (rs : List Replica) (r0 : Replica) :
    (trnMove c s d rs r0).mem.wf = s.mem.wf := by
  simp only [trnMove]
  (repeat' split) <;> simp

@[simp] theorem trnCommand_wf (c : MqCmd) : (trnCommand c s).mem.wf = s.mem.wf := by
  simp only [trnCommand]
  (repeat' split) <;> simp

@[simp] theorem State.runOp_wf (c : MqCmd) (o : RowOp) (rest : List RowOp) :
    (s.runOp c o rest).mem.wf = s.mem.wf := by
  simp [State.runOp]

/-! ### Trie and hash commands -/

@[simp] theorem State.pfxAdd_wf (c : MqCmd) (e : PfxEntry) (es : List PfxEntry) (cells : List Cell) :
    (s.pfxAdd c e es cells).mem.wf = s.mem.wf := by
  simp [State.pfxAdd]

@[simp] theorem pfxInsert_wf (c : MqCmd) (d : Pfx) : (pfxInsert c s d).mem.wf = s.mem.wf := by
  simp only [pfxInsert]
  (repeat' split) <;> simp

@[simp] theorem pfxWrite_wf (c : MqCmd) (d : Pfx) : (pfxWrite c s d).mem.wf = s.mem.wf := by
  simp only [pfxWrite]
  (repeat' split) <;> simp

@[simp] theorem pfxDelete_wf (c : MqCmd) (d : Pfx) : (pfxDelete c s d).mem.wf = s.mem.wf := by simp [pfxDelete]

@[simp] theorem pfxCommand_wf (c : MqCmd) : (pfxCommand c s).mem.wf = s.mem.wf := by
  simp only [pfxCommand]
  split <;> simp

/-! ### Exact-match commands and learns -/

@[simp] theorem State.gainData_wf (d : EmDesc) (data : Nat) : (s.gainData d data).mem.wf = s.mem.wf := by
  simp [State.gainData]

@[simp] theorem State.loseData_wf (d : EmDesc) (data : Nat) : (s.loseData d data).mem.wf = s.mem.wf := by
  simp [State.loseData]

@[simp] theorem State.emNew_wf (d : EmDesc) (k i data : Nat) (static learnt : Bool) :
    (s.emNew d k i data static learnt).1.mem.wf = s.mem.wf := by
  simp [State.emNew]

@[simp] theorem State.emRewrite_wf (d : EmDesc) (k i data : Nat) (static learnt : Bool) :
    (s.emRewrite d k i data static learnt).1.mem.wf = s.mem.wf := by
  simp [State.emRewrite]

@[simp] theorem State.emInserted_wf (c : MqCmd) (d : EmDesc) (k i : Nat) (hd : BitVec 128) :
    (s.emInserted c d k i hd).mem.wf = s.mem.wf := by
  simp [State.emInserted]

@[simp] theorem emInsert_wf (c : MqCmd) (d : EmDesc) (k : Nat) : (emInsert c s d k).mem.wf = s.mem.wf := by
  simp only [emInsert]
  (repeat' split) <;> simp

@[simp] theorem emWriteAt_wf (c : MqCmd) (d : EmDesc) (k i : Nat) : (emWriteAt c s d k i).mem.wf = s.mem.wf := by
  simp only [emWriteAt]
  split <;> simp

@[simp] theorem emWriteSlot_wf (c : MqCmd) (d : EmDesc) (k : Nat) : (emWriteSlot c s d k).mem.wf = s.mem.wf := by
  simp only [emWriteSlot]
  (repeat' split) <;> simp

@[simp] theorem emWrite_wf (c : MqCmd) (d : EmDesc) : (emWrite c s d).mem.wf = s.mem.wf := by
  simp only [emWrite]
  (repeat' split) <;> simp

@[simp] theorem emDelete_wf (c : MqCmd) (d : EmDesc) : (emDelete c s d).mem.wf = s.mem.wf := by
  simp only [emDelete]
  split <;> simp

@[simp] theorem emMove_wf (c : MqCmd) (d : EmDesc) : (emMove c s d).mem.wf = s.mem.wf := by
  simp only [emMove]
  split <;> simp

@[simp] theorem emCommand_wf (c : MqCmd) : (emCommand c s).mem.wf = s.mem.wf := by
  simp only [emCommand]
  split <;> simp

@[simp] theorem tableCommand_wf (c : MqCmd) : (tableCommand c s).mem.wf = s.mem.wf := by
  simp only [tableCommand]
  split <;> simp

@[simp] theorem State.learnNew_wf (d : EmDesc) (x : Learn) (k : Nat) : (s.learnNew d x k).mem.wf = s.mem.wf := by
  simp only [State.learnNew]
  split
  · simp
  · split
    · simp -implicitDefEqProofs
    · have hv := congrArg Mem.wf (s.victim_mem d k)
      split <;> next h =>
        rw [h] at hv
        simpa -implicitDefEqProofs using hv

@[simp] theorem State.learn_wf (d : EmDesc) (x : Learn) : (s.learn d x).mem.wf = s.mem.wf := by
  simp only [State.learn]
  (repeat' split) <;> simp

/-! ### Editions -/

@[simp] theorem State.queueAdvance_wf (room expect : Nat) :
    (s.queueAdvance room expect).1.mem.wf = s.mem.wf := by
  simp [State.queueAdvance]

/-! ### Memories and carrels -/

@[simp] theorem State.startClear_wf (room : Nat) : (s.startClear room).mem.wf = s.mem.wf := by
  simp [State.startClear]

/-! ### Accessions -/

@[simp] theorem State.holdDefaults_wf (vals : Store Nat) : (s.holdDefaults vals).mem.wf = s.mem.wf := by
  simp [State.holdDefaults]

@[simp] theorem State.fixSwitch_wf (w : Who) (m groups : Nat) (vals : Store Nat) (restore : List Nat)
    (cluster : Bool) : (s.fixSwitch w m groups vals restore cluster).mem.wf = s.mem.wf := by
  simp [State.fixSwitch]

@[simp] theorem State.accede_wf (w : Who) (m groups : Nat) : (s.accede w m groups).1.mem.wf = s.mem.wf := by
  simp only [State.accede]
  (repeat' split) <;> simp

@[simp] theorem State.dropDefaults_wf (o w : View) (ps : List Nat) :
    (s.dropDefaults o w ps).mem.wf = s.mem.wf := by
  simp [State.dropDefaults]

@[simp] theorem State.applyAccession_wf (vals : Store Nat) (restore : List Nat) (rota cluster : Bool) :
    (s.applyAccession vals restore rota cluster).mem.wf = s.mem.wf := by
  simp [State.applyAccession]

/-! ### Control objects -/

@[simp] theorem State.wrTblCmd_wf (room v : Nat) : (s.wrTblCmd room v).1.mem.wf = s.mem.wf := by
  simp [State.wrTblCmd]

/-! ### Health -/

@[simp] theorem State.endRemoval_wf (r : Removal) : (s.endRemoval r).mem.wf = s.mem.wf := by
  simp [State.endRemoval]

@[simp] theorem State.loseEntry_wf (o : RowOwner) (l mat row : Nat) :
    (s.loseEntry o l mat row).mem.wf = s.mem.wf := by
  simp [State.loseEntry]

@[simp] theorem State.runRemoval_wf (r : Removal) (o : RowOp) (rest : List RowOp) :
    (s.runRemoval r o rest).mem.wf = s.mem.wf := by
  simp [State.runRemoval]

@[simp] theorem State.repairSide_wf (b i : Nat) : (s.repairSide b i).mem.wf = s.mem.wf := by
  simp only [State.repairSide]
  (repeat' split) <;> simp

@[simp] theorem State.repairShadow_wf (r : Rebuild) (i : Nat) : (s.repairShadow r i).mem.wf = s.mem.wf := by
  simp only [State.repairShadow]
  (repeat' split) <;> simp

@[simp] theorem State.shelfSlot_wf (u : Nat) (b : Option Nat) : (s.shelfSlot u b).mem.wf = s.mem.wf := by
  simp only [State.shelfSlot]
  split <;> simp

@[simp] theorem State.tableSlot_wf (u : Nat) (bad : Bool) : (s.tableSlot u bad).mem.wf = s.mem.wf := by
  simp only [State.tableSlot]
  (repeat' split) <;> simp

@[simp] theorem State.claimSlot_wf (u : Nat) (b : Option Nat) (f : RowFinding) (x : Claimant) :
    (s.claimSlot u b f x).mem.wf = s.mem.wf := by
  cases x <;> cases b <;> simp [State.claimSlot]

@[simp] theorem State.useSlot_wf (u : Nat) (f : RowFinding) : (s.useSlot u f).mem.wf = s.mem.wf := by
  simp only [State.useSlot]
  (repeat' split) <;> simp

@[simp] theorem State.goodSides_wf (b n : Nat) : (s.goodSides b n).mem.wf = s.mem.wf := by
  induction n generalizing s with
  | zero => rfl
  | succ n ih =>
    simp only [State.goodSides]
    split <;> simp [ih]

@[simp] theorem State.fillSpare_wf (r : Rebuild) : (s.fillSpare r).mem.wf = s.mem.wf := by simp [State.fillSpare]

/-! ### Catalogue writes -/

@[simp] theorem State.accedeAt_wf (m : Master) (v : Nat) : (s.accedeAt m v).1.mem.wf = s.mem.wf := by
  simp [State.accedeAt]

/-! ### Resets and start attempts -/

@[simp] theorem State.clean_wf : s.clean.mem.wf = true := rfl

@[simp] theorem State.intoReset_wf : s.intoReset.mem.wf = true := rfl

@[simp] theorem State.configure_wf (l : List CfgWrite) : (s.configure l).mem.wf = s.mem.wf := by
  simp only [State.configure]
  split <;> simp

@[simp] theorem State.bringUp_wf (boot : BootInput) : (s.bringUp boot).mem.wf = s.mem.wf := by
  simp only [State.bringUp]
  split <;> simp

@[simp] theorem State.loadImage_wf (boot : BootInput) : (s.loadImage boot).mem.wf = s.mem.wf := by
  simp [State.loadImage]

@[simp] theorem State.runAttempt_wf (boot : BootInput) : (s.runAttempt boot).mem.wf = s.mem.wf := by
  simp [State.runAttempt]

@[simp] theorem State.beginAttempt_wf (cause : Nat) (boot : BootInput) : (s.beginAttempt cause boot).mem.wf = true := by
  simp [State.beginAttempt]

@[simp] theorem State.powerUp_wf (straps : Straps) (boot : BootInput) : (s.powerUp straps boot).mem.wf = true :=
  State.beginAttempt_wf _ _ _

end Sys2Proof.Machine
end

section
/-! Tallies, clears and writes keep the canonical form, and with them the searches and slots that come before a command (log 84),
and every operation that contains one of these. -/

namespace Sys2Proof.Machine

variable (s : State)

/-! ### The form -/

theorem foldl_formed {α : Type} {f : State → α → State} (h : ∀ u a, u.mem.wf = true → (f u a).mem.wf = true)
    (l : List α) {s : State} (hs : s.mem.wf = true) : (l.foldl f s).mem.wf = true := by
  induction l generalizing s with
  | nil => exact hs
  | cons a l ih => exact ih (h s a hs)

theorem Mem.wf_iff {m : Mem} : m.wf = true ↔
    swf (fun _ => (0 : BitVec 64)) m.carrel = true ∧ swf (fun _ => (0 : BitVec 64)) m.secure = true ∧
      swf (fun _ => (0 : BitVec 128)) m.ads = true := by
  simp [Mem.wf, and_assoc]

theorem Mem.wf_noteTally (m : Mem) (c k : Nat) (old : BitVec 64) : (m.noteTally c k old).wf = m.wf := by
  simp only [Mem.noteTally]
  (repeat' split) <;> rfl

/-- What the service of a request does keeps the memories in canonical form. -/
def Service.Formed (v : Service) : Prop := ∀ u l, u.mem.wf = true → (v.run u l).1.mem.wf = true

section
variable {s} (hs : s.mem.wf = true)
include hs

/-! ### Search pipelines -/

@[simp] theorem State.clearLines_formed (c : Clear) (t : Nat) :
    (s.clearLines c t).mem.wf = true := by
  obtain ⟨hc, hsec, hads⟩ := Mem.wf_iff.mp hs
  exact Mem.wf_iff.mpr ⟨swf_filter _ _ hc, hsec, hads⟩

@[simp] theorem State.clearTo_formed (t : Nat) : (s.clearTo t).mem.wf = true :=
  foldl_formed (fun _ c hu => State.clearLines_formed hu c t) _ hs

theorem State.tallied_formed (c room word inc : Nat) :
    (s.tallied c room word inc).mem.wf = true := by
  obtain ⟨hcar, hrest⟩ := Mem.wf_iff.mp ((Mem.wf_noteTally s.mem c (room * 65536 + word) _).trans hs)
  rw [State.tallied, ite_mem, State.cleanse_mem, ite_self]
  exact Mem.wf_iff.mpr ⟨swf_sput _ _ _ hcar, hrest⟩

@[simp] theorem State.tally_formed (c room prog stage word inc : Nat) :
    (s.tally c room prog stage word inc).mem.wf = true := by
  rw [State.tally_eq]
  (repeat' split) <;> simp [hs, State.tallied_formed (State.clearTo_formed hs (c - 1))]

@[simp] theorem State.stageTally_formed (c : Nat) (x : Inflight) (stage : Nat) :
    (s.stageTally c x stage).mem.wf = true := by
  simp [hs, State.stageTally]

@[simp] theorem State.runStage_formed (x : Inflight) (uncorr : List MemWord) (stray : List (Fin 68)) :
    (s.runStage x uncorr stray).mem.wf = true := by
  simp [hs, State.runStage]

@[simp] theorem State.finish_formed (id n : Nat) : (s.finish id n).mem.wf = true := by
  induction n generalizing s with
  | zero => exact hs
  | succ n ih =>
    simp only [State.finish]
    split <;> simp [hs, ih]

/-! ### Merges of shard sets -/

@[simp] theorem State.closeMerge_formed (x : Inflight) (c : CasPart) :
    (s.closeMerge x c).mem.wf = true := by
  unfold State.closeMerge
  extract_lets u
  have hu : u.mem.wf = true := State.finish_formed (by simp [hs]) _ _
  clear_value u
  split
  · exact hu
  · simp [hu]

@[simp] theorem State.sendDue_formed (x : Inflight) : (s.sendDue x).mem.wf = true := by
  simp only [State.sendDue]
  split <;> simp [hs]

@[simp] theorem State.runDue_formed (n : Nat) : (s.runDue n).mem.wf = true := by
  induction n generalizing s with
  | zero => exact hs
  | succ n ih =>
    simp only [State.runDue]
    split
    · exact ih (by simp [hs])
    · exact hs

@[simp] theorem State.closeDue_formed : s.closeDue.mem.wf = true := by
  refine foldl_formed (fun u x hu => ?_) _ hs
  split <;> simp [hu]

@[simp] theorem State.searchesDone_formed : s.searchesDone.mem.wf = true := by simp [hs, State.searchesDone]

@[simp] theorem State.catchUp_formed : s.catchUp.mem.wf = true := by simp [hs, State.catchUp]

@[simp] theorem State.catchUpSlot_formed : s.catchUpSlot.mem.wf = true := by simp [hs, State.catchUpSlot]

/-! ### Table commands -/

@[simp] theorem State.atSlot_formed : s.atSlot.mem.wf = true := by simp [hs, State.atSlot]

@[simp] theorem State.startSlot_formed (ops : List Nat) {run : MqCmd → State → State}
    (h : ∀ c u, u.mem.wf = true → (run c u).mem.wf = true) : (s.startSlot ops run).mem.wf = true := by
  simp only [State.startSlot]
  split
  · exact hs
  · next hg =>
    have hu := (congrArg Mem.wf (State.grant_mem _ hg)).trans (State.atSlot_formed hs)
    (repeat' split) <;> simp [hs, h, hu]

/-! ### Memories and carrels -/

@[simp] theorem State.setMemWord_formed (space room w : Nat) (l : List Byte) :
    (s.setMemWord space room w l).mem.wf = true := by
  obtain ⟨hcar, hsec, hads⟩ := Mem.wf_iff.mp hs
  simp only [State.setMemWord]
  (repeat' split)
  · exact Mem.wf_iff.mpr ⟨swf_sput _ _ _ hcar, hsec, hads⟩
  · exact Mem.wf_iff.mpr ⟨hcar, hsec, swf_sput _ _ _ (swf_sput _ _ _ hads)⟩
  · exact Mem.wf_iff.mpr ⟨hcar, swf_sput _ _ _ hsec, hads⟩

@[simp] theorem State.memWriteWord_formed (h : MemHdr) (payload : List Byte) (w : Nat) :
    (s.memWriteWord h payload w).mem.wf = true := by
  simp [hs, State.memWriteWord]

@[simp] theorem State.memWrite_formed (port : Nat) (h : MemHdr) (f : Frame) :
    (s.memWrite port h f).mem.wf = true := by
  simp [State.memWrite, foldl_formed (fun _ w hu => State.memWriteWord_formed hu h _ w) _ hs]

@[simp] theorem State.holdClears_formed (die : Nat) : (s.holdClears die).mem.wf = true := by
  simp [hs, State.holdClears]

@[simp] theorem State.endClear_formed (room : Nat) : (s.endClear room).mem.wf = true := by
  simp only [State.endClear]
  split <;> simp [hs]

/-! ### Control objects -/

@[simp] theorem State.setCarWord_formed (room w : Nat) (x : BitVec 64) :
    (s.setCarWord room w x).mem.wf = true := by
  obtain ⟨hcar, hsec, hads⟩ := Mem.wf_iff.mp hs
  exact Mem.wf_iff.mpr ⟨swf_sput _ _ _ hcar, hsec, hads⟩

@[simp] theorem State.wrCarData_formed (m : Master) (room : Nat) (x : BitVec 64) :
    (s.wrCarData m room x).1.mem.wf = true := by
  simp [hs, State.wrCarData]

@[simp] theorem State.wrCarClear_formed (room : Nat) : (s.wrCarClear room).1.mem.wf = true := by
  simp [hs, State.wrCarClear]

/-! ### Vault -/

@[simp] theorem State.wipeSecure_formed : s.wipeSecure.mem.wf = true := by
  obtain ⟨hcar, -, hads⟩ := Mem.wf_iff.mp hs
  exact Mem.wf_iff.mpr ⟨hcar, swf_nil, hads⟩

@[simp] theorem State.wrLcReq_formed (v : Nat) : (s.wrLcReq v).1.mem.wf = true := by simp [hs, State.wrLcReq]

@[simp] theorem State.tamperEvent_formed (source : Nat) : (s.tamperEvent source).mem.wf = true := by
  simp [hs, State.tamperEvent]

@[simp] theorem State.tamperBit_formed (source : Nat) (present : Bool) :
    (s.tamperBit source present).mem.wf = true := by
  simp [hs, State.tamperBit]

@[simp] theorem State.wrTamperCfg_formed (v : Nat) : (s.wrTamperCfg v).1.mem.wf = true := by
  simp only [State.wrTamperCfg]
  split
  · exact hs
  · exact foldl_formed (fun _ i hu => State.tamperEvent_formed hu i) _ hs

/-! ### Health -/

@[simp] theorem State.holdDie_formed (heat : Bool) (d : Nat) : (s.holdDie heat d).mem.wf = true := by
  simp [hs, State.holdDie]

@[simp] theorem State.holdDies_formed (ds : List Nat) (heat : Bool) (quantity a b : Nat)
    (ra rb : Int) : (s.holdDies ds heat quantity a b ra rb).mem.wf = true := by
  have hf := fun l => foldl_formed (fun _ d hu => State.holdDie_formed hu heat d) l hs
  simp only [State.holdDies]
  (repeat' split) <;> simp -implicitDefEqProofs [hs, hf]

/-! ### Catalogue reads -/

@[simp] theorem State.settled_formed (index sub : Nat) : (s.settled index sub).mem.wf = true := by
  simp only [State.settled]
  split <;> simp [hs]

@[simp] theorem State.readAccess_formed (m : Master) (expedited : Bool) (index sub : Nat) :
    (s.readAccess m expedited index sub).1.mem.wf = true := by
  simp only [State.readAccess]
  split <;> simp [hs]

/-! ### Catalogue writes -/

@[simp] theorem State.setSecWord_formed (w : Nat) (x : BitVec 64) :
    (s.setSecWord w x).mem.wf = true := by
  obtain ⟨hcar, hsec, hads⟩ := Mem.wf_iff.mp hs
  exact Mem.wf_iff.mpr ⟨hcar, swf_sput _ _ _ hsec, hads⟩

theorem State.writeRooms_formed {m : Master} {p : Place} {v : Nat} {x : State × Nat}
    (h : s.writeRooms m p v = some x) : x.1.mem.wf = true := by
  simp only [State.writeRooms] at h
  split at h <;> simp only [Option.some.injEq, reduceCtorEq] at h <;> subst h <;> simp -implicitDefEqProofs [hs]

theorem State.byCore_formed {run : State → State × Nat}
    (h : (run s.wakeMgmt.draw).1.mem.wf = true) : (s.byCore run).1.mem.wf = true := by
  simp [State.byCore, hs, h]

theorem State.writeDevice_formed {m : Master} {p : Place} {v : Nat} {x : State × Nat}
    (h : s.writeDevice m p v = some x) : x.1.mem.wf = true := by
  simp only [State.writeDevice] at h
  (repeat' split at h) <;> simp only [Option.some.injEq, reduceCtorEq] at h <;> subst h <;>
    simp -implicitDefEqProofs [State.byCore_formed hs, hs]

@[simp] theorem State.performWrite_formed (m : Master) (p : Place) (l : List Byte) :
    (s.performWrite m p l).1.mem.wf = true := by
  simp only [State.performWrite]
  split
  · next hr => exact State.writeRooms_formed hs hr
  · split
    · next hd => exact State.writeDevice_formed hs hd
    · simp [hs]

theorem State.guarded_formed (m : Master) (k code : Nat) (l : List Byte) (old : Option Nat)
    {run : State → State × Nat} (h : (run s).1.mem.wf = true) : (s.guarded m k code l old run).mem.wf = true := by
  simp [State.guarded, hs, h]

@[simp] theorem State.writeObj_formed (m : Master) (p : Place) (l : List Byte) :
    (s.writeObj m p l).mem.wf = true := by
  simp [State.writeObj, State.guarded_formed hs, hs]

@[simp] theorem State.writeAccess_formed (m : Master) (index sub : Nat) (l : List Byte) :
    (s.writeAccess m index sub l).mem.wf = true := by
  simp only [State.writeAccess]
  split <;> simp [hs]

@[simp] theorem State.writeShort_formed (m : Master) (index sub : Nat) (l : List Byte) :
    (s.writeShort m index sub l).mem.wf = true := by
  simp only [State.writeShort]
  (repeat' split) <;> simp [hs]

/-! ### Requests -/

@[simp] theorem State.serve_formed (q : Pdu) {v : Service} (h : v.Formed) :
    (s.serve q v).mem.wf = true := by
  simp only [State.serve]
  (repeat' split) <;> simp [hs, h _ _]

@[simp] theorem State.startUpload_formed (q : Pdu) (index sub : Nat) :
    (s.startUpload q index sub).1.mem.wf = true := by
  simp [hs, State.startUpload]

@[simp] theorem State.endDownload_formed (q : Pdu) (t : Transfer) : (s.endDownload q t).1.mem.wf = true := by
  simp [hs, State.endDownload]

@[simp] theorem State.takeSegment_formed (q : Pdu) (t : Transfer) (body : List Byte) :
    (s.takeSegment q t body).1.mem.wf = true := by
  simp [hs, State.takeSegment]

/-! ### Power and the test port -/

@[simp] theorem State.enterTest_formed : s.enterTest.mem.wf = true := by simp [hs, State.enterTest]

@[simp] theorem State.leaveTest_formed (boot : BootInput) : (s.leaveTest boot).mem.wf = true := by
  simp [hs, State.leaveTest]

@[simp] theorem State.tapClock_formed (boot : BootInput) (c : TapClock) :
    (State.tapClock boot s c).mem.wf = true := by
  simp only [State.tapClock]
  split <;> simp [hs]

end

end Sys2Proof.Machine
end

section
/-! No command, and so no step, brings the addressed memories out of canonical form. -/

namespace Sys2Proof.Machine

variable (s : State)

/-! ### Outcomes -/

/-- A next state that the outcome gives has its memories in canonical form. -/
def Formed (o : Host.Outcome State Fault Refusal) : Prop := ∀ t, o = .next t → t.mem.wf = true

@[simp] theorem formed_next (u : State) : Formed (.next u) ↔ u.mem.wf = true := by simp [Formed]

@[simp] theorem formed_done (u : State) : Formed (done u) ↔ u.mem.wf = true := by simp [done]

@[simp] theorem formed_ite (c : Prop) [Decidable c] (o q : Host.Outcome State Fault Refusal) :
    Formed (if c then o else q) ↔ if c then Formed o else Formed q := by split <;> rfl

section
variable {s} (hs : s.mem.wf = true)
include hs

/-! ### Rooms and reductions -/

@[simp] theorem execReductionSwitch_formed : Formed (execReductionSwitch s) := by simp [hs, execReductionSwitch]

@[simp] theorem execReductionSecondSwitch_formed : Formed (execReductionSecondSwitch s) := by
  simp only [execReductionSecondSwitch]
  split <;> simp [hs]

/-! ### Search pipelines -/

@[simp] theorem execSearch_formed (port : Fin 32) (frame : Frame) : Formed (execSearch port frame s) := by
  simp [hs, execSearch]

@[simp] theorem execProgramStage_formed (port : Fin 32) (tag : BitVec 8) (uncorr : List MemWord)
    (stray : List (Fin 68)) : Formed (execProgramStage port tag uncorr stray s) := by
  simp only [execProgramStage]
  split <;> simp [hs]

/-! ### Pools -/

@[simp] theorem execReleaseWaitEnd_formed (block : BitVec 22) : Formed (execReleaseWaitEnd block s) := by
  simp only [execReleaseWaitEnd]
  split <;> simp [hs]

/-! ### Merges of shard sets -/

@[simp] theorem execCandidate_formed (port : Fin 32) (frame : Frame) :
    Formed (execCandidate port frame s) := by
  simp [hs, execCandidate]

@[simp] theorem execFence_formed (port : Fin 32) (frame : Frame) : Formed (execFence port frame s) := by
  simp [hs, execFence]

@[simp] theorem execMemberSend_formed (port : Fin 32) (tag : BitVec 8) :
    Formed (execMemberSend port tag s) := by
  simp only [execMemberSend]
  split <;> simp [hs]

@[simp] theorem execCollectorClose_formed (port : Fin 32) (tag : BitVec 8) :
    Formed (execCollectorClose port tag s) := by
  simp only [execCollectorClose]
  split <;> simp [hs]

@[simp] theorem execMergedSend_formed (port : Fin 32) (tag : BitVec 8) :
    Formed (execMergedSend port tag s) := by
  simp only [execMergedSend]
  split <;> simp [hs]

@[simp] theorem execOwnerClose_formed (port : Fin 32) (tag : BitVec 8) :
    Formed (execOwnerClose port tag s) := by
  simp only [execOwnerClose]
  split <;> simp [hs]

@[simp] theorem execResult_formed (port : Fin 32) : Formed (execResult port s) := by
  simp only [execResult]
  split <;> simp [hs]

@[simp] theorem execCasOrphan_formed : Formed (execCasOrphan s) := by
  simp only [execCasOrphan]
  split <;> simp [hs]

/-! ### Links -/

@[simp] theorem execLinkBringUp_formed (port : Fin 32) : Formed (execLinkBringUp port s) := by
  simp [hs, execLinkBringUp]

@[simp] theorem execLinkFail_formed (port : Fin 32) : Formed (execLinkFail port s) := by
  simp only [execLinkFail]
  split <;> simp [hs]

@[simp] theorem execLinkRestart_formed (port : Fin 32) : Formed (execLinkRestart port s) := by
  simp [hs, execLinkRestart]

@[simp] theorem execLinkAligned_formed (port : Fin 32) (lanes : Alignment) (rxLat txLat : Fin 3) :
    Formed (execLinkAligned port lanes rxLat txLat s) := by
  simp only [execLinkAligned]
  split <;> simp -implicitDefEqProofs [hs]

@[simp] theorem execHello_formed (port : Fin 32) (frame : Frame) : Formed (execHello port frame s) := by
  simp [hs, execHello]

theorem State.receive_formed (p : Nat) {run : State → State} (h : (run s).mem.wf = true) :
    (s.receive p run).mem.wf = true := by
  simp [State.receive, hs, h]

@[simp] theorem execIdle_formed (port : Fin 32) (frame : Frame) : Formed (execIdle port frame s) := by
  simp [execIdle, State.receive_formed hs, hs]

@[simp] theorem execLinkDown_formed (port : Fin 32) (lane : Fin 8) : Formed (execLinkDown port lane s) := by
  simp [hs, execLinkDown]

@[simp] theorem execUncorrWindow_formed (port : Fin 32) (codewords : List (List SymbolError)) :
    Formed (execUncorrWindow port codewords s) := by
  simp [hs, execUncorrWindow]

@[simp] theorem execLinkDrop_formed (port : Fin 32) : Formed (execLinkDrop port s) := by simp [hs, execLinkDrop]

@[simp] theorem execFrameReceive_formed (port : Fin 32) (frame : Frame) (place : Arrival) :
    Formed (execFrameReceive port frame place s) := by
  simp only [execFrameReceive]
  split <;> simp [State.receive_formed hs, hs]

@[simp] theorem execSlotFill_formed (port : Fin 32) : Formed (execSlotFill port s) := by
  simp only [execSlotFill]
  split <;> simp [hs]

/-! ### Table commands -/

@[simp] theorem execTableFrame_formed (port : Fin 32) (frame : Frame) :
    Formed (execTableFrame port frame s) := by
  simp [hs, execTableFrame]

@[simp] theorem execAlloc_formed : Formed (execAlloc s) := by
  simp only [execAlloc, formed_next]
  exact State.startSlot_formed hs _ fun c u hu => (runPool_wf State.doAlloc_wf c u).trans hu

@[simp] theorem execFree_formed : Formed (execFree s) := by
  simp only [execFree, formed_next]
  exact State.startSlot_formed hs _ fun c u hu => (runPool_wf State.doFree_wf c u).trans hu

/-! ### Trie and hash commands -/

@[simp] theorem execPfxSettle_formed (table : Fin 256) : Formed (execPfxSettle table s) := by
  simp [hs, execPfxSettle]

@[simp] theorem execPfxBuildDone_formed (image : PfxImage) : Formed (execPfxBuildDone image s) := by
  simp [hs, execPfxBuildDone]

@[simp] theorem execPfxBuildFail_formed (image : PfxImage) (bank : Bool) (slice : Fin 4) :
    Formed (execPfxBuildFail image bank slice s) := by
  simp [hs, execPfxBuildFail]

/-! ### Exact-match commands and learns -/

@[simp] theorem execInsert_formed : Formed (execInsert s) := by simp [hs, execInsert]

@[simp] theorem execWrite_formed : Formed (execWrite s) := by simp [hs, execWrite]

@[simp] theorem execRead_formed : Formed (execRead s) := by simp [hs, execRead]

@[simp] theorem execDelete_formed : Formed (execDelete s) := by simp [hs, execDelete]

@[simp] theorem execMove_formed : Formed (execMove s) := by simp [hs, execMove]

@[simp] theorem execScan_formed : Formed (execScan s) := by simp [hs, execScan]

@[simp] theorem execLearn_formed (port : Fin 32) (frame : Frame) : Formed (execLearn port frame s) := by
  simp only [execLearn]
  (repeat' split) <;> simp [hs]

@[simp] theorem execLearnApply_formed (slice : Fin 4) : Formed (execLearnApply slice s) := by
  simp only [execLearnApply]
  (repeat' split) <;> simp [hs]

@[simp] theorem execEmNowTick_formed : Formed (execEmNowTick s) := by simp [hs, execEmNowTick]

@[simp] theorem execStampSweep_formed (slot : BitVec 23) (uncorr : Bool) :
    Formed (execStampSweep slot uncorr s) := by
  simp [hs, execStampSweep]

/-! ### Editions -/

@[simp] theorem execAdvance_formed : Formed (execAdvance s) := by simp [hs, execAdvance]

@[simp] theorem execEditionFloor_formed (room : Fin 16) : Formed (execEditionFloor room s) := by
  simp [hs, execEditionFloor]

@[simp] theorem execClampPassEnd_formed : Formed (execClampPassEnd s) := by simp [hs, execClampPassEnd]

/-! ### Memories and carrels -/

@[simp] theorem execMem_formed (port : Fin 32) (frame : Frame) (uncorr : List MemWord) :
    Formed (execMem port frame uncorr s) := by
  have hu : (s.takeRx port 1 frame).catchUp.mem.wf = true := by simp [hs]
  simp only [execMem]
  (repeat' split) <;> simp [hs, State.clearTo_formed hu]

@[simp] theorem execCarClearDone_formed (room : Fin 16) : Formed (execCarClearDone room s) := by
  simp [hs, execCarClearDone]

/-! ### Accessions -/

@[simp] theorem execAccessionSwitch_formed : Formed (execAccessionSwitch s) := by simp [hs, execAccessionSwitch]

@[simp] theorem execCopyFillDone_formed (table : Fin 256) : Formed (execCopyFillDone table s) := by
  simp [hs, execCopyFillDone]

/-! ### Vault -/

@[simp] theorem execPostedDone_formed (index : BitVec 16) : Formed (execPostedDone index s) := by
  simp only [execPostedDone]
  (repeat' split) <;> simp [hs]

@[simp] theorem execLcFuseDone_formed (blown : Bool) : Formed (execLcFuseDone blown s) := by
  simp only [execLcFuseDone]
  split <;> simp [hs]

@[simp] theorem execTamperCauseChange_formed (source : Fin 5) (present : Bool) :
    Formed (execTamperCauseChange source present s) := by
  simp [hs, execTamperCauseChange]

@[simp] theorem execVaonLoss_formed : Formed (execVaonLoss s) := by simp [hs, execVaonLoss]

@[simp] theorem execVaonRise_formed : Formed (execVaonRise s) := by simp [hs, execVaonRise]

/-! ### Firmware update and provenance -/

@[simp] theorem execFwEraseDone_formed (ok : Bool) : Formed (execFwEraseDone ok s) := by
  simp [hs, execFwEraseDone]

@[simp] theorem execFwUpdImage_formed (m : Master) (last : List Byte) (flashOk mirrorFail : Bool) :
    Formed (execFwUpdImage m last flashOk mirrorFail s) := by
  simp only [execFwUpdImage]
  split <;> simp [hs]

@[simp] theorem execProvBuildDone_formed : Formed (execProvBuildDone s) := by
  simp only [execProvBuildDone]
  split <;> simp [hs]

/-! ### Health -/

@[simp] theorem execMaintSlot_formed (unit : Fin 76) (found : RowFinding) :
    Formed (execMaintSlot unit found s) := by
  simp only [execMaintSlot]
  (repeat' split) <;> simp [hs]

@[simp] theorem execSrRegionStart_formed (outcome : SrOutcome) (uncorr : List MemWord) :
    Formed (execSrRegionStart outcome uncorr s) := by
  simp only [execSrRegionStart]
  split
  · simp [hs]
  · split
    · simp [hs]
    · next hp => split <;> simp -implicitDefEqProofs [hs, State.srPick_mem _ hp]

@[simp] theorem execBayRebuilt_formed (spareFails : Bool) : Formed (execBayRebuilt spareFails s) := by
  simp only [execBayRebuilt]
  split <;> simp [hs]

@[simp] theorem execBayFence_formed : Formed (execBayFence s) := by
  simp only [execBayFence]
  split <;> simp [hs]

@[simp] theorem execBayRetest_formed (bay : Fin 68) (pass : Bool) : Formed (execBayRetest bay pass s) := by
  simp only [execBayRetest]
  split <;> simp [hs]

@[simp] theorem execBankTestRequest_formed (slice : Fin 4) (level : Fin 12) :
    Formed (execBankTestRequest slice level s) := by
  simp only [execBankTestRequest]
  (repeat' split) <;> simp [hs]

@[simp] theorem execBankTest_formed (slice : Fin 4) (level : Fin 12) (result : Fin 3) :
    Formed (execBankTest slice level result s) := by
  simp [hs, execBankTest]

@[simp] theorem execRegionSample_formed (r : RegionReading) : Formed (execRegionSample r s) := by
  simp only [execRegionSample]
  split
  · simp [hs]
  · exact (formed_done _).mpr (foldl_formed (fun _ x hu => State.holdDies_formed hu _ _ _ _ _ _ _) _ (by simp [hs]))

@[simp] theorem execThermalSample_formed (tj : List Int) : Formed (execThermalSample tj s) := by
  simp only [execThermalSample]
  (repeat' split)
  · simp [hs]
  · simp [hs]
  · exact (formed_done _).mpr (foldl_formed (fun _ d hu => State.holdDies_formed hu _ _ _ _ _ _ _) _ (by simp [hs]))

@[simp] theorem execRegionRelease_formed (die : Fin 4) (found : DieFinding) :
    Formed (execRegionRelease die found s) := by
  simp only [execRegionRelease]
  split
  · simp [hs]
  · rw [formed_done, State.updateDegraded_mem, foldl_mem State.freePort_mem]
    simp only [State.regainUnits_mem, State.record_mem, State.bump_mem, State.setRegion_mem,
      State.foundAll_mem]
    rw [foldl_mem fun u l => by split <;> simp]
    exact hs

@[simp] theorem execWearSample_formed (region : Fin 5) (shift : BitVec 16) :
    Formed (execWearSample region shift s) := by
  simp [hs, execWearSample]

/-! ### Mailboxes -/

@[simp] theorem execMbxSnapshot_formed (m : Master) : Formed (execMbxSnapshot m s) := by
  simp only [execMbxSnapshot]
  (repeat' split) <;> simp [hs]

@[simp] theorem execMbxContextRelease_formed (ctx : Fin 16) : Formed (execMbxContextRelease ctx s) := by
  simp [hs, execMbxContextRelease]

/-! ### Catalogue writes -/

@[simp] theorem execRegisterWrite_formed (m : Master) (index : BitVec 16) (sub : BitVec 8) (value : List Byte) :
    Formed (execRegisterWrite m index sub value s) := by
  simp [hs, execRegisterWrite]

@[simp] theorem State.control_formed (m : Master) (o : Obj) (i v : Nat) : Formed (s.control m o i v) := by
  simp [hs, State.control]

@[simp] theorem execTblCmd_formed (m : Master) (room : Fin 16) (value : BitVec 32) :
    Formed (execTblCmd m room value s) := by
  simp [hs, execTblCmd]

@[simp] theorem execEdAdvance_formed (m : Master) (room : Fin 16) (expect : BitVec 16) :
    Formed (execEdAdvance m room expect s) := by
  simp [hs, execEdAdvance]

@[simp] theorem execBuildTrie_formed (m : Master) (table : Fin 256) : Formed (execBuildTrie m table s) := by
  simp [hs, execBuildTrie]

@[simp] theorem execBuildHash_formed (m : Master) (table : Fin 256) : Formed (execBuildHash m table s) := by
  simp [hs, execBuildHash]

@[simp] theorem execTrie_formed (m : Master) (table : Fin 256) : Formed (execTrie m table s) := by
  simp [hs, execTrie]

@[simp] theorem execHash_formed (m : Master) (table : Fin 256) : Formed (execHash m table s) := by
  simp [hs, execHash]

@[simp] theorem execEmTick_formed (m : Master) (value : BitVec 16) : Formed (execEmTick m value s) := by
  simp [hs, execEmTick]

@[simp] theorem execEmLfsrSeed_formed (m : Master) (value : BitVec 32) :
    Formed (execEmLfsrSeed m value s) := by
  simp [hs, execEmLfsrSeed]

@[simp] theorem execPoolProbeSel_formed (m : Master) (pool : Fin 64) (block : BitVec 32) :
    Formed (execPoolProbeSel m pool block s) := by
  simp [hs, execPoolProbeSel]

@[simp] theorem execCarData_formed (m : Master) (room : Fin 16) (value : BitVec 64) :
    Formed (execCarData m room value s) := by
  simp [hs, execCarData]

@[simp] theorem execCarClear_formed (m : Master) (room : Fin 16) (value : BitVec 32) :
    Formed (execCarClear m room value s) := by
  simp [hs, execCarClear]

@[simp] theorem execAccession_formed (m : Master) (value : BitVec 32) : Formed (execAccession m value s) := by
  simp [hs, execAccession]

@[simp] theorem execAccDiscard_formed (m : Master) (value : BitVec 16) :
    Formed (execAccDiscard m value s) := by
  simp [hs, execAccDiscard]

@[simp] theorem execRetrain_formed (m : Master) (port : Fin 32) (value : BitVec 32) :
    Formed (execRetrain m port value s) := by
  simp [hs, execRetrain]

@[simp] theorem execMbxSel_formed (m : Master) (value : BitVec 32) : Formed (execMbxSel m value s) := by
  simp [hs, execMbxSel]

@[simp] theorem execDbAck_formed (m : Master) (ring : Fin 17) (value : BitVec 16) :
    Formed (execDbAck m ring value s) := by
  simp [hs, execDbAck]

@[simp] theorem execDbCodeCfg_formed (m : Master) (value : BitVec 8) : Formed (execDbCodeCfg m value s) := by
  simp [hs, execDbCodeCfg]

@[simp] theorem execProvReq_formed (m : Master) (value : BitVec 8) : Formed (execProvReq m value s) := by
  simp [hs, execProvReq]

@[simp] theorem execFwUpdTarget_formed (m : Master) (value : BitVec 8) :
    Formed (execFwUpdTarget m value s) := by
  simp [hs, execFwUpdTarget]

@[simp] theorem execFwPolicy_formed (m : Master) (value : BitVec 8) : Formed (execFwPolicy m value s) := by
  simp [hs, execFwPolicy]

@[simp] theorem execLcReq_formed (m : Master) (value : BitVec 8) : Formed (execLcReq m value s) := by
  simp [hs, execLcReq]

@[simp] theorem execKeyLoad_formed (m : Master) (value : List Byte) : Formed (execKeyLoad m value s) := by
  simp [hs, execKeyLoad]

@[simp] theorem execVaultData_formed (m : Master) (value : BitVec 32) : Formed (execVaultData m value s) := by
  simp [hs, execVaultData]

@[simp] theorem execTamperCfg_formed (m : Master) (value : BitVec 16) : Formed (execTamperCfg m value s) := by
  simp [hs, execTamperCfg]

@[simp] theorem execRelease_formed (m : Master) (region : Fin 5) (value : BitVec 32) :
    Formed (execRelease m region value s) := by
  simp [hs, execRelease]

/-! ### Requests -/

@[simp] theorem State.onPdu_formed (q : Pdu) (service : Nat) {v : State → Service}
    (h : ∀ u, (v u).Formed) : Formed (s.onPdu q service v) := by
  have hu : (s.reach q service).1.mem.wf = true := by simp [hs]
  simp only [State.onPdu, formed_done]
  split
  · exact State.serve_formed hu q (h _)
  · exact hu

@[simp] theorem execReadReq_formed (pdu : Pdu) : Formed (execReadReq pdu s) := by
  rw [execReadReq]
  exact State.onPdu_formed hs pdu _ fun u t l ht => by simp [ht]

@[simp] theorem execWriteReq_formed (pdu : Pdu) : Formed (execWriteReq pdu s) := by
  rw [execWriteReq]
  exact State.onPdu_formed hs pdu _ fun u t l ht => by simp [ht]

@[simp] theorem execMbxReq_formed (pdu : Pdu) : Formed (execMbxReq pdu s) := by
  rw [execMbxReq]
  exact State.onPdu_formed hs pdu _ fun u t l ht => by dsimp only; split <;> exact ht

@[simp] theorem execBadPdu_formed (pdu : Pdu) : Formed (execBadPdu pdu s) := by simp [hs, execBadPdu]

@[simp] theorem execSegInit_formed (pdu : Pdu) : Formed (execSegInit pdu s) := by
  rw [execSegInit]
  exact State.onPdu_formed hs pdu _ fun u t l ht => by simp [ht]

@[simp] theorem execSegData_formed (pdu : Pdu) : Formed (execSegData pdu s) := by
  rw [execSegData]
  exact State.onPdu_formed hs pdu _ fun u t l ht => by cases u.transferOf pdu.master <;> simp [ht]

@[simp] theorem execSegAck_formed (pdu : Pdu) : Formed (execSegAck pdu s) := by
  rw [execSegAck]
  exact State.onPdu_formed hs pdu _ fun u t l ht => by cases u.transferOf pdu.master <;> simp [ht]

@[simp] theorem execAbort_formed (pdu : Pdu) : Formed (execAbort pdu s) := by
  rw [execAbort]
  exact State.onPdu_formed hs pdu _ fun u t l ht => by simp [ht]

@[simp] theorem execTimeout_formed (m : Master) : Formed (execTimeout m s) := by
  simp only [execTimeout]
  split <;> simp [hs]

@[simp] theorem execSleepReq_formed (pdu : Pdu) : Formed (execSleepReq pdu s) := by
  simp only [execSleepReq]
  split
  · simp [hs]
  · exact State.onPdu_formed hs pdu _ fun u t l ht => by simp [ht]

@[simp] theorem execOpenSession_formed (pdu : Pdu) : Formed (execOpenSession pdu s) := by
  rw [execOpenSession]
  split
  · simp [hs]
  · exact State.onPdu_formed hs pdu _ fun u t l ht => by simp [ht]

@[simp] theorem execProve_formed (pdu : Pdu) : Formed (execProve pdu s) := by
  rw [execProve]
  split
  · simp [hs]
  · exact State.onPdu_formed hs pdu _ fun u t l ht => by simp [ht]

@[simp] theorem execClose_formed (pdu : Pdu) : Formed (execClose pdu s) := by
  rw [execClose]
  split
  · simp [hs]
  · exact State.onPdu_formed hs pdu _ fun u t l ht => by dsimp only; split <;> simp [ht]

@[simp] theorem execSessionIdle_formed (session : Fin 48) : Formed (execSessionIdle session s) := by
  simp [hs, execSessionIdle]

/-! ### Resets and start attempts -/

@[simp] theorem execAclkQualified_formed : Formed (execAclkQualified s) := by
  simp only [execAclkQualified]
  (repeat' split) <;> simp [hs]

@[simp] theorem execPorn_formed (lowNs : Nat) : Formed (execPorn lowNs s) := by simp [hs, execPorn]

@[simp] theorem execPornRelease_formed (straps : Straps) (boot : BootInput) :
    Formed (execPornRelease straps boot s) := by
  simp [hs, execPornRelease]

@[simp] theorem execSysrstn_formed (lowNs : Nat) : Formed (execSysrstn lowNs s) := by simp [hs, execSysrstn]

@[simp] theorem execSysrstnRelease_formed (boot : BootInput) : Formed (execSysrstnRelease boot s) := by
  simp [hs, execSysrstnRelease]

@[simp] theorem execInternalRestart_formed (boot : BootInput) : Formed (execInternalRestart boot s) := by
  simp only [execInternalRestart]
  split <;> simp [hs]

@[simp] theorem execStartComplete_formed : Formed (execStartComplete s) := by simp [hs, execStartComplete]

@[simp] theorem execFwTimeout_formed : Formed (execFwTimeout s) := by simp [hs, execFwTimeout]

@[simp] theorem execFwFault_formed (cause : BitVec 16) : Formed (execFwFault cause s) := by simp [hs, execFwFault]

@[simp] theorem execFwAbort_formed (code : BitVec 16) : Formed (execFwAbort code s) := by simp [hs, execFwAbort]

@[simp] theorem execBistFail_formed (die : Fin 5) (block : BitVec 12) :
    Formed (execBistFail die block s) := by
  simp [hs, execBistFail]

@[simp] theorem execPllLockFail_formed (region : Fin 5) : Formed (execPllLockFail region s) := by
  simp [hs, execPllLockFail]

/-! ### Power and the test port -/

@[simp] theorem execMgmtWait_formed : Formed (execMgmtWait s) := by simp [hs, execMgmtWait]

@[simp] theorem execMgmtWake_formed (cause : WakeCause) : Formed (execMgmtWake cause s) := by
  simp only [execMgmtWake]
  (repeat' split) <;> simp [hs]

@[simp] theorem execSupplyLoss_formed (supply : Supply) : Formed (execSupplyLoss supply s) := by
  simp [hs, execSupplyLoss]

@[simp] theorem execSupplyRise_formed (supply : Supply) (straps : Straps) (boot : BootInput) :
    Formed (execSupplyRise supply straps boot s) := by
  simp [hs, execSupplyRise]

@[simp] theorem execExtest_formed (test : BoundaryTest) : Formed (execExtest test s) := by
  simp only [execExtest]
  (repeat' split) <;> simp [hs]

@[simp] theorem execTapExit_formed (run : TapRun) : Formed (execTapExit run s) := by
  simp only [execTapExit]
  split
  · simp [hs]
  · exact (formed_next _).mpr (foldl_formed (fun _ c hu => State.tapClock_formed hu _ c) _ hs)

@[simp] theorem execTrstn_formed (boot : BootInput) : Formed (execTrstn boot s) := by simp [hs, execTrstn]

/-! ### Dictionary bus -/

@[simp] theorem execCanFrameDiscard_formed (kind : CanDiscard) : Formed (execCanFrameDiscard kind s) := by
  simp only [execCanFrameDiscard]
  (repeat' split) <;> simp [hs]

@[simp] theorem execDbusNodeClash_formed : Formed (execDbusNodeClash s) := by simp [hs, execDbusNodeClash]

@[simp] theorem execNodeClashClear_formed : Formed (execNodeClashClear s) := by simp [hs, execNodeClashClear]

@[simp] theorem execCanError_formed (tec rec : BitVec 16) : Formed (execCanError tec rec s) := by
  simp [hs, execCanError]

@[simp] theorem execDbusBusoff_formed : Formed (execDbusBusoff s) := by simp [hs, execDbusBusoff]

@[simp] theorem execBusoffRecovery_formed : Formed (execBusoffRecovery s) := by simp [hs, execBusoffRecovery]

@[simp] theorem execProtocolException_formed : Formed (execProtocolException s) := by
  simp [hs, execProtocolException]

@[simp] theorem execProtocolExceptionEnd_formed : Formed (execProtocolExceptionEnd s) := by
  simp [hs, execProtocolExceptionEnd]

@[simp] theorem execDbusRateSwitch_formed : Formed (execDbusRateSwitch s) := by
  simp only [execDbusRateSwitch]
  split <;> simp [hs]

@[simp] theorem execHeartbeat_formed : Formed (execHeartbeat s) := by simp [hs, execHeartbeat]

@[simp] theorem execEventPdu_formed : Formed (execEventPdu s) := by
  simp only [execEventPdu]
  (repeat' split) <;> simp [hs]

@[simp] theorem execDbusSleep_formed : Formed (execDbusSleep s) := by
  simp only [execDbusSleep]
  split <;> simp [hs]

@[simp] theorem execDeviceWake_formed : Formed (execDeviceWake s) := by simp [hs, execDeviceWake]

@[simp] theorem execBusWake_formed : Formed (execBusWake s) := by simp [hs, execBusWake]

@[simp] theorem execBusActive_formed : Formed (execBusActive s) := by simp [hs, execBusActive]

/-! ### Event frames -/

@[simp] theorem execEventFrame_formed (port : Fin 32) : Formed (execEventFrame port s) := by
  simp only [execEventFrame]
  (repeat' split) <;> simp [hs]

end

/-! ### Commands -/

/-- Every command keeps the addressed memories in canonical form. -/
theorem exec_formed {s : State} (hs : s.mem.wf = true) (c : Instr) : Formed (exec c s) := by
  cases c <;> simp [exec, hs]

/-- A step keeps the addressed memories in canonical form. -/
theorem step_formed {s : State} (hs : s.mem.wf = true) : Formed (step s) := by
  rw [step]
  split
  · exact (formed_next _).mpr hs
  · next c rest hp => exact exec_formed (s := { s with pending := rest }) hs c

end Sys2Proof.Machine
end

section
open Sys2Proof Sys2Proof.Machine

/-- Settles O4: a step is a command or a cycle, and every command keeps the form, by cases on the command. -/
theorem memoriesStayCanonical : Obligations.MemoriesStayCanonical :=
  fun _ t hs h => step_formed hs t h
end

section
/-! The pools (R206, R211 to R214, R220): what ALLOC, FREE and the end of a release's wait change in the allocation records,
the releases that wait and the watermark status. -/

namespace Sys2Proof.Machine

/-! ### Watermarks -/

/-- The addressed memories and the pools without the watermark status (R220). -/
def Mem.unmarked (m : Mem) : Mem := { m with poolStatus := [] }

theorem State.unmarked_crossing (s : State) (n m : Nat) (rise : Bool) (level : Nat) :
    (s.crossing n m rise level).mem.unmarked = s.mem.unmarked := by
  have h : Touches [.regs] (s.crossed n m rise) (s.crossing n m rise level) :=
    State.touches_record (s.crossed n m rise) .poolXing (some (s.view.pool n).room) hubPool _ _
  have hmem : (s.crossing n m rise level).mem = (s.crossed n m rise).mem := h .mem (by simp)
  rw [hmem]
  rfl

theorem State.unmarked_markRise (s : State) (n m : Nat) : (s.markRise n m).mem.unmarked = s.mem.unmarked := by
  simp only [State.markRise]
  split
  · exact s.unmarked_crossing _ _ _ _
  · rfl

theorem State.unmarked_markFall (s : State) (n m : Nat) : (s.markFall n m).mem.unmarked = s.mem.unmarked := by
  simp only [State.markFall]
  split
  · exact s.unmarked_crossing _ _ _ _
  · rfl

/-- The marks of a pool change its watermark status alone in the memories (R220). -/
theorem State.unmarked_evalMarks (s : State) (n : Nat) : (s.evalMarks n).mem.unmarked = s.mem.unmarked := by
  simp only [State.evalMarks, State.unmarked_markRise, State.unmarked_markFall]

section
variable {s u : State} (h : u.mem.unmarked = s.mem.unmarked)
include h

theorem State.releasing_of_unmarked : u.mem.releasing = s.mem.releasing :=
  (congrArg (fun m : Mem => m.releasing) h : u.mem.unmarked.releasing = s.mem.unmarked.releasing)

theorem State.ads_of_unmarked : u.mem.ads = s.mem.ads :=
  (congrArg (fun m : Mem => m.ads) h : u.mem.unmarked.ads = s.mem.unmarked.ads)

theorem State.carrel_of_unmarked : u.mem.carrel = s.mem.carrel :=
  (congrArg (fun m : Mem => m.carrel) h : u.mem.unmarked.carrel = s.mem.unmarked.carrel)

end

/-! ### Commands -/

/-- The pool that a command names is one of the 64 (R211). -/
theorem MqCmd.pool_lt (c : MqCmd) : c.hdr.table % 64 < 64 := Nat.mod_lt _ (by decide)

/-- Work on the pools, then the command's answer. -/
theorem Answered.commandFrame_of_within {c : MqCmd} {l : List Piece} {s v u : State} (h : Answered c v u)
    (hw : Within (.regs :: l) poolKeys s v) (ha : v.arb = s.arb) : CommandFrame c l s u := by
  refine ⟨(hw.touches.mono ?_).trans (h.touches.mono ?_), (hw.regs.mono ?_).trans (h.regs.mono ?_), fun r hr => ?_⟩
  · simp only [List.mem_cons]
    tauto
  · simp only [List.mem_cons, List.not_mem_nil, or_false]
    tauto
  · exact fun k hk => List.mem_append_right _ hk
  · exact fun k hk => List.mem_append_left _ hk
  · rw [h.queue r hr, State.queue, State.queue, ha]

/-- A command that ends its cycle. -/
theorem CommandFrame.at_next {c : MqCmd} {l : List Piece} {s t : State} (h : CommandFrame c l s t) (n : Nat) :
    CommandFrame c (.now :: l) s (t.at n) := by
  obtain ⟨htouch, hregs, hqueue⟩ := h
  refine ⟨(htouch.mono ?_).trans ((touches_now t _).mono (by simp)), hregs, hqueue⟩
  simp only [List.mem_cons]
  tauto

theorem runPool_ok {op : State → Nat → PoolWord → State × Nat × Nat} {c : MqCmd} {s v : State} {result : Nat}
    (hs : s.poolStatusOf c = none) (h : op s (c.hdr.table % 64) (poolWord (c.body.headD 0)) = (v, 0, result)) :
    runPool op c s = v.answer c (reply 0 result) := by
  simp only [runPool, hs, h, if_true]

theorem runPool_refused {op : State → Nat → PoolWord → State × Nat × Nat} {c : MqCmd} {s v : State} {st result : Nat}
    (hs : s.poolStatusOf c = none) (h : op s (c.hdr.table % 64) (poolWord (c.body.headD 0)) = (v, st, result)) (hst : st ≠ 0) :
    runPool op c s = v.refuse c st result := by
  simp only [runPool, hs, h, if_neg hst]

theorem alloc_exec {s s1 : State} {c : MqCmd} (h : s.Starts opAlloc c s1) : exec .alloc s = .next (runPool State.doAlloc c s1) :=
  congrArg _ (State.startSlot_of_starts [opAlloc] _ h rfl)

theorem free_exec {s s1 : State} {c : MqCmd} (h : s.Starts opFree c s1) :
    exec .free s = .next ((runPool State.doFree c s1).at ((runPool State.doFree c s1).now + 1)) :=
  congrArg _ (State.startSlot_of_starts [opFree] _ h rfl)

/-! ### ALLOC -/

/-- The allocation record that ALLOC writes (R206, R212). -/
def PoolWord.taken (w : PoolWord) : Alloc := ⟨true, true, w.cls, 0, w.owner⟩

/-- The state with a run of blocks allocated, the marks of its pool evaluated (R206, R220). -/
def State.allocated (s : State) (n b : Nat) (w : PoolWord) : State :=
  ((s.setAlloc b w.taken).cleanse .count (b / 1048576) b).evalMarks n

theorem State.doAlloc_ok {s : State} {n : Nat} {w : PoolWord} (h : s.allocStatus n w = none) :
    let b := if w.atEn then w.index else (s.freeRun (s.view.pool n) (2 ^ w.cls.toNat)).getD 0
    s.doAlloc n w = (s.allocated n b w, 0, b) := by
  simp only [State.doAlloc, h]
  rfl

theorem State.touches_setAlloc (s : State) (b : Nat) (a : Alloc) : Touches [.mem] s (s.setAlloc b a) := touches_mem s _

theorem State.within_allocated (s : State) {n : Nat} (hn : n < 64) (b : Nat) (w : PoolWord) :
    Within [.regs, .mem, .health] poolKeys s (s.allocated n b w) := by
  have hset : Touches [.mem, .health] s ((s.setAlloc b w.taken).cleanse .count (b / 1048576) b) :=
    ((s.touches_setAlloc b w.taken).mono (by simp)).followed (touches_health _ _) (by simp)
  exact ((hset.within (by simp) poolKeys).mono (by simp) fun _ hk => hk).trans
    ⟨(State.evaluated_evalMarks _ n).touches.mono (by simp), State.regsBut_evalMarks _ hn⟩

theorem State.unmarked_allocated (s : State) (n b : Nat) (w : PoolWord) :
    (s.allocated n b w).mem.unmarked = (s.setAlloc b w.taken).mem.unmarked := State.unmarked_evalMarks _ _

theorem State.alloc_allocated (s : State) (n b : Nat) (w : PoolWord) (j : Nat) :
    (s.allocated n b w).alloc j = if j = b then w.taken else s.alloc j :=
  ((State.evaluated_evalMarks ((s.setAlloc b w.taken).cleanse .count (b / 1048576) b) n).alloc j).trans
    (s.alloc_setAlloc b w.taken j)


/-- A refused ALLOC is counted and recorded (R212, R221). -/
def State.allocRefused (s : State) (n : Nat) (w : PoolWord) (st : Nat) : State :=
  (s.bump .poolRefused n).record .allocRefused (some (s.view.pool n).room) hubPool
    [(8, n), (8, w.cls.toNat), (8, st), (8, w.urgency)]

theorem State.doAlloc_refused {s : State} {n st : Nat} {w : PoolWord} (h : s.allocStatus n w = some st) :
    s.doAlloc n w = (s.allocRefused n w st, st, 0) := by
  simp only [State.doAlloc, h]
  rfl

/-- A refusal has a status of its own (R212). -/
theorem State.allocStatus_ne_zero {s : State} {n st : Nat} {w : PoolWord} (h : s.allocStatus n w = some st) : st ≠ 0 := by
  simp only [State.allocStatus] at h
  split_ifs at h <;> (obtain rfl := Option.some.inj h; decide)

theorem State.records_allocRefused (s : State) (n : Nat) (w : PoolWord) (st : Nat) :
    OnlyRecords (s.bump .poolRefused n) (s.allocRefused n w st) :=
  onlyRecords_record _ _ _ _ _ _ fun _ h => Option.some.inj h ▸ bits_lt _ 127 124

theorem poolRefused_mem_poolKeys {n : Nat} (hn : n < 64) : Obj.poolRefused.key n ∈ poolKeys := by
  simp only [poolKeys, List.mem_flatMap, List.mem_range]
  exact ⟨n, hn, by simp⟩

theorem State.within_allocRefused (s : State) {n : Nat} (hn : n < 64) (w : PoolWord) (st : Nat) :
    Within [.regs] poolKeys s (s.allocRefused n w st) := by
  refine ((s.within_bump .poolRefused n 0).mono (by simp) fun k hk => ?_).of_records (s.records_allocRefused n w st)
  rw [List.mem_singleton.1 hk]
  exact poolRefused_mem_poolKeys hn

/-- The counter of refused allocations goes up by one, and the answer leaves it (R221). -/
theorem State.reg_allocRefused {s u : State} {c : MqCmd} (n : Nat) (w : PoolWord) (st : Nat)
    (h : Answered c (s.allocRefused n w st) u) : u.reg .poolRefused n = wrapAdd 32 (s.reg .poolRefused n) 1 := by
  have hsub : Obj.poolRefused.key n / 65536 % 256 = 7 := Obj.key_sub .poolRefused n 0 0 (by decide) (by omega)
  have hday : Obj.poolRefused.key n ∉ daybookKeys := fun hk => by
    have := sub_of_mem_daybookKeys hk
    omega
  have hans : Obj.poolRefused.key n ∉ answerKeys c := fun hk => by
    have := sub_of_mem_answerKeys hk
    omega
  calc u.reg .poolRefused n = (s.allocRefused n w st).reg .poolRefused n := h.regs.reg _ _ _ _ hday hans
    _ = (s.bump .poolRefused n).reg .poolRefused n := (s.records_allocRefused n w st).reg _ _ _ _ hday
    _ = wrapAdd 32 (s.reg .poolRefused n) 1 := s.reg_bump .poolRefused n

/-! ### FREE -/

/-- A release ends an allocation and no other (R214). -/
theorem State.alloc_release (s : State) (ptr k : Nat) : (s.release ptr).alloc k =
    if k = ptr then { s.alloc ptr with allocated := false, hold := false, count := 0 } else s.alloc k :=
  ((s.evaluated_release ptr).alloc k).trans (s.alloc_setAlloc _ _ _)

theorem State.within_release (s : State) (ptr : Nat) : Within [.regs, .mem] poolKeys s (s.release ptr) :=
  ⟨((s.touches_setAlloc _ _).mono (by simp)).followed ((s.evaluated_release ptr).touches) (by simp), s.regsBut_release ptr⟩

/-- The allocation of a block loses its hold, and is released when nothing refers to it (R213). -/
def State.freed (s : State) (b : Nat) : State :=
  let t := s.setAlloc b { s.alloc b with hold := false }
  if (s.alloc b).count = 0 then t.release b else t

theorem State.within_freed (s : State) (b : Nat) : Within [.regs, .mem] poolKeys s (s.freed b) := by
  have hset : Within [.regs, .mem] poolKeys s (s.setAlloc b { s.alloc b with hold := false }) :=
    ((s.touches_setAlloc b _).within (by simp) _).mono (by simp) fun _ hk => hk
  simp only [State.freed]
  split
  · exact hset.trans (State.within_release _ b)
  · exact hset

theorem State.alloc_freed (s : State) (b k : Nat) : (s.freed b).alloc k =
    if k = b then { s.alloc b with hold := false, allocated := (s.alloc b).allocated && decide ((s.alloc b).count ≠ 0) }
    else s.alloc k := by
  simp only [State.freed]
  by_cases h : (s.alloc b).count = 0
  · rw [if_pos h, State.alloc_release]
    by_cases hk : k = b
    · simp [hk, State.alloc_setAlloc, h]
    · simp [hk, State.alloc_setAlloc]
  · rw [if_neg h, State.alloc_setAlloc]
    by_cases hk : k = b
    · simp [hk, h]
    · simp [hk]

/-- The allocation that a FREE names is one of its pool, with its class, and not damaged (R213, R444). -/
structure State.Names (s : State) (n : Nat) (w : PoolWord) : Prop where
  allocated : (s.alloc w.index).allocated = true
  cls : (s.alloc w.index).cls = w.cls
  holds : (s.view.pool n).holds w.index (s.alloc w.index).blocks = true
  sound : s.frozen w.index = false

theorem State.doFree_hold {s : State} {n : Nat} {w : PoolWord} (h : s.Names n w) (ho : (s.view.pool n).owner = false)
    (hh : (s.alloc w.index).hold = true) : s.doFree n w = (s.freed w.index, 0, (s.alloc w.index).count) := by
  simp [State.doFree, State.freed, h.allocated, h.cls, h.holds, h.sound, ho, hh]

theorem State.doFree_owner {s : State} {n : Nat} {w : PoolWord} (h : s.Names n w) (ho : (s.view.pool n).owner = true)
    (hw : (s.alloc w.index).owner = w.owner) (hc : (s.alloc w.index).count = 0) :
    s.doFree n w = (s.release w.index, 0, 0) := by
  simp [State.doFree, h.allocated, h.cls, h.holds, h.sound, ho, hw, hc]

/-- A FREE that does its work, whatever the path: its answer, and the end of its cycle. -/
theorem freed_answered {s v : State} {c : MqCmd} {result : Nat} (hs : s.poolStatusOf c = none)
    (h : s.doFree (c.hdr.table % 64) (poolWord (c.body.headD 0)) = (v, 0, result)) (hv : Within [.regs, .mem] poolKeys s v) :
    let u := (runPool State.doFree c s).at ((runPool State.doFree c s).now + 1)
    (∀ j, u.alloc j = v.alloc j) ∧ u.now = s.now + 1 ∧ CommandFrame c [.now, .mem] s u := by
  have ha := State.answered_answer c (reply 0 result) v
  rw [runPool_ok hs h]
  have hmem : (v.answer c (reply 0 result)).mem = v.mem := ha.touches .mem (by simp)
  have hnow : (v.answer c (reply 0 result)).now = s.now := (ha.touches .now (by simp)).trans (hv.touches .now (by simp))
  refine ⟨fun j => ?_, ?_, (ha.commandFrame_of_within (l := [.mem]) hv (hv.touches .arb (by simp))).at_next _⟩
  · exact congrArg (fun m : Mem => sget (fun _ => Alloc.none) m.allocs j) hmem
  · exact (Nat.max_eq_right (Nat.le_succ _)).trans (congrArg (· + 1) hnow)

/-! ### The end of a release's wait -/

/-- The state in which a release has waited for its instructions, its blocks given back (R214). -/
def State.returned (s : State) (r : Releasing) : State :=
  let t := s.at ((r.waits.map s.lastGranule).foldl max 0)
  { t with mem := { t.mem with releasing := t.mem.releasing.filter fun x => x ≠ r } }

theorem releaseWaitEnd_exec {s : State} {b : BitVec 22} {r : Releasing}
    (h : (s.mem.releasing.find? fun x => decide (x.block = b.toNat)) = some r) : exec (.releaseWaitEnd b) s =
      if r.waits.any s.unsent then .next s else .next ((s.returned r).evalMarks r.pool) := by
  have : exec (.releaseWaitEnd b) s = execReleaseWaitEnd b s := rfl
  rw [this, execReleaseWaitEnd, h]
  rfl

theorem State.touches_returned (s : State) (r : Releasing) : Touches [.now, .regs, .mem] s (s.returned r) :=
  ((touches_now s _).mono (by simp)).followed (touches_mem _ _) (by simp)

/-- The last granule of every instruction waited for has gone (R214). -/
theorem State.returned_now (s : State) (r : Releasing) :
    s.now ≤ (s.returned r).now ∧ ∀ id ∈ r.waits, s.lastGranule id ≤ (s.returned r).now := by
  refine ⟨Nat.le_max_left _ _, fun id hid => le_trans ?_ (Nat.le_max_right _ _)⟩
  rw [List.foldl_eq_foldr]
  exact List.le_max_of_le' 0 (List.mem_map_of_mem hid) le_rfl

end Sys2Proof.Machine
end

section
open Sys2Proof Sys2Proof.Machine

/-- Settles O21: a pool command is its work on one allocation record, the marks of its pool and its answer. -/
theorem poolCommands : Obligations.PoolCommands := by
  refine ⟨?_, ?_, ?_⟩
  · intro s s1 c n d w hs
    refine ⟨?_, ?_, ?_⟩
    · intro hst hok b
      have ha := State.answered_answer c (reply 0 b) (s1.allocated n b w)
      have hmem : ((s1.allocated n b w).answer c (reply 0 b)).mem = (s1.allocated n b w).mem := ha.touches .mem (by simp)
      have hv := s1.within_allocated c.pool_lt b w
      refine ⟨_, alloc_exec hst, ?_⟩
      rw [runPool_ok hs (State.doAlloc_ok hok)]
      refine ⟨?_, fun j hj => ?_, ?_, ha.commandFrame_of_within hv (hv.touches .arb (by simp))⟩
      · rw [State.alloc, hmem]
        exact (s1.alloc_allocated n b w b).trans (if_pos rfl)
      · rw [State.alloc, hmem]
        exact (s1.alloc_allocated n b w j).trans (if_neg hj)
      · rw [hmem]
        exact State.releasing_of_unmarked (s := s1.setAlloc b w.taken) (s1.unmarked_allocated n b w)
    · intro st hst hbad _
      have ha := State.answered_refuse c st 0 (s1.allocRefused n w st)
      have hv := s1.within_allocRefused c.pool_lt w st
      refine ⟨_, alloc_exec hst, ?_⟩
      rw [runPool_refused hs (State.doAlloc_refused hbad) (State.allocStatus_ne_zero hbad)]
      exact ⟨(ha.touches .mem (by simp)).trans (hv.touches .mem (by simp)), State.reg_allocRefused n w st ha,
        ha.commandFrame_of_within hv (hv.touches .arb (by simp))⟩
    · intro hst hal hcls hin hfr
      have hnames : s1.Names n w := ⟨hal, hcls, hin, hfr⟩
      refine ⟨fun ho hh => ?_, fun ho hown hc => ?_⟩
      · obtain ⟨halloc, hnow, hframe⟩ := freed_answered hs (State.doFree_hold hnames ho hh) (s1.within_freed w.index)
        refine ⟨_, free_exec hst, ?_, ?_, fun j hj => ?_, hnow, hframe⟩
        · rw [halloc, State.alloc_freed, if_pos rfl]
        · rw [halloc, State.alloc_freed, if_pos rfl, hal, Bool.true_and]
        · rw [halloc, State.alloc_freed, if_neg hj]
      · obtain ⟨halloc, hnow, hframe⟩ := freed_answered hs (State.doFree_owner hnames ho hown hc) (s1.within_release w.index)
        refine ⟨_, free_exec hst, ?_, fun j hj => ?_, hnow, hframe⟩
        · rw [halloc, State.alloc_release, if_pos rfl]
        · rw [halloc, State.alloc_release, if_neg hj]
  · intro s b r hr hw
    have hany : ¬ r.waits.any s.unsent = true := by
      rw [List.any_eq_true]
      rintro ⟨id, hid, hun⟩
      rw [hw id hid] at hun
      cases hun
    have hmarks := State.evaluated_evalMarks (s.returned r) r.pool
    have hmem := State.unmarked_evalMarks (s.returned r) r.pool
    have hnow : ((s.returned r).evalMarks r.pool).now = (s.returned r).now := hmarks.touches .now (by simp)
    have hads : ((s.returned r).evalMarks r.pool).mem.ads = s.mem.ads :=
      State.ads_of_unmarked (s := s.returned r) hmem
    have hcarrel : ((s.returned r).evalMarks r.pool).mem.carrel = s.mem.carrel :=
      State.carrel_of_unmarked (s := s.returned r) hmem
    obtain ⟨hle, hlast⟩ := s.returned_now r
    exact ⟨_, (releaseWaitEnd_exec hr).trans (if_neg hany), State.releasing_of_unmarked hmem, by rw [hnow]; exact hle,
      fun id hid => by rw [hnow]; exact hlast id hid, hmarks.allocs, hads, hcarrel,
      (s.touches_returned r).followed hmarks.touches (by simp)⟩
  · intro s b r hr ⟨id, hid, hun⟩
    rw [releaseWaitEnd_exec hr, if_pos (List.any_eq_true.2 ⟨id, hid, hun⟩)]
end

section
/-! Carrels and pool probes (R209, R233, R234): the word that a write of CAR_DATA stores, what the end of a clear leaves, and
the two probe objects of a context. -/

namespace Sys2Proof.Machine

/-! ### Rows 10 and 11 of R320 -/

/-- A value that no level stands against is refused when it is out of range, and then when it goes to a held die (R209, R233). -/
theorem State.writeCode_range_held {s : State} {m : Master} {o : Obj} {i v : Nat} (w : s.CanWrite m o i) (hty : o.row.ty ≠ .mbx)
    (ho : o ≠ .fwUpdImage) (hv : v < 256 ^ o.row.ty.size) (hf : ∀ l x, fieldDenied o l x v = false) :
    s.writeCode m ⟨o, i, 0⟩ (o.row.ty.bytes v) =
      if s.outOfRange o v = true then Ab.range else if s.onHeldDie m ⟨o, i, 0⟩ v = true then Ab.dieHeld else 0 := by
  have hg : s.writeGrant m ⟨o, i, 0⟩ = 0 := w.grant
  have hval := OType.value_bytes _ _ hv
  have hc : s.valueCode ⟨o, i, 0⟩ (o.row.ty.bytes v) = if s.outOfRange o v = true then Ab.range else 0 := by
    simp only [State.valueCode]
    rw [if_neg hty, if_neg (by simp [ho]), hval]
  have hrange : Ab.range ≠ 0 := by decide
  simp only [State.writeCode, w.served, hg, hc, hval, hf]
  by_cases h : s.outOfRange o v = true <;> simp [h, hrange]

/-! ### Carrel words -/

/-- Words of carrels stand at addresses of their own (R223). -/
theorem carAddress_inj {r j room w : Nat} (hj : j < 65536) (hw : w < 65536) :
    r * 65536 + j = room * 65536 + w ↔ r = room ∧ j = w := by
  omega

/-- The state with a carrel word stored and its mark cleared (R233, R443). -/
def State.storeCar (s : State) (room w : Nat) (x : BitVec 64) : State := (s.setCarWord room w x).cleanse .carrel room w

section
variable (s : State) (room w : Nat) (x : BitVec 64)

theorem State.carWord_storeCar_self : (s.storeCar room w x).carWord room w = x := sget_sput_self _ _ _

theorem State.carWord_storeCar_ne {r j : Nat} (hj : j < 65536) (hw : w < 65536) (h : r ≠ room ∨ j ≠ w) :
    (s.storeCar room w x).carWord r j = s.carWord r j :=
  sget_sput_ne _ _ _ _ fun he => by
    obtain ⟨hr, hjw⟩ := (carAddress_inj hj hw).1 he
    exact h.elim (· hr) (· hjw)

theorem State.rest_storeCar : (s.storeCar room w x).mem.ads = s.mem.ads ∧ (s.storeCar room w x).mem.secure = s.mem.secure :=
  ⟨rfl, rfl⟩

theorem State.touches_storeCar : Touches [.mem, .health] s (s.storeCar room w x) :=
  ((touches_mem s _).mono (by simp)).followed (touches_health _ _) (by simp)

end

/-! ### CAR_DATA and CAR_CLEAR -/

section
variable {s : State} {m : Master} {room : Fin 16}

theorem carData_writeCode {x : BitVec 64} (w : s.CanWrite m .carData room) :
    s.writeCode m ⟨.carData, room, 0⟩ (Obj.carData.row.ty.bytes x.toNat) =
      if s.dieHeld (dieOfWord (s.ownReg m .carAddr room)) = true then Ab.dieHeld else 0 :=
  State.writeCode_range_held w (by decide) (by decide) x.isLt fun _ _ => rfl

theorem carClear_writeCode {v : BitVec 32} (w : s.CanWrite m .carClear room) :
    s.writeCode m ⟨.carClear, room, 0⟩ (Obj.carClear.row.ty.bytes v.toNat) =
      if v.toNat ≠ 1 then Ab.range else if s.anyHeld = true then Ab.dieHeld else 0 :=
  (State.writeCode_range_held w (by decide) (by decide) v.isLt fun _ _ => rfl).trans
    (by by_cases h : v.toNat = 1 <;> cases hd : s.anyHeld <;> simp [State.outOfRange, State.onHeldDie, h, hd])

theorem writes_carData_held {x : BitVec 64} (w : s.CanWrite m .carData room)
    (h : s.dieHeld (dieOfWord (s.ownReg m .carAddr room)) = true) :
    Writes (.carData m room x) s m .carData room Ab.dieHeld s :=
  Writes.of_refused (r := .of m .carData room x.toNat) rfl rfl w rfl ((carData_writeCode w).trans (if_pos h)) (by decide)

theorem writes_carData {x : BitVec 64} (w : s.CanWrite m .carData room)
    (h : s.dieHeld (dieOfWord (s.ownReg m .carAddr room)) = false) :
    Writes (.carData m room x) s m .carData room (s.wrCarData m room x).2 (s.wrCarData m room x).1 := by
  refine Writes.of_performed (r := .of m .carData room x.toNat) rfl rfl w rfl
    ((carData_writeCode w).trans (if_neg (by simp [h]))) ?_
  show s.performWrite m ⟨.carData, room, 0⟩ (Obj.carData.row.ty.bytes x.toNat) = _
  simp only [State.performWrite, State.writeRooms, OType.value_bytes Obj.carData.row.ty x.toNat x.isLt, BitVec.ofNat_toNat,
    BitVec.setWidth_eq]

theorem writes_carClear_range {v : BitVec 32} (w : s.CanWrite m .carClear room) (h : v.toNat ≠ 1) :
    Writes (.carClear m room v) s m .carClear room Ab.range s :=
  Writes.of_refused (r := .of m .carClear room v.toNat) rfl rfl w rfl ((carClear_writeCode w).trans (if_pos h)) (by decide)

theorem writes_carClear_held {v : BitVec 32} (w : s.CanWrite m .carClear room) (hv : v.toNat = 1) (h : s.anyHeld = true) :
    Writes (.carClear m room v) s m .carClear room Ab.dieHeld s :=
  Writes.of_refused (r := .of m .carClear room v.toNat) rfl rfl w rfl
    ((carClear_writeCode w).trans ((if_neg (not_not.2 hv)).trans (if_pos h))) (by decide)

theorem writes_carClear {v : BitVec 32} (w : s.CanWrite m .carClear room) (hv : v.toNat = 1) (h : s.anyHeld = false) :
    Writes (.carClear m room v) s m .carClear room (s.wrCarClear room).2 (s.wrCarClear room).1 := by
  refine Writes.of_performed (r := .of m .carClear room v.toNat) rfl rfl w rfl
    ((carClear_writeCode w).trans ((if_neg (not_not.2 hv)).trans (if_neg (by simp [h])))) ?_
  show s.performWrite m ⟨.carClear, room, 0⟩ (Obj.carClear.row.ty.bytes v.toNat) = _
  simp only [State.performWrite, State.writeRooms]

end

theorem State.touches_setBlock (s : State) (idx : Nat) (b : Block) : Touches [.catalogue] s (s.setBlock idx b) := touches_cat s _ rfl

/-- A clear that begins is under way with no line zeroed, and BUSY is set (R233). -/
theorem State.startClear_spec (s : State) (room : Nat) : ((s.startClear room).block (roomIdx room)).busy = true ∧
    (s.startClear room).mem.clearing = s.mem.clearing ++ [⟨room, s.now, 0, []⟩] ∧
    (s.startClear room).mem.carrel = s.mem.carrel ∧ Touches [.mem, .catalogue] s (s.startClear room) := by
  refine ⟨?_, rfl, rfl, ((s.touches_setBlock _ _).mono (by simp)).followed (touches_mem _ _) (by simp)⟩
  exact congrArg Block.busy (State.block_setBlock s (roomIdx room) { s.block (roomIdx room) with busy := true, sub := 0x26 })

/-! ### The end of a clear -/

/-- A word that a clear has yet to zero: of its room, in a line it has not come to, on a die that is not held (R233). -/
def Clear.owes (c : Clear) (room w : Nat) : Bool := decide (room = c.room ∧ c.lines ≤ w / 32) && !c.held.contains (dieOfWord w)

/-- A clear carried to its last line after the tallies of its start zeroes what it owes, and no other word (R233, R234). -/
theorem State.carWord_clearLines (s : State) (c : Clear) {t : Nat} (ht : c.start + 8192 ≤ t) (hm : s.mem.talliedAt ≤ c.start)
    {room w : Nat} (hw : w < 65536) :
    (s.clearLines c t).carWord room w = if c.owes room w = true then 0 else s.carWord room w := by
  have hn : min 2048 ((t - c.start) / 4) = 2048 := by omega
  have hwon : ∀ r, decide (s.mem.talliedAt = c.cycle r) = false := fun r => decide_eq_false fun he => by
    rw [Clear.cycle] at he
    omega
  have hroom : (room * 65536 + w) / 65536 = room := by omega
  have hword : (room * 65536 + w) % 65536 = w := by omega
  have hrow : w / 32 < 2048 := by omega
  have hdue : (decide (room = c.room ∧ c.lines ≤ w / 32 ∧ w / 32 < 2048) && !c.held.contains (dieOfWord w)) = c.owes room w := by
    simp only [Clear.owes, hrow, and_true]
  simp only [State.clearLines, State.carWord, hwon, Bool.false_and, Bool.or_false]
  rw [sget_filter (fun k => !(decide (k / 65536 = c.room ∧ c.lines ≤ k % 65536 / 32 ∧
    k % 65536 / 32 < min 2048 ((t - c.start) / 4)) && !c.held.contains (dieOfWord (k % 65536)))), hroom, hword, hn, hdue]
  cases c.owes room w <;> rfl

/-- The clears under way keep their rooms (R233). -/
theorem State.rooms_clearLines (s : State) (c : Clear) (t : Nat) :
    (s.clearLines c t).mem.clearing.map (·.room) = s.mem.clearing.map (·.room) := by
  simp only [State.clearLines, List.map_map]
  refine List.map_congr_left fun x _ => ?_
  simp only [Function.comp]
  split <;> rfl

/-- The end of the only clear: it is carried to its last line, taken off the list, and its block says how it ended (R233). -/
def State.clearEnded (s : State) (c : Clear) (room : Nat) : State :=
  let t := s.clearTo (max s.now (c.start + 8192))
  let t := { t with mem := { t.mem with clearing := t.mem.clearing.filter fun x => x.room ≠ room } }
  t.setBlock (roomIdx room) { t.block (roomIdx room) with busy := false, code := if c.held.isEmpty then 0 else Ab.dieHeld }

theorem carClearDone_other {s : State} {room : Fin 16} {c : Clear} (hc : s.mem.clearing = [c]) (h : c.room ≠ room) :
    exec (.carClearDone room) s = .next s := by
  have hexec : exec (.carClearDone room) s = .next (s.endClear room) := rfl
  simp [hexec, State.endClear, hc, h]

theorem carClearDone_exec {s : State} {room : Fin 16} {c : Clear} (hc : s.mem.clearing = [c]) (h : c.room = room) :
    exec (.carClearDone room) s = .next ((s.at (c.start + 8192)).catchUp.clearEnded c room) := by
  have hexec : exec (.carClearDone room) s = .next (s.endClear room) := rfl
  have hfind : (s.mem.clearing.find? fun x => decide (x.room = room.val)) = some c := by simp [hc, h]
  rw [hexec, State.endClear, hfind]
  rfl

theorem State.touches_clearEnded (s : State) (c : Clear) (room : Nat) :
    Touches [.mem, .catalogue, .health, .regs] s (s.clearEnded c room) :=
  (((s.touches_clearTo _).mono (by simp)).followed (touches_mem _ _) (by simp)).followed (State.touches_setBlock _ _ _) (by simp)

theorem State.block_clearEnded (s : State) (c : Clear) (room : Nat) :
    ((s.clearEnded c room).block (roomIdx room)).busy = false ∧
    ((s.clearEnded c room).block (roomIdx room)).code = if c.held = [] then 0 else Ab.dieHeld := by
  simp only [State.clearEnded, State.block_setBlock, List.isEmpty_iff, and_self]

section
variable {s : State} {c : Clear} (h : s.mem.clearing = [c])
include h

theorem State.clearTo_only (t : Nat) : s.clearTo t = s.clearLines c t := by
  rw [State.clearTo, h]
  rfl

theorem State.clearEnded_rest (room : Nat) : (s.clearEnded c room).now = s.now ∧
    (s.clearEnded c room).mem.ads = s.mem.ads ∧ (s.clearEnded c room).mem.secure = s.mem.secure := by
  rw [State.clearEnded, State.clearTo_only h]
  exact ⟨rfl, rfl, rfl⟩

theorem State.clearing_clearEnded {room : Nat} (hr : c.room = room) : (s.clearEnded c room).mem.clearing = [] := by
  have hrun : (s.clearTo (max s.now (c.start + 8192))).mem.clearing.map (·.room) = [room] := by
    rw [State.clearTo_only h, State.rooms_clearLines, h, ← hr]
    rfl
  refine List.filter_eq_nil_iff.2 fun x hx => ?_
  have hmem := List.mem_map_of_mem (f := fun y : Clear => y.room) hx
  rw [hrun] at hmem
  simpa using hmem

theorem State.carWord_clearEnded (hm : s.mem.talliedAt ≤ c.start) (room : Nat) {r w : Nat} (hw : w < 65536) :
    (s.clearEnded c room).carWord r w = if c.owes r w = true then 0 else s.carWord r w := by
  rw [State.clearEnded, State.clearTo_only h]
  exact s.carWord_clearLines c (Nat.le_max_right _ _) hm hw

/-- Every line that the clear had left on dies not held is zero, and every other word is as it was (R233). -/
theorem State.carWords_clearEnded (hm : s.mem.talliedAt ≤ c.start) {room : Nat} (hr : c.room = room) :
    (∀ w, w < 65536 → c.lines ≤ w / 32 → dieOfWord w ∉ c.held → (s.clearEnded c room).carWord room w = 0) ∧
    (∀ r w, w < 65536 → (r ≠ room ∨ w / 32 < c.lines ∨ dieOfWord w ∈ c.held) →
      (s.clearEnded c room).carWord r w = s.carWord r w) := by
  refine ⟨fun w hw hl hd => ?_, fun r w hw hkept => ?_⟩
  · rw [State.carWord_clearEnded h hm room hw, if_pos]
    simp [Clear.owes, hr, hl, hd]
  · rw [State.carWord_clearEnded h hm room hw, if_neg]
    simp only [Clear.owes, hr, Bool.and_eq_true, decide_eq_true_eq, Bool.not_eq_true', List.contains_eq_mem,
      decide_eq_false_iff_not]
    rintro ⟨⟨hroom, hl⟩, hd⟩
    exact hkept.elim (· hroom) fun hk => hk.elim (by omega) hd

end

/-! ### Pool probes -/

/-- Registers of contexts stand at keys of their own (R381). -/
theorem ctxKey_inj {j n k i : Nat} (hk : k < 2 ^ 48) (hi : i < 2 ^ 48) : ctxKey j k = ctxKey n i ↔ j = n ∧ k = i := by
  simp only [ctxKey]
  omega

theorem State.ctxReg_setCtxReg_ne (s : State) {n i : Nat} (v : Nat) {j k : Nat} (hk : k < 2 ^ 48) (hi : i < 2 ^ 48)
    (h : j ≠ n ∨ k ≠ i) : (s.setCtxReg n i v).ctxReg j k = s.ctxReg j k :=
  sget_sput_ne _ _ _ _ fun he => by
    obtain ⟨hjn, hki⟩ := (ctxKey_inj hk hi).1 he
    exact h.elim (· hjn) (· hki)

theorem State.touches_setCtxReg (s : State) (n i v : Nat) : Touches [.catalogue] s (s.setCtxReg n i v) := touches_cat s _ rfl

/-- A context taken or renewed keeps every register of the contexts (R360). -/
theorem State.takeCtx_spec {s u : State} {m : Master} {n : Nat} (h : s.takeCtx m = some (u, n)) :
    Touches [.catalogue] s u ∧ ∀ j k, u.ctxReg j k = s.ctxReg j k := by
  have hmail (c : Nat) (x : Mailbox) : Touches [.catalogue] s (s.setMailbox c x) ∧
      ∀ j k, (s.setMailbox c x).ctxReg j k = s.ctxReg j k := ⟨touches_cat s _ rfl, fun _ _ => rfl⟩
  simp only [State.takeCtx] at h
  split at h
  · obtain ⟨rfl, -⟩ := Prod.mk.inj (Option.some.inj h)
    exact hmail _ _
  · obtain ⟨rfl, -⟩ := Prod.mk.inj (Option.some.inj h)
    exact ⟨Touches.refl _ _, fun _ _ => rfl⟩
  · split at h
    · obtain ⟨rfl, -⟩ := Prod.mk.inj (Option.some.inj h)
      exact hmail _ _
    · cases h

/-- The key of a pool's object. -/
theorem poolKey_lt {o : Obj} (pool : Fin 64) (h : o.row.base = 0x7100) (hstep : o.row.step = 1) (hs : o.row.sub < 256) :
    o.key pool < 2 ^ 48 := by
  have := pool.isLt
  simp only [Obj.key, regKey, Obj.index, h, hstep]
  omega

section
variable {s : State} {m : Master} {pool : Fin 64} {b : BitVec 32}

theorem poolProbeSel_writeCode (w : s.CanWrite m .poolProbeSel pool) :
    s.writeCode m ⟨.poolProbeSel, pool, 0⟩ (Obj.poolProbeSel.row.ty.bytes b.toNat) =
      if 4194304 ≤ b.toNat then Ab.range else if s.dieHeld (dieOfBlock b.toNat) = true then Ab.dieHeld else 0 :=
  (State.writeCode_range_held w (by decide) (by decide) b.isLt fun _ _ => rfl).trans (by
    by_cases h : 4194304 ≤ b.toNat <;> cases hd : s.dieHeld (dieOfBlock b.toNat) <;>
      simp [State.outOfRange, State.onHeldDie, h, hd])

theorem writes_poolProbeSel_range (w : s.CanWrite m .poolProbeSel pool) (h : 4194304 ≤ b.toNat) :
    Writes (.poolProbeSel m pool b) s m .poolProbeSel pool Ab.range s :=
  Writes.of_refused (r := .of m .poolProbeSel pool b.toNat) rfl rfl w rfl ((poolProbeSel_writeCode w).trans (if_pos h)) (by decide)

theorem writes_poolProbeSel_held (w : s.CanWrite m .poolProbeSel pool) (h : b.toNat < 4194304)
    (hd : s.dieHeld (dieOfBlock b.toNat) = true) : Writes (.poolProbeSel m pool b) s m .poolProbeSel pool Ab.dieHeld s :=
  Writes.of_refused (r := .of m .poolProbeSel pool b.toNat) rfl rfl w rfl
    ((poolProbeSel_writeCode w).trans ((if_neg (by omega)).trans (if_pos hd))) (by decide)

theorem writes_poolProbeSel (w : s.CanWrite m .poolProbeSel pool) (h : b.toNat < 4194304)
    (hd : s.dieHeld (dieOfBlock b.toNat) = false) :
    Writes (.poolProbeSel m pool b) s m .poolProbeSel pool (s.wrProbe m pool b.toNat).2 (s.wrProbe m pool b.toNat).1 := by
  refine Writes.of_performed (r := .of m .poolProbeSel pool b.toNat) rfl rfl w rfl
    ((poolProbeSel_writeCode w).trans ((if_neg (by omega)).trans (if_neg (by simp [hd])))) ?_
  show s.performWrite m ⟨.poolProbeSel, pool, 0⟩ (Obj.poolProbeSel.row.ty.bytes b.toNat) = _
  simp only [State.performWrite, State.writeRooms, OType.value_bytes Obj.poolProbeSel.row.ty b.toNat b.isLt]

end

/-- The probe objects of a context take a record (R209). -/
def State.probed (s : State) (n pool block image : Nat) : State :=
  ((s.setCtxReg n (Obj.poolProbeSel.key pool) block).setCtxReg n (Obj.poolProbe.key pool) (image / 65536)).setCtxReg n
    (Obj.poolProbeOwner.key pool) (image % 65536)

/-- The three objects of a probe hold the block and its record, and no other register of a context changes (R209, R381). -/
theorem State.probed_spec (s : State) (n : Nat) (pool : Fin 64) (block image : Nat) :
    (s.probed n pool block image).ctxReg n (Obj.poolProbeSel.key pool) = block ∧
    (s.probed n pool block image).ctxReg n (Obj.poolProbe.key pool) = image / 65536 ∧
    (s.probed n pool block image).ctxReg n (Obj.poolProbeOwner.key pool) = image % 65536 ∧
    (∀ j k, k < 2 ^ 48 → (j ≠ n ∨ k ∉ [Obj.poolProbeSel.key pool, Obj.poolProbe.key pool, Obj.poolProbeOwner.key pool]) →
      (s.probed n pool block image).ctxReg j k = s.ctxReg j k) ∧ Touches [.catalogue] s (s.probed n pool block image) := by
  have hsel := poolKey_lt (o := .poolProbeSel) pool rfl rfl (by decide)
  have hrec := poolKey_lt (o := .poolProbe) pool rfl rfl (by decide)
  have hown := poolKey_lt (o := .poolProbeOwner) pool rfl rfl (by decide)
  have hne1 : Obj.poolProbeSel.key pool ≠ Obj.poolProbe.key pool :=
    Obj.key_ne_of_sub (off := 0) (off' := 0) _ _ (by decide) (by decide) (by decide)
  have hne2 : Obj.poolProbeSel.key pool ≠ Obj.poolProbeOwner.key pool :=
    Obj.key_ne_of_sub (off := 0) (off' := 0) _ _ (by decide) (by decide) (by decide)
  have hne3 : Obj.poolProbe.key pool ≠ Obj.poolProbeOwner.key pool :=
    Obj.key_ne_of_sub (off := 0) (off' := 0) _ _ (by decide) (by decide) (by decide)
  refine ⟨?_, ?_, State.ctxReg_setCtxReg _ _ _ _, fun j k hk h => ?_,
    ((s.touches_setCtxReg _ _ _).trans (State.touches_setCtxReg _ _ _ _)).trans (State.touches_setCtxReg _ _ _ _)⟩
  · rw [State.probed, State.ctxReg_setCtxReg_ne _ _ hsel hown (.inr hne2), State.ctxReg_setCtxReg_ne _ _ hsel hrec (.inr hne1),
      State.ctxReg_setCtxReg]
  · rw [State.probed, State.ctxReg_setCtxReg_ne _ _ hrec hown (.inr hne3), State.ctxReg_setCtxReg]
  · simp only [List.mem_cons, List.not_mem_nil, or_false, not_or] at h
    rw [State.probed, State.ctxReg_setCtxReg_ne _ _ hk hown (h.imp id fun x => x.2.2),
      State.ctxReg_setCtxReg_ne _ _ hk hrec (h.imp id fun x => x.2.1), State.ctxReg_setCtxReg_ne _ _ hk hsel (h.imp id fun x => x.1)]

theorem State.wrProbe_taken {s s1 : State} {m : Master} {n : Nat} (pool block : Nat) (h : s.takeCtx m = some (s1, n)) :
    s.wrProbe m pool block = (s1.probed n pool block (s.alloc block).image, 0) := by
  have hmem : s1.mem = s.mem := (State.takeCtx_spec h).1 .mem (by simp)
  simp only [State.wrProbe, h, State.probed, State.alloc, hmem]

end Sys2Proof.Machine
end

section
open Sys2Proof Sys2Proof.Machine

/-- Settles O37: one word stored, one clear begun or ended, and one record probed, each after the checks of its write. -/
theorem carrelsAndProbes : Obligations.CarrelsAndProbes := by
  refine ⟨⟨?_, ?_, ?_⟩, ?_⟩
  · intro s m room x hw s1 w c
    refine ⟨writes_carData_held hw, fun hd => ⟨fun hbusy => ?_, fun hfree hwon => ?_, fun hfree hlost hlt => ?_⟩⟩
    · have hrun : s.wrCarData m room x = (s1, Ab.cmdBusy) := if_pos hbusy
      simpa only [hrun] using writes_carData (x := x) hw hd
    · have hrun : s.wrCarData m room x = (s1.bump .carSuper room, Ab.superseded) :=
        (if_neg (Bool.eq_false_iff.1 hfree)).trans (if_pos hwon)
      simpa only [hrun] using writes_carData (x := x) hw hd
    · have hrun : s.wrCarData m room x = (s1.storeCar room w x, 0) :=
        (if_neg (Bool.eq_false_iff.1 hfree)).trans (if_neg (Bool.eq_false_iff.1 hlost))
      have hwrites := writes_carData (x := x) hw hd
      rw [hrun] at hwrites
      exact ⟨_, hwrites, s1.carWord_storeCar_self room w x, State.poisoned_cleanse _ _ _ _,
        fun r j hj h => s1.carWord_storeCar_ne room w x hj hlt h, (s1.rest_storeCar room w x).1, (s1.rest_storeCar room w x).2,
        s1.touches_storeCar room w x⟩
  · intro s m room v hw
    refine ⟨writes_carClear_range hw, writes_carClear_held hw, fun hv hd hbusy => ?_, fun hv hd hfree => ?_⟩
    · have hrun : s.wrCarClear room = (s, Ab.cmdBusy) := if_pos hbusy
      simpa only [hrun] using writes_carClear hw hv hd
    · have hrun : s.wrCarClear room = (s.catchUp.startClear room, 0) := if_neg (Bool.eq_false_iff.1 hfree)
      have hwrites := writes_carClear hw hv hd
      rw [hrun] at hwrites
      exact ⟨_, hwrites, s.catchUp.startClear_spec room⟩
  · intro s room c hc
    refine ⟨carClearDone_other hc, fun hroom => ?_⟩
    intro s1 h1 hm
    obtain ⟨hnow, hads, hsecure⟩ := State.clearEnded_rest h1 room
    obtain ⟨hbusy, hcode⟩ := s1.block_clearEnded c room
    obtain ⟨hzero, hkept⟩ := State.carWords_clearEnded h1 hm hroom
    exact ⟨s1.clearEnded c room, carClearDone_exec hc hroom, hnow, State.clearing_clearEnded h1 hroom, hbusy, hcode, hzero,
      hkept, hads, hsecure, s1.touches_clearEnded c room⟩
  · intro s m pool b hw c
    refine ⟨writes_poolProbeSel_range hw, writes_poolProbeSel_held hw, fun hb hd => ⟨fun hnone => ?_, fun s1 n h => ?_⟩⟩
    · have hrun : s.wrProbe m pool b.toNat = (s, Ab.cmdBusy) := by simp only [State.wrProbe, hnone]
      simpa only [hrun] using writes_poolProbeSel hw hb hd
    · have hwrites := writes_poolProbeSel hw hb hd
      rw [State.wrProbe_taken pool b.toNat h] at hwrites
      obtain ⟨htaken, hctx⟩ := State.takeCtx_spec h
      obtain ⟨hsel, hrec, hown, hrest, htouch⟩ := s1.probed_spec n pool b.toNat (s.alloc b.toNat).image
      exact ⟨_, hwrites, hsel, hrec, hown, fun j k hk hjk => (hrest j k hk hjk).trans (hctx j k), htaken.trans htouch⟩
end

section
/-! MEM requests (R227 to R235): the bytes of a word after a write, the bytes of the spaces after a request, and the answers. -/

namespace Sys2Proof.Machine

/-! ### Bytes patched into a word -/

/-- The bytes of a request that fall in word `w` put over the word's own (R227). -/
def MemHdr.patch (h : MemHdr) (payload : List Byte) (w : Nat) (old : List Byte) : List Byte :=
  (h.lanes payload w).foldl (fun l e => l.set e.1 e.2) old

/-- Bytes set in a list keep its length. -/
theorem length_foldl_set {α : Type} (ls : List (Nat × α)) (old : List α) :
    (ls.foldl (fun l e => l.set e.1 e.2) old).length = old.length := by
  induction ls generalizing old with
  | nil => rfl
  | cons e t ih => rw [List.foldl_cons, ih, List.length_set]

theorem MemHdr.length_patch (h : MemHdr) (payload : List Byte) (w : Nat) (old : List Byte) :
    (h.patch payload w old).length = old.length := length_foldl_set _ _

/-- The lanes of some of a request's bytes in a word. -/
def MemHdr.lanesOf (h : MemHdr) (payload : List Byte) (w : Nat) (l : List Nat) : List (Nat × Byte) :=
  l.filterMap fun i => if (h.addr + i) / memWidth h.space = w then some ((h.addr + i) % memWidth h.space, payload.getD i 0) else none

theorem memWidth_pos (space : Nat) : 0 < memWidth space := by
  rw [memWidth]
  split <;> decide

/-- A byte of a word after some of a request's bytes are put over it: the request's, if it names the byte. -/
theorem MemHdr.getD_lanesOf (h : MemHdr) (payload : List Byte) {a w : Nat} (haw : a / memWidth h.space = w) (l : List Nat)
    {old : List Byte} (hl : old.length = memWidth h.space) :
    ((h.lanesOf payload w l).foldl (fun l e => l.set e.1 e.2) old).getD (a % memWidth h.space) 0 =
      if h.addr ≤ a ∧ a - h.addr ∈ l then payload.getD (a - h.addr) 0 else old.getD (a % memWidth h.space) 0 := by
  have hlane : a % memWidth h.space < old.length := by
    rw [hl]
    exact Nat.mod_lt _ (memWidth_pos _)
  induction l generalizing old with
  | nil => simp [MemHdr.lanesOf]
  | cons i t ih =>
    have hsplit : a = h.addr + i ↔ (h.addr + i) / memWidth h.space = w ∧ (h.addr + i) % memWidth h.space = a % memWidth h.space := by
      refine ⟨fun he => he ▸ ⟨haw, rfl⟩, fun ⟨hd, hm⟩ => ?_⟩
      rw [← Nat.div_add_mod a (memWidth h.space), haw, ← hm, ← hd, Nat.div_add_mod]
    by_cases hw : (h.addr + i) / memWidth h.space = w
    · have hset : h.lanesOf payload w (i :: t) = ((h.addr + i) % memWidth h.space, payload.getD i 0) :: h.lanesOf payload w t := by
        simp only [MemHdr.lanesOf, List.filterMap_cons, if_pos hw]
      rw [hset, List.foldl_cons, ih (by rw [List.length_set, hl]) (by rw [List.length_set]; exact hlane)]
      by_cases ha : a = h.addr + i
      · subst ha
        simp [hlane]
      · have hne : (h.addr + i) % memWidth h.space ≠ a % memWidth h.space := fun he => ha (hsplit.2 ⟨hw, he⟩)
        have hi : h.addr ≤ a → a - h.addr ≠ i := by omega
        by_cases hle : h.addr ≤ a
        · simp [hle, hi hle, hne]
        · simp [hle, hne]
    · have hskip : h.lanesOf payload w (i :: t) = h.lanesOf payload w t := by
        simp only [MemHdr.lanesOf, List.filterMap_cons, if_neg hw]
      have hi : h.addr ≤ a → a - h.addr ≠ i := fun hle he => hw (hsplit.1 (by omega)).1
      rw [hskip, ih hl hlane]
      by_cases hle : h.addr ≤ a
      · simp [hle, hi hle]
      · simp [hle]

/-- A byte of a word that a request writes (R227, R230). -/
theorem MemHdr.getD_patch (h : MemHdr) (payload : List Byte) (a : Nat) {old : List Byte} (hl : old.length = memWidth h.space) :
    (h.patch payload (a / memWidth h.space) old).getD (a % memWidth h.space) 0 =
      if h.addr ≤ a ∧ a < h.addr + h.len then payload.getD (a - h.addr) 0 else old.getD (a % memWidth h.space) 0 := by
  have hiff : h.addr ≤ a ∧ a - h.addr ∈ List.range h.len ↔ h.addr ≤ a ∧ a < h.addr + h.len := by
    rw [List.mem_range]
    omega
  rw [← if_congr hiff rfl rfl]
  exact h.getD_lanesOf payload rfl (List.range h.len) hl

/-! ### Words of the spaces -/

theorem State.length_memWord (s : State) (space room w : Nat) : (s.memWord space room w).length = memWidth space := by
  simp only [State.memWord, memWidth]
  split_ifs <;> simp_all

/-- A word of a space follows the memories alone. -/
theorem State.memWord_of_mem {s u : State} (h : u.mem = s.mem) (space room w : Nat) :
    u.memWord space room w = s.memWord space room w := by
  simp only [State.memWord, State.carWord, State.adsBlock, State.secWord, h]

theorem State.memByte_of_mem {s u : State} (h : u.mem = s.mem) (space room a : Nat) :
    u.memByte space room a = s.memByte space room a := by
  rw [State.memByte, State.memByte, State.memWord_of_mem h]

/-- A word that is not a carrel's is the same in every room (R223). -/
theorem State.memWord_room (s : State) {space : Nat} (h : space ≠ 0) (r room w : Nat) :
    s.memWord space r w = s.memWord space room w := by
  simp only [State.memWord, if_neg h]

/-- A number of so many bytes reads back from them. -/
theorem bytesBE_ofNat {n : Nat} {l : List Byte} (hl : l.length = n) (b : Nat) (hb : 256 ^ n = 2 ^ b) :
    bytesBE n (BitVec.ofNat b (ofBytesBE l)).toNat = l := by
  subst hl
  rw [BitVec.toNat_ofNat, Nat.mod_eq_of_lt (hb ▸ ofBytesBE_lt l), bytesBE_ofBytesBE]

theorem State.memWord_setMemWord (s : State) (space room w : Nat) {l : List Byte} (hl : l.length = memWidth space) :
    (s.setMemWord space room w l).memWord space room w = l := by
  rw [memWidth] at hl
  by_cases h0 : space = 0
  · subst h0
    rw [State.memWord, State.setMemWord, if_pos rfl, if_pos rfl, State.carWord_setCarWord]
    exact bytesBE_ofNat hl 64 (by decide)
  by_cases h1 : space = 1
  · subst h1
    have hlow : (s.setMemWord 1 room w l).adsBlock (2 * w) = BitVec.ofNat 128 (ofBytesBE (l.take 16)) :=
      (sget_sput_ne _ _ _ _ (by omega)).trans (sget_sput_self _ _ _)
    have hhigh : (s.setMemWord 1 room w l).adsBlock (2 * w + 1) = BitVec.ofNat 128 (ofBytesBE (l.drop 16)) := sget_sput_self _ _ _
    have hlen : l.length = 32 := hl
    rw [State.memWord, if_neg (by decide), if_pos rfl, hlow, hhigh, bytesBE_ofNat (by simp [hlen]) 128 (by decide),
      bytesBE_ofNat (by simp [hlen]) 128 (by decide), List.take_append_drop]
  · rw [if_neg h1] at hl
    rw [State.memWord, State.setMemWord, if_neg h0, if_neg h1, if_neg h0, if_neg h1]
    have hread : (s.setSecWord w (BitVec.ofNat 64 (ofBytesBE l))).secWord w = BitVec.ofNat 64 (ofBytesBE l) := sget_sput_self _ _ _
    rw [hread]
    exact bytesBE_ofNat hl 64 (by decide)

section
variable (s : State) (room w : Nat)

theorem State.memWord_carrel : s.memWord 0 room w = bytesBE 8 (s.carWord room w).toNat := rfl

theorem State.memWord_ads :
    s.memWord 1 room w = bytesBE 16 (s.adsBlock (2 * w)).toNat ++ bytesBE 16 (s.adsBlock (2 * w + 1)).toNat := rfl

theorem State.memWord_secure : s.memWord 2 room w = bytesBE 8 (s.secWord w).toNat := rfl

end

/-- Every other word is as it was: of another space, of another room's carrel, or another word (R223). -/
theorem State.memWord_setMemWord_ne (s : State) {space room w sp r x : Nat} (l : List Byte) (hspace : space < 3) (hsp : sp < 3)
    (hw : space = 0 → w < 65536) (hx : sp = 0 → x < 65536) (h : sp ≠ space ∨ (sp = 0 ∧ r ≠ room) ∨ x ≠ w) :
    (s.setMemWord space room w l).memWord sp r x = s.memWord sp r x := by
  obtain rfl | rfl | rfl : space = 0 ∨ space = 1 ∨ space = 2 := by omega
  · have hcar (hne : r ≠ room ∨ x ≠ w) (hx : x < 65536) : (s.setMemWord 0 room w l).carWord r x = s.carWord r x :=
      sget_sput_ne _ _ _ _ (by have := hw rfl; omega)
    obtain rfl | rfl | rfl : sp = 0 ∨ sp = 1 ∨ sp = 2 := by omega
    · rw [State.memWord_carrel, State.memWord_carrel, hcar (by tauto) (hx rfl)]
    · rw [State.memWord_ads, State.memWord_ads]; rfl
    · rw [State.memWord_secure, State.memWord_secure]; rfl
  · have hblock (i : Nat) (hi : i ≠ 2 * w) (hj : i ≠ 2 * w + 1) : (s.setMemWord 1 room w l).adsBlock i = s.adsBlock i :=
      (sget_sput_ne _ _ _ _ hj).trans (sget_sput_ne _ _ _ _ hi)
    obtain rfl | rfl | rfl : sp = 0 ∨ sp = 1 ∨ sp = 2 := by omega
    · rw [State.memWord_carrel, State.memWord_carrel]; rfl
    · have hne : x ≠ w := by tauto
      rw [State.memWord_ads, State.memWord_ads, hblock _ (by omega) (by omega), hblock _ (by omega) (by omega)]
    · rw [State.memWord_secure, State.memWord_secure]; rfl
  · have hsec (hne : x ≠ w) : (s.setMemWord 2 room w l).secWord x = s.secWord x := sget_sput_ne _ _ _ _ hne
    obtain rfl | rfl | rfl : sp = 0 ∨ sp = 1 ∨ sp = 2 := by omega
    · rw [State.memWord_carrel, State.memWord_carrel]; rfl
    · rw [State.memWord_ads, State.memWord_ads]; rfl
    · rw [State.memWord_secure, State.memWord_secure, hsec (by tauto)]

/-! ### A WRITE -/

/-- A WRITE changes a byte: the byte is one that it names, and no tally of the cycle reached its carrel word (R230, R234). -/
def State.Takes (s : State) (h : MemHdr) (sp r a : Nat) : Prop :=
  sp = h.space ∧ (sp = 0 → r = h.room) ∧ h.addr ≤ a ∧ a < h.addr + h.len ∧ ¬ (h.space = 0 ∧ s.tallyWon h.room (a / 8) = true)

/-- What a WRITE keeps while it goes through its words. -/
structure Writing (h : MemHdr) (s u : State) : Prop where
  touches : Touches [.mem, .regs, .health] s u
  regs : RegsBut [Obj.carSuper.key h.room] s u
  tallyWon : ∀ room w, u.tallyWon room w = s.tallyWon room w

theorem Writing.refl (h : MemHdr) (s : State) : Writing h s s := ⟨Touches.refl _ _, RegsBut.refl _ _, fun _ _ => rfl⟩

theorem Writing.trans {h : MemHdr} {a b c : State} (x : Writing h a b) (y : Writing h b c) : Writing h a c :=
  ⟨x.touches.trans y.touches, x.regs.trans y.regs, fun r w => (y.tallyWon r w).trans (x.tallyWon r w)⟩

theorem Writing.takes {h : MemHdr} {s u : State} (x : Writing h s u) (sp r a : Nat) : u.Takes h sp r a ↔ s.Takes h sp r a := by
  rw [State.Takes, State.Takes, x.tallyWon]

theorem State.writing_setMemWord (h : MemHdr) (s : State) (w : Nat) (l : List Byte) :
    Writing h s (s.setMemWord h.space h.room w l) := by
  have hmem (m : Mem) (hat : m.talliedAt = s.mem.talliedAt) (ht : m.tallied = s.mem.tallied) : Writing h s { s with mem := m } :=
    ⟨(touches_mem s m).mono (by simp), RegsBut.of_eq _ rfl, fun r x => by simp only [State.tallyWon, hat, ht]⟩
  rw [State.setMemWord]
  split_ifs
  · exact hmem _ rfl rfl
  · exact hmem _ rfl rfl
  · exact hmem _ rfl rfl

theorem State.writing_cleanse (h : MemHdr) (s : State) (k : MemKind) (u i : Nat) : Writing h s (s.cleanse k u i) :=
  ⟨(touches_health s _).mono (by simp), RegsBut.of_eq _ rfl, fun _ _ => rfl⟩

/-- A word with the bytes of a request in it, its mark cleared when the request names all of it (R229, R443). -/
def State.patched (s : State) (h : MemHdr) (payload : List Byte) (w : Nat) : State :=
  let u := s.setMemWord h.space h.room w (h.patch payload w (s.memWord h.space h.room w))
  let n := memName h.space h.room w
  if (h.lanes payload w).length = memWidth h.space then u.cleanse n.kind n.unit n.index else u

theorem State.memWriteWord_eq (s : State) (h : MemHdr) (payload : List Byte) (w : Nat) : s.memWriteWord h payload w =
    if h.space = 0 ∧ s.tallyWon h.room w = true then s.bump .carSuper h.room else s.patched h payload w := by
  simp only [State.memWriteWord, Bool.and_eq_true, decide_eq_true_eq]
  rfl

theorem State.writing_patched (s : State) (h : MemHdr) (payload : List Byte) (w : Nat) : Writing h s (s.patched h payload w) := by
  have hset := State.writing_setMemWord h s w (h.patch payload w (s.memWord h.space h.room w))
  rw [State.patched]
  split
  · exact hset.trans (State.writing_cleanse h _ _ _ _)
  · exact hset

theorem State.writing_memWriteWord (s : State) (h : MemHdr) (payload : List Byte) (w : Nat) :
    Writing h s (s.memWriteWord h payload w) := by
  rw [State.memWriteWord_eq]
  split
  · exact ⟨(touches_setReg s _ _ _ _ _).mono (by simp), regsBut_setReg s _ _ _ _ _, fun _ _ => rfl⟩
  · exact s.writing_patched h payload w

/-- The word of an address below a space's size is a word of that space (R223). -/
theorem div_memWidth_lt {sp a : Nat} (ha : a < memSize sp) (h : sp = 0) : a / memWidth sp < 65536 := by
  subst h
  have hsize : memSize 0 = 524288 := rfl
  have hwidth : memWidth 0 = 8 := rfl
  rw [hsize] at ha
  rw [hwidth]
  omega

theorem State.mem_patched (s : State) (h : MemHdr) (payload : List Byte) (w : Nat) : (s.patched h payload w).mem =
    (s.setMemWord h.space h.room w (h.patch payload w (s.memWord h.space h.room w))).mem := by
  rw [State.patched]
  split <;> rfl

/-- The bytes of the spaces after a word of a WRITE: its bytes in that word are the request's (R230). -/
theorem State.memByte_memWriteWord (s : State) {h : MemHdr} (payload : List Byte) {w : Nat} (hspace : h.space < 3)
    (hw : h.space = 0 → w < 65536) {sp r a : Nat} (hsp : sp < 3) (ha : a < memSize sp) [Decidable (s.Takes h sp r a)] :
    (s.memWriteWord h payload w).memByte sp r a =
      if s.Takes h sp r a ∧ a / memWidth h.space = w then payload.getD (a - h.addr) 0 else s.memByte sp r a := by
  rw [State.memWriteWord_eq]
  by_cases hwon : h.space = 0 ∧ s.tallyWon h.room w = true
  · obtain ⟨h0, htally⟩ := hwon
    rw [if_pos ⟨h0, htally⟩, if_neg]
    · exact State.memByte_of_mem rfl _ _ _
    · rintro ⟨⟨-, -, -, -, hlost⟩, rfl⟩
      rw [h0] at htally
      exact hlost ⟨h0, htally⟩
  rw [if_neg hwon, State.memByte_of_mem (s.mem_patched h payload w)]
  have hlen : (h.patch payload w (s.memWord h.space h.room w)).length = memWidth h.space := by
    rw [MemHdr.length_patch, State.length_memWord]
  by_cases hhere : sp = h.space ∧ (sp = 0 → r = h.room) ∧ a / memWidth h.space = w
  · obtain ⟨rfl, hroom, rfl⟩ := hhere
    have hr (v : State) (x : Nat) : v.memWord h.space r x = v.memWord h.space h.room x := by
      by_cases h0 : h.space = 0
      · rw [hroom h0]
      · exact v.memWord_room h0 _ _ _
    rw [State.memByte, State.memByte, hr, hr, State.memWord_setMemWord _ _ _ _ hlen,
      MemHdr.getD_patch _ _ _ (State.length_memWord _ _ _ _)]
    refine if_congr ⟨fun ⟨hlo, hhi⟩ => ⟨⟨rfl, hroom, hlo, hhi, fun ⟨h0, ht⟩ => hwon ⟨h0, ?_⟩⟩, rfl⟩,
      fun ⟨⟨_, _, hlo, hhi, _⟩, _⟩ => ⟨hlo, hhi⟩⟩ rfl rfl
    rw [h0]
    exact ht
  · rw [if_neg fun ⟨⟨hs, hroom, _⟩, hword⟩ => hhere ⟨hs, hroom, hword⟩, State.memByte, State.memByte,
      State.memWord_setMemWord_ne s _ hspace hsp hw (div_memWidth_lt ha)]
    by_cases hs : sp = h.space
    · subst hs
      tauto
    · exact .inl hs

/-- The bytes of the spaces after some words of a WRITE (R230, R231). -/
theorem State.memBytes_written {h : MemHdr} (payload : List Byte) (hspace : h.space < 3) (l : List Nat)
    (hl : h.space = 0 → ∀ w ∈ l, w < 65536) (s : State) :
    let u := l.foldl (fun s w => s.memWriteWord h payload w) s
    Writing h s u ∧ ∀ sp r a, sp < 3 → a < memSize sp →
      (s.Takes h sp r a → a / memWidth h.space ∈ l → u.memByte sp r a = payload.getD (a - h.addr) 0) ∧
      (¬ (s.Takes h sp r a ∧ a / memWidth h.space ∈ l) → u.memByte sp r a = s.memByte sp r a) := by
  induction l generalizing s with
  | nil => exact ⟨Writing.refl h s, fun _ _ _ _ _ => ⟨fun _ hm => (List.not_mem_nil hm).elim, fun _ => rfl⟩⟩
  | cons w t ih =>
    have h1 := s.writing_memWriteWord h payload w
    obtain ⟨h2, hbytes⟩ := ih (fun h0 x hx => hl h0 x (List.mem_cons_of_mem _ hx)) (s.memWriteWord h payload w)
    refine ⟨h1.trans h2, fun sp r a hsp ha => ?_⟩
    classical
    have hone := s.memByte_memWriteWord payload hspace (fun h0 => hl h0 w List.mem_cons_self) (r := r) hsp ha
    obtain ⟨htaken, hkept⟩ := hbytes sp r a hsp ha
    rw [h1.takes] at htaken hkept
    refine ⟨fun ht hm => ?_, fun hn => ?_⟩
    · by_cases hmt : a / memWidth h.space ∈ t
      · exact htaken ht hmt
      · have hw : a / memWidth h.space = w := (List.mem_cons.1 hm).resolve_right hmt
        exact (hkept fun hk => hmt hk.2).trans (hone.trans (if_pos ⟨ht, hw⟩))
    · have hnt : ¬ (s.Takes h sp r a ∧ a / memWidth h.space ∈ t) := fun hk => hn ⟨hk.1, List.mem_cons_of_mem _ hk.2⟩
      have hnw : ¬ (s.Takes h sp r a ∧ a / memWidth h.space = w) := fun hk => hn ⟨hk.1, List.mem_cons.2 (.inl hk.2)⟩
      exact (hkept hnt).trans (hone.trans (if_neg hnw))

/-! ### The checks -/

/-- A request past its checks names bytes of its space, at least one (R229). -/
theorem State.memStatus_none {s : State} {port : Nat} {f : Frame} (h : s.memStatus port f = none) :
    0 < (memHdr f.hdr).len ∧ (memHdr f.hdr).space < 3 ∧
      (memHdr f.hdr).addr + (memHdr f.hdr).len ≤ memSize (memHdr f.hdr).space := by
  have h4 : (memHdr f.hdr).space < 4 := bits_lt _ 107 106
  simp only [State.memStatus] at h
  split_ifs at h with hacts hform hlen hsize
  all_goals simp only [not_or] at hform
  all_goals omega

/-- The words that a request touches: those of its bytes (R223). -/
theorem MemHdr.mem_words {h : MemHdr} {a : Nat} (hlo : h.addr ≤ a) (hhi : a < h.addr + h.len) : a / memWidth h.space ∈ h.words := by
  simp only [MemHdr.words, List.mem_map, List.mem_range]
  have h1 : h.addr / memWidth h.space ≤ a / memWidth h.space := Nat.div_le_div_right hlo
  have h2 : a / memWidth h.space ≤ (h.addr + h.len - 1) / memWidth h.space := Nat.div_le_div_right (by omega)
  exact ⟨a / memWidth h.space - h.addr / memWidth h.space, by omega, by omega⟩

/-- The carrel words of a request past its checks are words of a carrel (R223). -/
theorem MemHdr.words_lt {h : MemHdr} (hlen : 0 < h.len) (hsize : h.addr + h.len ≤ memSize h.space) (h0 : h.space = 0) :
    ∀ w ∈ h.words, w < 65536 := by
  have hspace : memSize h.space = 524288 := by rw [h0]; rfl
  have hwidth : memWidth h.space = 8 := by rw [h0]; rfl
  simp only [MemHdr.words, List.mem_map, List.mem_range, hwidth]
  rintro w ⟨i, hi, rfl⟩
  omega

/-! ### Answers -/

/-- A port that keeps frames, in whatever else differs, queues the answer behind the frames it has (R262). -/
theorem State.tx1_send1 {s v : State} {p : Nat} (hcore : (v.port p).core = (s.port p).core) (hk : (s.port p).keeps = true)
    (f : Frame) : ((v.send1 p f).port p).tx1 = (s.port p).tx1 ++ [⟨f, .none⟩] := by
  have hkeep : (v.port p).core.keeps = (s.port p).core.keeps := by rw [hcore]
  have htx : (v.port p).core.tx1 = (s.port p).core.tx1 := by rw [hcore]
  have hv : (v.port p).keeps = true := hkeep.trans hk
  rw [State.send1, if_pos hv, State.port_setPort]
  exact congrArg (· ++ _) htx

/-- A request's answer goes, and nothing but records besides (R228, R229). -/
theorem replied {s v : State} {p : Nat} {f : Frame} (r : OnlyRecords s v) :
    (v.send1 p f).mem = s.mem ∧ ((s.port p).keeps = true → ((v.send1 p f).port p).tx1 = (s.port p).tx1 ++ [⟨f, .none⟩]) ∧
    RegsBut [Obj.portTxDiscard.key p] s (v.send1 p f) ∧ Touches [.ports, .regs] s (v.send1 p f) := by
  obtain ⟨hsent, hregs⟩ := v.send1_frame f p .none
  exact ⟨(v.send1_mem p f .none).trans r.mem, fun hk => State.tx1_send1 (r.ports p) hk f, (r.regsBut _).trans hregs,
    (r.touches _).followed hsent (by simp)⟩

/-- A request that fails a check leaves a record of its room and its answer (R229, R323). -/
theorem State.memReject_eq (s : State) (port : Nat) (h : MemHdr) (status : Nat) (hroom : h.room < 16) :
    ∃ v, OnlyRecords s v ∧ s.memReject port h status = v.send1 port (memDone h status 0 []) := by
  rw [State.memReject]
  split
  · exact ⟨_, onlyRecords_record s _ _ _ _ _ fun _ he => Option.some.inj he ▸ hroom, rfl⟩
  · exact ⟨_, onlyRecords_record s _ _ _ _ _ fun _ he => Option.some.inj he ▸ hroom, rfl⟩

/-- A READ of words that are sound, by a port that may see them, answers with their bytes before the tallies of the cycle
(R229, R234). -/
theorem State.memRead_sound {s : State} {port : Nat} {h : MemHdr} {uncorr : List MemWord}
    (hu : uncorr.filter (h.words.map (memName h.space h.room)).contains = [])
    (hp : ∀ w ∈ h.words.map (memName h.space h.room), w ∉ s.health.poison) (hl : h.space = 2 → 3 ≤ s.portLevel port) :
    s.memRead port h uncorr = s.send1 port (memDone h 0 0
      (granulesOf (cdiv h.len 16) ((List.range h.len).map fun i => s.byteBefore h.space h.room (h.addr + i)))) := by
  have hseen : decide (h.space = 2 ∧ s.portLevel port < 3) = false := decide_eq_false fun ⟨h2, hlow⟩ => by
    have := hl h2
    omega
  have hbad : (h.words.filter fun w => s.health.poison.contains (memName h.space h.room w)) = [] :=
    List.filter_eq_nil_iff.2 fun w hw hc => hp _ (List.mem_map_of_mem hw) (List.contains_iff_mem.1 hc)
  have hfound : s.foundAll [] = s := rfl
  simp only [State.memRead, hseen, hu, hfound, Bool.false_eq_true, if_false, hbad]
  rfl

/-! ### The command -/

section
variable {s s1 : State} {port : Fin 32} {f : Frame} {uncorr : List MemWord} (hheld : s.heldFrame port 1 f = false)
  (hfull : s.outFull port = false) (h1 : ((s.takeRx port 1 f).catchUp).clearTo ((s.takeRx port 1 f).catchUp).now = s1)
include hheld hfull h1

theorem mem_rejected {st : Nat} (h : s1.memStatus port f = some st) :
    RunsTo (.mem port f uncorr) s (s1.memReject port (memHdr f.hdr) st) := by
  have hexec : exec (.mem port f uncorr) s = execMem port f uncorr s := rfl
  refine RunsTo.of_done (hexec.trans ?_) (OnlyRecords.refl _)
  simp only [execMem, hheld, hfull, h1, h, Bool.false_eq_true, if_false]

theorem mem_performed (h : s1.memStatus port f = none) : RunsTo (.mem port f uncorr) s
    (if (memHdr f.hdr).op = 0 then s1.memRead port (memHdr f.hdr) uncorr else s1.memWrite port (memHdr f.hdr) f) := by
  have hexec : exec (.mem port f uncorr) s = execMem port f uncorr s := rfl
  refine RunsTo.of_done (hexec.trans ?_) (OnlyRecords.refl _)
  simp only [execMem, hheld, hfull, h1, h, Bool.false_eq_true, if_false]

end

theorem mem_held {s : State} {port : Fin 32} {f : Frame} (uncorr : List MemWord) (h : s.heldFrame port 1 f = true) :
    exec (.mem port f uncorr) s = .next (s.bump .portHeldDrop port) := by
  have hexec : exec (.mem port f uncorr) s = execMem port f uncorr s := rfl
  rw [hexec, execMem, if_pos h]

theorem mem_waits {s : State} {port : Fin 32} {f : Frame} (uncorr : List MemWord) (h : s.heldFrame port 1 f = false)
    (hf : s.outFull port = true) : exec (.mem port f uncorr) s = .next s := by
  have hexec : exec (.mem port f uncorr) s = execMem port f uncorr s := rfl
  rw [hexec, execMem, if_neg (Bool.eq_false_iff.1 h), if_pos hf]

/-- A WRITE past its checks (R230, R231, R234). -/
theorem State.memWrite_spec {s : State} {port : Nat} {f : Frame} (hs : s.memStatus port f = none) :
    let h := memHdr f.hdr
    let u := s.memWrite port h f
    (∀ a, a < memSize h.space → u.memByte h.space h.room a =
      if h.addr ≤ a ∧ a < h.addr + h.len ∧ ¬ (h.space = 0 ∧ s.tallyWon h.room (a / 8) = true)
        then (f.body.flatMap granuleBytes).getD (a - h.addr) 0
      else s.memByte h.space h.room a) ∧
    (∀ sp r a, sp < 3 → r < 16 → a < memSize sp → (sp ≠ h.space ∨ (sp = 0 ∧ r ≠ h.room)) →
      u.memByte sp r a = s.memByte sp r a) ∧
    ((s.port port).keeps = true → (u.port port).tx1 = (s.port port).tx1 ++ [⟨memDone h 0 (s.superMask h) [], .none⟩]) ∧
    RegsBut [Obj.portTxDiscard.key port, Obj.carSuper.key h.room] s u ∧ Touches [.mem, .ports, .regs, .health] s u := by
  intro h u
  obtain ⟨hlen, hspace, hsize⟩ := State.memStatus_none hs
  obtain ⟨hw, hbytes⟩ := State.memBytes_written (f.body.flatMap granuleBytes) hspace h.words (MemHdr.words_lt hlen hsize) s
  have hmem : u.mem = (h.words.foldl (fun s w => s.memWriteWord h (f.body.flatMap granuleBytes) w) s).mem := State.send1_mem _ _ _ _
  obtain ⟨hsent, hregs⟩ := State.send1_frame (h.words.foldl (fun s w => s.memWriteWord h (f.body.flatMap granuleBytes) w) s)
    (memDone h 0 (s.superMask h) []) port .none
  refine ⟨fun a ha => ?_, fun sp r a hsp _ ha hother => ?_, fun hk => State.tx1_send1 (hw.touches .ports (by simp) port) hk _,
    (hw.regs.mono fun _ hk => List.mem_cons_of_mem _ hk).trans (hregs.mono (by simp)),
    (hw.touches.mono (by simp)).trans (hsent.mono (by simp))⟩
  · obtain ⟨htaken, hkept⟩ := hbytes h.space h.room a hspace ha
    rw [State.memByte_of_mem hmem]
    split
    · rename_i hin
      exact htaken ⟨rfl, fun _ => rfl, hin⟩ (MemHdr.mem_words hin.1 hin.2.1)
    · rename_i hout
      exact hkept fun ⟨⟨_, _, hin⟩, _⟩ => hout hin
  · rw [State.memByte_of_mem hmem]
    refine (hbytes sp r a hsp ha).2 fun ⟨⟨hs, hr, _⟩, _⟩ => ?_
    exact hother.elim (· hs) fun ⟨h0, hne⟩ => hne (hr h0)

end Sys2Proof.Machine
end

section
open Sys2Proof Sys2Proof.Machine

/-- Settles O36: a request past its checks reads its bytes, or writes them word by word; the others are answered, wait, or are
counted. -/
theorem memoryRequests : Obligations.MemoryRequests := by
  intro s port f uncorr h s0 s1 c payload names answers
  refine ⟨mem_held uncorr, mem_waits uncorr, fun hheld hfull => ⟨fun st hst => ?_, fun hok hop hu hp hl => ?_, fun hok hop => ?_⟩⟩
  · obtain ⟨v, hv, heq⟩ := s1.memReject_eq port h st (bits_lt _ 111 108)
    obtain ⟨hmem, hanswer, hregs, htouch⟩ := replied (p := port) (f := memDone h st 0 []) hv
    have hrun : RunsTo c s (s1.memReject port h st) := mem_rejected hheld hfull rfl hst
    rw [heq] at hrun
    exact ⟨_, hrun, hmem, hanswer, hregs, htouch⟩
  · have hrun : RunsTo c s _ := mem_performed hheld hfull rfl hok
    rw [if_pos hop, State.memRead_sound hu hp hl] at hrun
    obtain ⟨hmem, hanswer, hregs, htouch⟩ := replied (p := port) (OnlyRecords.refl s1)
    exact ⟨_, hrun, hmem, hanswer, hregs, htouch⟩
  · have hne : h.op ≠ 0 := by omega
    have hrun : RunsTo c s _ := mem_performed hheld hfull rfl hok
    rw [if_neg hne] at hrun
    exact ⟨_, hrun, State.memWrite_spec hok⟩
end

section
/-! Sessions that end (R326, R426, R438): the session that ends is closed, its transfer is aborted, and every other session
stays. -/

namespace Sys2Proof.Machine

/-! ### Aborted transfers -/

/-- The pieces that the end of a session may change: its own state and its transfer, an unfinished firmware image, and the
abort on its way to its master (R326, R335, R417). -/
def sessionPieces : List Piece := [.catalogue, .boot, .bus, .ports, .regs]

theorem State.touches_sendPdu (s : State) (p : Pdu) : Touches sessionPieces s (s.sendPdu p) := by
  simp only [State.sendPdu]
  split
  · exact (touches_bus s _).mono (by simp [sessionPieces])
  · exact (State.send1_frame s (catFrame p) _ .none).1.mono (by simp [sessionPieces])

theorem State.touches_dropTransfer (s : State) (m : Master) : Touches sessionPieces s (s.dropTransfer m) := by
  have hcat : Touches [.catalogue] s { s with cat := { s.cat with transfers := s.cat.transfers.filter fun t => t.master ≠ m } } :=
    touches_cat s _ rfl
  have hkept := hcat.mono (m := sessionPieces) (by simp [sessionPieces])
  simp only [State.dropTransfer]
  split
  · exact hkept.followed (touches_boot _ _) (by simp [sessionPieces])
  · exact hkept

theorem State.touches_abortTransfer (s : State) (m : Master) (code : Nat) : Touches sessionPieces s (s.abortTransfer m code) := by
  simp only [State.abortTransfer]
  split
  · exact Touches.refl _ _
  · exact (s.touches_dropTransfer m).trans (State.touches_sendPdu _ _)

theorem State.sessions_sendPdu (s : State) (p : Pdu) : (s.sendPdu p).cat.sessions = s.cat.sessions := by
  simp only [State.sendPdu, State.send1, State.txDrop]
  repeat' split
  all_goals rfl

theorem State.sessions_abortTransfer (s : State) (m : Master) (code : Nat) :
    (s.abortTransfer m code).cat.sessions = s.cat.sessions := by
  simp only [State.abortTransfer]
  split
  · rfl
  · rw [State.sessions_sendPdu, State.dropTransfer]
    split <;> rfl

/-- An aborted transfer leaves the fuses (R417, R429). -/
theorem State.otp_abortTransfer (s : State) (m : Master) (code : Nat) : (s.abortTransfer m code).boot.otp = s.boot.otp := by
  have hsend (u : State) (p : Pdu) : (u.sendPdu p).boot = u.boot := by
    simp only [State.sendPdu, State.send1, State.txDrop]
    repeat' split
    all_goals rfl
  simp only [State.abortTransfer]
  split
  · rfl
  · rw [hsend, State.dropTransfer]
    split <;> rfl

/-! ### A session that ends -/

theorem State.touches_setSession (s : State) (n : Nat) (x : Session) : Touches [.catalogue] s (s.setSession n x) :=
  touches_cat s _ rfl

theorem State.session_congr {s t : State} (h : t.cat.sessions = s.cat.sessions) (n : Nat) : t.session n = s.session n := by
  rw [State.session, State.session, h]

/-- Records leave every session. -/
theorem OnlyRecords.session {s t : State} (r : OnlyRecords s t) (n : Nat) : t.session n = s.session n :=
  State.session_congr (congrArg (fun c : Cat => c.sessions) r.cat :
    ({ t.cat with regs := [] } : Cat).sessions = ({ s.cat with regs := [] } : Cat).sessions) n

theorem State.endSession_closed {s : State} {n : Nat} (cause : Nat) (h : (s.session n).isOpen = false) :
    s.endSession n cause = s := by
  simp [State.endSession, h]

/-- The session as its end leaves it (R326, R345). -/
def State.closedSession (s : State) (n : Nat) : Session :=
  { Session.none with node := (s.session n).node, proved := (s.session n).proved, askLevel := (s.session n).askLevel,
                      askRoom := (s.session n).askRoom, lastUse := (s.abortTransfer (s.masterOf n) Ab.noSession).now + 1 }

/-- A session with its transfer aborted and its state closed (R326). -/
def State.closeSession (s : State) (n : Nat) : State :=
  (s.abortTransfer (s.masterOf n) Ab.noSession).setSession n (s.closedSession n)

theorem State.endSession_open {s : State} {n : Nat} (cause : Nat) (h : (s.session n).isOpen = true) :
    OnlyRecords (s.closeSession n) (s.endSession n cause) := by
  have he : s.endSession n cause = (s.closeSession n).record .sesEnd none hubArbiter
      [(16, mid (s.masterOf n)), (8, n), (8, cause)] := by
    rw [State.endSession, h]
    rfl
  rw [he]
  exact onlyRecords_record _ _ none _ _ _ nofun

theorem State.touches_endSession (s : State) (n cause : Nat) : Touches sessionPieces s (s.endSession n cause) := by
  cases h : (s.session n).isOpen
  case false => rw [State.endSession_closed cause h]; exact Touches.refl _ _
  case true =>
    exact ((s.touches_abortTransfer _ _).followed (State.touches_setSession _ n _) (by simp [sessionPieces])).of_records
      (State.endSession_open cause h)

theorem State.session_endSession_ne (s : State) {n j : Nat} (cause : Nat) (hj : j ≠ n) :
    (s.endSession n cause).session j = s.session j := by
  cases h : (s.session n).isOpen
  case false => rw [State.endSession_closed cause h]
  case true =>
    rw [(State.endSession_open cause h).session, State.closeSession, State.session_setSession_ne _ _ _ _ hj]
    exact State.session_congr (State.sessions_abortTransfer _ _ _) j

theorem State.isOpen_endSession (s : State) (n cause : Nat) : ((s.endSession n cause).session n).isOpen = false := by
  cases h : (s.session n).isOpen
  case false => rw [State.endSession_closed cause h, h]
  case true =>
    rw [(State.endSession_open cause h).session, State.closeSession, State.session_setSession]
    rfl

theorem State.otp_endSession (s : State) (n cause : Nat) : (s.endSession n cause).boot.otp = s.boot.otp := by
  cases h : (s.session n).isOpen
  case false => rw [State.endSession_closed cause h]
  case true =>
    rw [(State.endSession_open cause h).boot]
    exact s.otp_abortTransfer _ _

/-! ### Every session ends -/

/-- The sessions of a list end, one after the other. -/
def State.endEach (s : State) (cause : Nat) (l : List Nat) : State := l.foldl (fun s n => s.endSession n cause) s

theorem State.endSessions_eq (s : State) (cause : Nat) : s.endSessions cause = s.endEach cause (List.range 48) := by
  simp [State.endSessions, State.endEach]

theorem State.touches_endEach (cause : Nat) (l : List Nat) (s : State) : Touches sessionPieces s (s.endEach cause l) := by
  induction l generalizing s with
  | nil => exact Touches.refl _ _
  | cons n t ih => exact (s.touches_endSession n cause).trans (ih _)

theorem State.otp_endEach (cause : Nat) (l : List Nat) (s : State) : (s.endEach cause l).boot.otp = s.boot.otp := by
  induction l generalizing s with
  | nil => rfl
  | cons n t ih => exact (ih _).trans (s.otp_endSession n cause)

theorem State.isOpen_endEach (cause : Nat) (l : List Nat) (s : State) {n : Nat}
    (h : n ∈ l ∨ (s.session n).isOpen = false) : ((s.endEach cause l).session n).isOpen = false := by
  induction l generalizing s with
  | nil => exact h.resolve_left List.not_mem_nil
  | cons j t ih =>
    refine ih (s.endSession j cause) ?_
    by_cases hn : n = j
    · exact .inr (hn ▸ s.isOpen_endSession j cause)
    · rw [s.session_endSession_ne cause hn]
      exact h.imp_left fun hm => (List.mem_cons.1 hm).resolve_left hn

theorem State.endEach_closed (cause : Nat) (l : List Nat) {s : State} (h : ∀ n ∈ l, (s.session n).isOpen = false) :
    s.endEach cause l = s := by
  induction l with
  | nil => rfl
  | cons n t ih =>
    rw [State.endEach, List.foldl_cons, State.endSession_closed cause (h n List.mem_cons_self)]
    exact ih fun j hj => h j (List.mem_cons_of_mem _ hj)

/-! ### The sessions of a key -/

/-- A new key ends this session: it is open, proved with the key or, when a Keeper key is loaded, opened under the transport key,
and not that of the master that loads it (R426, R438). -/
def State.keyEnds (s : State) (m : Master) (k : Nat) (loaded : Bool) (n : Nat) : Bool :=
  let x := s.session n
  x.isOpen && ((x.proved && x.keyNo = k) || (k = 17 && loaded && x.keyNo = 18)) && s.sessionOf m ≠ some n

theorem State.keyEnds_iff (s : State) (m : Master) (k : Nat) (loaded : Bool) (n : Nat) : s.keyEnds m k loaded n = true ↔
    (s.session n).isOpen = true ∧ (((s.session n).proved = true ∧ (s.session n).keyNo = k) ∨
      (k = 17 ∧ loaded = true ∧ (s.session n).keyNo = 18)) ∧ s.sessionOf m ≠ some n := by
  simp [State.keyEnds, and_assoc]

/-- One session in its turn. -/
def State.keyTurn (m : Master) (k : Nat) (loaded : Bool) (s : State) (n : Nat) : State :=
  if s.keyEnds m k loaded n then s.endSession n 8 else s

theorem State.endKeySessions_eq (s : State) (m : Master) (k : Nat) (loaded : Bool) :
    s.endKeySessions m k loaded = (List.range 48).foldl (State.keyTurn m k loaded) s := rfl

/-- A search that loses candidates, but not the one it found, finds the same. -/
theorem find?_of_imp {α : Type} {p q : α → Bool} (l : List α) (himp : ∀ x ∈ l, q x = true → p x = true)
    (hkeep : ∀ x, l.find? p = some x → q x = true) : l.find? q = l.find? p := by
  induction l with
  | nil => rfl
  | cons x t ih =>
    by_cases hp : p x = true
    · have hx : (x :: t).find? p = some x := List.find?_cons_of_pos hp
      rw [hx, List.find?_cons_of_pos (hkeep x hx)]
    · have hq : ¬ q x = true := fun hq => hp (himp x List.mem_cons_self hq)
      rw [List.find?_cons_of_neg hp] at hkeep
      rw [List.find?_cons_of_neg hp, List.find?_cons_of_neg hq]
      exact ih (fun y hy => himp y (List.mem_cons_of_mem _ hy)) hkeep

/-- A master keeps its session when another one ends (R321). -/
theorem State.sessionOf_endSession {s : State} {m : Master} {n : Nat} (cause : Nat) (h : s.sessionOf m ≠ some n) :
    (s.endSession n cause).sessionOf m = s.sessionOf m := by
  have hsame {j : Nat} (hj : j ≠ n) := s.session_endSession_ne cause hj
  have hshut := s.isOpen_endSession n cause
  cases m with
  | bus node =>
    simp only [State.sessionOf]
    refine find?_of_imp _ (fun x _ hx => ?_) fun x hx => ?_
    · by_cases hxn : x = n
      · rw [hxn, hshut, Bool.false_and] at hx
        cases hx
      · rwa [hsame hxn] at hx
    · have hxn : x ≠ n := fun he => h (hx.trans (congrArg some he))
      rw [hsame hxn]
      exact List.find?_some (p := fun n => (s.session n).isOpen && decide ((s.session n).node = node)) hx
  | port p =>
    by_cases hpn : 16 + p.val = n
    · have hclosed : (s.session (16 + p)).isOpen = false := by
        cases ho : (s.session (16 + p.val)).isOpen
        · rfl
        · exact absurd ((if_pos ho).trans (congrArg some hpn)) h
      rw [State.endSession_closed cause (hpn ▸ hclosed)]
    · simp only [State.sessionOf, hsame hpn]

theorem State.keyTurn_self (s : State) (m : Master) (k : Nat) (loaded : Bool) (n : Nat) :
    (s.keyEnds m k loaded n = true → ((State.keyTurn m k loaded s n).session n).isOpen = false) ∧
    (s.keyEnds m k loaded n = false → (State.keyTurn m k loaded s n).session n = s.session n) := by
  constructor <;> intro h <;> simp only [State.keyTurn, h, if_true, Bool.false_eq_true, if_false]
  exact s.isOpen_endSession n 8

theorem State.keyTurn_others (s : State) (m : Master) (k : Nat) (loaded : Bool) (n : Nat) :
    (State.keyTurn m k loaded s n).sessionOf m = s.sessionOf m ∧
    (∀ j, j ≠ n → (State.keyTurn m k loaded s n).session j = s.session j) ∧
    Touches sessionPieces s (State.keyTurn m k loaded s n) := by
  simp only [State.keyTurn]
  split
  · rename_i h
    have hown : s.sessionOf m ≠ some n := by
      simp only [State.keyEnds, Bool.and_eq_true, decide_eq_true_eq] at h
      exact h.2
    exact ⟨State.sessionOf_endSession 8 hown, fun j hj => s.session_endSession_ne 8 hj, s.touches_endSession n 8⟩
  · exact ⟨rfl, fun _ _ => rfl, Touches.refl _ _⟩

theorem State.keyEnds_congr {s t : State} {m : Master} (k : Nat) (loaded : Bool) {n : Nat} (hown : t.sessionOf m = s.sessionOf m)
    (hn : t.session n = s.session n) : t.keyEnds m k loaded n = s.keyEnds m k loaded n := by
  simp only [State.keyEnds, hown, hn]

/-- Each session of a list has its turn, and ends or stays by what it was before (R426). -/
theorem State.keyTurns (m : Master) (k : Nat) (loaded : Bool) (l : List Nat) (hl : l.Nodup) (s : State) :
    let u := l.foldl (State.keyTurn m k loaded) s
    Touches sessionPieces s u ∧ (∀ n, n ∉ l → u.session n = s.session n) ∧
    ∀ n ∈ l, (s.keyEnds m k loaded n = true → (u.session n).isOpen = false) ∧
      (s.keyEnds m k loaded n = false → u.session n = s.session n) := by
  induction l generalizing s with
  | nil => exact ⟨Touches.refl _ _, fun _ _ => rfl, fun _ h => (List.not_mem_nil h).elim⟩
  | cons j t ih =>
    obtain ⟨hj, ht⟩ := List.nodup_cons.1 hl
    obtain ⟨hown, hothers, htouch⟩ := s.keyTurn_others m k loaded j
    obtain ⟨htouches, hout, hin⟩ := ih ht (State.keyTurn m k loaded s j)
    refine ⟨htouch.trans htouches, fun n hn => ?_, fun n hn => ?_⟩
    · obtain ⟨hnj, hnt⟩ := not_or.1 (fun h => hn (List.mem_cons.2 h))
      exact (hout n hnt).trans (hothers n hnj)
    · by_cases hnj : n = j
      · subst hnj
        rw [List.foldl_cons, hout n hj]
        exact s.keyTurn_self m k loaded n
      · have h := hin n ((List.mem_cons.1 hn).resolve_left hnj)
        rwa [State.keyEnds_congr k loaded hown (hothers n hnj), hothers n hnj] at h

end Sys2Proof.Machine
end

section
/-! Writes of the vault (R348, R424 to R430, R435): its posted write, its keys, and the steps of a life-cycle change. -/

namespace Sys2Proof.Machine

/-! ### Writes that differ by records -/

/-- What the arbiter notes of an access is the same in two states that differ by records (R320, R345). -/
theorem OnlyRecords.outcome {u t : State} (r : OnlyRecords u t) (k : Nat) (m : Master) (code : Nat) (v : List Byte)
    (old : Option Nat) (ran : Bool) : OnlyRecords (u.outcome k m code v old ran) (t.outcome k m code v old ran) := by
  have hcat := r.cat
  have hlast : (t.outcome k m code v old ran).cat.last = (u.outcome k m code v old ran).cat.last := by
    simp only [State.outcome, r.now]
  have hwrites : (t.outcome k m code v old ran).cat.writes = (u.outcome k m code v old ran).cat.writes := by
    have h : t.cat.writes = u.cat.writes := (congrArg (fun c : Cat => c.writes) hcat :
      ({ t.cat with regs := [] } : Cat).writes = ({ u.cat with regs := [] } : Cat).writes)
    simp only [State.outcome, r.now, h]
  have hnoted : ({ (t.outcome k m code v old ran).cat with regs := [] } : Cat) =
      { (u.outcome k m code v old ran).cat with regs := [] } :=
    calc ({ (t.outcome k m code v old ran).cat with regs := [] } : Cat)
      _ = { ({ t.cat with regs := [] } : Cat) with
              last := (u.outcome k m code v old ran).cat.last, writes := (u.outcome k m code v old ran).cat.writes } := by
        rw [← hlast, ← hwrites]
        rfl
      _ = { ({ u.cat with regs := [] } : Cat) with
              last := (u.outcome k m code v old ran).cat.last, writes := (u.outcome k m code v old ran).cat.writes } := by
        rw [hcat]
      _ = { (u.outcome k m code v old ran).cat with regs := [] } := rfl
  exact { r with cat := hnoted }

/-- A write that leaves a state leaves every state from which that one differs by records. -/
theorem Writes.of_records {c : Instr} {s u t : State} {m : Master} {o : Obj} {i code : Nat} (h : Writes c s m o i code t)
    (r : OnlyRecords u t) : Writes c s m o i code u := by
  obtain ⟨old, ran, x, hexec, hx⟩ := h
  exact ⟨old, ran, x, hexec, (r.outcome _ _ _ _ _ _).trans hx⟩

/-! ### The management core -/

/-- The state in which the management core serves a request (R27, R378). -/
def State.served (s : State) : State := s.wakeMgmt.draw

theorem State.records_served (s : State) : OnlyRecords s.draw s.served := onlyRecords_wakeMgmt s.draw

theorem State.byCore_late {s : State} (run : State → State × Nat) (h : Config.freeBool s.free = true) :
    s.byCore run = (s.served, Ab.firmware) := by
  rw [State.byCore]
  exact if_pos h

theorem State.byCore_runs {s : State} (run : State → State × Nat) (h : Config.freeBool s.free = false) :
    s.byCore run = run s.served := by
  rw [State.byCore]
  exact if_neg (Bool.eq_false_iff.1 h)

/-- A request that wakes the core moves the free choices on, and nothing else but records (R27; log 94). -/
theorem State.touches_served (s : State) : Touches [.free] s s.served := (touches_free s _).of_records s.records_served

/-! ### Vault words -/

theorem State.vaon_of_untampered {s : State} (h : s.tamperActive = false) : s.dev.vaon = true := by
  simp only [State.tamperActive, Bool.or_eq_false_iff, Bool.not_eq_false'] at h
  exact h.1

/-- A word written while no enabled cause of tamper is present reads back (R424, R435). -/
theorem State.vaultWord_write {s : State} (h : s.tamperActive = false) (a v j : Nat) :
    (s.setVaultWord a v).vaultWord j = if j = a then v % 4294967296 else s.vaultWord j := by
  simp [State.setVaultWord, State.vaultWord, State.vaon_of_untampered h, h, sget_sput]

theorem State.tamperActive_setVaultWord (s : State) (a v : Nat) : (s.setVaultWord a v).tamperActive = s.tamperActive := by
  simp only [State.setVaultWord]
  split <;> rfl

theorem State.touches_setVaultWord (s : State) (a v : Nat) : Touches [.vault] s (s.setVaultWord a v) := by
  obtain ⟨x, hx⟩ := State.setVaultWord_eq s a v
  rw [hx]
  exact touches_vault s x

/-! ### VAULT_DATA and POSTED_DONE -/

theorem writes_vaultData {s : State} {m : Master} {v : BitVec 32} (w : s.CanWrite m .vaultData 0) :
    Writes (.vaultData m v) s m .vaultData 0 (s.wrVaultData m v.toNat).2 (s.wrVaultData m v.toNat).1 := by
  refine Writes.of_performed (r := .of m .vaultData 0 v.toNat) rfl rfl w rfl
    ((State.writeCode_of_canWrite w (by decide) (by decide) v.isLt (fun _ _ => rfl) rfl).trans rfl) ?_
  show s.performWrite m ⟨.vaultData, 0, 0⟩ (Obj.vaultData.row.ty.bytes v.toNat) = _
  simp only [State.performWrite, State.writeRooms, State.writeDevice, OType.value_bytes Obj.vaultData.row.ty v.toNat v.isLt]

theorem postedDone_vault (s : State) : exec (.postedDone 0xA100) s = .next s.endVaultWrite := rfl

/-- Every room's block ends with its clear (R347). -/
theorem postedDone_room (s : State) (r : Fin 16) :
    exec (.postedDone (BitVec.ofNat 16 (roomIdx r))) s = exec (.carClearDone r) s := by
  have hexec : exec (.postedDone (BitVec.ofNat 16 (roomIdx r))) s = execPostedDone (BitVec.ofNat 16 (roomIdx r)) s := rfl
  have hidx : (BitVec.ofNat 16 (roomIdx r)).toNat = roomIdx r := by
    rw [BitVec.toNat_ofNat, roomIdx]
    omega
  have hother : roomIdx r ≠ vaultIdx := by
    rw [roomIdx, vaultIdx]
    omega
  have hfind : ∀ r : Fin 16, ((List.range 16).find? fun x => decide (roomIdx x = roomIdx r)) = some r.val := by decide
  simp only [hexec, execPostedDone, hidx, if_neg hother, hfind]
  rfl

/-- No other index has a posted write (R347). -/
theorem postedDone_none (s : State) (i : BitVec 16) (hv : i.toNat ≠ 0xA100) (hr : ∀ r, r < 16 → roomIdx r ≠ i.toNat) :
    exec (.postedDone i) s = .next s := by
  have hexec : exec (.postedDone i) s = execPostedDone i s := rfl
  have hfind : ((List.range 16).find? fun x => decide (roomIdx x = i.toNat)) = none :=
    List.find?_eq_none.2 fun x hx => by simpa using hr x (List.mem_range.1 hx)
  simp only [hexec, execPostedDone, if_neg hv, hfind]

/-- The posted write of the vault with no cause of tamper present: the word and the end of the block (R348). -/
theorem State.endVaultWrite_spec {s : State} (hb : (s.block 0xA100).busy = true) (h : s.tamperActive = false) :
    let b := s.block 0xA100
    let u := s.endVaultWrite
    u.vaultWord b.addr = b.value % 4294967296 ∧ (∀ a, a ≠ b.addr → u.vaultWord a = s.vaultWord a) ∧
    u.block 0xA100 = { b with busy := false, code := 0 } ∧ (∀ k, k ≠ 0xA100 → u.block k = s.block k) ∧
    Touches [.vault, .catalogue] s u := by
  intro b u
  have hu : u = (s.setVaultWord b.addr b.value).setBlock 0xA100 { b with busy := false, code := 0 } := by
    simp only [u, State.endVaultWrite, hb, h]
    rfl
  have hword (a : Nat) : u.vaultWord a = if a = b.addr then b.value % 4294967296 else s.vaultWord a := by
    rw [hu]
    exact State.vaultWord_write h b.addr b.value a
  have htouch := s.touches_setVaultWord b.addr b.value
  have hcat : (s.setVaultWord b.addr b.value).cat = s.cat := by
    obtain ⟨x, hx⟩ := State.setVaultWord_eq s b.addr b.value
    rw [hx]
  refine ⟨(hword _).trans (if_pos rfl), fun a ha => (hword a).trans (if_neg ha), ?_, fun k hk => ?_, ?_⟩
  · rw [hu, State.block_setBlock]
  · rw [hu, State.block_setBlock_ne _ _ _ _ hk, State.block, hcat, State.block]
  · rw [hu]
    exact (htouch.mono (by simp)).followed (State.touches_setBlock _ _ _) (by simp)

/-! ### Keys -/

/-- The first `n` words of a key written one after the other (R424). -/
def State.putKeyFirst (s : State) (k : Nat) (key : List Byte) (n : Nat) : State :=
  (List.range n).foldl (fun s i => s.setVaultWord (0x20 + 12 * k + i) (slotWord key i)) s

theorem State.putKeyFirst_succ (s : State) (k : Nat) (key : List Byte) (n : Nat) :
    s.putKeyFirst k key (n + 1) = (s.putKeyFirst k key n).setVaultWord (0x20 + 12 * k + n) (slotWord key n) := by
  simp [State.putKeyFirst, List.range_succ]

theorem State.putKey_eq (s : State) (k : Nat) (key : List Byte) : s.putKey k key = s.putKeyFirst k key 12 := rfl

theorem State.touches_putKeyFirst (s : State) (k : Nat) (key : List Byte) (n : Nat) : Touches [.vault] s (s.putKeyFirst k key n) := by
  induction n with
  | zero => exact Touches.refl _ _
  | succ n ih =>
    rw [State.putKeyFirst_succ]
    exact ih.trans (State.touches_setVaultWord _ _ _)

theorem State.tamperActive_putKeyFirst (s : State) (k : Nat) (key : List Byte) (n : Nat) :
    (s.putKeyFirst k key n).tamperActive = s.tamperActive := by
  induction n with
  | zero => rfl
  | succ n ih => rw [State.putKeyFirst_succ, State.tamperActive_setVaultWord, ih]

/-- The words of a key hold its bytes, and no other word changes (R424). -/
theorem State.vaultWord_putKeyFirst {s : State} (h : s.tamperActive = false) (k : Nat) (key : List Byte) (n : Nat) :
    (∀ i, i < n → (s.putKeyFirst k key n).vaultWord (0x20 + 12 * k + i) = slotWord key i % 4294967296) ∧
    ∀ a, (∀ i, i < n → a ≠ 0x20 + 12 * k + i) → (s.putKeyFirst k key n).vaultWord a = s.vaultWord a := by
  induction n with
  | zero => exact ⟨fun i hi => absurd hi (Nat.not_lt_zero i), fun _ _ => rfl⟩
  | succ n ih =>
    obtain ⟨hin, hout⟩ := ih
    have hlast := State.vaultWord_write ((s.tamperActive_putKeyFirst k key n).trans h) (0x20 + 12 * k + n) (slotWord key n)
    refine ⟨fun i hi => ?_, fun a ha => ?_⟩ <;> rw [State.putKeyFirst_succ, hlast]
    · by_cases hin' : i = n
      · rw [hin', if_pos rfl]
      · rw [if_neg (by omega), hin i (by omega)]
    · rw [if_neg (ha n (Nat.lt_succ_self n)), hout a fun i hi => ha i (by omega)]

/-- A word of a key gives its four bytes (R424). -/
theorem bytesBE_keyWord {key : List Byte} (hl : key.length = 48) {i : Nat} (hi : i < 12) :
    bytesBE 4 (slotWord key i % 4294967296) = (key.drop (4 * i)).take 4 := by
  have hlen : ((key.drop (4 * i)).take 4).length = 4 := by simp [hl]; omega
  have hlt := ofBytesBE_lt ((key.drop (4 * i)).take 4)
  have hback := bytesBE_ofBytesBE ((key.drop (4 * i)).take 4)
  rw [hlen] at hlt hback
  rw [slotWord, Nat.mod_eq_of_lt (by omega), hback]

theorem State.keyBytes_putKey {s : State} (h : s.tamperActive = false) (k : Nat) {key : List Byte} (hl : key.length = 48) :
    (s.putKey k key).keyBytes k = key ∧ ∀ j, j ≠ k → (s.putKey k key).keyBytes j = s.keyBytes j := by
  obtain ⟨hin, hout⟩ := State.vaultWord_putKeyFirst h k key 12
  rw [State.putKey_eq]
  refine ⟨?_, fun j hj => ?_⟩
  · calc (s.putKeyFirst k key 12).keyBytes k = (List.range 12).flatMap fun i => (key.drop (4 * i)).take 4 :=
        List.flatMap_congr fun i hi => by rw [hin i (List.mem_range.1 hi), bytesBE_keyWord hl (List.mem_range.1 hi)]
      _ = key := by rw [flatMap_words, List.take_of_length_le (by omega)]
  · refine List.flatMap_congr fun i hi => ?_
    have hi12 := List.mem_range.1 hi
    rw [hout _ fun x hx => by omega]

/-! ### KEY_LOAD -/

theorem ofBytesLE_append (l : List Byte) (b : Byte) : ofBytesLE (l ++ [b]) = ofBytesLE l + 256 ^ l.length * b.toNat := by
  induction l with
  | nil => simp [ofBytesLE]
  | cons x t ih =>
    simp only [List.cons_append, ofBytesLE, ih, List.length_cons, Nat.pow_succ]
    ring

/-- The first of the 49 bytes of a KEY_LOAD names the key (R426). -/
theorem firstByte_of_value {v : List Byte} (hl : v.length = 49) : ofBytesBE v / 2 ^ 384 = (v.headD 0).toNat := by
  cases v with
  | nil => cases hl
  | cons b t =>
    have ht : t.length = 48 := Nat.succ.inj hl
    have hlt := ofBytesBE_lt t
    rw [ht] at hlt
    have hvalue : ofBytesBE (b :: t) = ofBytesBE t + 256 ^ 48 * b.toNat := by
      rw [ofBytesBE, List.reverse_cons, ofBytesLE_append, List.length_reverse, ht, ofBytesBE]
    have hpow : (2 : Nat) ^ 384 = 256 ^ 48 := by rw [show (256 : Nat) = 2 ^ 8 from rfl, ← Nat.pow_mul]
    rw [hvalue, hpow, Nat.add_mul_div_left _ _ (by positivity), Nat.div_eq_of_lt hlt, Nat.zero_add]
    rfl

section
variable {s : State} {m : Master} {v : List Byte}

/-- The bytes of a KEY_LOAD are those of its value. -/
theorem keyLoad_bytes (hl : v.length = 49) : Obj.keyLoad.row.ty.bytes (ofBytesBE v) = v := by
  have hback := bytesBE_ofBytesBE v
  rwa [hl] at hback

theorem keyLoad_writeCode (w : s.CanWrite m .keyLoad 0) (hl : v.length = 49) :
    s.writeCode m ⟨.keyLoad, 0, 0⟩ v = if 18 ≤ (v.headD 0).toNat then Ab.range else 0 := by
  have hlt : ofBytesBE v < 256 ^ Obj.keyLoad.row.ty.size := by
    have h := ofBytesBE_lt v
    rwa [hl] at h
  have hcode := State.writeCode_range_held w (by decide) (by decide) hlt fun _ _ => rfl
  rw [keyLoad_bytes hl] at hcode
  have hrange : s.outOfRange .keyLoad (ofBytesBE v) = decide (18 ≤ (v.headD 0).toNat) := by
    rw [← firstByte_of_value hl]
    rfl
  rw [hcode, hrange]
  simp [State.onHeldDie]

theorem writes_keyLoad_length (w : s.CanWrite m .keyLoad 0) (hl : v.length ≠ 49) :
    Writes (.keyLoad m v) s m .keyLoad 0 Ab.typeLength s := by
  have hg : s.writeGrant m ⟨.keyLoad, 0, 0⟩ = 0 := w.grant
  have hvalue : s.valueCode ⟨.keyLoad, 0, 0⟩ v = Ab.typeLength := by
    rw [State.valueCode, if_neg (by decide), if_pos (.inl hl)]
  have hcode : s.writeCode m ⟨.keyLoad, 0, 0⟩ v = Ab.typeLength := by
    have hne : Ab.typeLength ≠ 0 := by decide
    simp [State.writeCode, w.served, hg, hvalue, hne]
  exact Writes.of_refused (r := ⟨m, Obj.keyLoad.index 0, Obj.keyLoad.row.sub, v⟩) rfl rfl w rfl hcode (by decide)

theorem writes_keyLoad_range (w : s.CanWrite m .keyLoad 0) (hl : v.length = 49) (hk : 18 ≤ (v.headD 0).toNat) :
    Writes (.keyLoad m v) s m .keyLoad 0 Ab.range s :=
  Writes.of_refused (r := ⟨m, Obj.keyLoad.index 0, Obj.keyLoad.row.sub, v⟩) rfl rfl w rfl
    ((keyLoad_writeCode w hl).trans (if_pos hk)) (by decide)

theorem writes_keyLoad (w : s.CanWrite m .keyLoad 0) (hl : v.length = 49) (hk : (v.headD 0).toNat < 18) {u : State} {code : Nat}
    (hu : s.byCore (·.wrKeyLoad m v) = (u, code)) : Writes (.keyLoad m v) s m .keyLoad 0 code u := by
  refine Writes.of_performed (r := ⟨m, Obj.keyLoad.index 0, Obj.keyLoad.row.sub, v⟩) rfl rfl w rfl
    ((keyLoad_writeCode w hl).trans (if_neg (by omega))) ?_
  have hback := bytesBE_ofBytesBE v
  rw [hl] at hback
  have hvalue : Obj.keyLoad.row.ty.value v = ofBytesBE v := rfl
  show s.performWrite m ⟨.keyLoad, 0, 0⟩ v = _
  simp only [State.performWrite, State.writeRooms, State.writeDevice, hvalue, hback, hu]

end

/-- A key is stored, the sessions that it ends have ended, and the load is recorded (R426, R438). -/
def State.keyStored (s : State) (m : Master) (v : List Byte) : State :=
  (s.putKey (v.headD 0).toNat (v.drop 1)).endKeySessions m (v.headD 0).toNat !((v.drop 1).all (· = 0))

theorem State.wrKeyLoad_stores {s : State} {m : Master} {v : List Byte} (hlife : ¬ (s.lcState = 0 ∨ s.lcState = 4))
    (ht : s.tamperActive = false) : ∃ u, s.wrKeyLoad m v = (u, 0) ∧ OnlyRecords (s.keyStored m v) u := by
  refine ⟨_, ?_, onlyRecords_record (s.keyStored m v) .keyLoaded none srcFw
    [(8, (v.headD 0).toNat), (8, if (v.drop 1).all (· = 0) then 2 else 1)] 0 nofun⟩
  simp only [State.wrKeyLoad, if_neg hlife, ht, Bool.false_eq_true, if_false]
  rfl

/-- What a KEY_LOAD past its checks leaves (R424, R426). -/
theorem State.keyStored_spec {s : State} (m : Master) {v : List Byte} (hl : v.length = 49) (ht : s.tamperActive = false) :
    let k := (v.headD 0).toNat
    let u := s.keyStored m v
    u.keyBytes k = v.drop 1 ∧ (∀ j, j ≠ k → u.keyBytes j = s.keyBytes j) ∧
    (∀ n, n < 48 → (s.keyEnds m k (!((v.drop 1).all (· = 0))) n = true → (u.session n).isOpen = false) ∧
      (s.keyEnds m k (!((v.drop 1).all (· = 0))) n = false → u.session n = s.session n)) ∧
    Touches (.vault :: sessionPieces) s u := by
  intro k u
  obtain ⟨htouch, -, hsessions⟩ := State.keyTurns m k (!((v.drop 1).all (· = 0))) (List.range 48) List.nodup_range
    (s.putKey k (v.drop 1))
  have hput : Touches [.vault] s (s.putKey k (v.drop 1)) := s.touches_putKeyFirst k (v.drop 1) 12
  have hvault : u.vault = (s.putKey k (v.drop 1)).vault := htouch .vault (by simp [sessionPieces])
  have hkey (j : Nat) : u.keyBytes j = (s.putKey k (v.drop 1)).keyBytes j := by
    simp only [State.keyBytes, State.vaultWord, hvault]
  have hsession (n : Nat) : (s.putKey k (v.drop 1)).session n = s.session n :=
    State.session_congr (congrArg (fun c : Cat => c.sessions) (hput .catalogue (by simp)) :
      ({ (s.putKey k (v.drop 1)).cat with regs := [] } : Cat).sessions = ({ s.cat with regs := [] } : Cat).sessions) n
  have hown : (s.putKey k (v.drop 1)).sessionOf m = s.sessionOf m := by
    cases m <;> simp only [State.sessionOf, hsession]
  obtain ⟨hnew, hold⟩ := State.keyBytes_putKey ht k (key := v.drop 1) (by rw [List.length_drop, hl])
  refine ⟨(hkey k).trans hnew, fun j hj => (hkey j).trans (hold j hj), fun n hn => ?_,
    (hput.mono (by simp)).trans (htouch.mono fun p hp => List.mem_cons_of_mem _ hp)⟩
  have h := hsessions n (List.mem_range.2 hn)
  rwa [State.keyEnds_congr k _ hown (hsession n), hsession] at h

/-! ### LC_REQ -/

section
variable {s : State} {m : Master} {v : BitVec 8}

theorem lcReq_writeCode (w : s.CanWrite m .lcReq 0) :
    s.writeCode m ⟨.lcReq, 0, 0⟩ (Obj.lcReq.row.ty.bytes v.toNat) = if 5 ≤ v.toNat then Ab.range else 0 :=
  (State.writeCode_of_canWrite w (by decide) (by decide) v.isLt (fun _ _ => rfl) rfl).trans (by simp [State.outOfRange])

theorem writes_lcReq_range (w : s.CanWrite m .lcReq 0) (h : 5 ≤ v.toNat) : Writes (.lcReq m v) s m .lcReq 0 Ab.range s :=
  Writes.of_refused (r := .of m .lcReq 0 v.toNat) rfl rfl w rfl ((lcReq_writeCode w).trans (if_pos h)) (by decide)

theorem writes_lcReq (w : s.CanWrite m .lcReq 0) (h : v.toNat < 5) {u : State} {code : Nat}
    (hu : s.byCore (·.wrLcReq v.toNat) = (u, code)) : Writes (.lcReq m v) s m .lcReq 0 code u := by
  refine Writes.of_performed (r := .of m .lcReq 0 v.toNat) rfl rfl w rfl ((lcReq_writeCode w).trans (if_neg (by omega))) ?_
  show s.performWrite m ⟨.lcReq, 0, 0⟩ (Obj.lcReq.row.ty.bytes v.toNat) = _
  simp only [State.performWrite, State.writeRooms, State.writeDevice, OType.value_bytes Obj.lcReq.row.ty v.toNat v.isLt, hu]

end

/-- A target that is permitted is one of the five states (R429). -/
theorem lt_of_lcTarget {x t : Nat} (h : (lcTargets x).contains t = true) : t < 5 := by
  simp only [lcTargets] at h
  split_ifs at h <;> simp at h <;> omega

/-- The state that a life-cycle request leaves before its fuses: the vault but its start record and the secure carrel cleared, the
target noted (R430). -/
def State.lcCleared (s : State) (v : Nat) : State :=
  (s.setVault fun x => { x with words := sclear (fun a => 16 ≤ a) x.words, uncorr := x.uncorr.filter (· < 16),
                                debug := x.debug && !(v = 2 || v = 4), lcTarget := some v }).wipeSecure

section
variable {s : State} {v : Nat}

theorem State.wrLcReq_barred (hok : ¬ (lcTargets s.lcState).contains v = true) : s.wrLcReq v = (s, Ab.lcTransition) := by
  simp only [State.wrLcReq, Bool.eq_false_iff.2 hok]
  rfl

theorem State.wrLcReq_tampered (hok : (lcTargets s.lcState).contains v = true) (ht : s.tamperActive = true) :
    s.wrLcReq v = (s, Ab.tamperActive) := by
  simp only [State.wrLcReq, hok, ht]
  rfl

theorem State.wrLcReq_busy (hok : (lcTargets s.lcState).contains v = true) (ht : s.tamperActive = false)
    (hn : s.vault.lcTarget ≠ none) : s.wrLcReq v = (s, Ab.cmdBusy) := by
  simp only [State.wrLcReq, hok, ht, Option.isSome_iff_ne_none.2 hn]
  rfl

theorem State.wrLcReq_clears (hok : (lcTargets s.lcState).contains v = true) (ht : s.tamperActive = false)
    (hn : s.vault.lcTarget = none) : s.wrLcReq v = (s.lcCleared v, 0) := by
  simp only [State.wrLcReq, hok, ht, hn]
  rfl

end

theorem State.vaultWord_lcCleared (s : State) (v a : Nat) : (s.lcCleared v).vaultWord a = if a < 16 then s.vaultWord a else 0 := by
  refine (sget_filter (fun a => !decide (16 ≤ a)) s.vault.words a).trans ?_
  by_cases h : a < 16
  · rw [if_pos h, if_pos (by simpa using h)]
    rfl
  · rw [if_neg h, if_neg (by simpa using h)]

theorem State.touches_wipeSecure (s : State) : Touches [.mem, .health] s s.wipeSecure := by
  have hmem : Touches [.mem] s { s with mem := { s.mem with secure := [] } } := touches_mem s _
  exact (hmem.mono (by simp)).followed (touches_health _ _) (by simp)

theorem State.touches_setVault (s : State) (f : Vault → Vault) : Touches [.vault] s (s.setVault f) := touches_vault s _

theorem State.touches_lcCleared (s : State) (v : Nat) : Touches [.vault, .mem, .health] s (s.lcCleared v) :=
  ((s.touches_setVault _).mono (by simp)).followed (State.touches_wipeSecure _) (by simp)

/-! ### LC_FUSE_DONE -/

/-- The life-cycle change is over, with the state that the fuses show in its vault word (R430). -/
def State.lcSettled (s : State) : State :=
  let t := s.setVault fun x => { x with lcTarget := none }
  t.setVaultWord 0x11 t.lcState

theorem State.lcSettled_eq (s : State) : ∃ x, x.lcTarget = none ∧ s.lcSettled = { s with vault := x } := by
  simp only [State.lcSettled, State.setVaultWord]
  split <;> exact ⟨_, rfl, rfl⟩

/-- With no session open a blown fuse leaves its record (R430). -/
theorem State.recorded_lcChanged {s u : State} (f : List (Nat × Nat)) (hr : u.rings = s.rings) (hn : u.now = s.now)
    (hs : ∀ n, u.session n = s.session n) (ho : s.ringOpen 16) (hclosed : ∀ n, n < 48 → (s.session n).isOpen = false) :
    ((u.endEach 6 (List.range 48)).record .lcChanged none srcFw f).recorded 16 .lcChanged := by
  have hsame : u.endEach 6 (List.range 48) = u := State.endEach_closed 6 _ fun n hm => by
    rw [hs]
    exact hclosed n (List.mem_range.1 hm)
  rw [hsame]
  exact State.recorded_record _ _ _ _ ((State.ringOpen_congr 16 hr hn).2 ho)

theorem lcFuseDone_idle {s : State} (h : s.vault.lcTarget = none) (b : Bool) : exec (.lcFuseDone b) s = .next s := by
  have hexec : exec (.lcFuseDone b) s = execLcFuseDone b s := rfl
  rw [hexec, execLcFuseDone, h]

theorem lcFuseDone_blown {s : State} {t : Nat} (h : s.vault.lcTarget = some t) : exec (.lcFuseDone true) s =
    done ((((s.blow t).lcSettled).endSessions 6).record .lcChanged none srcFw [(8, s.lcState), (8, t)]) := by
  have hexec : exec (.lcFuseDone true) s = execLcFuseDone true s := rfl
  rw [hexec, execLcFuseDone, h]
  rfl

theorem lcFuseDone_failed {s : State} {t : Nat} (h : s.vault.lcTarget = some t) : exec (.lcFuseDone false) s =
    done (s.lcSettled.record .lcFail none srcFw [(8, s.lcState), (8, t)]) := by
  have hexec : exec (.lcFuseDone false) s = execLcFuseDone false s := rfl
  rw [hexec, execLcFuseDone, h]
  rfl

end Sys2Proof.Machine
end

section
open Sys2Proof Sys2Proof.Machine

/-- Settles O56: each write of the vault by the checks that it passes, its effect when it passes them all, and what the
read-back of the fuses shows. -/
theorem vaultCommands : Obligations.VaultCommands := by
  intro s m
  refine ⟨?_, ?_, postedDone_room s, postedDone_none s, ?_, ?_, lcFuseDone_idle, ?_⟩
  · intro v hw a w key
    have hwrites := writes_vaultData (v := v) hw
    refine ⟨fun hb => ?_, fun hb => ⟨fun hin => ?_, fun hout => ⟨fun ht => ?_, fun ht hkey => ?_, fun ht hkey => ?_⟩⟩⟩
    · have hrun : s.wrVaultData m v.toNat = (s, Ab.postedBusy) := if_pos hb
      simpa only [hrun] using hwrites
    · have hrun : s.wrVaultData m v.toNat = (s, Ab.access) := (if_neg (Bool.eq_false_iff.1 hb)).trans (if_pos hin)
      simpa only [hrun] using hwrites
    all_goals have hfree : ¬ (0x10 ≤ a ∧ a ≤ 0xF7) := by omega
    · have hrun : s.wrVaultData m v.toNat = (s, Ab.tamperActive) :=
        (if_neg (Bool.eq_false_iff.1 hb)).trans ((if_neg hfree).trans (if_pos ht))
      simpa only [hrun] using hwrites
    · have hrun : s.wrVaultData m v.toNat = (s, Ab.noFwKey) :=
        (if_neg (Bool.eq_false_iff.1 hb)).trans ((if_neg hfree).trans ((if_neg (Bool.eq_false_iff.1 ht)).trans (if_pos hkey)))
      simpa only [hrun] using hwrites
    · have hrun : s.wrVaultData m v.toNat = (s.setBlock 0xA100
          { s.block 0xA100 with busy := true, sub := 2, value := v.toNat, addr := a }, 0) :=
        (if_neg (Bool.eq_false_iff.1 hb)).trans ((if_neg hfree).trans ((if_neg (Bool.eq_false_iff.1 ht)).trans
          (if_neg (Bool.eq_false_iff.1 hkey))))
      rw [hrun] at hwrites
      refine ⟨_, hwrites, ?_, ?_, ?_, rfl, State.touches_setBlock _ _ _⟩ <;> rw [State.block_setBlock]
  · refine ⟨fun hb => ?_, fun hb ht => ?_, fun hb ht => ⟨_, postedDone_vault s, State.endVaultWrite_spec hb ht⟩⟩ <;>
      rw [postedDone_vault, State.endVaultWrite]
    · simp [hb]
    · simp [hb, ht]
  · intro v hw k w life loaded late
    have hlate (hl : v.length = 49) (hk : k < 18) (h : late = true) :
        Writes (.keyLoad m v) s m .keyLoad 0 Ab.firmware s.served := writes_keyLoad hw hl hk (State.byCore_late _ h)
    have hrun (hl : v.length = 49) (hk : k < 18) (h : late = false) {u : State} {code : Nat}
        (hu : s.served.wrKeyLoad m v = (u, code)) : Writes (.keyLoad m v) s m .keyLoad 0 code u :=
      writes_keyLoad hw hl hk ((State.byCore_runs _ h).trans hu)
    refine ⟨writes_keyLoad_length hw, writes_keyLoad_range hw, fun hl hk h => (hlate hl hk h).of_records s.records_served,
      fun hl hk h hlife => ?_, fun hl hk h hlife ht => ?_, fun hl hk h hlife ht => ?_⟩
    · exact (hrun hl hk h (if_pos hlife)).of_records s.records_served
    · exact (hrun hl hk h ((if_neg hlife).trans (if_pos ht))).of_records s.records_served
    · obtain ⟨u, hu, hrec⟩ := State.wrKeyLoad_stores (s := s.served) (m := m) (v := v) hlife ht
      obtain ⟨hnew, hold, hsessions, htouch⟩ := State.keyStored_spec (s := s.served) m hl ht
      refine ⟨s.served.keyStored m v, (hrun hl hk h hu).of_records hrec, hnew, fun j _ hj => hold j hj, fun n hn => ?_,
        (s.touches_served.mono (by simp)).followed htouch (by simp [sessionPieces])⟩
      obtain ⟨hends, hstays⟩ := hsessions n hn
      have hloaded : (!((v.drop 1).all (· = 0))) = loaded := by simp [loaded, List.not_all_eq_any_not]
      rw [hloaded] at hends hstays
      have hiff := s.served.keyEnds_iff m k loaded n
      exact ⟨fun h => hends (hiff.2 h), fun h => hstays (Bool.eq_false_iff.2 fun he => h (hiff.1 he))⟩
  · intro v hw w ok late
    have hrun (hv : v.toNat < 5) (h : late = false) {u : State} {code : Nat} (hu : s.served.wrLcReq v.toNat = (u, code)) :
        Writes (.lcReq m v) s m .lcReq 0 code u := writes_lcReq hw hv ((State.byCore_runs _ h).trans hu)
    refine ⟨writes_lcReq_range hw, fun hv h => ?_, fun hv h hok => ?_, fun h hok ht => ?_, fun h hok ht hn => ?_,
      fun h hok ht hn => ?_⟩
    · exact (writes_lcReq hw hv (State.byCore_late _ h)).of_records s.records_served
    · exact (hrun hv h (State.wrLcReq_barred (s := s.served) hok)).of_records s.records_served
    · exact (hrun (lt_of_lcTarget hok) h (State.wrLcReq_tampered (s := s.served) hok ht)).of_records s.records_served
    · exact (hrun (lt_of_lcTarget hok) h (State.wrLcReq_busy (s := s.served) hok ht hn)).of_records s.records_served
    · exact ⟨s.served.lcCleared v.toNat, hrun (lt_of_lcTarget hok) h (State.wrLcReq_clears (s := s.served) hok ht hn), rfl,
        s.served.vaultWord_lcCleared v.toNat, rfl, rfl, rfl, rfl,
        (s.touches_served.mono (by simp)).followed (State.touches_lcCleared _ _) (by simp)⟩
  · intro t ht
    refine ⟨?_, ?_⟩
    · obtain ⟨x, hnone, hx⟩ := (s.blow t).lcSettled_eq
      have hexec := lcFuseDone_blown ht
      rw [hx, State.endSessions_eq] at hexec
      have htouch : Touches [.boot, .vault] s { s.blow t with vault := x } :=
        ((touches_boot s _).mono (by simp)).followed (touches_vault (s.blow t) x) (by simp)
      have hended := State.touches_endEach 6 (List.range 48) { s.blow t with vault := x }
      have hrec := onlyRecords_record (({ s.blow t with vault := x } : State).endEach 6 (List.range 48)) .lcChanged none srcFw
        [(8, s.lcState), (8, t)] 0 nofun
      refine ⟨_, RunsTo.of_done hexec (OnlyRecords.refl _), ?_, ?_, fun n hn => ?_,
        State.recorded_lcChanged (s := s) _ rfl rfl fun _ => rfl, ?_⟩
      · rw [hrec.vault, hended .vault (by simp [sessionPieces])]
        exact hnone
      · rw [hrec.boot, State.otp_endEach]
        rfl
      · rw [hrec.session]
        exact State.isOpen_endEach 6 _ _ (.inl (List.mem_range.2 hn))
      · exact ((htouch.mono (by simp)).followed hended (by simp [sessionPieces])).of_records hrec
    · obtain ⟨x, hnone, hx⟩ := s.lcSettled_eq
      have hexec := lcFuseDone_failed ht
      rw [hx] at hexec
      have hrec := onlyRecords_record { s with vault := x } .lcFail none srcFw [(8, s.lcState), (8, t)] 0 nofun
      exact ⟨_, ⟨_, hexec, hrec.trans (onlyRecords_settleFaults _), fun ho => (State.recorded_record _ _ _ _ ho).of_records
        (onlyRecords_settleFaults _)⟩, hnone, rfl, rfl, touches_vault s x⟩
end
